-- ==== Sys2Proof/Word.lean ====
section
/-! DEFINITION. The word and byte of the host address space (R458: every access is one 32-bit word). -/
namespace Sys2Proof

/-- One 32-bit word of the host address space (R458) and of a command packet (R428). -/
abbrev Word := BitVec 32

/-- One byte of a frame, record, packet or image. -/
abbrev Byte := BitVec 8

end Sys2Proof
end

