-- ==== Sys2Proof/Machine/Bits.lean ====
section
/-! DEFINITION. Bit fields, byte order and the cyclic redundancy checks that several chapters share: little-endian
numbers of byte lists, the CRC-32C of R91, the CRC-32 of R481. -/
namespace Sys2Proof.Machine

/-- Bits [lo+w-1:lo] of a number. -/
def bits (v lo w : Nat) : Nat := (v >>> lo) % 2 ^ w

/-- One bit of a number. -/
def bitOf (v i : Nat) : Bool := v.testBit i

/-- A number with bits [lo+w-1:lo] replaced. -/
def setBits (v lo w x : Nat) : Nat := v - (bits v lo w) * 2 ^ lo + (x % 2 ^ w) * 2 ^ lo

/-- 1 or 0. -/
def b2n (b : Bool) : Nat := if b then 1 else 0

/-- The value of a two's complement field of `w` bits. -/
def sext (w v : Nat) : Int := if v % 2 ^ w < 2 ^ (w - 1) then (v % 2 ^ w : Nat) else (v % 2 ^ w : Nat) - (2 ^ w : Nat)

/-- The two's complement code of an integer in `w` bits. -/
def toField (w : Nat) (i : Int) : Nat := (i % (2 ^ w : Nat)).toNat

/-- An integer held between two limits. -/
def clampI (lo hi v : Int) : Int := if v < lo then lo else if v > hi then hi else v

/-- Little-endian number of a byte list. -/
def leNat : List Byte → Nat
  | [] => 0
  | b :: r => b.toNat + 256 * leNat r

/-- The `n` little-endian bytes of a number. -/
def leBytes : Nat → Nat → List Byte
  | 0, _ => []
  | n + 1, v => BitVec.ofNat 8 v :: leBytes n (v / 256)

/-- `n` bytes from byte offset `o`. -/
def slice (l : List Byte) (o n : Nat) : List Byte := (l.drop o).take n

/-- The little-endian number in `n` bytes at offset `o`. -/
def le (l : List Byte) (o n : Nat) : Nat := leNat (slice l o n)

/-- A byte list filled with zero bytes up to `n`. -/
def padTo (n : Nat) (l : List Byte) : List Byte := l ++ List.replicate (n - l.length) 0

/-- The words of a byte list, little-endian, the last one zero-padded. -/
def toWords : Nat → List Byte → List Word
  | 0, _ => []
  | k + 1, l => if l = [] then [] else BitVec.ofNat 32 (le l 0 4) :: toWords k (l.drop 4)

/-- The bytes of a word list, little-endian. -/
def wordBytes (l : List Word) : List Byte := l.flatMap fun w => leBytes 4 w.toNat

/-- Word `i` of a parameter list as a number; 0 beyond its end. -/
def pw (ps : List Word) (i : Nat) : Nat := (ps.getD i 0).toNat

/-- One bit of a reflected CRC. -/
def crcBit (poly c : Nat) : Nat := if c % 2 = 1 then (c / 2) ^^^ poly else c / 2

/-- One byte of a reflected CRC. -/
def crcByte (poly c : Nat) (b : Byte) : Nat :=
  let c := c ^^^ b.toNat
  crcBit poly (crcBit poly (crcBit poly (crcBit poly (crcBit poly (crcBit poly (crcBit poly (crcBit poly c)))))))

/-- CRC-32C of R91: reflected, polynomial 0x1EDC_6F41, initial value and final XOR all ones. -/
def crc32c (l : List Byte) : Nat := (l.foldl (crcByte 0x82F63B78) 0xFFFFFFFF) ^^^ 0xFFFFFFFF

/-- CRC-32 of IEEE 802.3 (R481). -/
def crc32 (l : List Byte) : Nat := (l.foldl (crcByte 0xEDB88320) 0xFFFFFFFF) ^^^ 0xFFFFFFFF

/-- One bit of the CRC-8 of R71, most significant bit first. -/
def crc8Bit (c : Nat) : Nat := if c ≥ 128 then ((c * 2) % 256) ^^^ 7 else c * 2

/-- CRC-8 of R71: polynomial 0x07, initial value 0, no reflection, no final XOR. -/
def crc8 (l : List Byte) : Nat :=
  l.foldl (fun c b => let x := c ^^^ b.toNat
    crc8Bit (crc8Bit (crc8Bit (crc8Bit (crc8Bit (crc8Bit (crc8Bit (crc8Bit x)))))))) 0

/-- The low-to-high list of the set bit numbers of a mask of `n` bits. -/
def maskBits (n v : Nat) : List Nat := (List.range n).filter fun i => bitOf v i

/-- The mask of a list of bit numbers. -/
def ofBits (l : List Nat) : Nat := l.foldl (fun m i => m ||| (1 <<< i)) 0

end Sys2Proof.Machine
end

