-- ==== Sys2Proof/Machine/Fp32.lean ====
section
/-! DEFINITION. The fp32 arithmetic of Table 8-9 (R249): binary32, round to nearest even after every operation, subnormal
inputs and results flushed to zero, infinities replaced by the largest finite value, NaN kept apart. A number is its 32 bits. -/
namespace Sys2Proof.Machine

/-- What an fp32 code stands for once subnormals are flushed and infinities replaced: not a number, or a sign, an
integer mantissa and a power of two. -/
inductive FpV where
  | nan
  | num (neg : Bool) (m : Nat) (e : Int)
deriving DecidableEq, Repr

/-- The NaN code used for a result. -/
def fpNan : Nat := 0x7FC00000
/-- The largest finite magnitude. -/
def fpMax : Nat := 0x7F7FFFFF

/-- Read a code. -/
def fpDec (a : Nat) : FpV :=
  let neg := a.testBit 31
  let e := (a >>> 23) % 256
  let m := a % 2 ^ 23
  if e = 255 then (if m = 0 then .num neg (2 ^ 24 - 1) 104 else .nan)
  else if e = 0 then .num neg 0 0
  else .num neg (2 ^ 23 + m) ((e : Int) - 150)

/-- The sign bit. -/
def fpSign (neg : Bool) : Nat := if neg then 2 ^ 31 else 0

/-- `m / 2^k` rounded to nearest, ties to even. -/
def rneShift (m k : Nat) : Nat :=
  let q := m >>> k
  let r := m % 2 ^ k
  if 2 * r > 2 ^ k ∨ (2 * r = 2 ^ k ∧ q % 2 = 1) then q + 1 else q

/-- `n / d` rounded to nearest, ties to even. -/
def rneDiv (n d : Nat) : Nat :=
  let q := n / d
  let r := n % d
  if 2 * r > d ∨ (2 * r = d ∧ q % 2 = 1) then q + 1 else q

/-- A result and whether it was replaced for overflow (counted in FPEV). -/
structure FpR where
  v : Nat
  ov : Bool := false
deriving DecidableEq, Repr

/-- Round `m × 2^e`, with `sticky` for a non-zero remainder below, to a code: a subnormal result is flushed, an overflow is
replaced by the largest magnitude. -/
def fpRound (neg : Bool) (m : Nat) (e : Int) (sticky : Bool := false) : FpR :=
  if m = 0 then ⟨fpSign neg, false⟩ else
  let m := 4 * m + b2n sticky
  let e := e - 2
  let top : Int := (Nat.log2 m : Int) + e
  let q : Int := max (top - 23) (-149)
  let k := if q ≤ e then m * 2 ^ (e - q).toNat else rneShift m (q - e).toNat
  let (k, q) := if 2 ^ 24 ≤ k then (k / 2, q + 1) else (k, q)
  if k < 2 ^ 23 then ⟨fpSign neg, false⟩
  else if 255 ≤ q + 150 then ⟨fpSign neg + fpMax, true⟩
  else ⟨fpSign neg + (q + 150).toNat * 2 ^ 23 + (k - 2 ^ 23), false⟩

/-- Negation. -/
def fneg (a : Nat) : Nat := a ^^^ 2 ^ 31
/-- Absolute value. -/
def fabs (a : Nat) : Nat := a % 2 ^ 31

/-- Whether a code is a NaN. -/
def fisNan (a : Nat) : Bool := fpDec a = .nan

/-- Sum. -/
def fadd (a b : Nat) : FpR :=
  match fpDec a, fpDec b with
  | .num s m e, .num t n f =>
    let g := min e f
    let x : Int := (if s then -1 else 1) * ((m * 2 ^ (e - g).toNat : Nat) : Int) + (if t then -1 else 1) * ((n * 2 ^ (f - g).toNat : Nat) : Int)
    if x = 0 then ⟨fpSign (s && t), false⟩ else fpRound (decide (x < 0)) x.natAbs g
  | _, _ => ⟨fpNan, false⟩

/-- Difference. -/
def fsub (a b : Nat) : FpR := if fisNan b then ⟨fpNan, false⟩ else fadd a (fneg b)

/-- Product. -/
def fmul (a b : Nat) : FpR :=
  match fpDec a, fpDec b with
  | .num s m e, .num t n f => fpRound (s != t) (m * n) (e + f)
  | _, _ => ⟨fpNan, false⟩

/-- Quotient: 0 / 0 is NaN, anything else over 0 overflows. -/
def fdiv (a b : Nat) : FpR :=
  match fpDec a, fpDec b with
  | .num s m e, .num t n f =>
    if n = 0 then (if m = 0 then ⟨fpNan, false⟩ else ⟨fpSign (s != t) + fpMax, true⟩)
    else
      let x := m * 2 ^ 30
      fpRound (s != t) (x / n) (e - f - 30) (decide (x % n ≠ 0))
  | _, _ => ⟨fpNan, false⟩

/-- Integer square root by bisection over the bits. -/
def isqrt : Nat → Nat → Nat → Nat
  | 0, _, r => r
  | k + 1, n, r => let c := r + 2 ^ k; isqrt k n (if c * c ≤ n then c else r)

/-- Square root: NaN below zero. -/
def fsqrt (a : Nat) : FpR :=
  match fpDec a with
  | .num s m e =>
    if m = 0 then ⟨fpSign s, false⟩ else if s then ⟨fpNan, false⟩ else
    let odd := e % 2 ≠ 0
    let x := (if odd then 2 * m else m) * 2 ^ 30
    let r := isqrt 30 x 0
    fpRound false r ((if odd then e - 1 else e) / 2 - 15) (decide (r * r ≠ x))
  | .nan => ⟨fpNan, false⟩

/-- The nearest code of `n / d × 2^e`. -/
def fScaled (n : Int) (d : Nat) (e : Int) : Nat :=
  let k := 30 + Nat.log2 d
  let x := n.natAbs * 2 ^ k
  (fpRound (decide (n < 0)) (x / d) (e - k) (decide (x % d ≠ 0))).v

/-- The nearest code of a rational `n / d`. -/
def fRat (n : Int) (d : Nat) : Nat := fScaled n d 0

/-- `gain × n / d + ofs`, computed exactly and rounded once. -/
def fLinear (gain ofs : Nat) (n : Int) (d : Nat) : Nat :=
  match fpDec gain, fpDec ofs with
  | .num s m e, .num t p f =>
    let g := min e f
    fScaled ((if s then -1 else 1) * ((m * 2 ^ (e - g).toNat : Nat) : Int) * n + (if t then -1 else 1) * ((p * 2 ^ (f - g).toNat * d : Nat) : Int)) d g
  | _, _ => fpNan

/-- The nearest code of an integer. -/
def fInt (n : Int) : Nat := (fpRound (decide (n < 0)) n.natAbs 0).v

/-- The nearest integer, ties to even; none for NaN. -/
def fToInt (a : Nat) : Option Int :=
  match fpDec a with
  | .nan => none
  | .num s m e =>
    let k : Nat := if 0 ≤ e then m * 2 ^ e.toNat else rneShift m (-e).toNat
    some (if s then -(k : Int) else (k : Int))

/-- The integer below; none for NaN. -/
def fFloor (a : Nat) : Option Int :=
  match fpDec a with
  | .nan => none
  | .num s m e =>
    let x : Int := if s then -(m : Int) else (m : Int)
    some (if 0 ≤ e then x * (2 ^ e.toNat : Nat) else x / ((2 ^ (-e).toNat : Nat) : Int))

/-- Whether `a < b`; false when either is NaN; -0 equals +0. -/
def fLt (a b : Nat) : Bool :=
  match fpDec a, fpDec b with
  | .num s m e, .num t n f =>
    let g := min e f
    let x : Int := (if s then -1 else 1) * ((m * 2 ^ (e - g).toNat : Nat) : Int)
    let y : Int := (if t then -1 else 1) * ((n * 2 ^ (f - g).toNat : Nat) : Int)
    decide (x < y)
  | _, _ => false

/-- Whether `a ≤ b`; false when either is NaN. -/
def fLe (a b : Nat) : Bool := !fisNan a && !fisNan b && !fLt b a

/-- Whether `a = b`; false when either is NaN. -/
def fEq (a b : Nat) : Bool := fLe a b && fLe b a

/-- The larger. -/
def fmax (a b : Nat) : Nat := if fLt a b then b else a
/-- The smaller. -/
def fmin (a b : Nat) : Nat := if fLt b a then b else a

/-- 1.0. -/
def fOne : Nat := 0x3F800000

end Sys2Proof.Machine
end

