-- ==== Sys2Proof/Config.lean ====
section
/-! DEFINITION. What the manual leaves to one part or leaves open: free values, as constants without a body. No proof can
see what they are, so a statement about them holds whatever they are. Each is named in the assumption log. -/
namespace Sys2Proof

/-- What the management messages of a TWIN frame say (R342, R343): a write to a STG field, a mirrored command with the
boundary it applies at, and the sender's state: digests of its image, coefficients and applied configuration, its run state,
its GSV_DEN.EN, for how many frames it has missed the stack master (R375), and how many mirrored messages it has sent so far.
[Log: DESIGN CHOICE 10] -/
inductive Mgt where
  | stg (addr v : Nat)
  | cmd (op : Nat) (ps : List Word) (due : BitVec 32)
  | status (img coef cfg run den miss sent : Nat)
deriving DecidableEq, Repr

namespace Config

/-- The layout of the 16-byte management messages, which the manual does not give (entry 10): what the bytes received say, and those
that begin something not yet whole. [Log: DESIGN CHOICE 10] -/
opaque mgtRead (b : List Byte) : List Mgt × List Byte
/-- The same for what is sent. [Log: DESIGN CHOICE 10] -/
opaque mgtBytes (m : Mgt) : List Byte

/-- Low bytes of the opcodes of the staging group 0x02, which no table of the manual gives (entry 4): 0 STAGE_OPEN,
1 STAGE_APPLY, 2 STAGE_ABORT. [Log: DESIGN CHOICE 4] -/
opaque stageByte (n : Nat) : Byte
/-- The opcode of STAGE_OPEN (Table 15-2 places it in group 0x02). [Log: DESIGN CHOICE 4] -/
def opStageOpen : Nat := 0x0200 + (stageByte 0).toNat
/-- The opcode of STAGE_APPLY. [Log: DESIGN CHOICE 4] -/
def opStageApply : Nat := 0x0200 + (stageByte 1).toNat
/-- The opcode of STAGE_ABORT. [Log: DESIGN CHOICE 4] -/
def opStageAbort : Nat := 0x0200 + (stageByte 2).toNat

/-- The temperature, as an fp32 code, of die sensor `i` at a count: the coefficients trimmed into OTP at test and the form
of the conversion are not given (R283, entry 5). [Log: DESIGN CHOICE 5] -/
opaque dieTemp (i count : Nat) : Nat

/-- Whether the number stored for `n / d`, which is no integer, is the one above it: R211 gives no rounding for what a
check stores (entry 8). [Log: DESIGN CHOICE 8] -/
opaque checkUp (n : Int) (d : Nat) : Bool
/-- What a check stores for a value outside its 16-bit field (R211, entry 8). [Log: DESIGN CHOICE 8] -/
opaque checkOut (v : Int) : Nat

/-- Whether the half nanosecond of an odd BLANK × 2.5 ns is sent as one more ns (R136 gives no rounding, entry 6). [Log: DESIGN CHOICE 6] -/
opaque blankHalf (counts : Nat) : Bool

/-- Whether TRIPk, asserted when last seen, is still asserted at the `n`th time it matters: no command need tell of the release
of the input (entry 9). [Log: DESIGN CHOICE 9] -/
opaque tripHolds (k n : Nat) : Bool

/-- Units in the last place by which the one implementation of sin differs from the nearest code: Table 8-9 bounds it by 2
(entry 7). [Log: DESIGN CHOICE 7] -/
opaque sinUlp (code : Nat) : Int
/-- The same for cos (entry 7). [Log: DESIGN CHOICE 7] -/
opaque cosUlp (code : Nat) : Int
/-- The same for tan, for whose accuracy no bound is stated (R264, entry 7). [Log: DESIGN CHOICE 7] -/
opaque tanUlp (code : Nat) : Int

/-- What `clamp(x, LO, HI)` gives, as a code, where LO lies above HI: no rule states it (entry 14). [Log: DESIGN CHOICE 14] -/
opaque clampCrossed (x lo hi : Nat) : BitVec 32

/-- OTP words 1 to 63 as the part was tested (Table 18-3): sample flag, serial, trims (entry 2). [Log: DESIGN CHOICE 2] -/
opaque otpFactory (word : Nat) : Word
/-- The vendor key hash in the boot ROM (R497, entry 11). [Log: DESIGN CHOICE 11] -/
opaque vendorKeyHash : List Byte
/-- The header of the image that the part is delivered with in slot A (R496, entry 11). [Log: DESIGN CHOICE 11] -/
opaque factoryHeader : List Byte
/-- The internal random bit generator (R495, R500, entry 12). [Log: PRESUMED 12] -/
opaque rbg (n : Nat) : Nat
/-- The level of an input that no command tells of, at a moment: 0 VSENSE_AON above its threshold (Table 19-3), 1 PRES_N
low (Table 18-6), 2 the host clocks a port (Table 19-2) (entry 9). [Log: DESIGN CHOICE 9] -/
opaque inputLevel (which n : Nat) : Bool
/-- The next state of the seal loop's LFSR, whose polynomial the manual does not give (R493, entry 13). [Log: DESIGN CHOICE 13] -/
opaque sealNext (s : BitVec 15) : BitVec 15
/-- The bit that it drives. [Log: DESIGN CHOICE 13] -/
opaque sealBit (s : BitVec 15) : Bool
/-- How the loupe numbers the field of a committed EDG write, of a timebase or of a channel (R506, entry 73). [Log: DESIGN CHOICE 73] -/
opaque loupeField (tb : Bool) (f : Nat) : BitVec 8

end Config

end Sys2Proof
end

