-- ==== Sys2Proof/Machine/Regs.lean ====
section
/-! DEFINITION. The register fields of the block, one definition per field, from the register tables of the chapters
(Tables 1-4, 2-2, 3-7, 4-10, 5-3 to 5-5, 6-2, 7-3 to 7-5, 8-12, 10-3, 10-4, 11-7, 11-8, 12-7, 12-8, 13-5, 14-5, 15-4, 15-5,
17-6, 17-12, 18 and 19): address, lowest bit, width, access code (Table 0-3), apply code (Table 0-4), reset value. -/
namespace Sys2Proof.Machine

/-- Access codes of Table 0-3. -/
inductive Acc where
  | rw | ro | wo | w1c | grd | take
deriving DecidableEq, Repr

/-- Apply codes of Table 0-4. -/
inductive Apply where
  | imm | frm | car | stg
deriving DecidableEq, Repr

/-- One field of one register: the register's base address (not a mirror), lowest bit, width, access and apply codes,
reset value, and whether only a VAON power-on reset restores it. [Log: DESIGN CHOICE 1] -/
structure Fld where
  addr : Nat
  lo : Nat
  width : Nat
  acc : Acc
  app : Apply
  rst : Nat
  aon : Bool
deriving DecidableEq, Repr

/-- The key of a field in the register tables of State. -/
def Fld.key (f : Fld) : Nat := f.addr * 32 + f.lo

/-- Default class of source `n` (Table 14-2); reserved numbers 0 (R380). -/
def fsDefault (n : Nat) : Nat :=
  if n < 2 then 4 else if n < 17 then 3 else if n < 46 then 2 else if n < 48 then 0 else if n < 88 then 1 else 0

/-- Reset routing of source `n` (Table 14-6): default class NOTE or above and not reserved. -/
def fsRouted (n : Nat) : Nat := if n < 88 ∧ n ≠ 46 ∧ n ≠ 47 then 1 else 0

namespace F
def SYS_FRM_LEN : Fld := ⟨0x4100, 0, 17, .rw, .stg, 8000, false⟩
def SYS_FRM_UPL_END : Fld := ⟨0x4104, 0, 17, .rw, .stg, 1600, false⟩
def SYS_FRM_CMP_END : Fld := ⟨0x4108, 0, 17, .rw, .stg, 6000, false⟩
def SYS_FRM_DNL_END : Fld := ⟨0x410c, 0, 17, .rw, .stg, 7600, false⟩
def SYS_FRM_CTRL_RUNNING : Fld := ⟨0x4110, 8, 1, .ro, .imm, 0, false⟩
def SYS_FRM_CTRL_AUTO : Fld := ⟨0x4110, 0, 1, .rw, .stg, 0, false⟩
def SYS_FRM_STAT_WINDOW : Fld := ⟨0x4114, 16, 2, .ro, .imm, 0, false⟩
def SYS_FRM_STAT_SEQ : Fld := ⟨0x4114, 0, 16, .ro, .imm, 0, false⟩
def SYS_MOD_BUS_POLL (k : Nat) : Fld := ⟨0x4200 + k * 4, 16, 8, .rw, .imm, 10, false⟩
def SYS_MOD_BUS_FAST (k : Nat) : Fld := ⟨0x4200 + k * 4, 8, 1, .rw, .imm, 1, false⟩
def SYS_MOD_BUS_MUX_ADDR (k : Nat) : Fld := ⟨0x4200 + k * 4, 0, 7, .rw, .imm, 112, false⟩
def SYS_MCORE_MISMATCH : Fld := ⟨0x4300, 16, 16, .rw, .imm, 0, false⟩
def SYS_MCORE_SINGLE : Fld := ⟨0x4300, 8, 1, .ro, .imm, 0, false⟩
def SYS_MCORE_ROLE : Fld := ⟨0x4300, 0, 6, .ro, .imm, 16, false⟩
def SYS_LRET_EN : Fld := ⟨0x4300 + 4, 16, 1, .rw, .imm, 1, false⟩
def SYS_LRET_WIN : Fld := ⟨0x4300 + 4, 8, 8, .rw, .imm, 60, false⟩
def SYS_LRET_DOWN_TH : Fld := ⟨0x4300 + 4, 0, 8, .rw, .imm, 8, false⟩
def TIM_CTRL_NET_VLAN : Fld := ⟨0x6000, 5, 1, .rw, .imm, 1, false⟩
def TIM_CTRL_NET_TS_EN : Fld := ⟨0x6000, 4, 1, .rw, .imm, 1, false⟩
def TIM_CTRL_HOLD_SEED : Fld := ⟨0x6000, 0, 1, .rw, .imm, 1, false⟩
def TIM_STAT_SKIP : Fld := ⟨0x6004, 16, 8, .rw, .imm, 0, false⟩
def TIM_STAT_INC_REJ : Fld := ⟨0x6004, 10, 1, .w1c, .imm, 0, false⟩
def TIM_STAT_STEPPED : Fld := ⟨0x6004, 9, 1, .w1c, .imm, 0, false⟩
def TIM_STAT_WRAP : Fld := ⟨0x6004, 8, 1, .w1c, .imm, 0, false⟩
def TIM_STAT_TSRC : Fld := ⟨0x6004, 2, 2, .ro, .imm, 0, false⟩
def TIM_STAT_LOCK : Fld := ⟨0x6004, 1, 1, .ro, .imm, 0, false⟩
def TIM_STAT_COARSE : Fld := ⟨0x6004, 0, 1, .ro, .imm, 1, false⟩
def TIM_EPOCH : Fld := ⟨0x6008, 0, 32, .ro, .imm, 0, true⟩
def TIM_OUT_CTRL_PEND (n : Nat) : Fld := ⟨0x6100 + n * 32, 4, 1, .ro, .imm, 0, false⟩
def TIM_OUT_CTRL_REJ (n : Nat) : Fld := ⟨0x6100 + n * 32, 3, 1, .w1c, .imm, 0, false⟩
def TIM_OUT_CTRL_POL (n : Nat) : Fld := ⟨0x6100 + n * 32, 2, 1, .rw, .imm, 0, false⟩
def TIM_OUT_CTRL_MODE (n : Nat) : Fld := ⟨0x6100 + n * 32, 0, 2, .rw, .imm, 0, false⟩
def TIM_OUT_TGT_LO (n : Nat) : Fld := ⟨0x6100 + n * 32 + 4, 0, 32, .rw, .imm, 0, false⟩
def TIM_OUT_TGT_HI (n : Nat) : Fld := ⟨0x6100 + n * 32 + 8, 0, 32, .rw, .imm, 0, false⟩
def TIM_OUT_PER_LO (n : Nat) : Fld := ⟨0x6100 + n * 32 + 12, 0, 32, .rw, .imm, 0, false⟩
def TIM_OUT_PER_HI (n : Nat) : Fld := ⟨0x6100 + n * 32 + 16, 0, 16, .rw, .imm, 0, false⟩
def TIM_OUT_WIDTH (n : Nat) : Fld := ⟨0x6100 + n * 32 + 20, 0, 32, .rw, .imm, 0, false⟩
def TIM_CAP_CTRL_ACQ_TRIG (n : Nat) : Fld := ⟨0x6200 + n * 16, 16, 1, .rw, .imm, 0, false⟩
def TIM_CAP_CTRL_FILT (n : Nat) : Fld := ⟨0x6200 + n * 16, 8, 4, .rw, .imm, 0, false⟩
def TIM_CAP_CTRL_EDGE (n : Nat) : Fld := ⟨0x6200 + n * 16, 0, 2, .rw, .imm, 0, false⟩
def TIM_CAP_STAT_OVF (n : Nat) : Fld := ⟨0x6200 + n * 16 + 4, 8, 8, .rw, .imm, 0, false⟩
def TIM_CAP_STAT_LEVEL (n : Nat) : Fld := ⟨0x6200 + n * 16 + 4, 0, 4, .ro, .imm, 0, false⟩
def LANE_CTRL_SPARE_FOR (n : Nat) : Fld := ⟨0x20000 + n * 4096, 24, 5, .rw, .stg, 0, false⟩
def LANE_CTRL_MAX_RATE (n : Nat) : Fld := ⟨0x20000 + n * 4096, 12, 2, .rw, .stg, 3, false⟩
def LANE_CTRL_END (n : Nat) : Fld := ⟨0x20000 + n * 4096, 8, 1, .rw, .stg, 0, false⟩
def LANE_CTRL_STR (n : Nat) : Fld := ⟨0x20000 + n * 4096, 4, 4, .rw, .stg, 0, false⟩
def LANE_CTRL_ROLE (n : Nat) : Fld := ⟨0x20000 + n * 4096, 0, 3, .rw, .stg, 0, false⟩
def LANE_STAT_LOL_SEEN (n : Nat) : Fld := ⟨0x20000 + n * 4096 + 4, 25, 1, .w1c, .imm, 0, false⟩
def LANE_STAT_LOS_SEEN (n : Nat) : Fld := ⟨0x20000 + n * 4096 + 4, 24, 1, .w1c, .imm, 0, false⟩
def LANE_STAT_RATES (n : Nat) : Fld := ⟨0x20000 + n * 4096 + 4, 16, 4, .ro, .imm, 0, false⟩
def LANE_STAT_HOPS (n : Nat) : Fld := ⟨0x20000 + n * 4096 + 4, 8, 8, .ro, .imm, 0, false⟩
def LANE_STAT_TEST (n : Nat) : Fld := ⟨0x20000 + n * 4096 + 4, 7, 1, .ro, .imm, 0, false⟩
def LANE_STAT_PHASE (n : Nat) : Fld := ⟨0x20000 + n * 4096 + 4, 5, 2, .ro, .imm, 0, false⟩
def LANE_STAT_LOL (n : Nat) : Fld := ⟨0x20000 + n * 4096 + 4, 4, 1, .ro, .imm, 1, false⟩
def LANE_STAT_LOS (n : Nat) : Fld := ⟨0x20000 + n * 4096 + 4, 3, 1, .ro, .imm, 1, false⟩
def LANE_STAT_RATE (n : Nat) : Fld := ⟨0x20000 + n * 4096 + 4, 0, 2, .ro, .imm, 0, false⟩
def LANE_BRING_ERR_LIM (n : Nat) : Fld := ⟨0x20000 + n * 4096 + 8, 16, 8, .rw, .imm, 0, false⟩
def LANE_BRING_DWELL (n : Nat) : Fld := ⟨0x20000 + n * 4096 + 8, 0, 16, .rw, .imm, 100, false⟩
def LANE_ERR_DOWN_CNT (n : Nat) : Fld := ⟨0x20000 + n * 4096 + 12, 16, 16, .rw, .imm, 0, false⟩
def LANE_ERR_REJOIN_FAIL (n : Nat) : Fld := ⟨0x20000 + n * 4096 + 12, 8, 8, .rw, .imm, 0, false⟩
def LANE_ERR_DWELL_ERR (n : Nat) : Fld := ⟨0x20000 + n * 4096 + 12, 0, 8, .ro, .imm, 0, false⟩
def LANE_ASYM (n : Nat) : Fld := ⟨0x20000 + n * 4096 + 16, 0, 16, .rw, .frm, 0, false⟩
def LANE_NET_TXD (n : Nat) : Fld := ⟨0x20000 + n * 4096 + 20, 0, 16, .rw, .imm, 0, false⟩
def LANE_NET_RXD (n : Nat) : Fld := ⟨0x20000 + n * 4096 + 24, 0, 16, .rw, .imm, 0, false⟩
def LANE_DLY (n : Nat) : Fld := ⟨0x20000 + n * 4096 + 28, 0, 24, .ro, .imm, 0, false⟩
def LANE_LOS_HYST (n : Nat) : Fld := ⟨0x20000 + n * 4096 + 32, 8, 8, .rw, .imm, 20, false⟩
def LANE_LOS_TH (n : Nat) : Fld := ⟨0x20000 + n * 4096 + 32, 0, 8, .rw, .imm, 80, false⟩
def LANE_MOD_DDM (n : Nat) : Fld := ⟨0x20000 + n * 4096 + 36, 9, 1, .ro, .imm, 0, false⟩
def LANE_MOD_PRESENT (n : Nat) : Fld := ⟨0x20000 + n * 4096 + 36, 8, 1, .ro, .imm, 0, false⟩
def LANE_MOD_BUS (n : Nat) : Fld := ⟨0x20000 + n * 4096 + 36, 4, 2, .rw, .stg, n / 8, false⟩
def LANE_MOD_CH (n : Nat) : Fld := ⟨0x20000 + n * 4096 + 36, 0, 3, .rw, .stg, n % 8, false⟩
def STR_CTRL_BEND (s : Nat) : Fld := ⟨0x40000 + s * 4096, 8, 1, .rw, .stg, 0, false⟩
def STR_CTRL_NBEAD (s : Nat) : Fld := ⟨0x40000 + s * 4096, 4, 4, .rw, .stg, 0, false⟩
def STR_CTRL_EN (s : Nat) : Fld := ⟨0x40000 + s * 4096, 0, 1, .rw, .stg, 0, false⟩
def STR_STAT_HEARD (s : Nat) : Fld := ⟨0x40000 + s * 4096 + 4, 12, 4, .ro, .imm, 0, false⟩
def STR_STAT_BREAK (s : Nat) : Fld := ⟨0x40000 + s * 4096 + 4, 8, 4, .ro, .imm, 15, false⟩
def STR_STAT_BROKEN (s : Nat) : Fld := ⟨0x40000 + s * 4096 + 4, 1, 1, .ro, .imm, 0, false⟩
def STR_STAT_UP (s : Nat) : Fld := ⟨0x40000 + s * 4096 + 4, 0, 1, .ro, .imm, 0, false⟩
def STR_ERR_UPL_CRC (s : Nat) : Fld := ⟨0x40000 + s * 4096 + 8, 16, 16, .rw, .imm, 0, false⟩
def STR_ERR_ID_ERR (s : Nat) : Fld := ⟨0x40000 + s * 4096 + 8, 0, 16, .rw, .imm, 0, false⟩
def STR_MISS (s : Nat) : Fld := ⟨0x40000 + s * 4096 + 12, 0, 16, .rw, .imm, 0, false⟩
def STR_POS_VALID (s p : Nat) : Fld := ⟨0x40000 + s * 4096 + 16 + p * 4, 7, 1, .rw, .stg, 0, false⟩
def STR_POS_BEAD (s p : Nat) : Fld := ⟨0x40000 + s * 4096 + 16 + p * 4, 0, 7, .rw, .stg, 0, false⟩
def TB_CTRL_GRP (t : Nat) : Fld := ⟨0x60000 + t * 256, 8, 4, .rw, .stg, 0, false⟩
def TB_CTRL_AUTOARM (t : Nat) : Fld := ⟨0x60000 + t * 256, 1, 1, .rw, .imm, 0, false⟩
def TB_CTRL_EN (t : Nat) : Fld := ⟨0x60000 + t * 256, 0, 1, .rw, .frm, 0, false⟩
def TB_PER (t : Nat) : Fld := ⟨0x60000 + t * 256 + 4, 0, 24, .rw, .car, 4000, false⟩
def TB_PHS (t : Nat) : Fld := ⟨0x60000 + t * 256 + 8, 0, 29, .rw, .stg, 0, false⟩
def TB_PSTEP_PSTEP_MAX (t : Nat) : Fld := ⟨0x60000 + t * 256 + 12, 0, 29, .rw, .stg, 0, false⟩
def TB_CMPX (t m : Nat) : Fld := ⟨0x60000 + t * 256 + 16 + m * 4, 0, 29, .rw, .car, 536870911, false⟩
def TB_CMPX_RT_RT0 (t : Nat) : Fld := ⟨0x60000 + t * 256 + 32, 0, 3, .rw, .stg, 0, false⟩
def TB_CMPX_RT_RT1 (t : Nat) : Fld := ⟨0x60000 + t * 256 + 32, 4, 3, .rw, .stg, 0, false⟩
def TB_CMPX_RT_RT2 (t : Nat) : Fld := ⟨0x60000 + t * 256 + 32, 8, 3, .rw, .stg, 0, false⟩
def TB_CMPX_RT_RT3 (t : Nat) : Fld := ⟨0x60000 + t * 256 + 32, 12, 3, .rw, .stg, 0, false⟩
def TB_STAT_PER_REJ (t : Nat) : Fld := ⟨0x60000 + t * 256 + 36, 4, 1, .w1c, .imm, 0, false⟩
def TB_STAT_UPDATE_LATE (t : Nat) : Fld := ⟨0x60000 + t * 256 + 36, 3, 1, .w1c, .imm, 0, false⟩
def TB_STAT_ARMED (t : Nat) : Fld := ⟨0x60000 + t * 256 + 36, 2, 1, .ro, .imm, 0, false⟩
def TB_STAT_RUN (t : Nat) : Fld := ⟨0x60000 + t * 256 + 36, 0, 1, .ro, .imm, 0, false⟩
def TB_POS (t : Nat) : Fld := ⟨0x60000 + t * 256 + 40, 0, 29, .ro, .imm, 0, false⟩
def CH_CTRL_TB (c : Nat) : Fld := ⟨0x64000 + c * 64, 8, 6, .rw, .stg, 0, false⟩
def CH_CTRL_TRIP_ACT (c : Nat) : Fld := ⟨0x64000 + c * 64, 1, 1, .rw, .stg, 0, false⟩
def CH_CTRL_EN (c : Nat) : Fld := ⟨0x64000 + c * 64, 0, 1, .rw, .frm, 0, false⟩
def CH_ROUTE_KIND (c : Nat) : Fld := ⟨0x64000 + c * 64 + 4, 16, 2, .rw, .stg, 0, false⟩
def CH_ROUTE_PAIR (c : Nat) : Fld := ⟨0x64000 + c * 64 + 4, 8, 4, .rw, .stg, 0, false⟩
def CH_ROUTE_SW (c : Nat) : Fld := ⟨0x64000 + c * 64 + 4, 7, 1, .rw, .stg, 0, false⟩
def CH_ROUTE_BEAD (c : Nat) : Fld := ⟨0x64000 + c * 64 + 4, 0, 7, .rw, .stg, 0, false⟩
def CH_CMP (c : Nat) : Fld := ⟨0x64000 + c * 64 + 8, 0, 29, .rw, .car, 0, false⟩
def CH_PHS (c : Nat) : Fld := ⟨0x64000 + c * 64 + 12, 0, 29, .rw, .car, 0, false⟩
def CH_MINT (c : Nat) : Fld := ⟨0x64000 + c * 64 + 16, 0, 16, .rw, .stg, 12800, false⟩
def CH_DMIN (c : Nat) : Fld := ⟨0x64000 + c * 64 + 20, 0, 24, .rw, .stg, 12800, false⟩
def CH_DMAX (c : Nat) : Fld := ⟨0x64000 + c * 64 + 24, 0, 29, .rw, .stg, 536870911, false⟩
def CH_TRIP_BLANK (c : Nat) : Fld := ⟨0x64000 + c * 64 + 28, 22, 10, .rw, .stg, 200, false⟩
def CH_TRIP_TEN (c : Nat) : Fld := ⟨0x64000 + c * 64 + 28, 20, 1, .rw, .stg, 0, false⟩
def CH_TRIP_TIN (c : Nat) : Fld := ⟨0x64000 + c * 64 + 28, 16, 4, .rw, .stg, 0, false⟩
def CH_TRIP_M (c : Nat) : Fld := ⟨0x64000 + c * 64 + 28, 8, 8, .rw, .stg, 0, false⟩
def CH_TRIP_N (c : Nat) : Fld := ⟨0x64000 + c * 64 + 28, 0, 8, .rw, .stg, 8, false⟩
def CH_STAT_STEPPING (c : Nat) : Fld := ⟨0x64000 + c * 64 + 32, 11, 1, .ro, .imm, 0, false⟩
def CH_STAT_ARMED (c : Nat) : Fld := ⟨0x64000 + c * 64 + 32, 10, 1, .ro, .imm, 0, false⟩
def CH_STAT_LATCHED (c : Nat) : Fld := ⟨0x64000 + c * 64 + 32, 9, 1, .ro, .imm, 0, false⟩
def CH_STAT_DESC_OVF (c : Nat) : Fld := ⟨0x64000 + c * 64 + 32, 4, 1, .w1c, .imm, 0, false⟩
def CH_STAT_PHS_WRAP (c : Nat) : Fld := ⟨0x64000 + c * 64 + 32, 3, 1, .w1c, .imm, 0, false⟩
def CH_STAT_UPDATE_LATE (c : Nat) : Fld := ⟨0x64000 + c * 64 + 32, 2, 1, .w1c, .imm, 0, false⟩
def CH_STAT_DUTY_CLAMP (c : Nat) : Fld := ⟨0x64000 + c * 64 + 32, 0, 1, .w1c, .imm, 0, false⟩
def CH_TCNT_TOTAL (c : Nat) : Fld := ⟨0x64000 + c * 64 + 36, 16, 16, .rw, .imm, 0, false⟩
def CH_TCNT_CLEAN (c : Nat) : Fld := ⟨0x64000 + c * 64 + 36, 8, 8, .ro, .imm, 0, false⟩
def CH_TCNT_CNT (c : Nat) : Fld := ⟨0x64000 + c * 64 + 36, 0, 8, .rw, .imm, 0, false⟩
def EDG_ARM : Fld := ⟨0x68000, 0, 16, .rw, .imm, 0, false⟩
def EDG_STAT_CLK_LOST : Fld := ⟨0x68000 + 4, 3, 1, .w1c, .imm, 0, false⟩
def EDG_STAT_HALT : Fld := ⟨0x68000 + 4, 2, 1, .ro, .imm, 0, false⟩
def EDG_STAT_QUIESCED : Fld := ⟨0x68000 + 4, 1, 1, .ro, .imm, 1, false⟩
def EDG_STAT_SAFE : Fld := ⟨0x68000 + 4, 0, 1, .ro, .imm, 1, false⟩
def EDG_PAIR_LOC_ADJ (k : Nat) : Fld := ⟨0x68000 + 16 + k * 4, 16, 12, .rw, .stg, 0, false⟩
def EDG_PAIR_SAFE_B (k : Nat) : Fld := ⟨0x68000 + 16 + k * 4, 3, 1, .rw, .stg, 0, false⟩
def EDG_PAIR_SAFE_A (k : Nat) : Fld := ⟨0x68000 + 16 + k * 4, 2, 1, .rw, .stg, 0, false⟩
def EDG_PAIR_POL_B (k : Nat) : Fld := ⟨0x68000 + 16 + k * 4, 1, 1, .rw, .stg, 0, false⟩
def EDG_PAIR_POL_A (k : Nat) : Fld := ⟨0x68000 + 16 + k * 4, 0, 1, .rw, .stg, 0, false⟩
def EDG_TRIP_LEVEL (k : Nat) : Fld := ⟨0x68000 + 80 + k * 4, 8, 1, .ro, .imm, 0, false⟩
def EDG_TRIP_FILT (k : Nat) : Fld := ⟨0x68000 + 80 + k * 4, 4, 4, .rw, .stg, 0, false⟩
def EDG_TRIP_POL (k : Nat) : Fld := ⟨0x68000 + 80 + k * 4, 0, 1, .rw, .stg, 0, false⟩
def GSV_PAIR_HS_TO (k : Nat) : Fld := ⟨0x70000 + 16 + k * 4, 16, 16, .rw, .stg, 2000, false⟩
def GSV_PAIR_DSAT_EN (k : Nat) : Fld := ⟨0x70000 + 16 + k * 4, 13, 1, .rw, .stg, 0, false⟩
def GSV_PAIR_DSAT_TIN (k : Nat) : Fld := ⟨0x70000 + 16 + k * 4, 8, 4, .rw, .stg, 0, false⟩
def GSV_PAIR_DEN (k : Nat) : Fld := ⟨0x70000 + 16 + k * 4, 4, 3, .rw, .stg, 0, false⟩
def GSV_PAIR_PC_EN (k : Nat) : Fld := ⟨0x70000 + 16 + k * 4, 2, 1, .rw, .stg, 1, false⟩
def GSV_PAIR_DFB_POL (k : Nat) : Fld := ⟨0x70000 + 16 + k * 4, 1, 1, .rw, .stg, 0, false⟩
def GSV_PAIR_HS_EN (k : Nat) : Fld := ⟨0x70000 + 16 + k * 4, 0, 1, .rw, .stg, 1, false⟩
def GSV_GSM_FILT (m : Nat) : Fld := ⟨0x70000 + 80 + m * 4, 24, 4, .rw, .stg, 2, false⟩
def GSV_GSM_KIND (m : Nat) : Fld := ⟨0x70000 + 80 + m * 4, 20, 2, .rw, .stg, 0, false⟩
def GSV_GSM_PAIR (m : Nat) : Fld := ⟨0x70000 + 80 + m * 4, 16, 4, .rw, .stg, 0, false⟩
def GSV_GSM_HYST (m : Nat) : Fld := ⟨0x70000 + 80 + m * 4, 10, 6, .rw, .stg, 25, false⟩
def GSV_GSM_TH (m : Nat) : Fld := ⟨0x70000 + 80 + m * 4, 0, 10, .rw, .stg, 750, false⟩
def GSV_DEN_LVL : Fld := ⟨0x70000 + 144, 24, 8, .ro, .imm, 0, false⟩
def GSV_DEN_LOW_FR : Fld := ⟨0x70000 + 144, 16, 4, .rw, .imm, 2, false⟩
def GSV_DEN_TOGGLE : Fld := ⟨0x70000 + 144, 8, 8, .rw, .imm, 0, false⟩
def GSV_DEN_EN : Fld := ⟨0x70000 + 144, 0, 8, .rw, .imm, 0, false⟩
def GSV_STAT_HELD : Fld := ⟨0x70000 + 148, 16, 16, .ro, .imm, 0, false⟩
def GSV_STAT_LATCHED : Fld := ⟨0x70000 + 148, 0, 16, .ro, .imm, 0, false⟩
def GSV_GSM_STAT_UVLO_SEEN : Fld := ⟨0x70000 + 152, 16, 16, .w1c, .imm, 0, false⟩
def GSV_GSM_STAT_BELOW : Fld := ⟨0x70000 + 152, 0, 16, .ro, .imm, 0, false⟩
def GSV_PC_WIDTH : Fld := ⟨0x70000 + 156, 0, 12, .rw, .stg, 400, false⟩
def GSV_PC_OFS : Fld := ⟨0x70000 + 160, 0, 17, .rw, .stg, 200, false⟩
def GSV_PC_MAXP : Fld := ⟨0x70000 + 164, 0, 8, .rw, .stg, 64, false⟩
def GSV_CNT_HST : Fld := ⟨0x70000 + 168, 16, 16, .rw, .imm, 0, false⟩
def GSV_CNT_ILK : Fld := ⟨0x70000 + 168, 0, 16, .rw, .imm, 0, false⟩
def GSV_BEAD_TOGGLING (b : Nat) : Fld := ⟨0x70000 + 1024 + b * 4, 24, 1, .ro, .imm, 0, false⟩
def GSV_BEAD_PCNT (b : Nat) : Fld := ⟨0x70000 + 1024 + b * 4, 16, 8, .ro, .imm, 0, false⟩
def GSV_BEAD_PC_FAIL (b : Nat) : Fld := ⟨0x70000 + 1024 + b * 4, 13, 1, .w1c, .imm, 0, false⟩
def GSV_BEAD_PC_DONE (b : Nat) : Fld := ⟨0x70000 + 1024 + b * 4, 12, 1, .ro, .imm, 0, false⟩
def GSV_BEAD_LATCH (b : Nat) : Fld := ⟨0x70000 + 1024 + b * 4, 6, 6, .ro, .imm, 0, false⟩
def GSV_BEAD_HELD (b : Nat) : Fld := ⟨0x70000 + 1024 + b * 4, 0, 6, .ro, .imm, 0, false⟩
/-- INJLEN, in its 3 bits, so that 8 cannot be written (R217, R206). [Log: DEDUCED 33] -/
def ADC_CTRL_INJLEN (c : Nat) : Fld := ⟨0x80000 + c * 256, 16, 3, .rw, .stg, 0, false⟩
def ADC_CTRL_SEQLEN (c : Nat) : Fld := ⟨0x80000 + c * 256, 8, 6, .rw, .stg, 1, false⟩
def ADC_CTRL_GO (c : Nat) : Fld := ⟨0x80000 + c * 256, 3, 1, .wo, .imm, 0, false⟩
def ADC_CTRL_FSYNC (c : Nat) : Fld := ⟨0x80000 + c * 256, 2, 1, .rw, .stg, 0, false⟩
def ADC_CTRL_MODE (c : Nat) : Fld := ⟨0x80000 + c * 256, 0, 2, .rw, .stg, 0, false⟩
def ADC_TRG_RTB (c : Nat) : Fld := ⟨0x80000 + c * 256 + 4, 8, 6, .rw, .stg, 0, false⟩
def ADC_TRG_RCM (c : Nat) : Fld := ⟨0x80000 + c * 256 + 4, 1, 4, .rw, .stg, 0, false⟩
def ADC_TRG_FRAME (c : Nat) : Fld := ⟨0x80000 + c * 256 + 4, 0, 1, .rw, .stg, 0, false⟩
def ADC_TRGU_TRIPM (c : Nat) : Fld := ⟨0x80000 + c * 256 + 8, 16, 16, .rw, .stg, 0, false⟩
def ADC_TRGU_UTB (c : Nat) : Fld := ⟨0x80000 + c * 256 + 8, 8, 6, .rw, .stg, 0, false⟩
def ADC_TRGU_TINM (c : Nat) : Fld := ⟨0x80000 + c * 256 + 8, 4, 4, .rw, .stg, 0, false⟩
def ADC_TRGU_UCM (c : Nat) : Fld := ⟨0x80000 + c * 256 + 8, 0, 4, .rw, .stg, 0, false⟩
def ADC_STAT_PHYS (c : Nat) : Fld := ⟨0x80000 + c * 256 + 12, 16, 3, .ro, .imm, c, false⟩
def ADC_STAT_INJ_Q (c : Nat) : Fld := ⟨0x80000 + c * 256 + 12, 11, 1, .ro, .imm, 0, false⟩
def ADC_STAT_INJ_RUN (c : Nat) : Fld := ⟨0x80000 + c * 256 + 12, 10, 1, .ro, .imm, 0, false⟩
def ADC_STAT_REG_Q (c : Nat) : Fld := ⟨0x80000 + c * 256 + 12, 9, 1, .ro, .imm, 0, false⟩
def ADC_STAT_REG_RUN (c : Nat) : Fld := ⟨0x80000 + c * 256 + 12, 8, 1, .ro, .imm, 0, false⟩
def ADC_STAT_SLOT (c : Nat) : Fld := ⟨0x80000 + c * 256 + 12, 0, 5, .ro, .imm, 0, false⟩
def ADC_CNT_INJ_OVR (c : Nat) : Fld := ⟨0x80000 + c * 256 + 16, 16, 16, .rw, .imm, 0, false⟩
def ADC_CNT_REG_OVR (c : Nat) : Fld := ⟨0x80000 + c * 256 + 16, 0, 16, .rw, .imm, 0, false⟩
def ADC_TAINT (c : Nat) : Fld := ⟨0x80000 + c * 256 + 20, 0, 16, .rw, .imm, 0, false⟩
def ADC_CHK_GAIN (c : Nat) : Fld := ⟨0x80000 + c * 256 + 24, 16, 16, .ro, .imm, 0, false⟩
def ADC_CHK_OFS (c : Nat) : Fld := ⟨0x80000 + c * 256 + 24, 0, 16, .ro, .imm, 0, false⟩
def ADC_CST_CHECKS (c : Nat) : Fld := ⟨0x80000 + c * 256 + 28, 8, 8, .ro, .imm, 0, false⟩
def ADC_CST_FAILED (c : Nat) : Fld := ⟨0x80000 + c * 256 + 28, 1, 1, .ro, .imm, 0, false⟩
def ADC_CST_RETIRED (c : Nat) : Fld := ⟨0x80000 + c * 256 + 28, 0, 1, .ro, .imm, 0, false⟩
def ADC_SLOT_DISC (c k : Nat) : Fld := ⟨0x80000 + c * 256 + 64 + k * 4, 15, 1, .rw, .stg, 0, false⟩
def ADC_SLOT_ACC (c k : Nat) : Fld := ⟨0x80000 + c * 256 + 64 + k * 4, 8, 7, .rw, .stg, 0, false⟩
def ADC_SLOT_AIN (c k : Nat) : Fld := ⟨0x80000 + c * 256 + 64 + k * 4, 0, 6, .rw, .stg, 0, false⟩
def ACQ_CHK_REF_FAULT : Fld := ⟨0x80800, 16, 1, .ro, .imm, 0, false⟩
def ACQ_CHK_DIV : Fld := ⟨0x80800, 8, 8, .rw, .imm, 16, false⟩
def ACQ_CHK_EN : Fld := ⟨0x80800, 0, 1, .rw, .imm, 1, false⟩
def ACQ_CHKLIM_GAIN : Fld := ⟨0x80800 + 4, 16, 16, .rw, .imm, 2000, false⟩
def ACQ_CHKLIM_OFS : Fld := ⟨0x80800 + 4, 0, 16, .rw, .imm, 64, false⟩
def ACQ_ALT_ACC (j : Nat) : Fld := ⟨0x80800 + 32 + j * 4, 24, 7, .rw, .stg, 0, false⟩
def ACQ_ALT_AUTO (j : Nat) : Fld := ⟨0x80800 + 32 + j * 4, 18, 1, .rw, .stg, 0, false⟩
def ACQ_ALT_SEL (j : Nat) : Fld := ⟨0x80800 + 32 + j * 4, 17, 1, .rw, .frm, 0, false⟩
def ACQ_ALT_EN (j : Nat) : Fld := ⟨0x80800 + 32 + j * 4, 16, 1, .rw, .stg, 0, false⟩
def ACQ_ALT_SPARE (j : Nat) : Fld := ⟨0x80800 + 32 + j * 4, 8, 6, .rw, .stg, 0, false⟩
def ACQ_ALT_PRIM (j : Nat) : Fld := ⟨0x80800 + 32 + j * 4, 0, 6, .rw, .stg, 0, false⟩
def ACC_CFG_LWIN (a : Nat) : Fld := ⟨0x84000 + a * 32, 16, 16, .rw, .imm, 0, false⟩
def ACC_CFG_LCLR (a : Nat) : Fld := ⟨0x84000 + a * 32, 1, 1, .wo, .imm, 0, false⟩
def ACC_CFG_MONE (a : Nat) : Fld := ⟨0x84000 + a * 32, 0, 1, .rw, .imm, 0, false⟩
def ACC_GAIN (a : Nat) : Fld := ⟨0x84000 + a * 32 + 4, 0, 32, .rw, .frm, 1065353216, false⟩
def ACC_OFS (a : Nat) : Fld := ⟨0x84000 + a * 32 + 8, 0, 32, .rw, .frm, 0, false⟩
def ACC_MEAN (a : Nat) : Fld := ⟨0x84000 + a * 32 + 12, 0, 32, .ro, .imm, 0, false⟩
def ACC_EXT_MAX (a : Nat) : Fld := ⟨0x84000 + a * 32 + 16, 16, 16, .ro, .imm, 0, false⟩
def ACC_EXT_MIN (a : Nat) : Fld := ⟨0x84000 + a * 32 + 16, 0, 16, .ro, .imm, 0, false⟩
def ACC_LEXT_LMAX (a : Nat) : Fld := ⟨0x84000 + a * 32 + 20, 16, 16, .ro, .imm, 0, false⟩
def ACC_LEXT_LMIN (a : Nat) : Fld := ⟨0x84000 + a * 32 + 20, 0, 16, .ro, .imm, 0, false⟩
def ACC_STAT_OVR_SEEN (a : Nat) : Fld := ⟨0x84000 + a * 32 + 24, 26, 1, .w1c, .imm, 0, false⟩
def ACC_STAT_EMPTY (a : Nat) : Fld := ⟨0x84000 + a * 32 + 24, 25, 1, .ro, .imm, 1, false⟩
def ACC_STAT_OVR (a : Nat) : Fld := ⟨0x84000 + a * 32 + 24, 24, 1, .ro, .imm, 0, false⟩
def ACC_STAT_TNT (a : Nat) : Fld := ⟨0x84000 + a * 32 + 24, 16, 8, .ro, .imm, 0, false⟩
def ACC_STAT_COUNT (a : Nat) : Fld := ⟨0x84000 + a * 32 + 24, 0, 16, .ro, .imm, 0, false⟩
def LPE_CTRL_OVR_TRIP : Fld := ⟨0x90000, 16, 4, .rw, .imm, 3, false⟩
def LPE_CTRL_SPARE_EN : Fld := ⟨0x90000, 2, 1, .rw, .imm, 1, false⟩
def LPE_CTRL_CHK_EN : Fld := ⟨0x90000, 1, 1, .rw, .imm, 1, false⟩
def LPE_CTRL_RUN : Fld := ⟨0x90000, 0, 1, .rw, .frm, 0, false⟩
def LPE_STAT_VOTE_P : Fld := ⟨0x90000 + 4, 12, 4, .ro, .imm, 0, false⟩
def LPE_STAT_OVR_CONSEC : Fld := ⟨0x90000 + 4, 8, 4, .ro, .imm, 0, false⟩
def LPE_STAT_RUN_REJ : Fld := ⟨0x90000 + 4, 6, 1, .w1c, .imm, 0, false⟩
def LPE_STAT_SWAPPED : Fld := ⟨0x90000 + 4, 5, 1, .ro, .imm, 0, false⟩
def LPE_STAT_VOTING : Fld := ⟨0x90000 + 4, 4, 1, .ro, .imm, 0, false⟩
def LPE_STAT_HELD : Fld := ⟨0x90000 + 4, 3, 1, .w1c, .imm, 0, false⟩
def LPE_STAT_OVR : Fld := ⟨0x90000 + 4, 2, 1, .w1c, .imm, 0, false⟩
def LPE_STAT_VERIFIED : Fld := ⟨0x90000 + 4, 1, 1, .ro, .imm, 0, false⟩
def LPE_STAT_RUNNING : Fld := ⟨0x90000 + 4, 0, 1, .ro, .imm, 0, false⟩
def LPE_ROLE : Fld := ⟨0x90000 + 8, 0, 24, .ro, .imm, 9974288, false⟩
def LPE_CNT_MISMATCH : Fld := ⟨0x90000 + 12, 16, 16, .rw, .imm, 0, false⟩
def LPE_CNT_OVR : Fld := ⟨0x90000 + 12, 0, 16, .rw, .imm, 0, false⟩
def LPE_CNT2_TRANSIENT : Fld := ⟨0x90000 + 16, 16, 16, .rw, .imm, 0, false⟩
def LPE_CNT2_FPEV : Fld := ⟨0x90000 + 16, 0, 16, .rw, .imm, 0, false⟩
def LPE_COMMITS : Fld := ⟨0x90000 + 20, 0, 32, .ro, .imm, 0, false⟩
def LPE_FCNT : Fld := ⟨0x90000 + 24, 0, 32, .ro, .imm, 0, false⟩
def LPE_ARMG : Fld := ⟨0x90000 + 28, 0, 16, .rw, .stg, 0, false⟩
def LPE_COEF_SWAP_PEND : Fld := ⟨0x90000 + 32, 1, 1, .ro, .imm, 0, false⟩
def LPE_COEF_BANK : Fld := ⟨0x90000 + 32, 0, 1, .ro, .imm, 0, false⟩
def LPE_VFYCYC_WCET_CYC : Fld := ⟨0x90000 + 36, 0, 20, .ro, .imm, 0, false⟩
def LPE_VFYCNT_WCET_CNT : Fld := ⟨0x90000 + 40, 0, 17, .ro, .imm, 0, false⟩
def LPE_VFY_ENTRY : Fld := ⟨0x90000 + 44, 16, 14, .ro, .imm, 0, false⟩
def LPE_VFY_CODE : Fld := ⟨0x90000 + 44, 0, 8, .ro, .imm, 0, false⟩
def LPE_PART_LEN (p : Nat) : Fld := ⟨0x90000 + 48 + p * 4, 16, 14, .ro, .imm, 0, false⟩
def LPE_PART_START (p : Nat) : Fld := ⟨0x90000 + 48 + p * 4, 0, 14, .ro, .imm, 0, false⟩
def LPE_PWC (p : Nat) : Fld := ⟨0x90000 + 64 + p * 4, 0, 20, .ro, .imm, 0, false⟩
def LPE_RC_PHASE (k : Nat) : Fld := ⟨0x90000 + 128 + k * 4, 16, 16, .rw, .stg, 0, false⟩
def LPE_RC_BASE (k : Nat) : Fld := ⟨0x90000 + 128 + k * 4, 12, 4, .rw, .stg, 0, false⟩
def LPE_RC_DIV (k : Nat) : Fld := ⟨0x90000 + 128 + k * 4, 0, 9, .rw, .stg, if k = 0 then 1 else 0, false⟩
def LPE_ECC_SPARES_LEFT : Fld := ⟨0x90000 + 192, 24, 8, .ro, .imm, 64, false⟩
def LPE_ECC_WIN : Fld := ⟨0x90000 + 192, 16, 8, .rw, .imm, 60, false⟩
def LPE_ECC_ROW_TH : Fld := ⟨0x90000 + 192, 8, 4, .rw, .imm, 4, false⟩
def LPE_ECC_CNT_CORR : Fld := ⟨0x90000 + 196, 16, 16, .rw, .imm, 0, false⟩
def LPE_ECC_CNT_REMAPS : Fld := ⟨0x90000 + 196, 0, 16, .ro, .imm, 0, false⟩
def LPE_SETP (i : Nat) : Fld := ⟨0x90000 + 1024 + i * 4, 0, 32, .rw, .frm, 0, false⟩
def THM_CTRL_HYST : Fld := ⟨0xB000, 16, 8, .rw, .imm, 20, false⟩
def THM_CTRL_DWELL : Fld := ⟨0xB000, 8, 4, .rw, .imm, 3, false⟩
def THM_CTRL_FAST_EN : Fld := ⟨0xB000, 1, 1, .rw, .imm, 1, false⟩
def THM_CTRL_BEAD_EN : Fld := ⟨0xB000, 0, 1, .rw, .imm, 1, false⟩
def THM_SUB_HOLD : Fld := ⟨0xB000 + 4, 16, 16, .rw, .imm, 60, false⟩
def THM_SUB_SUBM : Fld := ⟨0xB000 + 4, 0, 8, .rw, .imm, 50, false⟩
def THM_SILENT_FR : Fld := ⟨0xB000 + 8, 0, 16, .rw, .imm, 1024, false⟩
def THM_DLSET_LSET (j : Nat) : Fld := ⟨0xB000 + 16 + j * 4, 0, 24, .rw, .stg, 16777215, false⟩
def THM_DBRK_BROKEN : Fld := ⟨0xB000 + 32, 0, 28, .w1c, .imm, 0, false⟩
def THM_DSVC_SVC : Fld := ⟨0xB000 + 36, 0, 28, .ro, .imm, 16777215, false⟩
def THM_DHOT : Fld := ⟨0xB000 + 40, 0, 28, .ro, .imm, 0, false⟩
def THM_DOVER : Fld := ⟨0xB000 + 44, 0, 28, .ro, .imm, 0, false⟩
def THM_CNT_BRK : Fld := ⟨0xB000 + 48, 16, 16, .rw, .imm, 0, false⟩
def THM_CNT_OVER : Fld := ⟨0xB000 + 48, 0, 16, .rw, .imm, 0, false⟩
def THM_THR (n : Nat) : Fld := ⟨0xB000 + 256 + n * 32, 0, 32, .rw, .frm, if n = 7 then 1124859904 else 1120403456, false⟩
def THM_TRIP (n : Nat) : Fld := ⟨0xB000 + 260 + n * 32, 0, 32, .rw, .frm, if n = 7 then 1125515264 else 1123680256, false⟩
def THM_RLIM (n : Nat) : Fld := ⟨0xB000 + 264 + n * 32, 0, 32, .rw, .frm, if n = 7 then 1101004800 else 1073741824, false⟩
def THM_RK (n : Nat) : Fld := ⟨0xB000 + 268 + n * 32, 0, 32, .rw, .frm, 1073741824, false⟩
def THM_BAND (n : Nat) : Fld := ⟨0xB000 + 272 + n * 32, 0, 32, .rw, .frm, 1092616192, false⟩
def THM_WIN_RWIN (n : Nat) : Fld := ⟨0xB000 + 276 + n * 32, 16, 16, .rw, .frm, 100, false⟩
def THM_WIN_FMGN (n : Nat) : Fld := ⟨0xB000 + 276 + n * 32, 0, 8, .rw, .frm, 50, false⟩
def BTH_CFG_HSG (b : Nat) : Fld := ⟨0x50000 + b * 256 + 128, 24, 4, .rw, .stg, 15, false⟩
def BTH_CFG_LSET (b : Nat) : Fld := ⟨0x50000 + b * 256 + 128, 0, 24, .rw, .stg, 0, false⟩
def BTH_STAT_HOT (b : Nat) : Fld := ⟨0x50000 + b * 256 + 132, 24, 8, .ro, .imm, 0, false⟩
def BTH_STAT_FAST (b : Nat) : Fld := ⟨0x50000 + b * 256 + 132, 16, 8, .ro, .imm, 0, false⟩
def BTH_STAT_BROKEN (b : Nat) : Fld := ⟨0x50000 + b * 256 + 132, 8, 8, .w1c, .imm, 0, false⟩
def BTH_STAT_EN (b : Nat) : Fld := ⟨0x50000 + b * 256 + 132, 0, 8, .rw, .stg, 0, false⟩
def BTH_EXC_THM_BEXC (b : Nat) : Fld := ⟨0x50000 + b * 256 + 136, 0, 32, .ro, .imm, 0, false⟩
def BTH_HELD (b : Nat) : Fld := ⟨0x50000 + b * 256 + 140, 0, 32, .ro, .imm, 0, false⟩
def BTH_TMAX (b : Nat) : Fld := ⟨0x50000 + b * 256 + 144, 0, 32, .ro, .imm, 0, false⟩
def BTH_C0 (b s : Nat) : Fld := ⟨0x50000 + b * 256 + 160 + s * 12, 0, 32, .rw, .frm, 0, false⟩
def BTH_C1 (b s : Nat) : Fld := ⟨0x50000 + b * 256 + 164 + s * 12, 0, 32, .rw, .frm, 0, false⟩
def BTH_C2 (b s : Nat) : Fld := ⟨0x50000 + b * 256 + 168 + s * 12, 0, 32, .rw, .frm, 0, false⟩
def BDT_STATE_UNCONF (b : Nat) : Fld := ⟨0x50000 + b * 256, 27, 1, .ro, .imm, 0, false⟩
def BDT_STATE_READY (b : Nat) : Fld := ⟨0x50000 + b * 256, 26, 1, .ro, .imm, 0, false⟩
def BDT_STATE_FAILED (b : Nat) : Fld := ⟨0x50000 + b * 256, 25, 1, .ro, .imm, 0, false⟩
def BDT_STATE_SLOT (b : Nat) : Fld := ⟨0x50000 + b * 256, 17, 7, .ro, .imm, 127, false⟩
def BDT_STATE_ROLE (b : Nat) : Fld := ⟨0x50000 + b * 256, 16, 1, .rw, .stg, 0, false⟩
def BDT_STATE_STRING (b : Nat) : Fld := ⟨0x50000 + b * 256, 8, 3, .rw, .stg, 7, false⟩
def BDT_STATE (b : Nat) : Fld := ⟨0x50000 + b * 256, 0, 3, .ro, .imm, 0, false⟩
def BDT_HPER (b : Nat) : Fld := ⟨0x50000 + b * 256 + 4, 0, 24, .rw, .frm, 0, false⟩
def BDT_DT_DAB_DT_S (b : Nat) : Fld := ⟨0x50000 + b * 256 + 8, 16, 16, .rw, .frm, 1280, false⟩
def BDT_DT_DAB_DT_P (b : Nat) : Fld := ⟨0x50000 + b * 256 + 8, 0, 16, .rw, .frm, 1280, false⟩
def BDT_T0 (b : Nat) : Fld := ⟨0x50000 + b * 256 + 12, 0, 24, .rw, .frm, 0, false⟩
def BDT_CNT_INSERTS (b : Nat) : Fld := ⟨0x50000 + b * 256 + 16, 16, 16, .rw, .imm, 0, false⟩
def BDT_CNT_BYPASSES (b : Nat) : Fld := ⟨0x50000 + b * 256 + 16, 0, 16, .rw, .imm, 0, false⟩
def BDT_TCHG (b : Nat) : Fld := ⟨0x50000 + b * 256 + 20, 0, 32, .ro, .imm, 0, false⟩
def BDT_CFGW (b : Nat) : Fld := ⟨0x50000 + b * 256 + 24, 0, 4, .rw, .frm, 0, false⟩
def BDT_OC_LIM (b : Nat) : Fld := ⟨0x50000 + b * 256 + 28, 0, 32, .rw, .frm, 0, false⟩
def BDT_UVLO (b : Nat) : Fld := ⟨0x50000 + b * 256 + 32, 0, 32, .rw, .frm, 0, false⟩
def BDT_OVP_BYP (b : Nat) : Fld := ⟨0x50000 + b * 256 + 36, 0, 32, .rw, .frm, 0, false⟩
def BDT_ASYM (b : Nat) : Fld := ⟨0x50000 + b * 256 + 40, 0, 32, .rw, .frm, 0, false⟩
def BSV_CTRL_NTGT (g : Nat) : Fld := ⟨0x5F000 + g * 32, 24, 7, .rw, .stg, 0, false⟩
def BSV_CTRL_NMIN (g : Nat) : Fld := ⟨0x5F000 + g * 32, 16, 7, .rw, .stg, 0, false⟩
def BSV_CTRL_BYP_TO (g : Nat) : Fld := ⟨0x5F000 + g * 32, 8, 8, .rw, .imm, 32, false⟩
def BSV_CTRL_PUMP_SPARE (g : Nat) : Fld := ⟨0x5F000 + g * 32, 3, 1, .rw, .imm, 1, false⟩
def BSV_CTRL_AUTO_INS (g : Nat) : Fld := ⟨0x5F000 + g * 32, 2, 1, .rw, .imm, 1, false⟩
def BSV_CTRL_AUTO_BYP (g : Nat) : Fld := ⟨0x5F000 + g * 32, 1, 1, .rw, .imm, 1, false⟩
def BSV_CTRL_EN (g : Nat) : Fld := ⟨0x5F000 + g * 32, 0, 1, .rw, .stg, 0, false⟩
def BSV_STAT_SHORT (g : Nat) : Fld := ⟨0x5F000 + g * 32 + 4, 18, 1, .ro, .imm, 0, false⟩
def BSV_STAT_DEGRADED (g : Nat) : Fld := ⟨0x5F000 + g * 32 + 4, 17, 1, .ro, .imm, 0, false⟩
def BSV_STAT_STEPPING (g : Nat) : Fld := ⟨0x5F000 + g * 32 + 4, 16, 1, .ro, .imm, 0, false⟩
def BSV_STAT_READY_SP (g : Nat) : Fld := ⟨0x5F000 + g * 32 + 4, 8, 7, .ro, .imm, 0, false⟩
def BSV_STAT_NSLOT (g : Nat) : Fld := ⟨0x5F000 + g * 32 + 4, 0, 7, .ro, .imm, 0, false⟩
def BSV_TB (g : Nat) : Fld := ⟨0x5F000 + g * 32 + 8, 0, 6, .rw, .stg, 0, false⟩
def BSV_CHG_VT (g : Nat) : Fld := ⟨0x5F000 + g * 32 + 12, 0, 32, .rw, .frm, 1150271488, false⟩
def BSV_CHG_BAND (g : Nat) : Fld := ⟨0x5F000 + g * 32 + 16, 0, 32, .rw, .frm, 1101004800, false⟩
def BSV_RDY_BAND (g : Nat) : Fld := ⟨0x5F000 + g * 32 + 20, 0, 32, .rw, .frm, 1112014848, false⟩
def BSV_CHG_PHI (g : Nat) : Fld := ⟨0x5F000 + g * 32 + 24, 0, 16, .rw, .frm, 1000, false⟩
def TWN_CTRL_WIT_MIN : Fld := ⟨0xC000, 24, 8, .rw, .imm, 8, false⟩
def TWN_CTRL_YIELD_EN : Fld := ⟨0xC000, 3, 1, .rw, .imm, 1, false⟩
def TWN_CTRL_PREF : Fld := ⟨0xC000, 2, 1, .rw, .imm, 0, false⟩
def TWN_CTRL_REVERT : Fld := ⟨0xC000, 1, 1, .rw, .imm, 1, false⟩
def TWN_CTRL_EN : Fld := ⟨0xC000, 0, 1, .rw, .stg, 0, false⟩
def TWN_STAT_H2_MISS : Fld := ⟨0xC000 + 4, 24, 8, .ro, .imm, 0, false⟩
def TWN_STAT_H1_MISS : Fld := ⟨0xC000 + 4, 16, 8, .ro, .imm, 0, false⟩
def TWN_STAT_HBK_PEND : Fld := ⟨0xC000 + 4, 9, 1, .ro, .imm, 0, false⟩
def TWN_STAT_WIT_SILENT : Fld := ⟨0xC000 + 4, 8, 1, .ro, .imm, 0, false⟩
def TWN_STAT_H2_UP : Fld := ⟨0xC000 + 4, 7, 1, .ro, .imm, 0, false⟩
def TWN_STAT_H1_UP : Fld := ⟨0xC000 + 4, 6, 1, .ro, .imm, 0, false⟩
def TWN_STAT_SYNCED : Fld := ⟨0xC000 + 4, 5, 1, .ro, .imm, 0, false⟩
def TWN_STAT_UNIT : Fld := ⟨0xC000 + 4, 4, 1, .ro, .imm, 0, false⟩
def TWN_STAT_STATE : Fld := ⟨0xC000 + 4, 0, 3, .ro, .imm, 0, false⟩
def TWN_EPOCH : Fld := ⟨0xC000 + 8, 0, 32, .ro, .imm, 0, true⟩
def TWN_HOLD : Fld := ⟨0xC000 + 12, 0, 32, .rw, .imm, 10000, false⟩
def TWN_HBK_HBK_SEQ : Fld := ⟨0xC000 + 16, 0, 16, .ro, .imm, 0, false⟩
def TWN_SYNCW : Fld := ⟨0xC000 + 20, 0, 16, .ro, .imm, 0, false⟩
def TWN_CNT_TAKEOVERS : Fld := ⟨0xC000 + 24, 24, 8, .rw, .imm, 0, false⟩
def TWN_CNT_HANDBACKS : Fld := ⟨0xC000 + 24, 16, 8, .rw, .imm, 0, false⟩
def TWN_CNT_YIELDS : Fld := ⟨0xC000 + 24, 8, 8, .rw, .imm, 0, false⟩
def TWN_CNT_DEMOTIONS : Fld := ⟨0xC000 + 24, 0, 8, .rw, .imm, 0, false⟩
def TWN_D_TW : Fld := ⟨0xC000 + 28, 0, 24, .ro, .imm, 0, false⟩
def TWN_YMASK (i : Nat) : Fld := ⟨0xC000 + 32 + i * 4, 0, 32, .rw, .imm, 0, false⟩
def STK_CTRL_ORPHAN : Fld := ⟨0xD000, 16, 16, .rw, .imm, 2500, false⟩
def STK_CTRL_NDEV : Fld := ⟨0xD000, 8, 4, .rw, .stg, 1, false⟩
def STK_CTRL_QPROP : Fld := ⟨0xD000, 3, 1, .rw, .imm, 1, false⟩
def STK_CTRL_RING : Fld := ⟨0xD000, 2, 1, .rw, .stg, 0, false⟩
def STK_CTRL_DEP_EN : Fld := ⟨0xD000, 1, 1, .rw, .imm, 1, false⟩
def STK_CTRL_EN : Fld := ⟨0xD000, 0, 1, .rw, .stg, 0, false⟩
def STK_STAT_RSTALE : Fld := ⟨0xD000 + 4, 24, 8, .ro, .imm, 0, false⟩
def STK_STAT_PRESENT : Fld := ⟨0xD000 + 4, 16, 8, .ro, .imm, 0, false⟩
def STK_STAT_MISS : Fld := ⟨0xD000 + 4, 8, 4, .ro, .imm, 0, false⟩
def STK_STAT_SP_STALE : Fld := ⟨0xD000 + 4, 7, 1, .ro, .imm, 0, false⟩
def STK_STAT_BROKEN : Fld := ⟨0xD000 + 4, 6, 1, .ro, .imm, 0, false⟩
def STK_STAT_MASTER_ID : Fld := ⟨0xD000 + 4, 3, 3, .ro, .imm, 0, false⟩
def STK_STAT_ROLE : Fld := ⟨0xD000 + 4, 0, 3, .ro, .imm, 0, false⟩
def STK_ID : Fld := ⟨0xD000 + 8, 0, 3, .ro, .imm, 0, false⟩
def STK_EPOCH : Fld := ⟨0xD000 + 12, 0, 32, .ro, .imm, 0, true⟩
def STK_SBASE : Fld := ⟨0xD000 + 16, 0, 17, .rw, .stg, 130048, false⟩
def STK_RBASE : Fld := ⟨0xD000 + 20, 0, 17, .rw, .stg, 129920, false⟩
def STK_RSRC : Fld := ⟨0xD000 + 24, 0, 17, .rw, .stg, 129904, false⟩
def STK_CNT_CRC_ERR : Fld := ⟨0xD000 + 28, 16, 16, .rw, .imm, 0, false⟩
def STK_CNT_MISS_CNT : Fld := ⟨0xD000 + 28, 0, 16, .rw, .imm, 0, false⟩
def STK_D_MAX : Fld := ⟨0xD000 + 32, 0, 24, .ro, .imm, 0, false⟩
def STK_MTX (w : Nat) : Fld := ⟨0xD000 + 256 + w * 4, 0, 32, .rw, .imm, 0, false⟩
def STK_MTX_CTRL_MSEQ : Fld := ⟨0xD000 + 320, 11, 4, .ro, .imm, 0, false⟩
def STK_MTX_CTRL_LEN : Fld := ⟨0xD000 + 320, 6, 5, .rw, .imm, 16, false⟩
def STK_MTX_CTRL_DST : Fld := ⟨0xD000 + 320, 3, 3, .rw, .imm, 0, false⟩
def STK_MTX_CTRL_GO : Fld := ⟨0xD000 + 320, 0, 1, .rw, .imm, 0, false⟩
def STK_MRX (w : Nat) : Fld := ⟨0xD000 + 384 + w * 4, 0, 32, .ro, .imm, 0, false⟩
def STK_MRX_STAT_LEN : Fld := ⟨0xD000 + 448, 6, 5, .ro, .imm, 0, false⟩
def STK_MRX_STAT_SRC : Fld := ⟨0xD000 + 448, 3, 3, .ro, .imm, 0, false⟩
def STK_MRX_STAT_FULL : Fld := ⟨0xD000 + 448, 0, 1, .ro, .imm, 0, false⟩
def FLT_CTRL_AON_MIN : Fld := ⟨0x9000, 8, 4, .rw, .imm, 2, false⟩
def FLT_CTRL_FF_MIN : Fld := ⟨0x9000, 4, 4, .rw, .imm, 3, false⟩
def FLT_CTRL_LOG_MIN : Fld := ⟨0x9000, 0, 4, .rw, .imm, 1, false⟩
def FLT_STAT_LOST : Fld := ⟨0x9000 + 4, 16, 16, .rw, .imm, 0, false⟩
def FLT_STAT_PREV_LOCKOUT : Fld := ⟨0x9000 + 4, 10, 1, .ro, .imm, 0, true⟩
def FLT_STAT_LOCKOUT : Fld := ⟨0x9000 + 4, 9, 1, .ro, .imm, 0, false⟩
def FLT_STAT_TRIPPED : Fld := ⟨0x9000 + 4, 8, 1, .ro, .imm, 0, false⟩
def FLT_STAT_COMP_VALID : Fld := ⟨0x9000 + 4, 5, 1, .ro, .imm, 0, true⟩
def FLT_STAT_FF_VALID : Fld := ⟨0x9000 + 4, 4, 1, .ro, .imm, 0, true⟩
def FLT_STAT_CLASSMAX : Fld := ⟨0x9000 + 4, 0, 3, .ro, .imm, 0, false⟩
def FLT_LOG_SEQ : Fld := ⟨0x9000 + 8, 0, 32, .ro, .imm, 0, false⟩
def FLT_AON_SEQ : Fld := ⟨0x9000 + 12, 0, 32, .ro, .imm, 0, true⟩
def FLT_LOGRD : Fld := ⟨0x9000 + 16, 0, 32, .rw, .imm, 0, false⟩
def FLT_AONRD : Fld := ⟨0x9000 + 20, 0, 32, .rw, .imm, 0, false⟩
def FLT_PEND_A (i : Nat) : Fld := ⟨0x9000 + 32 + i * 4, 0, 32, .w1c, .imm, 0, false⟩
def FLT_PEND_B (i : Nat) : Fld := ⟨0x9000 + 48 + i * 4, 0, 32, .w1c, .imm, 0, false⟩
def FLT_SEV (n : Nat) : Fld := ⟨0x9000 + 512 + n * 4, 0, 3, .grd, .imm, fsDefault n, false⟩
def FLT_CFG_ESC_N (n : Nat) : Fld := ⟨0x9000 + 1024 + n * 4, 24, 8, .rw, .imm, 0, false⟩
def FLT_CFG_ESC_W (n : Nat) : Fld := ⟨0x9000 + 1024 + n * 4, 8, 16, .rw, .imm, 1000, false⟩
def FLT_CFG_ESC_U (n : Nat) : Fld := ⟨0x9000 + 1024 + n * 4, 2, 1, .rw, .imm, 0, false⟩
def FLT_CFG_IRQB (n : Nat) : Fld := ⟨0x9000 + 1024 + n * 4, 1, 1, .rw, .imm, fsRouted n, false⟩
def FLT_CFG_IRQA (n : Nat) : Fld := ⟨0x9000 + 1024 + n * 4, 0, 1, .rw, .imm, fsRouted n, false⟩
def FLT_CNT_WCLASS (n : Nat) : Fld := ⟨0x9000 + 1536 + n * 4, 24, 3, .ro, .imm, 0, false⟩
def FLT_CNT_WCNT (n : Nat) : Fld := ⟨0x9000 + 1536 + n * 4, 16, 8, .ro, .imm, 0, false⟩
def FLT_CNT (n : Nat) : Fld := ⟨0x9000 + 1536 + n * 4, 0, 16, .rw, .imm, 0, false⟩
def HST_CFG_NOTE_MIN (p : Nat) : Fld := ⟨0x7000 + p * 256, 8, 3, .rw, .imm, 2, false⟩
def HST_CFG_NETL (p : Nat) : Fld := ⟨0x7000 + p * 256, 4, 2, .rw, .imm, 3, false⟩
def HST_CFG_DUMMY (p : Nat) : Fld := ⟨0x7000 + p * 256, 0, 4, .rw, .imm, 8, false⟩
def HST_PSTAT_REPLIES (p : Nat) : Fld := ⟨0x7000 + p * 256 + 4, 24, 8, .ro, .imm, 0, false⟩
def HST_PSTAT_NETQ (p : Nat) : Fld := ⟨0x7000 + p * 256 + 4, 16, 8, .ro, .imm, 0, false⟩
def HST_PSTAT_LOCKET_FULL (p : Nat) : Fld := ⟨0x7000 + p * 256 + 4, 12, 4, .ro, .imm, 0, false⟩
def HST_PSTAT_MBX_FULL (p : Nat) : Fld := ⟨0x7000 + p * 256 + 4, 8, 4, .ro, .imm, 0, false⟩
def HST_PSTAT_KA (p : Nat) : Fld := ⟨0x7000 + p * 256 + 4, 4, 2, .ro, .imm, 0, false⟩
def HST_PSTAT_SEND_GO (p : Nat) : Fld := ⟨0x7000 + p * 256 + 4, 2, 2, .ro, .imm, 0, false⟩
def HST_KA_KICK (p : Nat) : Fld := ⟨0x7000 + p * 256 + 8, 31, 1, .wo, .imm, 0, false⟩
def HST_KA_PERIOD (p : Nat) : Fld := ⟨0x7000 + p * 256 + 8, 0, 16, .rw, .imm, 1000, false⟩
def HST_IRQ_STAT_LAPSED (p : Nat) : Fld := ⟨0x7000 + p * 256 + 12, 11, 1, .w1c, .imm, 0, false⟩
def HST_IRQ_STAT_CLASP_FREED (p : Nat) : Fld := ⟨0x7000 + p * 256 + 12, 10, 1, .w1c, .imm, 0, false⟩
def HST_IRQ_STAT_KA_WARN (p : Nat) : Fld := ⟨0x7000 + p * 256 + 12, 9, 1, .w1c, .imm, 0, false⟩
def HST_IRQ_STAT_ERR (p : Nat) : Fld := ⟨0x7000 + p * 256 + 12, 8, 1, .w1c, .imm, 0, false⟩
def HST_IRQ_STAT_DOORBELL (p : Nat) : Fld := ⟨0x7000 + p * 256 + 12, 4, 1, .ro, .imm, 0, false⟩
def HST_IRQ_STAT_LOCKET (p : Nat) : Fld := ⟨0x7000 + p * 256 + 12, 3, 1, .ro, .imm, 0, false⟩
def HST_IRQ_STAT_MBX (p : Nat) : Fld := ⟨0x7000 + p * 256 + 12, 2, 1, .ro, .imm, 0, false⟩
def HST_IRQ_STAT_NET (p : Nat) : Fld := ⟨0x7000 + p * 256 + 12, 1, 1, .ro, .imm, 0, false⟩
def HST_IRQ_STAT_REPLY (p : Nat) : Fld := ⟨0x7000 + p * 256 + 12, 0, 1, .ro, .imm, 0, false⟩
def HST_IRQ_EN (p : Nat) : Fld := ⟨0x7000 + p * 256 + 16, 0, 32, .rw, .imm, 3871, false⟩
def HST_DB_SET (p : Nat) : Fld := ⟨0x7000 + p * 256 + 20, 16, 16, .wo, .imm, 0, false⟩
def HST_DB_PEND (p : Nat) : Fld := ⟨0x7000 + p * 256 + 20, 0, 16, .w1c, .imm, 0, false⟩
def HST_ERR_BAD_INSTR (p : Nat) : Fld := ⟨0x7000 + p * 256 + 24, 24, 8, .rw, .imm, 0, false⟩
def HST_ERR_PKT_BAD (p : Nat) : Fld := ⟨0x7000 + p * 256 + 24, 16, 8, .rw, .imm, 0, false⟩
def HST_ERR_MBX_ERR (p : Nat) : Fld := ⟨0x7000 + p * 256 + 24, 8, 8, .rw, .imm, 0, false⟩
def HST_ERR_MBX_BUSY (p : Nat) : Fld := ⟨0x7000 + p * 256 + 24, 0, 8, .rw, .imm, 0, false⟩
def HST_ERR2_CLASP_DENY (p : Nat) : Fld := ⟨0x7000 + p * 256 + 28, 16, 16, .rw, .imm, 0, false⟩
def HST_ERR2_PKT_DROP (p : Nat) : Fld := ⟨0x7000 + p * 256 + 28, 0, 16, .rw, .imm, 0, false⟩
def HST_ERRLAST_OPCODE (p : Nat) : Fld := ⟨0x7000 + p * 256 + 32, 16, 16, .ro, .imm, 0, false⟩
def HST_ERRLAST_REASON (p : Nat) : Fld := ⟨0x7000 + p * 256 + 32, 4, 4, .ro, .imm, 0, false⟩
def HST_ERRLAST_RING (p : Nat) : Fld := ⟨0x7000 + p * 256 + 32, 0, 4, .ro, .imm, 0, false⟩
def HST_NET_DROP (p : Nat) : Fld := ⟨0x7000 + p * 256 + 36, 16, 16, .rw, .imm, 0, false⟩
def HST_NOTE0 (p : Nat) : Fld := ⟨0x7000 + p * 256 + 40, 0, 32, .rw, .imm, 228, false⟩
def HST_NOTE1 (p : Nat) : Fld := ⟨0x7000 + p * 256 + 44, 0, 32, .rw, .imm, 282, false⟩
def HST_CLASP_OWNER (n : Nat) : Fld := ⟨0x7200 + n * 4, 0, 2, .take, .imm, 0, false⟩
def HST_TIE : Fld := ⟨0x7200 + 128, 0, 2, .ro, .imm, 1, false⟩
def MBX_WORD (p k w : Nat) : Fld := ⟨0x8000 + p * 1024 + k * 256 + w * 4, 0, 32, .ro, .imm, 0, false⟩
def MBX_STAT_FULL (p k : Nat) : Fld := ⟨0x8000 + p * 1024 + k * 256 + 128, 8, 1, .ro, .imm, 0, false⟩
def MBX_STAT_LEN (p k : Nat) : Fld := ⟨0x8000 + p * 1024 + k * 256 + 128, 0, 5, .ro, .imm, 0, false⟩
def MBX_NSEQ (p k : Nat) : Fld := ⟨0x8000 + p * 1024 + k * 256 + 132, 0, 8, .ro, .imm, 0, false⟩
def WIDE_SEL (p : Nat) : Fld := ⟨0xE000 + p * 256, 0, 16, .rw, .imm, 0, false⟩
def WIDE_STAT_BADSEL (p : Nat) : Fld := ⟨0xE000 + p * 256 + 4, 1, 1, .ro, .imm, 0, false⟩
def WIDE_STAT_VALID (p : Nat) : Fld := ⟨0xE000 + p * 256 + 4, 0, 1, .ro, .imm, 0, false⟩
def WIDE_W0_WIDE0 (p : Nat) : Fld := ⟨0xE000 + p * 256 + 16, 0, 32, .ro, .imm, 0, false⟩
def WIDE_W1_WIDE1 (p : Nat) : Fld := ⟨0xE000 + p * 256 + 20, 0, 32, .ro, .imm, 0, false⟩
def WIDE_W2_WIDE2 (p : Nat) : Fld := ⟨0xE000 + p * 256 + 24, 0, 32, .ro, .imm, 0, false⟩
def WIDE_W3_WIDE3 (p : Nat) : Fld := ⟨0xE000 + p * 256 + 28, 0, 32, .ro, .imm, 0, false⟩
def SEC_GUARD_MISM_B : Fld := ⟨0xA080, 24, 8, .rw, .imm, 0, false⟩
def SEC_GUARD_MISM_A : Fld := ⟨0xA080, 16, 8, .rw, .imm, 0, false⟩
def SEC_GUARD_LOCK_B : Fld := ⟨0xA080, 1, 1, .ro, .imm, 0, true⟩
def SEC_GUARD_LOCK_A : Fld := ⟨0xA080, 0, 1, .ro, .imm, 0, true⟩
def SEC_PRES_CTRL_PORTS : Fld := ⟨0xA000, 16, 2, .grd, .imm, 3, false⟩
def SEC_PRES_CTRL_LEN : Fld := ⟨0xA000, 0, 9, .grd, .imm, 60, false⟩
def SEC_PRES_STAT_BUTTON : Fld := ⟨0xA000 + 4, 3, 1, .ro, .imm, 0, false⟩
def SEC_PRES_STAT_JUMPER : Fld := ⟨0xA000 + 4, 2, 1, .ro, .imm, 0, false⟩
def SEC_PRES_STAT_OPEN_B : Fld := ⟨0xA000 + 4, 1, 1, .ro, .imm, 0, false⟩
def SEC_PRES_STAT_OPEN_A : Fld := ⟨0xA000 + 4, 0, 1, .ro, .imm, 0, false⟩
def SEC_PRES_REM_REM_B : Fld := ⟨0xA000 + 8, 16, 9, .ro, .imm, 0, false⟩
def SEC_PRES_REM_REM_A : Fld := ⟨0xA000 + 8, 0, 9, .ro, .imm, 0, false⟩
def SEC_PRES_CLOSE : Fld := ⟨0xA000 + 12, 0, 1, .wo, .imm, 0, false⟩
def SEC_SEAL_BREAKS : Fld := ⟨0xA000 + 16, 16, 16, .ro, .imm, 0, true⟩
def SEC_SEAL_NHIST : Fld := ⟨0xA000 + 16, 8, 4, .ro, .imm, 1, true⟩
def SEC_SEAL_INTACT : Fld := ⟨0xA000 + 16, 0, 1, .ro, .imm, 0, false⟩
def SEC_KEY_OWNER : Fld := ⟨0xA000 + 20, 18, 1, .ro, .imm, 0, false⟩
def SEC_KEY_OWRIT : Fld := ⟨0xA000 + 20, 16, 2, .ro, .imm, 0, false⟩
def SEC_KEY_FAILED : Fld := ⟨0xA000 + 20, 12, 4, .ro, .imm, 0, false⟩
def SEC_KEY_USED : Fld := ⟨0xA000 + 20, 8, 4, .ro, .imm, 0, false⟩
def SEC_KEY_VALID : Fld := ⟨0xA000 + 20, 2, 1, .ro, .imm, 0, false⟩
def SEC_KEY_SLOT : Fld := ⟨0xA000 + 20, 0, 2, .ro, .imm, 0, false⟩
def SEC_BOOT_TRIES : Fld := ⟨0xA000 + 24, 2, 2, .ro, .imm, 0, false⟩
def SEC_BOOT_FALLBACK : Fld := ⟨0xA000 + 24, 1, 1, .ro, .imm, 0, false⟩
def SEC_BOOT_IMAGE : Fld := ⟨0xA000 + 24, 0, 1, .ro, .imm, 0, false⟩
def SEC_FW_FW_VER : Fld := ⟨0xA000 + 28, 0, 32, .ro, .imm, 0, false⟩
def SEC_SVN : Fld := ⟨0xA000 + 32, 0, 32, .ro, .imm, 0, false⟩
def SEC_FLOOR : Fld := ⟨0xA000 + 36, 0, 32, .ro, .imm, 0, false⟩
def SEC_DBG_REM : Fld := ⟨0xA000 + 40, 15, 17, .ro, .imm, 0, false⟩
def SEC_DBG_SINCE : Fld := ⟨0xA000 + 40, 5, 1, .ro, .imm, 0, false⟩
def SEC_DBG_LOUPE_DIS : Fld := ⟨0xA000 + 40, 4, 1, .ro, .imm, 0, false⟩
def SEC_DBG_DBG_DIS : Fld := ⟨0xA000 + 40, 3, 1, .ro, .imm, 0, false⟩
def SEC_DBG_CLOSE : Fld := ⟨0xA000 + 40, 2, 1, .wo, .imm, 0, false⟩
def SEC_DBG_LOUPE : Fld := ⟨0xA000 + 40, 1, 1, .ro, .imm, 0, false⟩
def SEC_DBG_DEBUG : Fld := ⟨0xA000 + 40, 0, 1, .ro, .imm, 0, false⟩
def SEC_HIST (hw : Nat) : Fld := ⟨0xA000 + 256 + hw * 4, 0, 32, .ro, .imm, 0, true⟩
def CLK_PWR_REQ : Fld := ⟨0x5000, 0, 2, .grd, .imm, 0, false⟩
def CLK_STAT_ON : Fld := ⟨0x5000 + 4, 16, 8, .ro, .imm, 0, false⟩
def CLK_STAT_VSENSE : Fld := ⟨0x5000 + 4, 11, 1, .ro, .imm, 0, false⟩
def CLK_STAT_XTAL : Fld := ⟨0x5000 + 4, 10, 1, .ro, .imm, 0, false⟩
def CLK_STAT_LOCK : Fld := ⟨0x5000 + 4, 9, 1, .ro, .imm, 0, false⟩
def CLK_STAT_INTOSC : Fld := ⟨0x5000 + 4, 8, 1, .ro, .imm, 1, false⟩
def CLK_STAT_PSTATE : Fld := ⟨0x5000 + 4, 0, 2, .ro, .imm, 1, false⟩
def CLK_WAKE_EN : Fld := ⟨0x5000 + 8, 0, 5, .rw, .imm, 31, true⟩
def CLK_WAKE_STAT_VAON_POR : Fld := ⟨0x5000 + 12, 16, 1, .w1c, .imm, 1, true⟩
def CLK_WAKE_STAT_WAKE : Fld := ⟨0x5000 + 12, 0, 5, .w1c, .imm, 0, true⟩
def CLK_ALARM_LO : Fld := ⟨0x5000 + 16, 0, 32, .rw, .imm, 0, true⟩
def CLK_ALARM_HI_ALARM_ARM : Fld := ⟨0x5000 + 20, 31, 1, .rw, .imm, 0, true⟩
def CLK_ALARM_HI : Fld := ⟨0x5000 + 20, 0, 16, .rw, .imm, 0, true⟩
def CLK_MON_FAILS : Fld := ⟨0x5000 + 24, 0, 16, .rw, .imm, 0, false⟩
def CLK_START_NOLOCK : Fld := ⟨0x5000 + 28, 8, 8, .ro, .imm, 0, false⟩
def CLK_START_STEP : Fld := ⟨0x5000 + 28, 0, 4, .ro, .imm, 1, false⟩
def ADC_ISLOT_DISC (c j : Nat) : Fld := ⟨0x80000 + c * 256 + 192 + j * 4, 15, 1, .rw, .stg, 0, false⟩
def ADC_ISLOT_ACC (c j : Nat) : Fld := ⟨0x80000 + c * 256 + 192 + j * 4, 8, 7, .rw, .stg, 0, false⟩
def ADC_ISLOT_AIN (c j : Nat) : Fld := ⟨0x80000 + c * 256 + 192 + j * 4, 0, 6, .rw, .stg, 0, false⟩
def TIM_INC_FRAC : Fld := ⟨0x6000 + 16, 0, 32, .rw, .imm, 0, false⟩
def TIM_INC_INT : Fld := ⟨0x6000 + 20, 0, 32, .rw, .imm, 524288, false⟩
def TIM_TAI_LO_BASE : Fld := ⟨0x6000 + 32, 0, 32, .rw, .imm, 0, false⟩
def TIM_TAI_HI_BASE : Fld := ⟨0x6000 + 36, 0, 32, .rw, .imm, 0, false⟩
end F

/-- The fields of the register at offset `o` of one SYS instance. -/
def fieldsSYS0 (o : Nat) : List Fld :=
  if o = 0 then [F.SYS_FRM_LEN] else
  []

/-- The fields of the register at offset `o` of one SYS instance. -/
def fieldsSYS1 (o : Nat) : List Fld :=
  if o = 0 then [F.SYS_FRM_UPL_END] else
  []

/-- The fields of the register at offset `o` of one SYS instance. -/
def fieldsSYS2 (o : Nat) : List Fld :=
  if o = 0 then [F.SYS_FRM_CMP_END] else
  []

/-- The fields of the register at offset `o` of one SYS instance. -/
def fieldsSYS3 (o : Nat) : List Fld :=
  if o = 0 then [F.SYS_FRM_DNL_END] else
  []

/-- The fields of the register at offset `o` of one SYS instance. -/
def fieldsSYS4 (o : Nat) : List Fld :=
  if o = 0 then [F.SYS_FRM_CTRL_AUTO, F.SYS_FRM_CTRL_RUNNING] else
  []

/-- The fields of the register at offset `o` of one SYS instance. -/
def fieldsSYS5 (o : Nat) : List Fld :=
  if o = 0 then [F.SYS_FRM_STAT_SEQ, F.SYS_FRM_STAT_WINDOW] else
  []

/-- The fields of the register at offset `o` of one SYS instance. -/
def fieldsSYS6 (o : Nat) : List Fld :=
  if 0 ≤ o ∧ o < 12 ∧ (o - 0) % 4 = 0 then [F.SYS_MOD_BUS_MUX_ADDR ((o - 0) / 4), F.SYS_MOD_BUS_FAST ((o - 0) / 4), F.SYS_MOD_BUS_POLL ((o - 0) / 4)] else
  []

/-- The fields of the register at offset `o` of one SYS instance. -/
def fieldsSYS7 (o : Nat) : List Fld :=
  if o = 0 then [F.SYS_MCORE_ROLE, F.SYS_MCORE_SINGLE, F.SYS_MCORE_MISMATCH] else
  if o = 4 then [F.SYS_LRET_DOWN_TH, F.SYS_LRET_WIN, F.SYS_LRET_EN] else
  []

/-- The fields of the register at offset `o` of one CLK instance. -/
def fieldsCLK (o : Nat) : List Fld :=
  if o = 0 then [F.CLK_PWR_REQ] else
  if o = 4 then [F.CLK_STAT_PSTATE, F.CLK_STAT_INTOSC, F.CLK_STAT_LOCK, F.CLK_STAT_XTAL, F.CLK_STAT_VSENSE, F.CLK_STAT_ON] else
  if o = 8 then [F.CLK_WAKE_EN] else
  if o = 12 then [F.CLK_WAKE_STAT_WAKE, F.CLK_WAKE_STAT_VAON_POR] else
  if o = 16 then [F.CLK_ALARM_LO] else
  if o = 20 then [F.CLK_ALARM_HI, F.CLK_ALARM_HI_ALARM_ARM] else
  if o = 24 then [F.CLK_MON_FAILS] else
  if o = 28 then [F.CLK_START_STEP, F.CLK_START_NOLOCK] else
  []

/-- The fields of the register at offset `o` of one TIM instance. -/
def fieldsTIM0 (o : Nat) : List Fld :=
  if o = 0 then [F.TIM_CTRL_HOLD_SEED, F.TIM_CTRL_NET_TS_EN, F.TIM_CTRL_NET_VLAN] else
  if o = 16 then [F.TIM_INC_FRAC] else
  if o = 20 then [F.TIM_INC_INT] else
  if o = 32 then [F.TIM_TAI_LO_BASE] else
  if o = 36 then [F.TIM_TAI_HI_BASE] else
  []

/-- The fields of the register at offset `o` of one TIM instance. -/
def fieldsTIM1 (o : Nat) : List Fld :=
  if o = 0 then [F.TIM_STAT_COARSE, F.TIM_STAT_LOCK, F.TIM_STAT_TSRC, F.TIM_STAT_WRAP, F.TIM_STAT_STEPPED, F.TIM_STAT_INC_REJ, F.TIM_STAT_SKIP] else
  []

/-- The fields of the register at offset `o` of one TIM instance. -/
def fieldsTIM2 (o : Nat) : List Fld :=
  if o = 0 then [F.TIM_EPOCH] else
  []

/-- The fields of the register at offset `o` of one TIM instance. -/
def fieldsTIM3 (n : Nat) (o : Nat) : List Fld :=
  if o = 0 then [F.TIM_OUT_CTRL_MODE n, F.TIM_OUT_CTRL_POL n, F.TIM_OUT_CTRL_REJ n, F.TIM_OUT_CTRL_PEND n] else
  if o = 4 then [F.TIM_OUT_TGT_LO n] else
  if o = 8 then [F.TIM_OUT_TGT_HI n] else
  if o = 12 then [F.TIM_OUT_PER_LO n] else
  if o = 16 then [F.TIM_OUT_PER_HI n] else
  if o = 20 then [F.TIM_OUT_WIDTH n] else
  []

/-- The fields of the register at offset `o` of one TIM instance. -/
def fieldsTIM4 (n : Nat) (o : Nat) : List Fld :=
  if o = 0 then [F.TIM_CAP_CTRL_EDGE n, F.TIM_CAP_CTRL_FILT n, F.TIM_CAP_CTRL_ACQ_TRIG n] else
  if o = 4 then [F.TIM_CAP_STAT_LEVEL n, F.TIM_CAP_STAT_OVF n] else
  []

/-- The fields of the register at offset `o` of one HST instance. -/
def fieldsHST0 (p : Nat) (o : Nat) : List Fld :=
  if o = 0 then [F.HST_CFG_DUMMY p, F.HST_CFG_NETL p, F.HST_CFG_NOTE_MIN p] else
  if o = 4 then [F.HST_PSTAT_SEND_GO p, F.HST_PSTAT_KA p, F.HST_PSTAT_MBX_FULL p, F.HST_PSTAT_LOCKET_FULL p, F.HST_PSTAT_NETQ p, F.HST_PSTAT_REPLIES p] else
  if o = 8 then [F.HST_KA_PERIOD p, F.HST_KA_KICK p] else
  if o = 12 then [F.HST_IRQ_STAT_REPLY p, F.HST_IRQ_STAT_NET p, F.HST_IRQ_STAT_MBX p, F.HST_IRQ_STAT_LOCKET p, F.HST_IRQ_STAT_DOORBELL p, F.HST_IRQ_STAT_ERR p, F.HST_IRQ_STAT_KA_WARN p, F.HST_IRQ_STAT_CLASP_FREED p, F.HST_IRQ_STAT_LAPSED p] else
  if o = 16 then [F.HST_IRQ_EN p] else
  if o = 20 then [F.HST_DB_PEND p, F.HST_DB_SET p] else
  if o = 24 then [F.HST_ERR_MBX_BUSY p, F.HST_ERR_MBX_ERR p, F.HST_ERR_PKT_BAD p, F.HST_ERR_BAD_INSTR p] else
  if o = 28 then [F.HST_ERR2_PKT_DROP p, F.HST_ERR2_CLASP_DENY p] else
  if o = 32 then [F.HST_ERRLAST_RING p, F.HST_ERRLAST_REASON p, F.HST_ERRLAST_OPCODE p] else
  if o = 36 then [F.HST_NET_DROP p] else
  if o = 40 then [F.HST_NOTE0 p] else
  if o = 44 then [F.HST_NOTE1 p] else
  []

/-- The fields of the register at offset `o` of one HST instance. -/
def fieldsHST1 (o : Nat) : List Fld :=
  if 0 ≤ o ∧ o < 128 ∧ (o - 0) % 4 = 0 then [F.HST_CLASP_OWNER ((o - 0) / 4)] else
  if o = 128 then [F.HST_TIE] else
  []

/-- The fields of the register at offset `o` of one MBX instance. -/
def fieldsMBX (p k : Nat) (o : Nat) : List Fld :=
  if 0 ≤ o ∧ o < 64 ∧ (o - 0) % 4 = 0 then [F.MBX_WORD p k ((o - 0) / 4)] else
  if o = 128 then [F.MBX_STAT_LEN p k, F.MBX_STAT_FULL p k] else
  if o = 132 then [F.MBX_NSEQ p k] else
  []

/-- The fields of the register at offset `o` of one FLT instance. -/
def fieldsFLT (o : Nat) : List Fld :=
  if o = 0 then [F.FLT_CTRL_LOG_MIN, F.FLT_CTRL_FF_MIN, F.FLT_CTRL_AON_MIN] else
  if o = 4 then [F.FLT_STAT_CLASSMAX, F.FLT_STAT_FF_VALID, F.FLT_STAT_COMP_VALID, F.FLT_STAT_TRIPPED, F.FLT_STAT_LOCKOUT, F.FLT_STAT_PREV_LOCKOUT, F.FLT_STAT_LOST] else
  if o = 8 then [F.FLT_LOG_SEQ] else
  if o = 12 then [F.FLT_AON_SEQ] else
  if o = 16 then [F.FLT_LOGRD] else
  if o = 20 then [F.FLT_AONRD] else
  if 32 ≤ o ∧ o < 48 ∧ (o - 32) % 4 = 0 then [F.FLT_PEND_A ((o - 32) / 4)] else
  if 48 ≤ o ∧ o < 64 ∧ (o - 48) % 4 = 0 then [F.FLT_PEND_B ((o - 48) / 4)] else
  if 512 ≤ o ∧ o < 1024 ∧ (o - 512) % 4 = 0 then [F.FLT_SEV ((o - 512) / 4)] else
  if 1024 ≤ o ∧ o < 1536 ∧ (o - 1024) % 4 = 0 then [F.FLT_CFG_IRQA ((o - 1024) / 4), F.FLT_CFG_IRQB ((o - 1024) / 4), F.FLT_CFG_ESC_U ((o - 1024) / 4), F.FLT_CFG_ESC_W ((o - 1024) / 4), F.FLT_CFG_ESC_N ((o - 1024) / 4)] else
  if 1536 ≤ o ∧ o < 2048 ∧ (o - 1536) % 4 = 0 then [F.FLT_CNT ((o - 1536) / 4), F.FLT_CNT_WCNT ((o - 1536) / 4), F.FLT_CNT_WCLASS ((o - 1536) / 4)] else
  []

/-- The fields of the register at offset `o` of one SEC instance. -/
def fieldsSEC0 (o : Nat) : List Fld :=
  if o = 0 then [F.SEC_GUARD_LOCK_A, F.SEC_GUARD_LOCK_B, F.SEC_GUARD_MISM_A, F.SEC_GUARD_MISM_B] else
  []

/-- The fields of the register at offset `o` of one SEC instance. -/
def fieldsSEC1 (o : Nat) : List Fld :=
  if o = 0 then [F.SEC_PRES_CTRL_LEN, F.SEC_PRES_CTRL_PORTS] else
  if o = 4 then [F.SEC_PRES_STAT_OPEN_A, F.SEC_PRES_STAT_OPEN_B, F.SEC_PRES_STAT_JUMPER, F.SEC_PRES_STAT_BUTTON] else
  if o = 8 then [F.SEC_PRES_REM_REM_A, F.SEC_PRES_REM_REM_B] else
  if o = 12 then [F.SEC_PRES_CLOSE] else
  if o = 16 then [F.SEC_SEAL_INTACT, F.SEC_SEAL_NHIST, F.SEC_SEAL_BREAKS] else
  if o = 20 then [F.SEC_KEY_SLOT, F.SEC_KEY_VALID, F.SEC_KEY_USED, F.SEC_KEY_FAILED, F.SEC_KEY_OWRIT, F.SEC_KEY_OWNER] else
  if o = 24 then [F.SEC_BOOT_IMAGE, F.SEC_BOOT_FALLBACK, F.SEC_BOOT_TRIES] else
  if o = 28 then [F.SEC_FW_FW_VER] else
  if o = 32 then [F.SEC_SVN] else
  if o = 36 then [F.SEC_FLOOR] else
  if o = 40 then [F.SEC_DBG_DEBUG, F.SEC_DBG_LOUPE, F.SEC_DBG_CLOSE, F.SEC_DBG_DBG_DIS, F.SEC_DBG_LOUPE_DIS, F.SEC_DBG_SINCE, F.SEC_DBG_REM] else
  if 256 ≤ o ∧ o < 384 ∧ (o - 256) % 4 = 0 then [F.SEC_HIST ((o - 256) / 4)] else
  []

/-- The fields of the register at offset `o` of one THM instance. -/
def fieldsTHM (o : Nat) : List Fld :=
  if o = 0 then [F.THM_CTRL_BEAD_EN, F.THM_CTRL_FAST_EN, F.THM_CTRL_DWELL, F.THM_CTRL_HYST] else
  if o = 4 then [F.THM_SUB_SUBM, F.THM_SUB_HOLD] else
  if o = 8 then [F.THM_SILENT_FR] else
  if 16 ≤ o ∧ o < 32 ∧ (o - 16) % 4 = 0 then [F.THM_DLSET_LSET ((o - 16) / 4)] else
  if o = 32 then [F.THM_DBRK_BROKEN] else
  if o = 36 then [F.THM_DSVC_SVC] else
  if o = 40 then [F.THM_DHOT] else
  if o = 44 then [F.THM_DOVER] else
  if o = 48 then [F.THM_CNT_OVER, F.THM_CNT_BRK] else
  if 256 ≤ o ∧ o < 512 ∧ (o - 256) % 32 = 0 then [F.THM_THR ((o - 256) / 32)] else
  if 260 ≤ o ∧ o < 516 ∧ (o - 260) % 32 = 0 then [F.THM_TRIP ((o - 260) / 32)] else
  if 264 ≤ o ∧ o < 520 ∧ (o - 264) % 32 = 0 then [F.THM_RLIM ((o - 264) / 32)] else
  if 268 ≤ o ∧ o < 524 ∧ (o - 268) % 32 = 0 then [F.THM_RK ((o - 268) / 32)] else
  if 272 ≤ o ∧ o < 528 ∧ (o - 272) % 32 = 0 then [F.THM_BAND ((o - 272) / 32)] else
  if 276 ≤ o ∧ o < 532 ∧ (o - 276) % 32 = 0 then [F.THM_WIN_FMGN ((o - 276) / 32), F.THM_WIN_RWIN ((o - 276) / 32)] else
  []

/-- The fields of the register at offset `o` of one TWN instance. -/
def fieldsTWN (o : Nat) : List Fld :=
  if o = 0 then [F.TWN_CTRL_EN, F.TWN_CTRL_REVERT, F.TWN_CTRL_PREF, F.TWN_CTRL_YIELD_EN, F.TWN_CTRL_WIT_MIN] else
  if o = 4 then [F.TWN_STAT_STATE, F.TWN_STAT_UNIT, F.TWN_STAT_SYNCED, F.TWN_STAT_H1_UP, F.TWN_STAT_H2_UP, F.TWN_STAT_WIT_SILENT, F.TWN_STAT_HBK_PEND, F.TWN_STAT_H1_MISS, F.TWN_STAT_H2_MISS] else
  if o = 8 then [F.TWN_EPOCH] else
  if o = 12 then [F.TWN_HOLD] else
  if o = 16 then [F.TWN_HBK_HBK_SEQ] else
  if o = 20 then [F.TWN_SYNCW] else
  if o = 24 then [F.TWN_CNT_DEMOTIONS, F.TWN_CNT_YIELDS, F.TWN_CNT_HANDBACKS, F.TWN_CNT_TAKEOVERS] else
  if o = 28 then [F.TWN_D_TW] else
  if 32 ≤ o ∧ o < 48 ∧ (o - 32) % 4 = 0 then [F.TWN_YMASK ((o - 32) / 4)] else
  []

/-- The fields of the register at offset `o` of one STK instance. -/
def fieldsSTK (o : Nat) : List Fld :=
  if o = 0 then [F.STK_CTRL_EN, F.STK_CTRL_DEP_EN, F.STK_CTRL_RING, F.STK_CTRL_QPROP, F.STK_CTRL_NDEV, F.STK_CTRL_ORPHAN] else
  if o = 4 then [F.STK_STAT_ROLE, F.STK_STAT_MASTER_ID, F.STK_STAT_BROKEN, F.STK_STAT_SP_STALE, F.STK_STAT_MISS, F.STK_STAT_PRESENT, F.STK_STAT_RSTALE] else
  if o = 8 then [F.STK_ID] else
  if o = 12 then [F.STK_EPOCH] else
  if o = 16 then [F.STK_SBASE] else
  if o = 20 then [F.STK_RBASE] else
  if o = 24 then [F.STK_RSRC] else
  if o = 28 then [F.STK_CNT_MISS_CNT, F.STK_CNT_CRC_ERR] else
  if o = 32 then [F.STK_D_MAX] else
  if 256 ≤ o ∧ o < 320 ∧ (o - 256) % 4 = 0 then [F.STK_MTX ((o - 256) / 4)] else
  if o = 320 then [F.STK_MTX_CTRL_GO, F.STK_MTX_CTRL_DST, F.STK_MTX_CTRL_LEN, F.STK_MTX_CTRL_MSEQ] else
  if 384 ≤ o ∧ o < 448 ∧ (o - 384) % 4 = 0 then [F.STK_MRX ((o - 384) / 4)] else
  if o = 448 then [F.STK_MRX_STAT_FULL, F.STK_MRX_STAT_SRC, F.STK_MRX_STAT_LEN] else
  []

/-- The fields of the register at offset `o` of one WIDE instance. -/
def fieldsWIDE (p : Nat) (o : Nat) : List Fld :=
  if o = 0 then [F.WIDE_SEL p] else
  if o = 4 then [F.WIDE_STAT_VALID p, F.WIDE_STAT_BADSEL p] else
  if o = 16 then [F.WIDE_W0_WIDE0 p] else
  if o = 20 then [F.WIDE_W1_WIDE1 p] else
  if o = 24 then [F.WIDE_W2_WIDE2 p] else
  if o = 28 then [F.WIDE_W3_WIDE3 p] else
  []

/-- The fields of the register at offset `o` of one LANE instance. -/
def fieldsLANE (n : Nat) (o : Nat) : List Fld :=
  if o = 0 then [F.LANE_CTRL_ROLE n, F.LANE_CTRL_STR n, F.LANE_CTRL_END n, F.LANE_CTRL_MAX_RATE n, F.LANE_CTRL_SPARE_FOR n] else
  if o = 4 then [F.LANE_STAT_RATE n, F.LANE_STAT_LOS n, F.LANE_STAT_LOL n, F.LANE_STAT_PHASE n, F.LANE_STAT_TEST n, F.LANE_STAT_HOPS n, F.LANE_STAT_RATES n, F.LANE_STAT_LOS_SEEN n, F.LANE_STAT_LOL_SEEN n] else
  if o = 8 then [F.LANE_BRING_DWELL n, F.LANE_BRING_ERR_LIM n] else
  if o = 12 then [F.LANE_ERR_DWELL_ERR n, F.LANE_ERR_REJOIN_FAIL n, F.LANE_ERR_DOWN_CNT n] else
  if o = 16 then [F.LANE_ASYM n] else
  if o = 20 then [F.LANE_NET_TXD n] else
  if o = 24 then [F.LANE_NET_RXD n] else
  if o = 28 then [F.LANE_DLY n] else
  if o = 32 then [F.LANE_LOS_TH n, F.LANE_LOS_HYST n] else
  if o = 36 then [F.LANE_MOD_CH n, F.LANE_MOD_BUS n, F.LANE_MOD_PRESENT n, F.LANE_MOD_DDM n] else
  []

/-- The fields of the register at offset `o` of one STR instance. -/
def fieldsSTR (s : Nat) (o : Nat) : List Fld :=
  if o = 0 then [F.STR_CTRL_EN s, F.STR_CTRL_NBEAD s, F.STR_CTRL_BEND s] else
  if o = 4 then [F.STR_STAT_UP s, F.STR_STAT_BROKEN s, F.STR_STAT_BREAK s, F.STR_STAT_HEARD s] else
  if o = 8 then [F.STR_ERR_ID_ERR s, F.STR_ERR_UPL_CRC s] else
  if o = 12 then [F.STR_MISS s] else
  if 16 ≤ o ∧ o < 64 ∧ (o - 16) % 4 = 0 then [F.STR_POS_BEAD s ((o - 16) / 4), F.STR_POS_VALID s ((o - 16) / 4)] else
  []

/-- The fields of the register at offset `o` of one BDT instance. -/
def fieldsBDT (b : Nat) (o : Nat) : List Fld :=
  if o = 0 then [F.BDT_STATE b, F.BDT_STATE_STRING b, F.BDT_STATE_ROLE b, F.BDT_STATE_SLOT b, F.BDT_STATE_FAILED b, F.BDT_STATE_READY b, F.BDT_STATE_UNCONF b] else
  if o = 4 then [F.BDT_HPER b] else
  if o = 8 then [F.BDT_DT_DAB_DT_P b, F.BDT_DT_DAB_DT_S b] else
  if o = 12 then [F.BDT_T0 b] else
  if o = 16 then [F.BDT_CNT_BYPASSES b, F.BDT_CNT_INSERTS b] else
  if o = 20 then [F.BDT_TCHG b] else
  if o = 24 then [F.BDT_CFGW b] else
  if o = 28 then [F.BDT_OC_LIM b] else
  if o = 32 then [F.BDT_UVLO b] else
  if o = 36 then [F.BDT_OVP_BYP b] else
  if o = 40 then [F.BDT_ASYM b] else
  []

/-- The fields of the register at offset `o` of one BTH instance. -/
def fieldsBTH (b : Nat) (o : Nat) : List Fld :=
  if o = 128 then [F.BTH_CFG_LSET b, F.BTH_CFG_HSG b] else
  if o = 132 then [F.BTH_STAT_EN b, F.BTH_STAT_BROKEN b, F.BTH_STAT_FAST b, F.BTH_STAT_HOT b] else
  if o = 136 then [F.BTH_EXC_THM_BEXC b] else
  if o = 140 then [F.BTH_HELD b] else
  if o = 144 then [F.BTH_TMAX b] else
  if 160 ≤ o ∧ o < 256 ∧ (o - 160) % 12 = 0 then [F.BTH_C0 b ((o - 160) / 12)] else
  if 164 ≤ o ∧ o < 260 ∧ (o - 164) % 12 = 0 then [F.BTH_C1 b ((o - 164) / 12)] else
  if 168 ≤ o ∧ o < 264 ∧ (o - 168) % 12 = 0 then [F.BTH_C2 b ((o - 168) / 12)] else
  []

/-- The fields of the register at offset `o` of one BSV instance. -/
def fieldsBSV (g : Nat) (o : Nat) : List Fld :=
  if o = 0 then [F.BSV_CTRL_EN g, F.BSV_CTRL_AUTO_BYP g, F.BSV_CTRL_AUTO_INS g, F.BSV_CTRL_PUMP_SPARE g, F.BSV_CTRL_BYP_TO g, F.BSV_CTRL_NMIN g, F.BSV_CTRL_NTGT g] else
  if o = 4 then [F.BSV_STAT_NSLOT g, F.BSV_STAT_READY_SP g, F.BSV_STAT_STEPPING g, F.BSV_STAT_DEGRADED g, F.BSV_STAT_SHORT g] else
  if o = 8 then [F.BSV_TB g] else
  if o = 12 then [F.BSV_CHG_VT g] else
  if o = 16 then [F.BSV_CHG_BAND g] else
  if o = 20 then [F.BSV_RDY_BAND g] else
  if o = 24 then [F.BSV_CHG_PHI g] else
  []

/-- The fields of the register at offset `o` of one TB instance. -/
def fieldsTB (t : Nat) (o : Nat) : List Fld :=
  if o = 0 then [F.TB_CTRL_EN t, F.TB_CTRL_AUTOARM t, F.TB_CTRL_GRP t] else
  if o = 4 then [F.TB_PER t] else
  if o = 8 then [F.TB_PHS t] else
  if o = 12 then [F.TB_PSTEP_PSTEP_MAX t] else
  if 16 ≤ o ∧ o < 32 ∧ (o - 16) % 4 = 0 then [F.TB_CMPX t ((o - 16) / 4)] else
  if o = 32 then [F.TB_CMPX_RT_RT0 t, F.TB_CMPX_RT_RT1 t, F.TB_CMPX_RT_RT2 t, F.TB_CMPX_RT_RT3 t] else
  if o = 36 then [F.TB_STAT_RUN t, F.TB_STAT_ARMED t, F.TB_STAT_UPDATE_LATE t, F.TB_STAT_PER_REJ t] else
  if o = 40 then [F.TB_POS t] else
  []

/-- The fields of the register at offset `o` of one CH instance. -/
def fieldsCH (c : Nat) (o : Nat) : List Fld :=
  if o = 0 then [F.CH_CTRL_EN c, F.CH_CTRL_TRIP_ACT c, F.CH_CTRL_TB c] else
  if o = 4 then [F.CH_ROUTE_BEAD c, F.CH_ROUTE_SW c, F.CH_ROUTE_PAIR c, F.CH_ROUTE_KIND c] else
  if o = 8 then [F.CH_CMP c] else
  if o = 12 then [F.CH_PHS c] else
  if o = 16 then [F.CH_MINT c] else
  if o = 20 then [F.CH_DMIN c] else
  if o = 24 then [F.CH_DMAX c] else
  if o = 28 then [F.CH_TRIP_N c, F.CH_TRIP_M c, F.CH_TRIP_TIN c, F.CH_TRIP_TEN c, F.CH_TRIP_BLANK c] else
  if o = 32 then [F.CH_STAT_DUTY_CLAMP c, F.CH_STAT_UPDATE_LATE c, F.CH_STAT_PHS_WRAP c, F.CH_STAT_DESC_OVF c, F.CH_STAT_LATCHED c, F.CH_STAT_ARMED c, F.CH_STAT_STEPPING c] else
  if o = 36 then [F.CH_TCNT_CNT c, F.CH_TCNT_CLEAN c, F.CH_TCNT_TOTAL c] else
  []

/-- The fields of the register at offset `o` of one EDG instance. -/
def fieldsEDG (o : Nat) : List Fld :=
  if o = 0 then [F.EDG_ARM] else
  if o = 4 then [F.EDG_STAT_SAFE, F.EDG_STAT_QUIESCED, F.EDG_STAT_HALT, F.EDG_STAT_CLK_LOST] else
  if 16 ≤ o ∧ o < 80 ∧ (o - 16) % 4 = 0 then [F.EDG_PAIR_POL_A ((o - 16) / 4), F.EDG_PAIR_POL_B ((o - 16) / 4), F.EDG_PAIR_SAFE_A ((o - 16) / 4), F.EDG_PAIR_SAFE_B ((o - 16) / 4), F.EDG_PAIR_LOC_ADJ ((o - 16) / 4)] else
  if 80 ≤ o ∧ o < 144 ∧ (o - 80) % 4 = 0 then [F.EDG_TRIP_POL ((o - 80) / 4), F.EDG_TRIP_FILT ((o - 80) / 4), F.EDG_TRIP_LEVEL ((o - 80) / 4)] else
  []

/-- The fields of the register at offset `o` of one GSV instance. -/
def fieldsGSV (o : Nat) : List Fld :=
  if 16 ≤ o ∧ o < 80 ∧ (o - 16) % 4 = 0 then [F.GSV_PAIR_HS_EN ((o - 16) / 4), F.GSV_PAIR_DFB_POL ((o - 16) / 4), F.GSV_PAIR_PC_EN ((o - 16) / 4), F.GSV_PAIR_DEN ((o - 16) / 4), F.GSV_PAIR_DSAT_TIN ((o - 16) / 4), F.GSV_PAIR_DSAT_EN ((o - 16) / 4), F.GSV_PAIR_HS_TO ((o - 16) / 4)] else
  if 80 ≤ o ∧ o < 144 ∧ (o - 80) % 4 = 0 then [F.GSV_GSM_TH ((o - 80) / 4), F.GSV_GSM_HYST ((o - 80) / 4), F.GSV_GSM_PAIR ((o - 80) / 4), F.GSV_GSM_KIND ((o - 80) / 4), F.GSV_GSM_FILT ((o - 80) / 4)] else
  if o = 144 then [F.GSV_DEN_EN, F.GSV_DEN_TOGGLE, F.GSV_DEN_LOW_FR, F.GSV_DEN_LVL] else
  if o = 148 then [F.GSV_STAT_LATCHED, F.GSV_STAT_HELD] else
  if o = 152 then [F.GSV_GSM_STAT_BELOW, F.GSV_GSM_STAT_UVLO_SEEN] else
  if o = 156 then [F.GSV_PC_WIDTH] else
  if o = 160 then [F.GSV_PC_OFS] else
  if o = 164 then [F.GSV_PC_MAXP] else
  if o = 168 then [F.GSV_CNT_ILK, F.GSV_CNT_HST] else
  if 1024 ≤ o ∧ o < 1408 ∧ (o - 1024) % 4 = 0 then [F.GSV_BEAD_HELD ((o - 1024) / 4), F.GSV_BEAD_LATCH ((o - 1024) / 4), F.GSV_BEAD_PC_DONE ((o - 1024) / 4), F.GSV_BEAD_PC_FAIL ((o - 1024) / 4), F.GSV_BEAD_PCNT ((o - 1024) / 4), F.GSV_BEAD_TOGGLING ((o - 1024) / 4)] else
  []

/-- The fields of the registers of ADC4: CHK and CST alone (R217). -/
def fieldsADC4 (o : Nat) : List Fld :=
  if o = 24 then [F.ADC_CHK_OFS 4, F.ADC_CHK_GAIN 4] else
  if o = 28 then [F.ADC_CST_RETIRED 4, F.ADC_CST_FAILED 4, F.ADC_CST_CHECKS 4] else
  []

/-- The fields of the register at offset `o` of one ADC instance. -/
def fieldsADC (c : Nat) (o : Nat) : List Fld :=
  if o = 0 then [F.ADC_CTRL_MODE c, F.ADC_CTRL_FSYNC c, F.ADC_CTRL_GO c, F.ADC_CTRL_SEQLEN c, F.ADC_CTRL_INJLEN c] else
  if o = 4 then [F.ADC_TRG_FRAME c, F.ADC_TRG_RCM c, F.ADC_TRG_RTB c] else
  if o = 8 then [F.ADC_TRGU_UCM c, F.ADC_TRGU_TINM c, F.ADC_TRGU_UTB c, F.ADC_TRGU_TRIPM c] else
  if o = 12 then [F.ADC_STAT_SLOT c, F.ADC_STAT_REG_RUN c, F.ADC_STAT_REG_Q c, F.ADC_STAT_INJ_RUN c, F.ADC_STAT_INJ_Q c, F.ADC_STAT_PHYS c] else
  if o = 16 then [F.ADC_CNT_REG_OVR c, F.ADC_CNT_INJ_OVR c] else
  if o = 20 then [F.ADC_TAINT c] else
  if o = 24 then [F.ADC_CHK_OFS c, F.ADC_CHK_GAIN c] else
  if o = 28 then [F.ADC_CST_RETIRED c, F.ADC_CST_FAILED c, F.ADC_CST_CHECKS c] else
  if 64 ≤ o ∧ o < 192 ∧ (o - 64) % 4 = 0 then [F.ADC_SLOT_AIN c ((o - 64) / 4), F.ADC_SLOT_ACC c ((o - 64) / 4), F.ADC_SLOT_DISC c ((o - 64) / 4)] else
  if 192 ≤ o ∧ o < 224 ∧ (o - 192) % 4 = 0 then [F.ADC_ISLOT_AIN c ((o - 192) / 4), F.ADC_ISLOT_ACC c ((o - 192) / 4), F.ADC_ISLOT_DISC c ((o - 192) / 4)] else
  []

/-- The fields of the register at offset `o` of one ACQ instance. -/
def fieldsACQ (o : Nat) : List Fld :=
  if o = 0 then [F.ACQ_CHK_EN, F.ACQ_CHK_DIV, F.ACQ_CHK_REF_FAULT] else
  if o = 4 then [F.ACQ_CHKLIM_OFS, F.ACQ_CHKLIM_GAIN] else
  if 32 ≤ o ∧ o < 64 ∧ (o - 32) % 4 = 0 then [F.ACQ_ALT_PRIM ((o - 32) / 4), F.ACQ_ALT_SPARE ((o - 32) / 4), F.ACQ_ALT_EN ((o - 32) / 4), F.ACQ_ALT_SEL ((o - 32) / 4), F.ACQ_ALT_AUTO ((o - 32) / 4), F.ACQ_ALT_ACC ((o - 32) / 4)] else
  []

/-- The fields of the register at offset `o` of one ACC instance. -/
def fieldsACC (a : Nat) (o : Nat) : List Fld :=
  if o = 0 then [F.ACC_CFG_MONE a, F.ACC_CFG_LCLR a, F.ACC_CFG_LWIN a] else
  if o = 4 then [F.ACC_GAIN a] else
  if o = 8 then [F.ACC_OFS a] else
  if o = 12 then [F.ACC_MEAN a] else
  if o = 16 then [F.ACC_EXT_MIN a, F.ACC_EXT_MAX a] else
  if o = 20 then [F.ACC_LEXT_LMIN a, F.ACC_LEXT_LMAX a] else
  if o = 24 then [F.ACC_STAT_COUNT a, F.ACC_STAT_TNT a, F.ACC_STAT_OVR a, F.ACC_STAT_EMPTY a, F.ACC_STAT_OVR_SEEN a] else
  []

/-- The fields of the register at offset `o` of one LPE instance. -/
def fieldsLPE (o : Nat) : List Fld :=
  if o = 0 then [F.LPE_CTRL_RUN, F.LPE_CTRL_CHK_EN, F.LPE_CTRL_SPARE_EN, F.LPE_CTRL_OVR_TRIP] else
  if o = 4 then [F.LPE_STAT_RUNNING, F.LPE_STAT_VERIFIED, F.LPE_STAT_OVR, F.LPE_STAT_HELD, F.LPE_STAT_VOTING, F.LPE_STAT_SWAPPED, F.LPE_STAT_RUN_REJ, F.LPE_STAT_OVR_CONSEC, F.LPE_STAT_VOTE_P] else
  if o = 8 then [F.LPE_ROLE] else
  if o = 12 then [F.LPE_CNT_OVR, F.LPE_CNT_MISMATCH] else
  if o = 16 then [F.LPE_CNT2_FPEV, F.LPE_CNT2_TRANSIENT] else
  if o = 20 then [F.LPE_COMMITS] else
  if o = 24 then [F.LPE_FCNT] else
  if o = 28 then [F.LPE_ARMG] else
  if o = 32 then [F.LPE_COEF_BANK, F.LPE_COEF_SWAP_PEND] else
  if o = 36 then [F.LPE_VFYCYC_WCET_CYC] else
  if o = 40 then [F.LPE_VFYCNT_WCET_CNT] else
  if o = 44 then [F.LPE_VFY_CODE, F.LPE_VFY_ENTRY] else
  if 48 ≤ o ∧ o < 64 ∧ (o - 48) % 4 = 0 then [F.LPE_PART_START ((o - 48) / 4), F.LPE_PART_LEN ((o - 48) / 4)] else
  if 64 ≤ o ∧ o < 80 ∧ (o - 64) % 4 = 0 then [F.LPE_PWC ((o - 64) / 4)] else
  if 128 ≤ o ∧ o < 192 ∧ (o - 128) % 4 = 0 then [F.LPE_RC_DIV ((o - 128) / 4), F.LPE_RC_BASE ((o - 128) / 4), F.LPE_RC_PHASE ((o - 128) / 4)] else
  if o = 192 then [F.LPE_ECC_ROW_TH, F.LPE_ECC_WIN, F.LPE_ECC_SPARES_LEFT] else
  if o = 196 then [F.LPE_ECC_CNT_REMAPS, F.LPE_ECC_CNT_CORR] else
  if 1024 ≤ o ∧ o < 2048 ∧ (o - 1024) % 4 = 0 then [F.LPE_SETP ((o - 1024) / 4)] else
  []

/-- The fields of the register at the base address `a` (R458, R460); none at a reserved offset (R459). -/
def fieldsAt (a : Nat) : List Fld :=
  if a < 0x20000 then
    if 0x4100 ≤ a ∧ a < 0x4104 then fieldsSYS0 (a - 0x4100) else
    if 0x4104 ≤ a ∧ a < 0x4108 then fieldsSYS1 (a - 0x4104) else
    if 0x4108 ≤ a ∧ a < 0x410c then fieldsSYS2 (a - 0x4108) else
    if 0x410c ≤ a ∧ a < 0x4110 then fieldsSYS3 (a - 0x410c) else
    if 0x4110 ≤ a ∧ a < 0x4114 then fieldsSYS4 (a - 0x4110) else
    if 0x4114 ≤ a ∧ a < 0x4118 then fieldsSYS5 (a - 0x4114) else
    if 0x6004 ≤ a ∧ a < 0x6008 then fieldsTIM1 (a - 0x6004) else
    if 0x6008 ≤ a ∧ a < 0x600c then fieldsTIM2 (a - 0x6008) else
    if 0xa080 ≤ a ∧ a < 0xa084 then fieldsSEC0 (a - 0xa080) else
    if 0x4300 ≤ a ∧ a < 0x4308 then fieldsSYS7 (a - 0x4300) else
    if 0x6200 ≤ a ∧ a < 0x6240 then fieldsTIM4 ((a - 0x6200) / 16) ((a - 0x6200) % 16) else
    if 0x4200 ≤ a ∧ a < 0x420c then fieldsSYS6 (a - 0x4200) else
    if 0x6100 ≤ a ∧ a < 0x61a0 then fieldsTIM3 ((a - 0x6100) / 32) ((a - 0x6100) % 32) else
    if 0x5000 ≤ a ∧ a < 0x5020 then fieldsCLK (a - 0x5000) else
    if 0xe000 ≤ a ∧ a < 0xe200 then fieldsWIDE ((a - 0xe000) / 256) ((a - 0xe000) % 256) else
    if 0x6000 ≤ a ∧ a < 0x6028 then fieldsTIM0 (a - 0x6000) else
    if 0x7000 ≤ a ∧ a < 0x7200 then fieldsHST0 ((a - 0x7000) / 256) ((a - 0x7000) % 256) else
    if 0xc000 ≤ a ∧ a < 0xc030 then fieldsTWN (a - 0xc000) else
    if 0x7200 ≤ a ∧ a < 0x7284 then fieldsHST1 (a - 0x7200) else
    if 0x8000 ≤ a ∧ a < 0x8800 then fieldsMBX ((a - 0x8000) / 1024) ((a - 0x8000) % 1024 / 256) ((a - 0x8000) % 256) else
    if 0xa000 ≤ a ∧ a < 0xa180 then fieldsSEC1 (a - 0xa000) else
    if 0xd000 ≤ a ∧ a < 0xd1c4 then fieldsSTK (a - 0xd000) else
    if 0xb000 ≤ a ∧ a < 0xb214 then fieldsTHM (a - 0xb000) else
    if 0x9000 ≤ a ∧ a < 0x9800 then fieldsFLT (a - 0x9000) else
    []
  else
    if 0x5f000 ≤ a ∧ a < 0x5f0c0 then fieldsBSV ((a - 0x5f000) / 32) ((a - 0x5f000) % 32) else
    if 0x84000 ≤ a ∧ a < 0x85000 then fieldsACC ((a - 0x84000) / 32) ((a - 0x84000) % 32) else
    if 0x20000 ≤ a ∧ a < 0x38000 then fieldsLANE ((a - 0x20000) / 4096) ((a - 0x20000) % 4096) else
    if 0x64000 ≤ a ∧ a < 0x68000 then fieldsCH ((a - 0x64000) / 64) ((a - 0x64000) % 64) else
    if 0x50000 ≤ a ∧ a < 0x56000 then fieldsBDT ((a - 0x50000) / 256) ((a - 0x50000) % 256) ++ fieldsBTH ((a - 0x50000) / 256) ((a - 0x50000) % 256) else
    if 0x60000 ≤ a ∧ a < 0x64000 then fieldsTB ((a - 0x60000) / 256) ((a - 0x60000) % 256) else
    if 0x40000 ≤ a ∧ a < 0x50000 then fieldsSTR ((a - 0x40000) / 4096) ((a - 0x40000) % 4096) else
    if 0x80800 ≤ a ∧ a < 0x80840 then fieldsACQ (a - 0x80800) else
    if 0x68000 ≤ a ∧ a < 0x68090 then fieldsEDG (a - 0x68000) else
    if 0x80000 ≤ a ∧ a < 0x80400 then fieldsADC ((a - 0x80000) / 256) ((a - 0x80000) % 256) else
    if 0x80400 ≤ a ∧ a < 0x80500 then fieldsADC4 (a - 0x80400) else
    if 0x70000 ≤ a ∧ a < 0x70580 then fieldsGSV (a - 0x70000) else
    if 0x90000 ≤ a ∧ a < 0x90800 then fieldsLPE (a - 0x90000) else
    []

end Sys2Proof.Machine
end

