-- ==== Sys2Proof/Machine/Tab.lean ====
section
/-! DEFINITION. A sparse table: a list of key and value pairs with rising keys that lists no default value, so that two
equal tables are equal lists. It holds every numbered unit of the block, its registers and its memories. -/
namespace Sys2Proof.Machine

/-- A sparse table from numbers to values of one kind. -/
abbrev Tab (α : Type) := List (Nat × α)

/-- The value at key `k`; the default `d` where the table lists none. -/
def tget {α : Type} (d : α) : Tab α → Nat → α
  | [], _ => d
  | (j, v) :: r, k => if j = k then v else tget d r k

/-- Insert a listed pair in key order, replacing an earlier value of the key. -/
def tins {α : Type} : Tab α → Nat → α → Tab α
  | [], k, v => [(k, v)]
  | (j, w) :: r, k, v =>
    if k < j then (k, v) :: (j, w) :: r else if k = j then (k, v) :: r else (j, w) :: tins r k v

/-- Remove a key. -/
def tdel {α : Type} (t : Tab α) (k : Nat) : Tab α := t.filter fun e => e.1 ≠ k

/-- Write `v` at key `k`: a default value is not listed. -/
def tput {α : Type} [DecidableEq α] (d : α) (t : Tab α) (k : Nat) (v : α) : Tab α :=
  if v = d then tdel t k else tins t k v

/-- The canonical form: keys strictly rising, no default listed. -/
def twf {α : Type} [DecidableEq α] (d : α) : Tab α → Bool
  | [] => true
  | (j, v) :: r => decide (v ≠ d) && (r.all fun e => decide (j < e.1)) && twf d r

/-- Optional look-up, for tables in which being absent is a state of its own. -/
def tfind {α : Type} : Tab α → Nat → Option α
  | [], _ => none
  | (j, v) :: r, k => if j = k then some v else tfind r k

end Sys2Proof.Machine
end

