-- ==== Sys2Proof/Syntax.lean ====
section
/-! DEFINITION. The commands of the block: one constructor per row of spec/opcode_table.json, in the table's order.
A command's operands are what its sender chooses: an instance number, a port, an address and a value, the bytes of a
frame, the header and parameter words of a command packet. -/
namespace Sys2Proof

/-- Where a command packet came from and what its header says (Table 16-1): the port (0 HPA, 1 HPB), whether it came
through a locket, the ring or locket number, the tag, the priority and the ACTIVE flag. -/
structure Hdr where
  port : Nat
  locket : Bool
  ring : Nat
  tag : BitVec 16
  prio : Nat
  active : Bool
deriving DecidableEq, Repr

/-- What one conversion of a physical converter was for: slot k of the regular or injected list of sequence c, or a
third of the reference in a check frame (R210). -/
inductive AdcSlot where
  | reg (c k : Nat)
  | inj (c k : Nat)
  | ref (third : Nat)
deriving DecidableEq, Repr

/-- What is seen of one TRIP ball: its level, and for how many counts it has stood there (R153). -/
structure TripIn where
  k : Nat
  high : Bool
  counts : Nat
deriving DecidableEq, Repr

/-- The level a DFB ball goes to (R164). -/
structure DfbIn where
  k : Nat
  high : Bool
deriving DecidableEq, Repr

/-- What is seen of one GSMON ball: its voltage in tenths of a mV, and for how many µs it has stood on that side (R170). -/
structure GsmIn where
  m : Nat
  dmv : Nat
  us : Nat
deriving DecidableEq, Repr

/-- The code of one conversion, which may lie outside the converter's range, and the device time of its sample (R199, R201). -/
structure Sample where
  code : Int
  t : BitVec 64
deriving DecidableEq, Repr

/-- The device time of an edge at a TRIG_IN ball, and for how many ns the ball was stable after it (R53). -/
structure TrigIn where
  t : BitVec 64
  stable : Nat
deriving DecidableEq, Repr

/-- A frame as a lane's receiver takes it: the bytes between its delimiters, and whether an ordered set has interrupted it (R124). -/
structure Rx where
  bytes : List Byte
  cut : Bool
deriving DecidableEq, Repr

/-- The commands. Operands: `p` a port (0 HPA, 1 HPB), `lane`, `b` a bead, `k` a local pair or input, `c` a channel or
sequence, `h ps` the header and parameter words of a command packet, `bytes` a frame as received; of a ball, what is seen of it. -/
inductive Instr where
  | frameBoundary
  | longWindowClose (a : Nat)
  | uplEnd
  | partitionComplete (cl : Nat) (flt : Option (Nat × Word))
  | lpeSpareReady
  | planInstant
  | bypassTimeout (b : Nat)
  | prechargeLimit (isPair : Bool) (n : Nat)
  | prechargeComplete
  | timebaseReload (t : Nat)
  | channelTransition (c : Nat)
  | cmpxFire (t m : Nat)
  | tripInputAssert (x : TripIn)
  | gateDesat (l : List TripIn)
  | dfbOffLevel (x : DfbIn)
  | gateHsTimeout (k : Nat)
  | dfbStuck (k : Nat)
  | gsmonFall (x : GsmIn)
  | gsmonRise (x : GsmIn)
  | edgeClkLost
  | debugHalt
  | denToggleEnd (m : Nat)
  | acqRegularTrigger (c : Nat)
  | acqUrgentTrigger (c : Nat)
  | acqPassEnd (c : Nat) (inj : Bool)
  | adcResult (phys : Nat) (slot : AdcSlot) (x : Sample)
  | uplinkRecordReceive (x : Rx) (strand : Nat) (fromB : Bool)
  | sensorSilentTimeout (b n : Nat)
  | thmHoldEnd (b : Nat)
  | housekeepingRound (counts : List (Option Nat)) (rails : List (Nat × Bool))
  | timWrap
  | pulseOutFire (n : Nat)
  | pulseWidthEnd (n : Nat)
  | trigInCapture (n : Nat) (rising : Bool) (x : TrigIn)
  | ttRequestSend (lane : Nat)
  | ttRequestReceive (lane seq turn : Nat)
  | ttResponseReceive (lane rtt seq turn : Nat)
  | netFrameReceive (lane : Nat) (fcsOk : Bool) (bytes : List Byte) (ts : BitVec 64)
  | laneLosAssert (lane : Nat)
  | laneLosDeassert (lane : Nat)
  | laneLolAssert (lane : Nat)
  | laneLolDeassert (lane : Nat)
  | laneLolPersist (lane : Nat) (testFail : Bool)
  | linkBringUp (lane : Nat)
  | capReceive (lane : Nat) (bytes : List Byte)
  | laneDwellEnd (lane errs : Nat) (lost : Bool)
  | capReportTimeout (lane : Nat)
  | laneFallbackEnd (lane : Nat)
  | laneStepFail (lane : Nat)
  | linkRejoin (lane errs : Nat) (lost : Bool)
  | linkRejoinRetry (lane : Nat)
  | loopTestEnd (lane bits errs : Nat) (lost : Bool)
  | modulePoll (lane : Nat) (page : Option (List Byte))
  | twinListenEnd
  | twinFrameReceive (lane : Nat) (x : Rx)
  | h1Deadline
  | twinSyncComplete
  | h2WordSend
  | h2WordReceive (w : Byte)
  | h2Deadline
  | hbInDown
  | twinYield
  | twinHoldExpire
  | mgmtLockstep
  | mgmtSelftestDone (p0 p1 : Bool)
  | cascadeFrameReceive (lane : Nat) (x : Rx)
  | stkMasterMiss
  | stkTakeover
  | stkOrphan
  | stkReturnedReady
  | logWrite
  | notificationDeliver (p mbx : Nat)
  | windowRead (p : Nat) (addr : Word) (n : Nat)
  | windowWrite (p : Nat) (addr : Word) (words : List Word)
  | statusRead (p : Nat)
  | ringPush (p ring : Nat) (bytes : List Byte)
  | replyPop (p : Nat) (net : Bool) (n : Nat)
  | mbxSend (p idx : Nat) (words : List Word) (cut : Bool)
  | mbxRecv (p idx n : Nat)
  | hostBadInstruction (p : Nat)
  | mbxCopy (p idx : Nat)
  | locketTake (p l : Nat)
  | kaWarn (p : Nat)
  | hostKeepaliveLapse (p : Nat)
  | hstKick (p : Nat)
  | claspWrite (p n : Nat) (v : Word)
  | doorbellSet (p : Nat) (mask : BitVec 16)
  | nop (h : Hdr) (ps : List Word)
  | ident (h : Hdr) (ps : List Word)
  | descRead (h : Hdr) (ps : List Word)
  | status (h : Hdr) (ps : List Word)
  | keepalive (h : Hdr) (ps : List Word)
  | bulkWrite (h : Hdr) (ps : List Word)
  | bulkRead (h : Hdr) (ps : List Word)
  | regRd (h : Hdr) (ps : List Word)
  | regWr (h : Hdr) (ps : List Word)
  | regWrPair (h : Hdr) (ps : List Word)
  | regRdWide (h : Hdr) (ps : List Word)
  | stageOpen (h : Hdr) (ps : List Word)
  | stageApply (h : Hdr) (ps : List Word)
  | stageAbort (h : Hdr) (ps : List Word)
  | stagedSetApply
  | frmApply
  | arm (h : Hdr) (ps : List Word)
  | armApply
  | precharge (h : Hdr) (ps : List Word)
  | softStart (h : Hdr) (ps : List Word)
  | softStartApply
  | autorunComplete
  | run (h : Hdr) (ps : List Word)
  | quiesce (h : Hdr) (ps : List Word)
  | stop (h : Hdr) (ps : List Word)
  | beadBypass (h : Hdr) (ps : List Word)
  | beadInsert (h : Hdr) (ps : List Word)
  | beadRetire (h : Hdr) (ps : List Word)
  | beadCommandAct
  | beadEnableToggle (h : Hdr) (ps : List Word)
  | lpLoadOpen (h : Hdr) (ps : List Word)
  | lpLoadCommit (h : Hdr) (ps : List Word)
  | lpLoadAbort (h : Hdr) (ps : List Word)
  | lpVerify (h : Hdr) (ps : List Word)
  | coefSwap (h : Hdr) (ps : List Word)
  | coefSwapApply
  | fltLog (h : Hdr) (ps : List Word)
  | fltInject (h : Hdr) (ps : List Word)
  | fltClear (h : Hdr) (ps : List Word)
  | timeStep (h : Hdr) (ps : List Word)
  | timeInc (h : Hdr) (ps : List Word)
  | pulseSet (h : Hdr) (ps : List Word)
  | captureRead (h : Hdr) (ps : List Word)
  | twinStatus (h : Hdr) (ps : List Word)
  | twinPrefer (h : Hdr) (ps : List Word)
  | twinHandback (h : Hdr) (ps : List Word)
  | stackStatus (h : Hdr) (ps : List Word)
  | stackReclaim (h : Hdr) (ps : List Word)
  | rate (h : Hdr) (ps : List Word)
  | loopTest (h : Hdr) (ps : List Word)
  | moduleRead (h : Hdr) (ps : List Word) (ans : Option (List Byte))
  | netSend (h : Hdr) (ps : List Word)
  | fwUpdateOpen (h : Hdr) (ps : List Word)
  | fwUpdateCommit (h : Hdr) (ps : List Word) (flashFail : Option Nat)
  | fwUpdateAbort (h : Hdr) (ps : List Word)
  | keyProvision (h : Hdr) (ps : List Word)
  | ownerKey (h : Hdr) (ps : List Word)
  | guardUnlock (h : Hdr) (ps : List Word)
  | hallmark (h : Hdr) (ps : List Word) (selfCheck : Bool)
  | debugOpen (h : Hdr) (ps : List Word)
  | fuseWrite (h : Hdr) (ps : List Word)
  | registerWrite (p : Nat) (addr v : Word)
  | bitAliasWrite (p : Nat) (addr v : Word)
  | guardFirstHalf (p : Nat) (addr v : Word)
  | guardComplement (p : Nat) (addr v : Word)
  | holdRequest (p : Nat)
  | sleepRequest (p : Nat)
  | holdEntry
  | sleepEntry
  | wakeEvent (bit : Nat)
  | holdWake
  | sleepWake
  | clkFail (dom : Nat)
  | pllLockTimeout
  | supplyFault (rail : Nat) (ovr : Bool)
  | vaonPowerOn
  | corePowerOn
  | porNRelease (stackId : Nat) (twinRole ioh33 testEn : Bool)
  | resetNRelease (stackId : Nat) (twinRole : Bool)
  | bistComplete (mask : Nat) (rows : List Nat)
  | frameGeneratorStart
  | discoveryEnd
  | timeLockStepEnd
  | olgCrcUpdate
  | wideSelWrite (p : Nat) (sel : BitVec 16)
  | wideSnapshotReady (p : Nat)
  | wide3Read (p : Nat)
  | stkMrxRead (w : Nat)
  | stkMailSend
  | edgArmWrite (p : Nat) (v : Word)
  | carShadowWrite (p : Nat) (addr v : Word)
  | timIncIntWrite (p : Nat) (v : Word)
  | timOutCtrlWrite (p n : Nat) (v : Word)
  | timOutTgtHiWrite (p n : Nat) (v : Word)
  | timOutPerHiWrite (p n : Nat) (v : Word)
  | timOutWidthWrite (p n : Nat) (v : Word)
  | gsvDenToggleWrite (p : Nat) (mask : BitVec 8)
  | adcGoWrite (p c : Nat)
  | accLclrWrite (p a : Nat)
  | lpeRunWrite (p : Nat) (v : Bool)
  | lpeMemWrite (p : Nat) (addr v : Word)
  | thmBrokenWrite (p : Nat) (die : Bool) (b : Nat) (mask : Word)
  | secPresClose (p : Nat)
  | secDbgClose (p : Nat)
  | memScrub (addr : Nat) (errs : Nat)
  | lpeRowRemap (row : Nat)
  | rowCountWindowExpire (row : Nat)
  | presWindowOpen
  | presWindowClose (p : Nat)
  | jumperFitted
  | jumperRemoved
  | sealCheck (sample : Bool)
  | debugWindowExpire
  | downlinkHeaderReceive (lane : Nat) (x : Rx)
  | dnlEnd
  | debugHaltRelease
  | laneRateSwitch (lane : Nat)
  | prbs31DwellStart (lane : Nat)
  | netAutonegotiation (lane : Nat)
  | netFrameSent (lane : Nat) (ts : BitVec 64)
  | noAnswerTimeout (p : Nat)
  | aonCrystalStable
deriving DecidableEq, Repr

end Sys2Proof
end

