-- ==== Sys2Proof/Machine/State.lean ====
section
/-! DEFINITION. The state of the block: every register, buffer, queue, counter, mode and pin the manual gives it, and the
queue of waiting commands. Plain data. Register fields live in tables keyed by field (Regs.lean); what is not a register
lives in one structure per chapter. -/
namespace Sys2Proof.Machine

/-! ## Device time (02_device_time.md) -/

/-- One pulse output (R48 to R52): the target and whether it is armed, a target written while a pulse is active, the
period in force, whether the pin is at its active level, the device time at which the pulse began, that of the tick on
which the pin last changed, and that of the edge at which a step or reseed passed the target, while the pulse due then has not begun (R49). -/
structure PulseOut where
  target : BitVec 64 := 0
  armed : Bool := false
  held : Option (BitVec 64) := none
  per : Nat := 0
  active : Bool := false
  start : BitVec 64 := 0
  edge : BitVec 64 := 0
  passed : Option (BitVec 64) := none
deriving DecidableEq, Repr

/-- One capture FIFO entry (R53, R54). -/
structure Capture where
  t : BitVec 64
  epoch : Nat
  rising : Bool
  stepped : Bool
  coarse : Bool
deriving DecidableEq, Repr

/-- Device time: TIM_NOW, the hidden remainder and the increment in force (R37 to R39), the TAI base (R44), real time in
units of 1/512 of 8 ns (from which the AON cycle count, 1,953,125 such units a cycle, follows, R47), the outputs, the
captures, the pair recorded on entry to HOLD, and the lock of a member or standby (R56, R57). [Log: DEDUCED 84] -/
structure TimeSt where
  now : BitVec 64 := 0
  rem : BitVec 32 := 0
  incI : Nat := 524288
  incF : Nat := 0
  tai : BitVec 64 := 0
  rt : Nat := 0
  aonBase : Nat := 0
  outs : Tab PulseOut := []
  caps : Tab (List Capture) := []
  stepped : Tab Bool := []
  holdPair : Option (BitVec 64 × Nat) := none
  goodRun : Nat := 0
  badRun : Nat := 0
  trim : Option (Nat × Int) := none
  stepDue : Option Int := none
deriving DecidableEq, Repr

/-! ## The control frame (01_strings_and_frames.md) -/

/-- Values in force before a boundary: GAIN and OFS of the accumulators, with which it closes their windows (R202), and each input of an
alternate that is switched in with the input converted in its place, for the conversions sampled before it (R193). -/
structure Prior where
  gains : List (Nat × Nat)
  alts : List (Nat × Nat)
deriving DecidableEq, Repr

/-- The frame generator: the index of the present frame modulo 2^32, FRM_ORIGIN and FRM_BASE (R16), whether the plan
instant of the present frame has passed, how many frames in a row were planned in the safe state (up to three, R443), and AUTORUN
of the last SOFT_START (R445); of the present frame's boundary the device time and the real time, and its date on the axis of sensor
readings, in tu, which no change of LEN, step of device time or restart of the frame number disturbs (R285, R286); the frames begun
since power-up (R291); whether bead service has planned this frame (R305); whether the downlink headers planned for the next frame and those of the present
one carry QUIESCE = 1 (R310). Where a row of the coming boundary has already put values into force, `prior` holds what that boundary still
needs of those before (R193, R202). -/
structure FrameSt where
  k : BitVec 32 := 0
  origin : BitVec 64 := 0
  base : BitVec 32 := 0
  planned : Bool := false
  safeRecs : Nat := 0
  autorun : Bool := false
  at_ : BitVec 64 := 0
  rt : Nat := 0
  date : Nat := 0
  n : Nat := 0
  acted : Bool := false
  qNext : Bool := true
  quiesce : Bool := true
  prior : Option Prior := none
deriving DecidableEq, Repr

/-! ## Faults (14_faults.md) -/

/-- A fault message (Table 14-1). -/
structure Msg where
  fs : Nat
  kind : Nat
  inst : Nat
  sev : Nat := 0
  inj : Bool := false
  same : Bool := false
  time : Nat := 0
  /-- Reacts: false for an injected message in mode LOG (R393). -/
  react : Bool := true
  /-- The collector cycle, counted from the start of the command (R382). -/
  cyc : Nat := 0
deriving DecidableEq, Repr

/-- An entry waiting for the logs (R396) and which logs it goes to. -/
structure LogReq where
  msg : Msg
  ram : Bool
  aon : Bool
deriving DecidableEq, Repr

/-- An escalation window (R384). -/
structure EscWin where
  start : Nat
  cnt : Nat
deriving DecidableEq, Repr

/-- The collector: the log queue, the RAM log, the last message of each source, the escalation windows, and what the last
mark of the RAM log covered; a mark is due before a log's first entry, since a reader takes upper time bits from it (R395). -/
structure FltSt where
  queue : List LogReq := []
  ram : Tab (BitVec 64) := []
  last : Tab (Option Msg) := []
  win : Tab (Option EscWin) := []
  ramMark : Nat := 0
  ramMarkDue : Bool := true
deriving DecidableEq, Repr

/-! ## Host ports and packets (15_host_ports.md, 16_commands.md) -/

/-- A command packet as the firmware sees it (Table 16-1), with its length in bytes. -/
structure Pkt where
  op : Nat
  hdr : Hdr
  ps : List Word
deriving DecidableEq, Repr

/-- A NET frame received (R456). -/
structure NetFrame where
  bytes : List Byte
  lane : Nat
  tsValid : Bool
  coarse : Bool
  ts : BitVec 64
  epoch : Nat
deriving DecidableEq, Repr

/-- A notification (R424). -/
structure Note where
  type : Nat
  time : Nat
  words : List Word
deriving DecidableEq, Repr

/-- The notification queue of one mailbox: waiting notifications, the overflow flag, the last number. -/
structure NoteQ where
  q : List Note := []
  ovf : Bool := false
  seq : Nat := 0
deriving DecidableEq, Repr

/-- A plain mailbox (R422 to R424): the words of the message. -/
structure MBox where
  words : List Word := []
  full : Bool := false
  nseq : Nat := 0
deriving DecidableEq, Repr

/-- A port's WIDE snapshot (R477): the selector, whether it is ready, unknown, and its four words. -/
structure Wide where
  sel : Nat := 0
  busy : Bool := false
  valid : Bool := false
  bad : Bool := false
  words : List Word := []
deriving DecidableEq, Repr

/-- One host port: its queues and buffers, its keep-alive, the first half of a guarded pair, the mismatch window (R471), its
WIDE snapshot, guarded data, fragments of a NET frame, the NET frame on its way out, the end of its presence window, and the
words its last transaction put out on HPx_IO. -/
structure Port where
  rings : Tab (List Pkt) := []
  replies : List (List Byte) := []
  netq : List NetFrame := []
  inb : Tab (List Word) := []
  taken : Tab (Option Pkt) := []
  outb : Tab (List Word) := []
  send : Tab (List Word) := []
  mbx : Tab MBox := []
  notes : Tab NoteQ := []
  kaLast : Nat := 0
  kaWarned : Nat := 0
  half : Option (Nat × Nat) := none
  mmWin : Option (Nat × Nat) := none
  wide : Wide := {}
  guarded : Tab Byte := []
  frag : Option (List Byte) := none
  netWait : Option (Nat × List Byte × Hdr × Bool) := none
  presEnd : Option Nat := none
  io : List Word := []
deriving DecidableEq, Repr

/-- What a command waits for before it replies (R431). -/
inductive WaitKind where
  | arm | precharge | softStart | stop | stageApply | coefSwap | handback | reclaim
  | bypass | insert | retire | toggle | rate | loopTest | moduleRead | net
deriving DecidableEq, Repr

/-- A command whose reply is due later: its header, opcode, the boundary or frame it is due at, and its parameters. -/
structure Wait where
  kind : WaitKind
  hdr : Hdr
  op : Nat
  due : Option (BitVec 32) := none
  arg : List Nat := []
  since : Nat := 0
deriving DecidableEq, Repr

/-- The staged set (R438 to R441): the port that owns it, and the boundary at which it applies once accepted. -/
structure Stage where
  owner : Nat
  accepted : Option (BitVec 32)
deriving DecidableEq, Repr

/-- Run states of Table 16-10. -/
inductive RunState where
  | boot | idle | armed | precharging | softStarting | run | quiesced | lockout
deriving DecidableEq, Repr

/-! ## Lanes and strands (03_lanes.md, 04_birto_strand_frames.md) -/

/-- Where the bring-up of R73 or a rejoin of R76 stands on a lane. -/
inductive Bring where
  | none | offer (final : Bool) | stepping (dst : Nat) | settling (dst : Nat) | dwelling (dst : Nat)
  | reporting (dst : Nat) | falling | rejoinWait | rejoinOffer | rejoined
deriving DecidableEq, Repr

/-- What a lane's transmitter puts out: electrical idle, frames and ordered sets, or PRBS31 (else PRBS7) (R73, R80). -/
inductive LaneOut where
  | idle | data | prbs (long : Bool)
deriving DecidableEq, Repr

/-- A lane beyond its registers: what it sends; bring-up, highest rate of this run, whether a B-end lane has turned a /CAP/
round and, at the A end, whether it had when the OFFER returned (R72); the delay measurements of the last 64 frames with the
number of the last request, the frame it was made in and whether its answer is outstanding (R55, R125); the times in seconds
of the last downs (R331), whether it went down in service and has still to rejoin (R76), whether it is retired (R67), and the module's last diagnostic bytes (R84).
[Log: DEDUCED 29] -/
structure LaneSt where
  out : LaneOut := .idle
  bring : Bring := .none
  cap : Nat := 3
  hops0 : Option Nat := Option.none
  turned : Bool := false
  bServes : Bool := true
  dlys : List Int := []
  ttSeq : Nat := 0
  ttSent : Bool := false
  ttAt : Option (BitVec 32) := Option.none
  dwellOk : Bool := false
  downs : List Nat := []
  rejoin : Bool := false
  retired : Bool := false
  diag : List Byte := []
deriving DecidableEq, Repr

/-- What a lane puts on the line (R71, R90, R123): a control or data character of 8b/10b, named by its octet (K28.5 is 0xBC), or
a control or data block of 64b/66b. -/
inductive Sym where
  | k (code : Byte)
  | chr (b : Byte)
  | ctl (bytes : List Byte)
  | blk (bytes : List Byte)
deriving DecidableEq, Repr

/-- The line of a lane: the symbols put out since the last boundary, and of the last frame among them when its first symbol
leaves, where it begins, how many symbols it has, and whether a /QS/ has cut it (R124). -/
structure LineSt where
  syms : List Sym := []
  start : BitVec 64 := 0
  first : Nat := 0
  len : Nat := 0
  cut : Bool := false
deriving DecidableEq, Repr

/-- One transfer of a two-wire master (R82, R83): the address byte (0xA0, 0xA2 or that of the switch), the byte written (the
first byte to read, or the control byte of the switch), and the bytes read. -/
structure Xfer where
  dev : Nat
  put : Nat
  get : Nat
deriving DecidableEq, Repr

/-- A two-wire master (R82 to R84): the transfers of its last access and their rate in kHz, and the channel its switch has selected. -/
structure BusSt where
  last : List Xfer := []
  khz : Nat := 0
  chan : Option Nat := none
deriving DecidableEq, Repr

/-- A strand beyond its registers: the first position served from the B end in this frame, none while the strand is served
whole (R34: a break counts from the first boundary after it is detected). -/
structure StrandSt where
  beyond : Option Nat := none
deriving DecidableEq, Repr

/-! ## Edge engine and gate supervision (05_edge_engine.md, 06_gate_supervision.md) -/

/-- The kinds of planned event (R128). -/
inductive EvKind where
  | tbReload | reload | compare | cmpx (m : Nat)
deriving DecidableEq, Repr

/-- One planned event of a frame: its offset in ticks, its timebase or channel, the level entered, the shadow values it
transfers (field key and value), whether a period transfer is refused at it (R147) and whether a phase step is still
pending behind it, and how long the channel period that begins there lasts (R148). -/
structure Ev where
  off : Nat
  kind : EvKind
  unit : Nat
  level : Nat := 0
  xfer : List (Nat × Nat) := []
  rej : Bool := false
  step : Bool := false
  len : Nat := 0
deriving DecidableEq, Repr

/-- A timebase: position in ticks at the end of the planned frames, the period and extra compares the plan has in force
there, whether it runs and is armed (R142 to R145); its position and period at the boundary the plan begins with, the
position the present frame counts from (below 0 after a reload in it), and whether it starts without the period of its
shadow, which R147 refuses. [Log: DEDUCED 20] -/
structure TbSt where
  run : Bool := false
  pos : Nat := 0
  per : Nat := 4000
  cmpx : List Nat := [536870911, 536870911, 536870911, 536870911]
  armed : Bool := false
  byGrp : Bool := false
  pos1 : Nat := 0
  per1 : Nat := 4000
  pos0 : Int := 0
  rej : Bool := false
deriving DecidableEq, Repr

/-- A channel. As planned, at the end of the planned frames: whether it has reloaded since it was enabled, ticks since its
last reload, the instant before which no reload counts, whether this period's compare is past, its level, compare,
phase and target phase, its period at its last reload with the phase step there, the ticks up to the planned frames' end
in which its carrier was regular (R139). As it runs:
whether it is enabled, its level now, whether a period is in progress, whether a trip ended or suppressed this period's
pulse, and the device time of its last transition. -/
structure ChSt where
  on : Bool := false
  live : Bool := false
  since : Nat := 0
  guard : Int := 0
  cmpDone : Bool := true
  level : Nat := 2
  cmp : Nat := 0
  phs : Nat := 0
  tgt : Nat := 0
  per : Nat := 0
  irr : Nat := 0
  armed : Bool := false
  byGrp : Bool := false
  out : Nat := 2
  run : Bool := false
  inPer : Bool := false
  ended : Bool := false
  lastTr : Option (BitVec 64) := none
deriving DecidableEq, Repr

/-- A pin edge that the plan has for a local pair (R137): the device time at which the outgoing pin goes off, the level the pair goes to
and the minimum time of the incoming pin in ticks. -/
structure Lead where
  at_ : BitVec 64
  level : Nat
  mint : Nat
deriving DecidableEq, Repr

/-- A local pair: which pins are active, the real time of each pin's last edge on its tick (R137), the incoming pin that waits for
its minimum time and DFB (true: PWM_A) and the real time before which it stays off (R137, R164); when the outgoing pin went off, while
DFB has not reached its off level since (R167); the level of the DFB ball and the real time it came to its off level, whether it has
been seen to leave it since a pin turned on and whether it has been found stuck there (R164 to R168); pulses planned in the running
precharge pattern, and whether one lies in the present frame (R177); the pin edges the plan has for it that are still to come, and the
instant of the last one made (R137). [Log: DEDUCED 79, 85] -/
structure PairSt where
  a : Bool := false
  b : Bool := false
  aAt : Nat := 0
  bAt : Nat := 0
  want : Option Bool := none
  due : Nat := 0
  offAt : Option Nat := none
  dfb : Bool := true
  dfbAt : Nat := 0
  moved : Bool := false
  stuck : Bool := false
  pulses : Nat := 0
  pulsing : Bool := false
  ahead : List Lead := []
  ledTo : Option (BitVec 64) := none
deriving DecidableEq, Repr

/-- A running PRECHARGE (R444): the beads and local pairs named, DCL, the charge limit and frames passed, and those that
failed or completed. -/
structure PcRun where
  beads : List Nat
  pairs : List Nat
  dcl : Bool
  limit : Nat
  frames : Nat := 0
  failB : List Nat := []
  failP : List Nat := []
  doneP : List Nat := []
  doneB : List Nat := []
deriving DecidableEq, Repr

/-- The edge engine: timebases, channels, the plan of the present frame and of the next one, local pairs, DEN toggles
(frames left; the toggle begins at the next boundary while none has passed), the host's last EN of each channel
and, from index 256 on, of each timebase, the running precharge, and the last frames' records planned. -/
structure EdgeSt where
  tbs : Tab TbSt := []
  chs : Tab ChSt := []
  plan : List Ev := []
  next : List Ev := []
  pairs : Tab PairSt := []
  den : Tab (Option Nat) := []
  hostEn : Tab Nat := []
  pc : Option PcRun := none
deriving DecidableEq, Repr

/-! ## The loop engine (08_loop_engine.md, 09_control_laws.md) -/

/-- What a cluster has computed of its partition in this frame: its writes in program order (reference and value) and the
events it holds for the commit (R278). -/
structure LpeRes where
  writes : List (Nat × Nat)
  evs : List (Nat × Nat)
deriving DecidableEq, Repr

/-- The loop engine beyond its registers: program and state memory by word, words with an uncorrectable error (state words
from 65,536 on), corrected-error counts of the rows and the real time their windows began, rows to copy after the next commit and
rows whose commit has come, rows whose remap applies at the next boundary, the
physical row that serves a row, the snapshot by reference, the clusters' results, whether this frame computes, an
uncorrectable read in it, the partition under vote and the mismatch found in this frame, whether the spare is waking,
what the frame resets (R258) and whether RAMPs start (R266), LPE_FP already raised, the program's size and partitions, the
committed BDL fields, the trims of this frame's commit and whether program words have changed since (R260), a coefficient swap
made by its own row for the boundary that comes, and an image load in progress. -/
structure LpeSt where
  prog : Tab Nat := []
  mem : Tab Nat := []
  bad : Tab Bool := []
  rows : Tab Nat := []
  rowsAt : Tab Nat := []
  remap : List Nat := []
  remapRdy : List Nat := []
  remapNow : List Nat := []
  phys : Tab (Option Nat) := []
  snap : Tab Nat := []
  res : Tab (Option LpeRes) := []
  active : Bool := false
  eccHit : Bool := false
  vote : Option Nat := none
  mism : Option Nat := none
  waking : Bool := false
  fresh : Bool := false
  resetAll : Bool := false
  resetQ : Bool := false
  rampDue : Bool := false
  rampGo : Bool := false
  fpSent : Bool := false
  nent : Nat := 0
  npart : Nat := 0
  imgCrc : Nat := 0
  bdl : Tab (Option Nat) := []
  trims : Tab Bool := []
  dirty : Bool := false
  swapped : Bool := false
  load : Option (Nat × Nat × Tab (Option Byte)) := none
deriving DecidableEq, Repr

/-! ## Acquisition (07_acquisition.md) -/

/-- A slot as a pass began with it: input, accumulator, DISC (Table 7-3). -/
structure SlotCfg where
  ain : Nat
  acc : Nat
  disc : Bool
deriving DecidableEq, Repr

/-- A sequence: the slots its regular and injected passes began with (R199) and the next slot of each; the regular pass that the last
boundary abandoned, with its next slot, and the converter the sequence ran on before that boundary, for results that emerge after it
(R201). -/
structure SeqSt where
  reg : List SlotCfg := []
  inj : List SlotCfg := []
  pos : Nat := 0
  ipos : Nat := 0
  was : List SlotCfg := []
  wasPos : Nat := 0
  wasPhys : Nat := 0
deriving DecidableEq, Repr

/-- One third of a check: conversions seen, and the count and sum of those kept (R211). -/
structure Third where
  seen : Nat := 0
  n : Nat := 0
  sum : Int := 0
deriving DecidableEq, Repr

/-- A physical converter: conversions still tainted (R208), the input of its last conversion (R192), its TAINT count while
it runs no sequence, and the thirds of the check in progress. -/
structure ConvSt where
  taint : Nat := 0
  ain : Option Nat := none
  tnt : Nat := 0
  thirds : Tab Third := []
deriving DecidableEq, Repr

/-- A frame window of an accumulator: sum, count, extremes, tainted results, over-range. -/
structure AccWin where
  sum : Int := 0
  cnt : Nat := 0
  ext : Option (Int × Int) := none
  tnt : Nat := 0
  ovr : Bool := false
deriving DecidableEq, Repr

/-- An accumulator: the open frame window, the closed one with the GAIN and OFS it is scaled by, its extremes as the loop engine reads
them (fp32), the open long window with its frames, the one that closed at the last boundary, LCLR, and whether the long window has
already closed for the boundary that comes (R204). -/
structure AccSt where
  win : AccWin := {}
  old : AccWin := {}
  gain : Nat := 0
  ofs : Nat := 0
  lo : Nat := 0
  hi : Nat := 0
  long : Option (Int × Int) := none
  lfr : Nat := 0
  lcut : Option (Option (Int × Int)) := none
  lclr : Bool := false
  lnow : Bool := false
deriving DecidableEq, Repr

/-- The acquisition: sequences, converters, accumulators, frames since the last check frame, the place in the order of
checks, and the converter under check in this frame (R209, R210); the accumulators whose input has been switched, and the alternates
that the next boundary puts in service (R215); the alternates that were switched in before the last boundary (R193). -/
structure AcqSt where
  seqs : Tab SeqSt := []
  convs : Tab ConvSt := []
  accs : Tab AccSt := []
  since : Nat := 0
  turn : Nat := 0
  check : Option Nat := none
  switched : List Nat := []
  ainDue : List Nat := []
  alts : List (Nat × Nat) := []
deriving DecidableEq, Repr

/-! ## Beads and strings (04_birto_strand_frames.md, 11_bead_service.md) -/

/-- A bead beyond its table entry: its last valid record, whether one came this frame, its run of missing records, R_b
(R118), the STATE last shown, its discovery (R564) and whether that has still to find the held bits (R300), a failure found and not yet acted on (R310), the bypass in progress
(R316), a forced retirement, the state decided for the next boundary (R301), the charge phase (R307), the enable toggle
(R185; 0 while ENABLE = 0 is sent, 1 in the record that carries ENABLE = 1): the SEQs of the last records sent with ENABLE = 0 and those of them the
bead has shown applied; the end of the hold of R293 (real time); the last
valid values of MEAS0 to MEAS7 and DAB_VS and whether this frame's record held a NaN (R237); the number of the frame in which it last
entered service (R291); and of the FAST sensors the last one reported, now and before this frame's record (R117). -/
structure BeadSt where
  last : List Byte := []
  got : Bool := false
  missRun : Nat := 0
  rb : Nat := 0
  placed : Bool := false
  cfg : List (Nat × Nat × Nat) := []
  cfgTag : Nat := 0
  cfgBase : List Nat := []
  nodeId : Option Nat := none
  nodeCap : Nat := 0
  disc : Bool := false
  fail : Bool := false
  kb : Option (BitVec 32) := none
  retire : Bool := false
  nxt : Option Nat := none
  chg : Int := 0
  waited : Bool := false
  sent0 : List Nat := []
  seen0 : List Nat := []
  toggle : Option Nat := none
  state0 : Option Nat := none
  hold : Option Nat := none
  meas : List Nat := []
  nan : Bool := false
  svcN : Nat := 0
  rot : Nat := 7
  rotWas : Nat := 7
deriving DecidableEq, Repr

/-- A temperature sensor (R286 to R294): whether it has given a reading, its temperature, filtered temperature and excess
(fp32), its three states with the readings counted toward a change of each, its last count, the length of the run of
identical counts, consecutive readings out of band, consecutive agreeing readings while broken, the date in tu of its last reading,
substituted ones included, and the number of the frame in which that was. -/
structure SensSt where
  seen : Bool := false
  t : Nat := 0
  tf : Nat := 0
  x : Nat := 0
  hot : Bool := false
  fast : Bool := false
  ovr : Bool := false
  dHot : Nat := 0
  dFast : Nat := 0
  dOver : Nat := 0
  cnt : Option Nat := none
  same : Nat := 0
  off : Nat := 0
  agree : Nat := 0
  last : Nat := 0
  lastN : Nat := 0
deriving DecidableEq, Repr

/-- The thermal block beyond its registers: sensors by instance number (R379), and for each die row whose spare has been
woken the readings that spare has given and the column of the sensor whose place it will take (R295). -/
structure ThmSt where
  sens : Tab SensSt := []
  wake : Tab (Option (Nat × Nat)) := []
deriving DecidableEq, Repr

/-- A string: whether it was complete at the last boundary, and its slots then (R320). -/
structure StringSt where
  whole : Bool := false
  nslot : Nat := 0
deriving DecidableEq, Repr

/-! ## The twin and the stack (12_redundancy.md, 13_stacking.md) -/

/-- The twin beyond its registers: highest epoch seen, frames in LISTEN, whether the outputs are live; of the partner, its
last STATE, epoch, run state, GSV_DEN.EN and misses of the stack master; the last frame judged for H1 and the last
header's frame, whether an H2 word came in this frame, HB_IN down, and down at this frame's start; whether a body came and
the state values of the frame; consecutive frames that meet R343; consecutive frames without the own witness bit; since
when (real time) the partner stands in STANDBY synced; a handback asked for, its named boundary, who named it and whether it is
accepted; YIELD seen, a demotion due; sources already raised; mirrored messages waiting as bytes, their numbers sent and
received, the messages of which only a part has come, and those scheduled; commands of the own ports that wait for the next
boundary (R342); the last word sent on HB_OUT and the device time at which it began (R346); the HBK_SEQ of an offered handback that was
abandoned here (R353); whether a header with this unit's own number has come (R561); whether the frames
are aligned with the partner's (R339); whether H2 has been judged in this frame; the GSV_DEN.EN of a take-over from the next
boundary on (R351). [Log: DEDUCED 15] -/
structure TwnSt where
  hi : Nat := 0
  listen : Nat := 0
  live : Bool := false
  pState : Option Nat := none
  pEpoch : Nat := 0
  pRun : Nat := 0
  pDen : Nat := 0
  pMiss : Nat := 15
  h1Got : Option (BitVec 32) := none
  h1Done : Option (BitVec 32) := none
  h2Got : Bool := false
  hbDown : Bool := false
  hbBlk : Bool := false
  body : Bool := false
  vals : Option (Nat × List Nat) := none
  same : Bool := false
  okRun : Nat := 0
  deaf : Nat := 0
  heard : Bool := false
  since : Option Nat := none
  hbkAsk : Bool := false
  hbk : Option (BitVec 32) := none
  hbkOwn : Bool := false
  hbkAcc : Bool := false
  yieldSeen : Bool := false
  demote : Bool := false
  lost1 : Bool := false
  lost2 : Bool := false
  lostAll : Bool := false
  lostSb : Bool := false
  out : List (List Byte) := []
  nOut : Nat := 0
  nIn : Nat := 0
  part : List Byte := []
  sched : List (BitVec 32 × Nat × List Word) := []
  held : List Pkt := []
  hbOut : Byte := 0
  hbAt : Option (BitVec 64) := none
  hbkNo : Option Nat := none
  clash : Bool := false
  aligned : Bool := false
  h2Done : Bool := false
  denDue : Option Nat := none
deriving DecidableEq, Repr

/-- What a device holds of the downward frame with SEQ `seq` for its snapshot of that frame (R366, R367): its set-points, and the
words of the reports by STACK_ID. -/
structure StkIn where
  seq : Nat
  sp : Option (List Nat) := none
  reps : Tab (List Nat) := []
deriving DecidableEq, Repr

/-- The stack beyond its registers: highest epoch seen and the unit obeyed (R363), the SEQ of the last downward header
obeyed and of the last downward body used, the last boundary judged, frames without a master, what downward frames brought for
the snapshots to come, the reports of this frame's upward frames as they came, snapshots in a row without a device's report and
with it, the acknowledgement owed, the last mail number accepted of each source, mail on its way through the master, frames of
lock and READY, device 0's READY as the acting device sees it, the sequence number of the frame a reclaim names, the last downward
frame sent; the lanes of a ring told of as broken and the devices told of as lost (Table 13-3); the lanes an upward frame has gone out by
in this frame (R364), and the summed link delay of the last frame that came by each lane, ps (R365). -/
structure StkSt where
  hi : Nat := 0
  unit : Option Nat := none
  got : Option Nat := none
  bodyGot : Option Nat := none
  judged : Option (BitVec 32) := none
  alone : Nat := 0
  inbox : List StkIn := []
  up : Tab (List Byte) := []
  miss : Tab Nat := []
  runs : Tab Nat := []
  ack : Option (Nat × Nat) := none
  lastMail : Tab (Option Nat) := []
  mailq : List (List Byte) := []
  lockRun : Nat := 0
  ready : Bool := false
  ready0 : Bool := false
  rcl : Option Nat := none
  sent : List Byte := []
  lost : List Nat := []
  gone : List Nat := []
  upOut : List Nat := []
  dly : Tab (Option Nat) := []
deriving DecidableEq, Repr

/-! ## Trust, firmware images and power (18_presence_and_trust.md, 19_power_and_startup.md) -/

/-- One image slot of the boot flash, A at flash address 0x00_0000 and B at 0x40_0000 (R496): the bytes written since it was
erased, the 640 header bytes of an image that is whole, and whether the vendor checks and the body hash hold over it (R497).
[Log: DESIGN CHOICE 11] -/
structure FwSlot where
  bytes : Tab (Option Byte) := []
  hdr : List Byte := []
  trusted : Bool := false
  factory : Bool := false
deriving DecidableEq, Repr

/-- What outlives the core and the AON domain: the boot flash and its control block at 0x80_0000 (R496, R498): whether its MAGIC
0x4C43_5442 and its CRC-32C hold, PREF and TRIES; the layout of the block is not given. [Log: DESIGN CHOICE 11] -/
structure NvSt where
  slotA : FwSlot := { trusted := true, factory := true }
  slotB : FwSlot := {}
  bcbValid : Bool := true
  pref : Nat := 0
  tries : Nat := 0
deriving DecidableEq, Repr

/-- A seal history record (Table 18-2). -/
structure SealRec where
  aon : Nat
  kind : Nat
  time : Nat
deriving DecidableEq, Repr

/-- What the AON domain keeps besides its register fields (R516): the AON log and its mark, the seal loop with its history,
whether the device is in SLEEP, whether a wake from SLEEP has reseeded device time for the power-on that it starts, and the
CLK_ALARM in force. -/
structure AonSt where
  log : Tab (BitVec 64) := []
  mark : Nat := 0
  markDue : Bool := true
  lfsr : BitVec 15 := 1
  bad : Nat := 0
  good : Nat := 0
  intact : Bool := false
  broken : Bool := false
  hist : List SealRec := [⟨0, 5, 0⟩]
  asleep : Bool := false
  woke : Bool := false
  alarm : Nat := 0
deriving DecidableEq, Repr

/-- An open firmware update session (R499): the port, the size, the slot and the bytes written so far. -/
structure FwSess where
  port : Nat
  size : Nat
  slot : Nat
  bytes : Tab (Option Byte) := []
deriving DecidableEq, Repr

/-- Trust and start-up: the update session, slots held retired since OPEN, the booted image's header, whether only the
commands of recovery are answered, the end of the debug window in real-time units, the straps (R559) and the mode of VDD_IOH
(R535), the accepted request of R513 with its boundary, and the frame in which step 8 began. -/
structure SecSt where
  sess : Option FwSess := none
  retired : List Nat := []
  boot : FwSlot := {}
  recovery : Bool := false
  dbgEnd : Option Nat := none
  stackId : Nat := 0
  twinRole : Bool := false
  ioh33 : Bool := false
  pwrReq : Option (Nat × BitVec 32) := none
  stepAt : BitVec 32 := 0
deriving DecidableEq, Repr

/-- The Olgen table (R479 to R484): whether it is built, GEN, the spare rows at boot, the service-map codes of the last generation, the header CRC and whether
it is behind. -/
structure OlgSt where
  built : Bool := false
  gen : BitVec 32 := 0
  spares : Nat := 64
  maps : List (List Nat) := []
  crc : Nat := 0
  crcDue : Bool := false
deriving DecidableEq, Repr

/-- The loupe (R506): which of its streams it takes (bit 0 fault messages, bit 1 edge descriptors, bit 2 committed EDG writes) and the
records captured, oldest first. [Log: DESIGN CHOICE 73] -/
structure LoupeSt where
  sel : Nat := 7
  buf : List (BitVec 64) := []
deriving DecidableEq, Repr

/-- The protected part of the state, which only the collector and the rows of reset, FLT_CLEAR and the fuses write: the
lockout latch and PREV_LOCKOUT (R391), the first-fault pair (R392), the OTP words from 64 on and those of them written by
FUSE_WRITE (R495). -/
structure Vault where
  lockout : Bool := false
  prevLockout : Bool := false
  first : Option Msg := none
  comp : Option Msg := none
  otp : Tab Word := []
  fused : List Nat := []
deriving DecidableEq, Repr

/-- Everything else the block holds. -/
structure Dev where
  /-- Register fields: the value in force of each field that differs from its reset value. -/
  regs : Tab Nat := []
  /-- CAR shadows (Table 17-3) that differ from the value in force. -/
  shad : Tab (Option Nat) := []
  /-- FRM values written and not yet applied: values and applying boundaries, oldest first (R462). -/
  frm : Tab (List (Nat × BitVec 32)) := []
  /-- The pending copy of the open staged set: the fields it changes (R438). -/
  stg : Tab (Option Nat) := []
  stage : Option Stage := none
  /-- The applied values of the STG fields that STAGE_OPEN copied (R438): those other than their reset value. -/
  stgCopy : Option (Tab Nat) := none
  run : RunState := .boot
  waits : List Wait := []
  time : TimeSt := {}
  frame : FrameSt := {}
  flt : FltSt := {}
  /-- Olgen codes of converters, inputs and state rows that differ from those at boot (R483). -/
  adcMap : Tab Nat := []
  ainMap : Tab Nat := []
  rowMap : Tab Nat := []
  lanes : Tab LaneSt := []
  lines : Tab LineSt := []
  buses : Tab BusSt := []
  strands : Tab StrandSt := []
  beads : Tab BeadSt := []
  strings : Tab StringSt := []
  edge : EdgeSt := {}
  acq : AcqSt := {}
  twn : TwnSt := {}
  stk : StkSt := {}
  thm : ThmSt := {}
  lpe : LpeSt := {}
  hpa : Port := {}
  hpb : Port := {}
  lastServed : Nat := 1
  /-- Since when (real time) the management plane is dark or held: the lapse timers stand (R329, R515). -/
  frozen : Option Nat := none
  aon : AonSt := {}
  nv : NvSt := {}
  sec : SecSt := {}
  olg : OlgSt := {}
  loupe : LoupeSt := {}
  /-- The frame and the ordered set last sent on each lane. -/
  tx : Tab (List Byte) := []
  os : Tab (List Byte) := []
  /-- A source of TWN_YMASK has reached TRIP and the unit owes a yield (R389). -/
  yieldDue : Bool := false
  /-- The free-value counter: the model's own. -/
  free : Nat := 0
deriving DecidableEq, Repr

/-- The state of the block and the commands that wait, first in first out. -/
structure State where
  dev : Dev
  vault : Vault
  pending : List Instr
deriving DecidableEq, Repr

/-- No command of this block stops the machine with a fault. -/
inductive Fault where
deriving DecidableEq, Repr

/-- Why a command has no meaning. -/
inductive Refusal where
  /-- Raised by an arm of the dispatch whose command has no meaning yet; safe. -/
  | notModelled (mnemonic : String)
deriving DecidableEq, Repr

/-- The machine right after reset: every register field at its reset value, nothing in any buffer or queue. [Log: DESIGN CHOICE 1] -/
def State.reset : State := ⟨{}, {}, []⟩

end Sys2Proof.Machine
end

