-- ==== Sys2Proof/Machine/Ops.lean ====
section
/-! DEFINITION. The operations every family shares: register fields, fault messages on their way to the collector, device
time, notifications, replies, waiting commands. -/
namespace Sys2Proof.Machine

/-! ## Register fields -/

/-- The value of a field in force (the applied value of Table 17-3), as wide as the field. -/
def Dev.rd (d : Dev) (f : Fld) : Nat := tget f.rst d.regs f.key % 2 ^ f.width

/-- The field as a flag. -/
def Dev.rdB (d : Dev) (f : Fld) : Bool := d.rd f ≠ 0

/-- A hardware write of a field, or a write that takes effect. -/
def Dev.wr (d : Dev) (f : Fld) (v : Nat) : Dev := { d with regs := tput f.rst d.regs f.key (v % 2 ^ f.width) }

/-- Set or clear a one-bit field. -/
def Dev.wrB (d : Dev) (f : Fld) (b : Bool) : Dev := d.wr f (b2n b)

/-- Add to a saturating counter field. -/
def Dev.addSat (d : Dev) (f : Fld) (n : Nat) : Dev := d.wr f (min (d.rd f + n) (2 ^ f.width - 1))

/-- Increment a saturating counter field. -/
def Dev.inc (d : Dev) (f : Fld) : Dev := d.addSat f 1

/-- Set bit `i` of a field that is a mask. -/
def Dev.setBit (d : Dev) (f : Fld) (i : Nat) : Dev := d.wr f (d.rd f ||| (1 <<< i))

/-- Clear bit `i` of a field that is a mask. -/
def Dev.clrBit (d : Dev) (f : Fld) (i : Nat) : Dev := d.wr f (d.rd f - (if bitOf (d.rd f) i then 1 <<< i else 0))

/-! ## A command in progress -/

/-- A command in progress: the protected part as it stood (for reading only), the device, the messages sent to the
collector so far, oldest first, and the collector cycle of the next one. -/
structure Wk where
  v : Vault
  d : Dev
  ms : List Msg := []
  cyc : Nat := 0

/-- Change the device. -/
def Wk.up (w : Wk) (f : Dev → Dev) : Wk := { w with d := f w.d }

/-- Apply a step when a condition holds. -/
def Wk.on (w : Wk) (c : Bool) (f : Wk → Wk) : Wk := if c then f w else w

/-- Apply a step for each element of a list, in order. -/
def Wk.each {α : Type} (w : Wk) (l : List α) (f : α → Wk → Wk) : Wk := l.foldl (fun w a => f a w) w

/-- Device time in ns. -/
def Dev.ns (d : Dev) : Nat := d.time.now.toNat / 65536

/-- AON_TIME (R47). -/
def Dev.aonTime (d : Dev) : Nat := ((d.time.rt - d.time.aonBase) / 1953125) % 2 ^ 48

/-- Send a fault message to the collector (R378): its time is the device time of detection. [Log: DEDUCED 70] -/
def Wk.raise (w : Wk) (fs kind inst : Nat) : Wk :=
  { w with ms := w.ms ++ [{ fs := fs, kind := kind, inst := inst, time := w.d.ns % 2 ^ 32, cyc := w.cyc }] }

/-- Send a message with a time of its own: one a bead reported (Table 14-1). -/
def Wk.raiseAt (w : Wk) (fs kind inst time : Nat) : Wk :=
  { w with ms := w.ms ++ [{ fs := fs, kind := kind, inst := inst, time := time, cyc := w.cyc }] }

/-- The messages that follow reach the collector in a later cycle (R382). [Log: DEDUCED 70] -/
def Wk.nextCycle (w : Wk) : Wk := { w with cyc := w.cyc + 1 }

/-! ## Device time (R37 to R47) -/

/-- A change of TIM_EPOCH by one wrap (R43): the epoch, TIM_STAT.WRAP and the source TIM_WRAP (FS97). -/
def Wk.wrap (w : Wk) (back : Bool) : Wk :=
  let w := w.up fun d => (d.wr F.TIM_EPOCH (d.rd F.TIM_EPOCH + (if back then 2 ^ 32 - 1 else 1))).wr F.TIM_STAT_WRAP 1
  w.raise 97 0 0

/-- A local pair. -/
def Dev.pair (d : Dev) (k : Nat) : PairSt := tget {} d.edge.pairs k
/-- Write a local pair. -/
def Dev.setPair (d : Dev) (k : Nat) (x : PairSt) : Dev := { d with edge := { d.edge with pairs := tput {} d.edge.pairs k x } }

/-- Whether DFB of a pair stands at its off level (R164): high when DFB_POL = 0. -/
def Dev.dfbOff (d : Dev) (k : Nat) : Bool := (d.pair k).dfb != d.rdB (F.GSV_PAIR_DFB_POL k)

/-- A pin of a pair turns on at real time `at_`: it waits no longer, and DFB leaves its off level for the level `live` unless it is
stuck (R165, R168). -/
def PairSt.on (x : PairSt) (high live : Bool) (at_ : Nat) : PairSt :=
  { x with a := x.a || high, b := x.b || !high, aAt := if high then at_ else x.aAt, bAt := if high then x.bAt else at_, want := none, due := 0, offAt := none
           moved := false, dfb := if x.stuck then x.dfb else live }

/-- Whether the complement of the pin that waits is on (R169). -/
def PairSt.complement (x : PairSt) (high : Bool) : Bool := if high then x.b else x.a

/-- The incoming pin of a pair, if its minimum time and handshake are over by the real time `t` (R137, R164): it turns on, unless its
complement is on; then the turn-on is held for good (R169). [Log: DEDUCED 79] -/
def Wk.releaseBy (w : Wk) (k t : Nat) : Wk :=
  let x := w.d.pair k
  match x.want with
  | none => w
  | some hi =>
    if t < x.due ∨ (w.d.rdB (F.GSV_PAIR_HS_EN k) ∧ !w.d.dfbOff k) then w
    else if x.complement hi then (w.up fun d => (d.setPair k { x with want := none, due := 0 }).inc F.GSV_CNT_ILK).raise 17 0 (0xF00 + k)
    else w.up fun d => d.setPair k (x.on hi (d.rdB (F.GSV_PAIR_DFB_POL k)) x.due)

/-- The incoming pin of a pair by now. -/
def Wk.releasePin (w : Wk) (k : Nat) : Wk := w.releaseBy k w.d.time.rt

/-- A span of device time in tu, in units of real time at the present increment (R38, R129). -/
def Dev.tuRt (d : Dev) (tu : Nat) : Nat := tu * 2 ^ 41 / (d.time.incI * 2 ^ 32 + d.time.incF)

/-- A number of ticks in units of real time: ticks are of device time (R129). -/
def Dev.tickRt (d : Dev) (n : Nat) : Nat := d.tuRt (5120 * n)

/-- The real time that has passed since a device time; 0 before it. -/
def Dev.since (d : Dev) (t : BitVec 64) : Nat := d.tuRt (d.time.now - t).toInt.toNat

/-- A pair whose pins go to a level at the real time `t` (R137): the outgoing pin goes off, the incoming one waits until `due` and, under
the handshake, until 5 ns after DFB came to its off level (R164). A turn-on still held goes on waiting when the level stays and is
dropped when it changes (R166). -/
def Dev.pairTo (d : Dev) (k lvl t due : Nat) : PairSt :=
  let x := d.pair k
  let hi := decide (lvl = 1)
  let a := x.a && hi
  let b := x.b && lvl = 0
  let off := { x with want := none, due := 0, a := a, b := b, aAt := if x.a && !a then t else x.aAt, bAt := if x.b && !b then t else x.bAt
                      offAt := if (x.a && !a) || (x.b && !b) then (if d.dfbOff k then none else some t) else x.offAt }
  if lvl = 2 ∨ (hi && off.a) ∨ (!hi && off.b) then off
  else if x.want = some hi then { off with want := x.want, due := x.due }
  else { off with want := some hi, due := max due (if d.rdB (F.GSV_PAIR_HS_EN k) then x.dfbAt + 320 else 0) }

/-- The pin edges that the plan has for a pair by now are made, each at its instant (R137): a turn-on that was due before goes ahead, one
that was not is dropped by a change of level (R166). Pins forced to SAFE stay so. [Log: DEDUCED 79] -/
def Wk.leadPin (w : Wk) (k : Nat) : Wk :=
  let l := (w.d.pair k).ahead.takeWhile fun e => 0 ≤ (w.d.time.now - e.at_).toInt
  (w.up fun d => if l = [] then d else d.setPair k { d.pair k with ahead := (d.pair k).ahead.drop l.length }).each l fun e w =>
    let t := w.d.time.rt - w.d.since e.at_
    if w.d.rdB F.EDG_STAT_SAFE then w else
    (w.releaseBy k t).up fun d => d.setPair k { d.pairTo k e.level t (t + d.tickRt e.mint) with ledTo := some e.at_ }

/-- The local pins by now: what the plan has for them, and every incoming pin that may turn on. -/
def Wk.releasePins (w : Wk) : Wk := w.each (List.range 16) fun k w => (w.leadPin k).releasePin k

/-- `n` TIM clock edges (R37, R38): TIM_NOW and the hidden remainder advance by `n` increments, with a wrap (R43) for each 2^64 passed; the
local pins that wait for an instant that has come turn on. [Log: DEDUCED 79] -/
def Wk.edges (w : Wk) (n : Nat) : Wk :=
  let t := w.d.time
  let tot := t.now.toNat * 2 ^ 32 + t.rem.toNat + n * (t.incI * 2 ^ 32 + t.incF)
  let w := w.up fun d => { d with time := { t with now := BitVec.ofNat 64 (tot / 2 ^ 32), rem := BitVec.ofNat 32 tot, rt := t.rt + 512 * n } }
  (w.each (List.range (tot / 2 ^ 96)) fun _ w => w.wrap false).releasePins

/-- The signed distance of R45 from TIM_NOW to a target. -/
def Dev.behind (d : Dev) (target : BitVec 64) : Int := (d.time.now - target).toInt

/-- Whether the TIM clock is stopped (R47, Table 19-1). -/
def Dev.timStopped (d : Dev) : Bool := d.rd F.CLK_STAT_PSTATE = 2 || d.aon.asleep

/-- Device time passes TIM clock edges until it reaches a target (R45); none when it is there or the TIM clock is stopped (R47). -/
def Wk.advanceTo (w : Wk) (target : BitVec 64) : Wk :=
  let t := w.d.time
  let inc : Int := (t.incI * 2 ^ 32 + t.incF : Nat)
  let need : Int := (-(w.d.behind target)) * 2 ^ 32 - (t.rem.toNat : Int)
  w.on (decide (w.d.behind target < 0) && !w.d.timStopped) (·.edges ((need + inc - 1) / inc).toNat)

/-- Whether POR_N is low: step 1 of Table 19-6. The core stands in reset, and every output but CORE_EN and SEAL_OUT is at high
impedance, whatever level a pin of the model shows (R523). [Log: DEDUCED 50] -/
def Dev.hiZ (d : Dev) : Bool := d.rd F.CLK_START_STEP = 1

/-- Whether the host ports carry out transactions: not in HOLD and SLEEP (R520), nor before POR_N is released. -/
def Dev.hosted (d : Dev) : Bool := !d.timStopped && !d.hiZ

/-- Real time passes while the TIM clock is stopped: `n` AON cycles. -/
def Wk.aonCycles (w : Wk) (n : Nat) : Wk := w.up fun d => { d with time := { d.time with rt := d.time.rt + 1953125 * n } }

/-- A number of seconds in real-time units. -/
def rtSec (n : Nat) : Nat := n * 64000000000

/-- Real time passes until an instant: by TIM clock edges, or by AON cycles while the TIM clock is stopped. -/
def Wk.advanceRt (w : Wk) (t : Nat) : Wk :=
  let left := t - w.d.time.rt
  if left = 0 then w else if w.d.timStopped then w.aonCycles ((left + 1953124) / 1953125) else w.edges ((left + 511) / 512)

/-- What has been dated in device time and is measured on takes the new labels of a step: the pulses on their way (R48), the last
transitions of the channels (R153), the pin edges to come (R137), the frames on their way out (R124), the H2 word (R346). [Log: DEDUCED 74] -/
def Dev.relabel (d : Dev) (off : BitVec 64) : Dev :=
  { d with
    time := { d.time with outs := d.time.outs.foldl (fun t e => tput {} t e.1 { e.2 with start := e.2.start + off, edge := e.2.edge + off, passed := e.2.passed.map (· + off) }) d.time.outs }
    edge := { d.edge with chs := d.edge.chs.foldl (fun t e => tput {} t e.1 { e.2 with lastTr := e.2.lastTr.map (· + off) }) d.edge.chs, pairs := d.edge.pairs.foldl (fun t e => tput {} t e.1 { e.2 with ahead := e.2.ahead.map fun x => { x with at_ := x.at_ + off }, ledTo := e.2.ledTo.map (· + off) }) d.edge.pairs }
    lines := d.lines.foldl (fun t e => tput {} t e.1 { e.2 with start := e.2.start + off }) d.lines
    twn := { d.twn with hbAt := d.twn.hbAt.map (· + off) } }

/-- TIM_NOW jumps to `now`: a pulse output whose target lay ahead and is passed over fires at this edge (R49). [Log: DEDUCED 74] -/
def TimeSt.jump (t : TimeSt) (now : BitVec 64) : TimeSt :=
  { t with now := now, outs := t.outs.foldl (fun s e =>
      tput {} s e.1 (if e.2.armed && (t.now - e.2.target).toInt < 0 && 0 ≤ (now - e.2.target).toInt then { e.2 with passed := some now } else e.2)) t.outs }

/-- Add a signed offset to TIM_NOW and FRM_ORIGIN at one edge (R41, R43). -/
def Wk.stepTime (w : Wk) (off : Int) : Wk :=
  let t := (w.d.time.now.toNat : Int) + off
  let w := w.up fun d => { d.relabel (BitVec.ofInt 64 off) with
    time := { (d.relabel (BitVec.ofInt 64 off)).time.jump (BitVec.ofInt 64 t) with stepped := (List.range 4).foldl (fun s i => tput false s i true) d.time.stepped }
    frame := { d.frame with origin := d.frame.origin + BitVec.ofInt 64 off, at_ := d.frame.at_ + BitVec.ofInt 64 off }
    flt := { d.flt with ramMarkDue := true }
    aon := { d.aon with markDue := true } }
  let w := w.up (·.wr F.TIM_STAT_STEPPED 1)
  let w := w.on (decide (t ≥ 2 ^ 64)) (·.wrap false)
  w.on (decide (t < 0)) (·.wrap true)

/-- The length of a frame in tu at the applied LEN (R16). -/
def Dev.frameTu (d : Dev) : Nat := d.rd F.SYS_FRM_LEN * 163840

/-- The device time of boundary `k` (R16). -/
def Dev.boundaryAt (d : Dev) (k : BitVec 32) : BitVec 64 :=
  d.frame.origin + BitVec.ofNat 64 ((k - d.frame.base).toNat * d.frameTu)

/-- The device time of the present frame's boundary: that of R16, or the instant it came at once a LEN that changes with the next
boundary is in force. -/
def Dev.boundaryNow (d : Dev) : BitVec 64 := if d.frame.k + 1 = d.frame.base then d.frame.at_ else d.boundaryAt d.frame.k

/-- An instant of the present frame, in counts from its boundary. -/
def Dev.inFrame (d : Dev) (counts : Nat) : BitVec 64 := d.boundaryNow + BitVec.ofNat 64 (counts * 163840)

/-- A window end in force (R29): derived from LEN while the applied AUTO is 1. -/
def Dev.uplEnd (d : Dev) : Nat := if d.rdB F.SYS_FRM_CTRL_AUTO then d.rd F.SYS_FRM_LEN / 5 else d.rd F.SYS_FRM_UPL_END
/-- See `Dev.uplEnd`. -/
def Dev.cmpEnd (d : Dev) : Nat := if d.rdB F.SYS_FRM_CTRL_AUTO then d.rd F.SYS_FRM_LEN * 3 / 4 else d.rd F.SYS_FRM_CMP_END
/-- See `Dev.uplEnd`. -/
def Dev.dnlEnd (d : Dev) : Nat := if d.rdB F.SYS_FRM_CTRL_AUTO then d.rd F.SYS_FRM_LEN * 19 / 20 else d.rd F.SYS_FRM_DNL_END

/-- Whether the frame generator runs (R18). -/
def Dev.running (d : Dev) : Bool := d.rdB F.SYS_FRM_CTRL_RUNNING

/-- The frame sequence number of frame `k` (R17). -/
def seqOf (k : BitVec 32) : Nat := k.toNat % 65536

/-- The boundary at which a value written now applies (R440, R462): the next one before the plan instant of the present
frame, else the one after it. [Log: DEDUCED 55] -/
def Dev.dueNext (d : Dev) : BitVec 32 := d.frame.k + (if d.frame.planned then 2 else 1)

/-! ## Ports -/

/-- Port 0 is HPA, every other number HPB. -/
def Dev.port (d : Dev) (p : Nat) : Port := if p = 0 then d.hpa else d.hpb

/-- Change one port. -/
def Dev.upPort (d : Dev) (p : Nat) (f : Port → Port) : Dev :=
  if p = 0 then { d with hpa := f d.hpa } else { d with hpb := f d.hpb }

/-- The other port. -/
def other (p : Nat) : Nat := if p = 0 then 1 else 0

/-- The lapse timers stop (R329, R515). -/
def Dev.kaFreeze (d : Dev) : Dev := if d.frozen.isSome then d else { d with frozen := some d.time.rt }

/-- A lapse timer that stood since `t` runs on at `now`: it has counted up to `t`, or nothing where a kick came while it stood (R414).
[Log: DEDUCED 65] -/
def Port.thaw (q : Port) (t now : Nat) : Port := { q with kaLast := q.kaLast + (now - max t q.kaLast), kaWarned := q.kaWarned + (now - max t q.kaLast) }

/-- The lapse timers run on (R329, R515). -/
def Dev.kaThaw (d : Dev) : Dev :=
  match d.frozen with
  | some t => { d with frozen := none, hpa := d.hpa.thaw t d.time.rt, hpb := d.hpb.thaw t d.time.rt }
  | none => d

/-- Whether a port is LIVE (R414). -/
def Dev.live (d : Dev) (p : Nat) : Bool := d.rd (F.HST_PSTAT_KA p) = 1

/-- Whether a P1 window is open on a port (Table 18-1). -/
def Dev.p1 (d : Dev) (p : Nat) : Bool := (d.port p).presEnd.isSome

/-- Whether P2 is met on a port (Table 18-1). -/
def Dev.p2 (d : Dev) (p : Nat) : Bool := d.p1 p && d.rdB F.SEC_PRES_STAT_JUMPER

/-- Advance an HST_ERR count and set the ERR cause (R405, R410, R422; Table 15-4 at 0x0C bit 8). -/
def Dev.hstErr (d : Dev) (p : Nat) (f : Fld) : Dev := (d.inc f).wr (F.HST_IRQ_STAT_ERR p) 1

/-! ## Notifications (R424) -/

/-- Queue one notification for a mailbox; beyond 16 the oldest is dropped and OVF set. -/
def NoteQ.push (n : NoteQ) (x : Note) : NoteQ :=
  if n.q.length < 16 then { n with q := n.q ++ [x] } else { n with q := n.q.drop 1 ++ [x], ovf := true }

/-- The register that routes notifications to mailbox `m` (0 MBX0, 1 MBX1) of a port (R424). -/
def noteMask (p m : Nat) : Fld := if m = 0 then F.HST_NOTE0 p else F.HST_NOTE1 p

/-- Queue a notification of type `t` for one mailbox, where it is routed there. -/
def Dev.noteTo (d : Dev) (p m t : Nat) (x : Note) : Dev :=
  if bitOf (d.rd (noteMask p m)) t then d.upPort p fun q => { q with notes := tput {} q.notes m ((tget {} q.notes m).push x) } else d

/-- Queue a notification of type `t` for every mailbox that routes it. [Log: DEDUCED 57] -/
def Dev.notify (d : Dev) (t : Nat) (ws : List Nat) : Dev :=
  let x : Note := ⟨t, d.ns % 2 ^ 32, ws.map (BitVec.ofNat 32 ·)⟩
  (((d.noteTo 0 0 t x).noteTo 0 1 t x).noteTo 1 0 t x).noteTo 1 1 t x

/-! ## Replies (R430, R431) -/

/-- Status codes of Table 16-3. -/
inductive Status where
  | ok | badOpcode | badLength | badParam | badAddress | locketRequired | claspHeld | stateInvalid | regLocked
  | stageInconsistent | capacity | verifyFail | presenceRequired | guardLocked | signatureFail | timeout | abandoned | flashError
deriving DecidableEq, Repr

/-- The code of a status. -/
def Status.code : Status → Nat
  | .ok => 0 | .badOpcode => 1 | .badLength => 2 | .badParam => 3 | .badAddress => 4 | .locketRequired => 5
  | .claspHeld => 6 | .stateInvalid => 7 | .regLocked => 8 | .stageInconsistent => 9 | .capacity => 10
  | .verifyFail => 11 | .presenceRequired => 12 | .guardLocked => 13 | .signatureFail => 14 | .timeout => 15
  | .abandoned => 16 | .flashError => 17

/-- The bytes of a reply (Table 16-2) with its CRC-32C. -/
def replyBytes (h : Hdr) (op : Nat) (st : Status) (detail : Nat) (ws : List Word) : List Byte :=
  let b := [1, BitVec.ofNat 8 (b2n h.active)] ++ leBytes 2 op ++ leBytes 2 h.tag.toNat ++ leBytes 2 ws.length
    ++ [BitVec.ofNat 8 (h.ring % 16 + 16 * (h.prio % 4) + 64 * b2n h.locket), 0] ++ leBytes 2 st.code ++ leBytes 4 detail ++ wordBytes ws
  b ++ leBytes 4 (crc32c b)

/-- Place a reply: a ring packet's in the port's reply queue, a locket packet's in the outbound buffer, padded to at least
8 words (R421, R430). A status other than OK carries no words (R432). A command mirrored from the partner (port 2) has none. -/
def Dev.reply (d : Dev) (h : Hdr) (op : Nat) (st : Status) (detail : Nat) (ws : List Word) : Dev :=
  if 2 ≤ h.port then d else
  let b := replyBytes h op st detail (if st = .ok then ws else [])
  d.upPort h.port fun q =>
    if h.locket then { q with outb := tput [] q.outb h.ring (toWords 261 (padTo 32 b)), taken := tput none q.taken h.ring none }
    else { q with replies := q.replies ++ [b] }

/-- A reply with words given as numbers. -/
def Dev.replyOk (d : Dev) (h : Hdr) (op : Nat) (ws : List Nat) : Dev := d.reply h op .ok 0 (ws.map (BitVec.ofNat 32 ·))

/-- A command leaves the head of its ring when the firmware takes it; the other port's turn comes next (R411). -/
def Dev.takePkt (d : Dev) (op : Nat) (h : Hdr) (ps : List Word) : Dev :=
  if h.locket then d else
  match tget [] (d.port h.port).rings h.ring with
  | x :: r => if x = ⟨op, h, ps⟩ then { (d.upPort h.port fun q => { q with rings := tput [] q.rings h.ring r }) with lastServed := h.port } else d
  | [] => d

/-- A command waits for its effect before it replies (R431). -/
def Dev.wait (d : Dev) (x : Wait) : Dev := { d with waits := d.waits ++ [x] }

/-- The first waiting command of a kind. -/
def Dev.waiting (d : Dev) (k : WaitKind) : Option Wait := d.waits.find? fun x => x.kind = k

/-- The staged set closes (R440, R441). -/
def Dev.closeSet (d : Dev) : Dev := { d with stg := [], stage := none, stgCopy := none }

/-- Remove the waiting commands of a kind that are chosen, replying to each. -/
def Dev.settle (d : Dev) (sel : Wait → Bool) (rep : Wait → Status × Nat × List Nat) : Dev :=
  let done := d.waits.filter sel
  let d := { d with waits := d.waits.filter fun x => !sel x }
  done.foldl (fun d x => let (st, det, ws) := rep x; d.reply x.hdr x.op st det (ws.map (BitVec.ofNat 32 ·))) d

/-- Run-state codes of Table 16-10. -/
def RunState.code : RunState → Nat
  | .boot => 0 | .idle => 1 | .armed => 2 | .precharging => 3 | .softStarting => 4 | .run => 5 | .quiesced => 6 | .lockout => 7

/-- The power state follows the run state (Table 19-1). -/
def RunState.pstate : RunState → Nat
  | .precharging | .softStarting | .run => 0
  | _ => 1

/-- The run state that STATUS reports: on a twin unit that is not ACTIVE, the active unit's (Table 16-5). -/
def Dev.runCode (d : Dev) : Nat := if d.rd F.TWN_STAT_STATE = 0 ∨ d.rd F.TWN_STAT_STATE = 4 then d.run.code else d.twn.pRun % 16

/-- Notification 0x03 where the run state that STATUS reports is no longer that of `old` (R424, R442). -/
def Dev.noteRun (d old : Dev) : Dev := if d.runCode = old.runCode then d else d.notify 3 [old.runCode, d.runCode]

/-- A change of twin state (Table 12-2), and of the run state that STATUS reports with it. -/
def Dev.setTwin (d : Dev) (st : Nat) : Dev := (d.wr F.TWN_STAT_STATE st).noteRun d

/-- STATUS word 0 (Table 16-5), which STATE_INVALID carries too (Table 16-3). -/
def Wk.status0 (w : Wk) : Nat :=
  let d := w.d
  let tw := d.rd F.TWN_STAT_STATE
  d.runCode + tw * 16 + d.rd F.STK_STAT_ROLE * 256 + d.rd F.FLT_STAT_TRIPPED * 2 ^ 16
    + b2n w.v.lockout * 2 ^ 17 + b2n d.stage.isSome * 2 ^ 18 + (match d.stage with | some x => (if x.owner < 2 then x.owner + 1 else 0) | none => 0) * 2 ^ 19
    + b2n (d.run = .precharging) * 2 ^ 21

/-- A change of run state: PSTATE follows and notification 0x03 is sent (R442, R508). -/
def Dev.setRun (d : Dev) (r : RunState) : Dev :=
  if d.run = r then d else
  ({ d with run := r }.wr F.CLK_STAT_PSTATE r.pstate).noteRun d

/-- Take a fresh number for a free value. [Log: DESIGN CHOICE 1] -/
def Dev.fresh (d : Dev) : Dev := { d with free := d.free + 1 }

end Sys2Proof.Machine
end

