-- ==== Sys2Proof/Machine/Planner.lean ====
section
/-! DEFINITION. The plan of one frame by the edge engine (R128 to R150): the events of every running timebase and every
enabled channel in the frame, in ticks from its boundary, and where each unit stands at the frame's end. -/
namespace Sys2Proof.Machine

/-- Insert an event behind the events of no later offset (R138: increasing OFFSET). -/
def Ev.ins (e : Ev) : List Ev → List Ev
  | [] => [e]
  | x :: r => if e.off < x.off then e :: x :: r else x :: Ev.ins e r

/-- Events in order of offset; at one offset in the order given. -/
def sortEvs (l : List Ev) : List Ev := l.foldl (fun s e => Ev.ins e s) []

/-- One stretch of a timebase between two reloads: where it starts, its position there, its period in ticks. -/
structure Seg where
  x0 : Nat
  p0 : Nat
  per : Nat
deriving DecidableEq, Repr

/-- The stretches of a timebase from a boundary on: the first reload takes the new period if one transfers. -/
def segs : Nat → Nat → Nat → Nat → Option Nat → List Seg
  | 0, _, _, _, _ => []
  | fuel + 1, x, p, per, newPer =>
    ⟨x, p, per⟩ :: segs fuel (x + (per - p)) 0 (newPer.getD per) none

/-- The instants at which a position passes phase `phi` (R133). -/
def passages (l : List Seg) (phi : Nat) : List Nat :=
  l.filterMap fun s => if s.p0 ≤ phi % s.per then some (s.x0 + (phi % s.per - s.p0)) else none

/-- The position at instant `x`. -/
def posAt (l : List Seg) (x : Nat) : Nat :=
  match l.filter (fun s => s.x0 ≤ x) |>.getLast? with
  | some s => if x < s.x0 + (s.per - s.p0) then s.p0 + (x - s.x0) else 0
  | none => 0

/-- The period in ticks in force at instant `x`. -/
def perAt (l : List Seg) (x : Nat) : Nat :=
  match l.filter (fun s => s.x0 ≤ x) |>.getLast? with
  | some s => s.per
  | none => 0

/-- The compare in force (R134) and whether it was clamped: `len` is the channel period. -/
def ceff (cmp dmin dmax : Nat) (len : Int) : Nat × Bool :=
  let hi := min (dmax : Int) (len - dmin)
  if cmp = 0 then (0, false)
  else if cmp < dmin then (dmin, true)
  else if (cmp : Int) > hi then (hi.toNat, true)
  else (cmp, false)

/-- The phase step of R148 at a reload whose period lasts `len`. [Log: DEDUCED 19] -/
def phaseStep (phs tgt per pstep dmin : Nat) (len : Int) : Int :=
  let raw : Int := ((tgt : Int) - phs) % (per : Int)
  let half := len / 2
  let d := if raw > half then raw - per else raw
  let lim : Int := if pstep = 0 then half else pstep
  let d := clampI (-lim) lim d
  if len + d < 2 * dmin then 2 * dmin - len else d

/-- What the plan of one channel needs. -/
structure ChIn where
  c : Nat
  f : Nat
  dmin : Nat
  dmax : Nat
  pstep : Nat
  newCmp : Option Nat
  newPhs : Option Nat
  kCmp : Nat
  kPhs : Nat

/-- The planning of one channel in progress. -/
structure ChRun where
  s : ChSt
  t0 : Int
  first : Bool := true
  evs : List Ev := []
  clamped : Bool := false
  irrAt : Option Nat := none
  wrap : Bool := false

/-- The next reload of a channel: beyond the guard, and not less than 2 × DMIN after the last one (R133). -/
def nextReload (l : List Seg) (i : ChIn) (r : ChRun) : Option Nat :=
  (passages l r.s.phs).find? fun (x : Nat) =>
    if r.s.live then decide ((x : Int) > r.s.guard ∧ (x : Int) - r.t0 ≥ 2 * i.dmin) else true

/-- One event of a channel's plan: the compare of the period in progress, or the next reload with its transfers. [Log: DEDUCED 19, 79] -/
def chStep (l : List Seg) (i : ChIn) (r : ChRun) : ChRun × Bool :=
  match nextReload l i r with
  | none => (r, true)
  | some nr =>
    if r.s.live ∧ ¬ r.s.cmpDone then
      let (ce, cl) := ceff r.s.cmp i.dmin i.dmax (nr - r.t0)
      let tc := (r.t0 + ce).toNat
      if tc < i.f then
        ({ r with s := { r.s with cmpDone := true, level := 0 }, clamped := r.clamped || cl,
                  evs := r.evs ++ [{ off := tc, kind := .compare, unit := i.c, level := 0 }] }, false)
      else (r, true)
    else if nr < i.f then
      let cmp := if r.first then i.newCmp.getD r.s.cmp else r.s.cmp
      let tgt := if r.first then i.newPhs.getD r.s.tgt else r.s.tgt
      let per := perAt l nr
      let len : Int := (((passages l r.s.phs).find? fun (x : Nat) => decide (nr < x)).getD (nr + per) : Nat) - (nr : Int)
      let d := if tgt % per = r.s.phs % per then 0 else phaseStep (r.s.phs % per) (tgt % per) per i.pstep i.dmin len
      let phs := (((r.s.phs % per : Nat) : Int) + d + per).toNat % per
      let phs := if phs = tgt % per then tgt else phs
      let xf := if r.first then (match i.newCmp with | some v => [(i.kCmp, v)] | none => []) else []
      let xf := if phs = r.s.phs ∧ !(r.first && i.newPhs.isSome) then xf else xf ++ [(i.kPhs, phs)]
      let lvl := if cmp = 0 then 0 else 1
      ({ r with s := { r.s with live := true, cmp := cmp, tgt := tgt, phs := phs, per := ((per : Int) + d).toNat, level := lvl, cmpDone := cmp = 0,
                                guard := nr + max d 0 },
                t0 := nr, first := false, wrap := r.wrap || decide (per ≤ phs), irrAt := if d = 0 then r.irrAt else some nr,
                evs := r.evs ++ [{ off := nr, kind := .reload, unit := i.c, level := lvl, xfer := xf, step := decide (phs % per ≠ tgt % per), len := ((per : Int) + d).toNat }] }, false)
    else (r, true)

/-- The whole frame of one channel. [Log: DEDUCED 18, 21] -/
def chLoop (l : List Seg) (i : ChIn) : Nat → ChRun → ChRun
  | 0, r => r
  | n + 1, r => let (r', stop) := chStep l i r; if stop then r' else chLoop l i n r'

/-- The shadow of a CAR field, where it differs from what was transferred last. -/
def Dev.shadow (d : Dev) (f : Fld) : Option Nat := tget none d.shad f.key

/-- The value a CAR field will take at its transfer. -/
def Dev.carVal (d : Dev) (f : Fld) : Nat := (d.shadow f).getD (d.rd f)

/-- The timebase and channel states. -/
def Dev.tb (d : Dev) (t : Nat) : TbSt := tget {} d.edge.tbs t
/-- Write a timebase state. -/
def Dev.setTb (d : Dev) (t : Nat) (x : TbSt) : Dev := { d with edge := { d.edge with tbs := tput {} d.edge.tbs t x } }
/-- A channel state. -/
def Dev.ch (d : Dev) (c : Nat) : ChSt := tget {} d.edge.chs c
/-- Write a channel state. -/
def Dev.setCh (d : Dev) (c : Nat) (x : ChSt) : Dev := { d with edge := { d.edge with chs := tput {} d.edge.chs c x } }

/-- The channels bound to timebase `t` whose EN applies. -/
def Dev.boundOn (d : Dev) (t : Nat) : List Nat :=
  (List.range 256).filter fun c => d.rd (F.CH_CTRL_TB c) = t ∧ d.rdB (F.CH_CTRL_EN c)

/-- Whether a period is refused at its transfer (R147). -/
def Dev.perRefused (d : Dev) (t per : Nat) : Bool :=
  (d.boundOn t).any fun c =>
    decide (per * 32 < 2 * d.rd (F.CH_DMIN c)) ||
    (d.rd (F.CH_ROUTE_KIND c) = 2 && decide (2 * per < d.rd F.SYS_FRM_LEN))

/-- The plan of one timebase and its channels for the frame that begins at the next boundary, on a device that already
shows the values of that boundary: timebase state and events, and each channel's run. -/
def planTb (d : Dev) (t : Nat) : TbSt × List Ev × List (Nat × ChRun) :=
  let f := d.rd F.SYS_FRM_LEN * 32
  let s := d.tb t
  let en := d.rdB (F.TB_CTRL_EN t)
  let starting := en && !s.run
  let refused := starting && decide (d.carVal (F.TB_PER t) ≠ d.rd (F.TB_PER t)) && d.perRefused t (d.carVal (F.TB_PER t))
  let s := if starting then { s with run := true, rej := refused, per := if refused then d.rd (F.TB_PER t) else d.carVal (F.TB_PER t), cmpx := (List.range 4).map fun m => d.carVal (F.TB_CMPX t m), armed := false, byGrp := false, pos := 0 } else { s with run := en }
  let s := if starting then { s with pos := d.rd (F.TB_PHS t) % (s.per * 32) } else { s with rej := false }
  if !en ∨ s.per = 0 then
    let chs := (List.range 256).filter fun c => d.rd (F.CH_CTRL_TB c) = t ∧ (d.ch c).on
    (s, [], chs.map fun c => (c, { s := { d.ch c with on := d.rdB (F.CH_CTRL_EN c), live := false, level := 2, irr := 0 }, t0 := 0 }))
  else
  let per := s.per * 32
  let at0 : Bool := decide (s.pos = 0)
  let take := s.armed && (at0 || decide (per - s.pos < f))
  let want := d.carVal (F.TB_PER t)
  let rej := take && decide (want ≠ s.per) && d.perRefused t want
  let newPer := if take && !rej then some want else none
  let s := { s with pos1 := s.pos, per1 := if at0 then newPer.getD s.per else s.per }
  let ncmpx := if take then (List.range 4).map fun m => d.carVal (F.TB_CMPX t m) else s.cmpx
  let fuel := f / (min per ((newPer.getD s.per) * 32)) + 5
  let l := if at0 then segs fuel 0 0 ((newPer.getD s.per) * 32) none else segs fuel 0 s.pos per (newPer.map (· * 32))
  let rel := (if at0 then l else l.drop 1).map (·.x0) |>.filter (· < f)
  let xf := if take then (match newPer with | some v => [((F.TB_PER t).key, v)] | none => []) ++ ((List.range 4).map fun m => ((F.TB_CMPX t m).key, ncmpx.getD m 0)) else []
  let tbe := (List.range rel.length).map fun i => ({ off := rel.getD i 0, kind := .tbReload, unit := t, xfer := if i = 0 then xf else [], rej := i = 0 && rej } : Ev)
  let firstRel := rel.headD f
  let cmx := (List.range 4).flatMap fun m =>
    ((l.filterMap fun g =>
      let v := (if g.x0 ≥ firstRel then ncmpx else s.cmpx).getD m 0
      if v < g.per ∧ g.p0 ≤ v ∧ g.x0 + (v - g.p0) < f then some (g.x0 + (v - g.p0)) else none).map
      fun x => ({ off := x, kind := .cmpx m, unit := t } : Ev))
  let perMoved := take && newPer.any (· ≠ s.per)
  let chans := (List.range 256).filter fun c => d.rd (F.CH_CTRL_TB c) = t ∧ (d.rdB (F.CH_CTRL_EN c) ∨ (d.ch c).on)
  let runs := chans.map fun c =>
    let x := d.ch c
    if !d.rdB (F.CH_CTRL_EN c) then (c, ({ s := { x with on := false, live := false, level := 2, irr := 0 }, t0 := 0 } : ChRun)) else
    let fresh := !x.on || starting
    let x := if fresh then { x with on := true, live := false, level := 0, since := 0, guard := -1, cmpDone := true, irr := 0,
                                    cmp := if starting then d.carVal (F.CH_CMP c) else d.rd (F.CH_CMP c),
                                    phs := if starting then d.carVal (F.CH_PHS c) else d.rd (F.CH_PHS c),
                                    tgt := if starting then d.carVal (F.CH_PHS c) else x.tgt,
                                    armed := x.armed && !starting } else x
    let x := if !x.live && x.armed then { x with phs := d.carVal (F.CH_PHS c), tgt := d.carVal (F.CH_PHS c) } else x
    let i : ChIn := { c := c, f := f, dmin := d.rd (F.CH_DMIN c), dmax := d.rd (F.CH_DMAX c), pstep := d.rd (F.TB_PSTEP_PSTEP_MAX t),
                      newCmp := if x.armed then some (d.carVal (F.CH_CMP c)) else none,
                      newPhs := if x.armed then some (d.carVal (F.CH_PHS c)) else none,
                      kCmp := (F.CH_CMP c).key, kPhs := (F.CH_PHS c).key }
    let r := chLoop l i (2 * l.length + 4) { s := x, t0 := -(x.since : Int), wrap := decide (per ≤ x.phs) }
    let irr := match r.irrAt with | some a => f - a - 1 | none => min (x.irr + f) (2 ^ 31)
    let irr := if perMoved then min irr (f - firstRel - 1) else irr
    (c, { r with s := { r.s with since := ((f : Int) - r.t0).toNat, guard := r.s.guard - f, irr := irr,
                                  armed := r.s.armed && r.first, byGrp := r.s.byGrp && r.first } })
  let s' := { s with pos := posAt l f, per := newPer.getD s.per, cmpx := ncmpx, armed := s.armed && !take, byGrp := s.byGrp && !take }
  (s', tbe ++ cmx, runs)

end Sys2Proof.Machine
end

