-- ==== Sys2Proof/Machine/Wire.lean ====
section
/-! DEFINITION. What a lane puts on the line: characters and blocks, delimiters and ordered sets (R71, R89, R90, R123, R124). -/
namespace Sys2Proof.Machine

/-! ## Coding -/

/-- Bytes in the data blocks of 64b/66b, eight to a block; the last block of a body that is no multiple of 8 bytes is filled up
with zeros. [Log: DESIGN CHOICE 86] -/
def dataBlocks : Nat → List Byte → List (List Byte)
  | 0, _ => []
  | n + 1, b => if b.isEmpty then [] else padTo 8 (b.take 8) :: dataBlocks n (b.drop 8)

/-- The bytes of a frame between its delimiters. -/
def dataSyms (fast : Bool) (b : List Byte) : List Sym := if fast then (dataBlocks b.length b).map .blk else b.map .chr

/-- The start delimiter (R90): K27.7 with seven 0x55, or the control block of type 0x78. -/
def startDelim (fast : Bool) : List Sym :=
  if fast then [.ctl (0x78 :: List.replicate 7 0x55)] else .k 0xFB :: List.replicate 7 (.chr 0x55)

/-- The end delimiter (R90): K29.7 with seven K28.5, or the control block of type 0x87. -/
def endDelim (fast : Bool) : List Sym :=
  if fast then [.ctl (0x87 :: List.replicate 7 0)] else .k 0xFD :: List.replicate 7 (.k 0xBC)

/-- A frame on the line (R89): the delimiters and, with no gap, header and records. -/
def frameSyms (fast : Bool) (b : List Byte) : List Sym := startDelim fast ++ dataSyms fast b ++ endDelim fast

/-- The kinds of ordered set (R71, R123). -/
inductive SetKind where
  | cap | tt | qs
deriving DecidableEq, Repr

/-- The K character of a set: K28.1, K28.6, K28.3 (R71, Table 4-9). -/
def SetKind.char : SetKind → Byte
  | .cap => 0x3C | .tt => 0xDC | .qs => 0x7C

/-- The first of its two O codes (R71, Table 4-9). -/
def SetKind.code : SetKind → Byte
  | .cap => 0xA | .tt => 0xC | .qs => 0xE

/-- A set of six bytes on the line: a K character and six data characters, or two control blocks of type 0x4B, each with three
bytes and an O code (R71, R123). -/
def setSyms (fast : Bool) (kind : SetKind) (b : List Byte) : List Sym :=
  if fast then
    [.ctl (0x4B :: b.take 3 ++ [kind.code, 0, 0, 0]), .ctl (0x4B :: b.drop 3 ++ [kind.code + 1, 0, 0, 0])]
  else .k kind.char :: b.map .chr

/-! ## A lane's line -/

/-- A lane runs at index 3, in 64b/66b (Table 3-2). -/
def Dev.fast (d : Dev) (n : Nat) : Bool := d.rd (F.LANE_STAT_RATE n) = 3

/-- Payload rate of a lane in Gb/s (Table 3-2). [Log: DEDUCED 38] -/
def Dev.payload (d : Dev) (n : Nat) : Nat := match d.rd (F.LANE_STAT_RATE n) with | 0 => 1 | 1 => 2 | 2 => 4 | _ => 10

/-- The line of a lane. -/
def Dev.line (d : Dev) (n : Nat) : LineSt := tget {} d.lines n

/-- Write the line of a lane. -/
def Dev.setLine (d : Dev) (n : Nat) (x : LineSt) : Dev := { d with lines := tput {} d.lines n x }

/-- A number of bits of payload at a lane's rate, in tu. -/
def Dev.bitsTu (d : Dev) (n bits : Nat) : Nat := bits * 65536 / d.payload n

/-- A frame goes out: its first symbol leaves at `t`. -/
def Dev.sendFrame (d : Dev) (n : Nat) (t : BitVec 64) (b : List Byte) : Dev :=
  let x := d.line n
  let s := frameSyms (d.fast n) b
  { d.setLine n { syms := x.syms ++ s, start := t, first := x.syms.length, len := s.length, cut := false } with tx := tput [] d.tx n b }

/-- A frame started at CMP_END, which is now: it follows the device latency of 100 ns (R86, R92). -/
def Dev.sendPlanned (d : Dev) (n : Nat) (b : List Byte) : Dev := d.sendFrame n (d.time.now + 6553600) b

/-- An ordered set goes out between frames, behind what is on its way (R124, R125). -/
def Dev.sendSet (d : Dev) (n : Nat) (kind : SetKind) (b : List Byte) : Dev :=
  let x := d.line n
  { d.setLine n { x with syms := x.syms ++ setSyms (d.fast n) kind b } with os := tput [] d.os n b }

/-- How many symbols of the last frame have left by now; one that is under way counts. -/
def Dev.symsOut (d : Dev) (n : Nat) : Nat :=
  let x := d.line n
  let e := (d.time.now - x.start).toInt
  if e < 0 then 0 else min x.len (e.toNat / d.bitsTu n (if d.fast n then 64 else 8) + 1)

/-- An ordered set goes out again and again for a number of ns (R73). -/
def Dev.sendSetFor (d : Dev) (n : Nat) (kind : SetKind) (b : List Byte) (ns : Nat) : Dev :=
  let x := d.line n
  let s := setSyms (d.fast n) kind b
  let k := max 1 (ns * 65536 / d.bitsTu n (8 * s.length))
  { d.setLine n { x with syms := x.syms ++ (List.replicate k s).flatten } with os := tput [] d.os n b }

/-- A /QS/ goes out at the next character or block boundary, inside a frame that is on its way, which it cuts (R124). -/
def Dev.sendNow (d : Dev) (n : Nat) (b : List Byte) : Dev :=
  let x := d.line n
  let m := d.symsOut n
  let s := setSyms (d.fast n) .qs b
  let at_ := if m < x.len then x.first + m else x.syms.length
  let x' := { x with syms := x.syms.take at_ ++ s ++ x.syms.drop at_ }
  let x' := if m = 0 ∧ 0 < x.len then { x' with first := x.first + s.length }
    else if m < x.len then { x' with len := x.len + s.length, cut := true } else x'
  { d.setLine n x' with os := tput [] d.os n b }

end Sys2Proof.Machine
end

