-- ==== Sys2Proof/Machine/SafeState.lean ====
section
/-! DEFINITION. Entering the safe state (R158 to R160), what it ends (R447), and small accessors of lanes, beads and pairs
that it shares with other families. -/
namespace Sys2Proof.Machine

/-- A lane beyond its registers. -/
def Dev.lane (d : Dev) (n : Nat) : LaneSt := tget {} d.lanes n
/-- Write a lane. -/
def Dev.setLane (d : Dev) (n : Nat) (x : LaneSt) : Dev := { d with lanes := tput {} d.lanes n x }
/-- A bead beyond its table entry. -/
def Dev.bead (d : Dev) (b : Nat) : BeadSt := tget {} d.beads b
/-- Write a bead. -/
def Dev.setBead (d : Dev) (b : Nat) (x : BeadSt) : Dev := { d with beads := tput {} d.beads b x }

/-- The role a lane carries: none once it is retired (R67). [Log: DEDUCED 29] -/
def Dev.role (d : Dev) (n : Nat) : Nat := if (d.lane n).retired then 0 else d.rd (F.LANE_CTRL_ROLE n)

/-- The lanes with a role. -/
def Dev.lanesOf (d : Dev) (r : Nat) : List Nat := (List.range 24).filter fun n => d.role n = r

/-- The lane at one end of a strand (R66). -/
def Dev.strandLane (d : Dev) (s : Nat) (bEnd : Bool) : Option Nat :=
  (List.range 24).find? fun n => d.role n = 1 ∧ d.rd (F.LANE_CTRL_STR n) = s ∧ d.rdB (F.LANE_CTRL_END n) = bEnd

/-- Whether the strand or link of a lane is in service (R65): the applied EN of its strand, twin or stack; a NET lane serves none.
[Log: DEDUCED 38] -/
def Dev.inService (d : Dev) (n : Nat) : Bool :=
  match d.role n with
  | 1 => d.rdB (F.STR_CTRL_EN (d.rd (F.LANE_CTRL_STR n)))
  | 2 => d.rdB F.TWN_CTRL_EN
  | 3 => d.rdB F.STK_CTRL_EN
  | _ => false

/-- Whether the edge engine is in the safe state (R158). -/
def Dev.safe (d : Dev) : Bool := d.rdB F.EDG_STAT_QUIESCED

/-- The /QS/ ordered set with an epoch (Table 4-9, R123). -/
def qsSet (epoch : Nat) : List Byte :=
  let b := BitVec.ofNat 8 0x51 :: leBytes 4 epoch
  b ++ [BitVec.ofNat 8 (crc8 b)]

/-- The twin state (Table 12-2). -/
def Dev.twin (d : Dev) : Nat := d.rd F.TWN_STAT_STATE
/-- Whether the unit serves the strands: a single device, or the active unit. -/
def Dev.serves (d : Dev) : Bool := d.twin = 0 || d.twin = 4

/-- /QS/ goes out on every STRAND lane (R160) of a unit that serves the strands (Table 12-2) and does not yield them (R350). -/
def Dev.sendQs (d : Dev) : Dev :=
  if d.serves && !d.yieldDue then (d.lanesOf 1).foldl (fun d n => d.sendNow n (qsSet (d.rd F.TWN_EPOCH))) d else d

/-- Both pins of a pair are forced to levels at once, and nothing waits. -/
def Dev.forcePair (d : Dev) (k : Nat) (a b : Bool) : Dev :=
  let x := d.pair k
  d.setPair k { x with a := a, b := b, aAt := if a = x.a then x.aAt else d.time.rt, bAt := if b = x.b then x.bAt else d.time.rt, want := none, due := 0, offAt := none, ahead := [], ledTo := none }

/-- Every local pin takes its SAFE level (R159). -/
def Dev.pinsSafe (d : Dev) : Dev :=
  (List.range 16).foldl (fun d k => d.forcePair k (d.rdB (F.EDG_PAIR_SAFE_A k)) (d.rdB (F.EDG_PAIR_SAFE_B k))) d

/-- The level of a ball of local pair `k` (R137): its pin's active level is high when POL is 0. [Log: DEDUCED 79] -/
def Dev.pwm (d : Dev) (k : Nat) (high : Bool) : Bool :=
  if high then (d.pair k).a != d.rdB (F.EDG_PAIR_POL_A k) else (d.pair k).b != d.rdB (F.EDG_PAIR_POL_B k)

/-- The applied enable of every timebase clears (R158). -/
def Dev.clearTbs (d : Dev) : Dev :=
  (List.range 64).foldl (fun d t => (((d.wr (F.TB_CTRL_EN t) 0).wr (F.TB_STAT_RUN t) 0).setTb t { d.tb t with run := false })) d

/-- The applied enable of every channel clears (R158). -/
def Dev.clearChs (d : Dev) : Dev :=
  (List.range 256).foldl (fun d c =>
    (d.wr (F.CH_CTRL_EN c) 0).setCh c { d.ch c with on := false, live := false, level := 2, irr := 0, out := 2, run := false, inPer := false, ended := false }) d

/-- The applied enables of every timebase and channel clear at once, and nothing planned remains, a channel enable still to
apply included (R158, R161). -/
def Dev.clearEnables (d : Dev) : Dev :=
  let d := d.clearTbs.clearChs
  { d with edge := { d.edge with plan := [], next := [] }, frm := d.frm.filter fun e => !((List.range 256).any fun c => e.1 = (F.CH_CTRL_EN c).key) }

/-- Waiting run-control commands that are overtaken reply ABANDONED with a cause (R447). [Log: DEDUCED 67] -/
def Dev.abandon (d : Dev) (kinds : List WaitKind) (cause : Nat) : Dev :=
  d.settle (fun x => kinds.contains x.kind) fun _ => (.abandoned, cause, [])

/-- What the safe state sets (R158 to R160); a running precharge ends with its PC_DONE and PC_FAIL bits as they stand (R447). -/
def Dev.toSafe (d : Dev) : Dev :=
  let d := ((d.clearEnables.wr F.EDG_STAT_QUIESCED 1).wr F.EDG_STAT_SAFE 1).pinsSafe.sendQs
  { d with edge := { d.edge with pc := none }, frame := { d.frame with safeRecs := 0 } }

/-- Entering the safe state (R158 to R160): cause codes of ABANDONED in Table 16-3. The run state is the caller's. -/
def Dev.enterSafe (d : Dev) (cause : Nat) : Dev :=
  let d := d.abandon [.arm, .precharge, .softStart] cause
  if d.safe then d else d.toSafe

/-- The run state when the safe state is entered by other means than a TRIP: QUIESCED from every state outside the safe state, else
unchanged. [Log: DEDUCED 24] -/
def RunState.halted : RunState → RunState
  | .armed | .precharging | .softStarting | .run => .quiesced
  | r => r

/-- The run state after a TRIP (R446): QUIESCED, from IDLE too; a start-up that is in progress and a lockout stay. [Log: DEDUCED 24] -/
def RunState.tripped : RunState → RunState
  | .idle => .quiesced
  | r => r.halted

end Sys2Proof.Machine
end

