-- ==== Sys2Proof/Machine/Collect.lean ====
section
/-! DEFINITION. The fault collector (R382 to R394): ranking, escalation, counting, the log queue, interrupts, the first-fault
pair and the reactions; and how a command's work becomes a state. -/
namespace Sys2Proof.Machine

/-- The 64 bits of a fault message (Table 14-1). -/
def Msg.encode (m : Msg) : BitVec 64 :=
  BitVec.ofNat 64 (m.fs % 128 * 2 ^ 57 + m.kind % 256 * 2 ^ 49 + m.inst % 4096 * 2 ^ 37 + m.sev % 8 * 2 ^ 34
    + b2n m.inj * 2 ^ 33 + b2n m.same * 2 ^ 32 + m.time % 2 ^ 32)

/-- The escalation window and class of a message of source `n` (R384): an injected one has the class SEV and touches no
window (R393). [Log: DEDUCED 84] -/
def Dev.classify (d : Dev) (m : Msg) : Dev × Msg :=
  let sev := d.rd (F.FLT_SEV m.fs)
  if m.inj then (d, { m with sev := sev }) else
  let t := d.time.rt
  let len := d.rd (F.FLT_CFG_ESC_W m.fs) * (if d.rdB (F.FLT_CFG_ESC_U m.fs) then 1000 else 1)
  let win : EscWin := match tget none d.flt.win m.fs with
    | some w => if len * 64000000 ≤ t - w.start then ⟨t, 1⟩ else ⟨w.start, min (w.cnt + 1) 255⟩
    | none => ⟨t, 1⟩
  let n := d.rd (F.FLT_CFG_ESC_N m.fs)
  let cls := if n ≥ 2 ∧ win.cnt ≥ n then min (sev + 1) 4 else sev
  let d := { d with flt := { d.flt with win := tput none d.flt.win m.fs (some win) } }
  ((d.wr (F.FLT_CNT_WCNT (m.fs % 128)) win.cnt).wr (F.FLT_CNT_WCLASS (m.fs % 128)) cls, { m with sev := cls })

/-- Rank order of R383: class, source, instance, a real message first. -/
def Msg.before (a b : Msg) : Bool :=
  if a.sev ≠ b.sev then decide (b.sev < a.sev)
  else if a.fs ≠ b.fs then decide (a.fs < b.fs)
  else if a.inst ≠ b.inst then decide (a.inst < b.inst)
  else !a.inj && b.inj

/-- Insert a message in rank order, behind its equals. -/
def Msg.rank (m : Msg) : List Msg → List Msg
  | [] => [m]
  | x :: r => if m.before x then m :: x :: r else x :: Msg.rank m r

/-- Every message but the first of a cycle carries SAME-CYCLE (R383). -/
def markSame : List Msg → List Msg
  | [] => []
  | m :: r => m :: r.map fun x => { x with same := true }

/-- The last message of its source (R385). -/
def Dev.setLast (d : Dev) (m : Msg) : Dev := { d with flt := { d.flt with last := tput none d.flt.last m.fs (some m) } }

/-- CLASSMAX, the log queue, the interrupts and the notifications of one ranked message (R396 to R399, R424). -/
def Dev.announce (d : Dev) (m : Msg) : Dev :=
  let d := if d.rd F.FLT_STAT_CLASSMAX < m.sev then d.wr F.FLT_STAT_CLASSMAX m.sev else d
  let ram := decide (d.rd F.FLT_CTRL_LOG_MIN ≤ m.sev)
  let aon := decide (d.rd F.FLT_CTRL_AON_MIN ≤ m.sev) || m.sev = 4
  let d := if !ram && !aon then d
    else if d.flt.queue.length < 64 then { d with flt := { d.flt with queue := d.flt.queue ++ [⟨m, ram, aon⟩] } }
    else d.inc F.FLT_STAT_LOST
  let d := if d.rdB (F.FLT_CFG_IRQA m.fs) then d.setBit (F.FLT_PEND_A (m.fs % 128 / 32)) (m.fs % 32) else d
  let d := if d.rdB (F.FLT_CFG_IRQB m.fs) then d.setBit (F.FLT_PEND_B (m.fs % 128 / 32)) (m.fs % 32) else d
  let lo := d.rd (F.HST_CFG_NOTE_MIN 0)
  let hi := d.rd (F.HST_CFG_NOTE_MIN 1)
  let w := m.encode.toNat
  let x : Note := ⟨2, d.ns % 2 ^ 32, [BitVec.ofNat 32 w, BitVec.ofNat 32 (w / 2 ^ 32)]⟩
  let one (p b lim : Nat) (d : Dev) : Dev := if lim ≤ m.sev then d.noteTo p b 2 x else d
  one 1 1 hi (one 1 0 hi (one 0 1 lo (one 0 0 lo d)))

/-- Counting, logging and reporting of one ranked message (R385). -/
def Dev.report (d : Dev) (m : Msg) : Dev := ((d.inc (F.FLT_CNT (m.fs % 128))).setLast m).announce m

/-- The bead a message's source and instance name (R379): a bead source by INST[6:0], a sensor source by sensor / 8. -/
def Msg.bead (m : Msg) : Option Nat :=
  if m.fs = 17 ∧ m.inst ≥ 0xF00 then none
  else if [17, 18, 19, 20, 21, 22, 24, 25, 45, 54, 64, 84, 85, 86, 87, 88].contains m.fs then some (m.inst % 128)
  else if [23, 63, 94, 95].contains m.fs ∧ m.inst < 768 then some (m.inst / 8)
  else none

/-- A failed bead (R310), now or from the next boundary IN_SERVICE or SPARE: bead service acts on it at a plan instant, or, where no
string it manages has AUTO_BYP for it, only FAILED is set. [Log: DEDUCED 49] -/
def Dev.beadFails (d : Dev) (b : Nat) : Dev :=
  let st := d.rd (F.BDT_STATE b)
  let nx := (d.bead b).nxt.getD st
  if st = 3 ∨ st = 2 ∨ nx = 3 ∨ nx = 2 then
    let g := d.rd (F.BDT_STATE_STRING b)
    if g < 6 ∧ d.rdB (F.BSV_CTRL_EN g) ∧ d.rdB (F.BSV_CTRL_AUTO_BYP g) then d.setBead b { d.bead b with fail := true }
    else d.wr (F.BDT_STATE_FAILED b) 1
  else d

/-- The owning block acts on the class after escalation (R388, R310). -/
def Dev.owner (d : Dev) (m : Msg) : Dev :=
  if m.react ∧ 2 ≤ m.sev then (match m.bead with | some b => d.beadFails b | none => d) else d

/-- The reaction to a TRIP (R386, R446): the safe state, TRIPPED, and a yield that an active twin owes (R389). [Log: DEDUCED 24] -/
def Dev.trip (d : Dev) : Dev :=
  let d := (d.enterSafe 3).wr F.FLT_STAT_TRIPPED 1
  d.setRun d.run.tripped

/-- The device side of a LOCKOUT (R390, R447): the safe state, RUN (a written one that waits included) and DEN cleared, every waiting
command of the list of R447 abandoned. -/
def Dev.lock (d : Dev) : Dev :=
  let d := (d.enterSafe 3).wr F.FLT_STAT_TRIPPED 1
  let d := ((d.wr F.LPE_CTRL_RUN 0).wr F.LPE_STAT_RUNNING 0).wr F.GSV_DEN_EN 0
  let d := { d with frm := tput [] d.frm F.LPE_CTRL_RUN.key [], twn := { d.twn with denDue := none } }
  let d := d.wr F.GSV_DEN_LVL 0
  let d := if (d.waiting .coefSwap).isSome then d.wr F.LPE_COEF_SWAP_PEND 0 else d
  let d := if (d.waiting .handback).isSome then
      ({ d with twn := { d.twn with hbk := none, hbkAsk := false, hbkOwn := false, hbkAcc := false } }.wr F.TWN_STAT_HBK_PEND 0).wr F.TWN_HBK_HBK_SEQ 0
    else d
  let d := if (d.waiting .reclaim).isSome then { d with stk := { d.stk with rcl := none } } else d
  let d := d.abandon [.stageApply, .coefSwap, .handback, .reclaim] 3
  let d := if (match d.stage with | some x => x.accepted.isSome | none => false) then d.closeSet else d
  d.setRun .lockout

/-- A source that makes an active twin whose partner stands in STANDBY yield is noted (R389, R350). -/
def Dev.noteYield (d : Dev) (m : Msg) : Dev :=
  if d.twin = 4 ∧ d.twn.pState = some 3 ∧ m.react ∧ 3 ≤ m.sev ∧ bitOf (d.rd (F.TWN_YMASK (m.fs / 32))) (m.fs % 32) ∧ d.rdB F.TWN_CTRL_YIELD_EN
  then { d with yieldDue := true } else d

/-- The first-fault pair after one cycle (R392): `l` are the reacting messages in rank order, `ff` and `lg` the thresholds. -/
def Vault.firstFault (v : Vault) (l : List Msg) (ff lg : Nat) : Vault :=
  match v.first, v.comp with
  | none, _ =>
    match l.find? fun m => ff ≤ m.sev with
    | none => v
    | some m => { v with first := some m, comp := ((l.dropWhile fun m => !decide (ff ≤ m.sev)).drop 1).find? fun x => lg ≤ x.sev }
  | some _, none => { v with comp := (l.find? fun m => decide (ff ≤ m.sev)).map fun m => { m with same := false } }
  | some _, some _ => v

/-- Records of a stream reach the open loupe, which keeps the first 16,384 (R506). [Log: DESIGN CHOICE 73] -/
def Dev.loupeTake (d : Dev) (stream : Nat) (l : List (BitVec 64)) : Dev :=
  if d.rdB F.SEC_DBG_LOUPE ∧ bitOf d.loupe.sel stream then { d with loupe := { d.loupe with buf := (d.loupe.buf ++ l).take 16384 } } else d

/-- Every message of a cycle is classified, in the order it came. -/
def classifyAll (d : Dev) (ms : List Msg) : Dev × List Msg :=
  ms.foldl (fun (a : Dev × List Msg) m => ((a.1.classify m).1, a.2 ++ [(a.1.classify m).2])) (d, [])

/-- The messages of a cycle in rank order (R383); an injected one does not react beside a real one of the same source and
instance (R394). -/
def rankAll (ms : List Msg) : List Msg :=
  let l := markSame (ms.foldl (fun r m => m.rank r) [])
  l.map fun m => if m.inj ∧ l.any (fun x => !x.inj ∧ x.fs = m.fs ∧ x.inst = m.inst) then { m with react := false } else m

/-- The owning blocks act on the messages that react, and a yield is noted. -/
def Dev.owners (d : Dev) (r : List Msg) : Dev := r.foldl Dev.noteYield (r.foldl Dev.owner d)

/-- The reaction to a cycle: the highest class of the messages that react decides. -/
def Dev.reactTo (d : Dev) (r : List Msg) : Dev := if r.any (·.sev = 4) then d.lock else if r.any (·.sev = 3) then d.trip else d

/-- One collector cycle (R382 to R394). -/
def collectCycle (v : Vault) (d : Dev) (ms : List Msg) : Vault × Dev :=
  let l := rankAll (classifyAll d ms).2
  let d := (l.foldl Dev.report (classifyAll d ms).1).loupeTake 0 (l.map Msg.encode)
  let r := l.filter (·.react)
  let v := v.firstFault r (d.rd F.FLT_CTRL_FF_MIN) (d.rd F.FLT_CTRL_LOG_MIN)
  ({ v with lockout := v.lockout || r.any (·.sev = 4) }, (d.owners r).reactTo r)

/-- All cycles of a command, `n` at most. [Log: DEDUCED 70] -/
def collectAll : Nat → Nat → Vault → Dev → List Msg → Vault × Dev
  | 0, _, v, d, _ => (v, d)
  | n + 1, c, v, d, ms =>
    if ms = [] then (v, d) else
    match ms.filter (·.cyc = c) with
    | [] => collectAll n (c + 1) v d ms
    | g => collectAll n (c + 1) (collectCycle v d g).1 (collectCycle v d g).2 (ms.filter (·.cyc ≠ c))

/-! ## Logs (R395 to R397) -/

/-- What a mark covers: device time ns bits [47:32] and TIM_EPOCH bits [3:0]. [Log: DEDUCED 31] -/
def Dev.markKey (d : Dev) : Nat := d.ns / 2 ^ 32 % 65536 * 16 + d.rd F.TIM_EPOCH % 16

/-- A FLT_MARK entry (FS100). [Log: DEDUCED 31] -/
def Dev.markMsg (d : Dev) : Msg :=
  { fs := 100, kind := d.ns / 2 ^ 40 % 256, inst := d.rd F.TIM_EPOCH % 16 * 256 + d.ns / 2 ^ 32 % 256, time := d.ns % 2 ^ 32 }

/-- An entry into the RAM log. -/
def Dev.ramPut (d : Dev) (m : Msg) : Dev :=
  let n := d.rd F.FLT_LOG_SEQ
  { d with flt := { d.flt with ram := tput 0 d.flt.ram (n % 1024) m.encode } }.wr F.FLT_LOG_SEQ (n + 1)

/-- An entry into the AON log. -/
def Dev.aonPut (d : Dev) (m : Msg) : Dev :=
  let n := d.rd F.FLT_AON_SEQ
  { d with aon := { d.aon with log := tput 0 d.aon.log (n % 64) m.encode } }.wr F.FLT_AON_SEQ (n + 1)

/-- The collector writes the entry at the head of its queue, into each log it goes to, behind a mark where one is due. [Log: DEDUCED 31] -/
def Dev.logWrite (d : Dev) : Dev :=
  match d.flt.queue with
  | [] => d
  | x :: r =>
    let key := d.markKey
    let d := { d with flt := { d.flt with queue := r } }
    let d := if !x.ram then d else
      let d := if d.flt.ramMarkDue || d.flt.ramMark ≠ key then
          let d := d.ramPut d.markMsg; { d with flt := { d.flt with ramMark := key, ramMarkDue := false } } else d
      d.ramPut x.msg
    if !x.aon then d else
    let d := if d.aon.markDue || d.aon.mark ≠ key then
        let d := d.aonPut d.markMsg; { d with aon := { d.aon with mark := key, markDue := false } } else d
    d.aonPut x.msg

/-- The collector writes every entry that waits. -/
def Dev.logDrain (d : Dev) : Dev := (List.range d.flt.queue.length).foldl (fun d _ => d.logWrite) d

/-! ## A command's work as a state -/

/-- Notifications 0x05 and 0x06: TWN_STAT.STATE and STK_STAT.ROLE have changed (Table 15-3). -/
def Dev.noteChanges (d old : Dev) : Dev :=
  let note (t : Nat) (f : Fld) (d : Dev) : Dev := if old.rd f = d.rd f then d else d.notify t [old.rd f, d.rd f]
  note 6 F.STK_STAT_ROLE (note 5 F.TWN_STAT_STATE d)

/-- A command's work: what it is run on holds the protected part and the device, no message yet. -/
def State.wk (s : State) : Wk := ⟨s.vault, s.dev, [], 0⟩

/-- The state after the collector has taken a command's messages, the protected part being `v`. -/
def State.settleWk (s : State) (v : Vault) (w : Wk) : State :=
  let c := collectAll (w.cyc + 1) 0 v w.d w.ms
  { s with vault := c.1, dev := c.2.noteChanges s.dev }

/-- Run a command's work on a state: it reads the protected part and changes the device; then the collector takes its
messages. The command queue is not touched. -/
def State.run (s : State) (f : Wk → Wk) : Host.Outcome State Fault Refusal := .next (s.settleWk s.vault (f s.wk))

/-- The same for a command that does more to the device once the collector has taken its messages. -/
def State.runThen (s : State) (f : Wk → Wk) (g : Dev → Dev) : Host.Outcome State Fault Refusal :=
  let t := s.settleWk s.vault (f s.wk)
  .next { t with dev := g t.dev }

/-- The same for the few commands that also write the protected part: what `f` left in `w.v` holds, but for the lockout
latch, which no command clears (R390, R401). -/
def State.runV (s : State) (f : Wk → Wk) : Host.Outcome State Fault Refusal :=
  .next (s.settleWk { (f s.wk).v with lockout := s.vault.lockout } (f s.wk))

end Sys2Proof.Machine
end

