-- ==== Sys2Proof/Machine/Time.lean ====
section
/-! DEFINITION. Device time, pulse outputs, captures and NET frames (02_device_time.md). -/
namespace Sys2Proof.Machine

/-! ## The increment and steps -/

/-- Whether the unit's time follows an upstream unit (R42, R56): a stack member, or a twin that is not ACTIVE; shown by
TIM_STAT.TSRC, which `Dev.tsrcNow` keeps. -/
def Dev.followsTime (d : Dev) : Bool := d.rd F.TIM_STAT_TSRC ≠ 0

/-- A target of a pulse output is set: one that is not later than now fires at this edge (R45). -/
def PulseOut.aim (x : PulseOut) (t now : BitVec 64) : PulseOut :=
  { x with target := t, armed := true, passed := if 0 ≤ (now - t).toInt then some now else none }

/-- A write of TIM_INC_INT (R38, R39): out of range it is ignored and INC_REJ is set, else both halves apply. -/
def Wk.incInt (w : Wk) (v : Nat) : Wk :=
  w.up fun d =>
    if 524032 ≤ v ∧ v ≤ 524543 then
      let d := d.wr F.TIM_INC_INT v
      { d with time := { d.time with incI := v, incF := d.rd F.TIM_INC_FRAC } }
    else d.wr F.TIM_STAT_INC_REJ 1

/-- The smallest exponent that keeps a number of ns below 4,096 (Table 14-3), and the mantissa. [Log: DEDUCED 74] -/
def mantissa : Nat → Nat → Nat → Nat × Nat
  | 0, e, n => (e, n % 4096)
  | f + 1, e, n => if n < 4096 then (e, n) else mantissa f (e + 1) (n / 2)

/-- A step at this TIM clock edge (R41): TIM_NOW and FRM_ORIGIN move, STEPPED is set, COARSE clears (R47), and TIME_STEPPED
(FS74) carries sign, exponent and mantissa. [Log: DEDUCED 74] -/
def Wk.stepNow (w : Wk) (off : Int) : Wk :=
  let w := w.stepTime off
  let (e, m) := mantissa 64 0 (off.natAbs / 65536)
  let w := w.raise 74 (b2n (off < 0) * 128 + e) m
  w.up fun d => if d.followsTime then d else d.wr F.TIM_STAT_COARSE 0

/-- TIME_STEP (R41): the step comes at the first TIM clock edge after the command. [Log: DEDUCED 74] -/
def Wk.timeStep (w : Wk) (off : Int) : Wk := (w.edges 1).stepNow off

/-! ## Pulse outputs (R48 to R52) -/

/-- A pulse output. -/
def Dev.out (d : Dev) (n : Nat) : PulseOut := tget {} d.time.outs n
/-- Write a pulse output. -/
def Dev.setOut (d : Dev) (n : Nat) (x : PulseOut) : Dev := { d with time := { d.time with outs := tput {} d.time.outs n x } }

/-- The device time of the tick nearest an instant, a later one at a tie (R48). [Log: DEDUCED 74] -/
def nearestTick (t : BitVec 64) : BitVec 64 := BitVec.ofNat 64 ((t.toNat + 2560) / 5120 * 5120)

/-- The pin of a pulse output (R48, Table 2-2): high while active with POL 0; the idle level is the inverse. -/
def Dev.outPin (d : Dev) (n : Nat) : Bool := (d.out n).active != d.rdB (F.TIM_OUT_CTRL_POL n)

/-- The rules of R52 on a mode, a period in tu and a width in ns. -/
def outRulesOk (mode per width : Nat) : Bool :=
  mode = 0 || (8 ≤ width && (mode ≠ 2 || (1048576 ≤ per && decide (per < 2 ^ 48) && decide (width * 65536 < per))))

/-- A refused write (R52). -/
def Wk.outRej (w : Wk) (n : Nat) : Wk := w.up (·.wr (F.TIM_OUT_CTRL_REJ n) 1)

/-- A write of an output's MODE (R51, R52): 0 returns the pin to idle at the next edge and disarms; 1 and 2 are checked. That 0
drops a target that waits, with PEND, and that a write of the reserved MODE 3 is refused as one that R52 refuses, is the model's
choice. [Log: DESIGN CHOICE 87] -/
def Wk.outMode (w : Wk) (n mode : Nat) : Wk :=
  let x := w.d.out n
  if mode = 0 then w.up fun d => ((d.wr (F.TIM_OUT_CTRL_MODE n) 0).wr (F.TIM_OUT_CTRL_PEND n) 0).setOut n { x with armed := false, active := false, held := none, passed := none, edge := if x.active then d.time.now + BitVec.ofNat 64 d.time.incI else x.edge }
  else if mode ≤ 2 ∧ outRulesOk mode x.per (w.d.rd (F.TIM_OUT_WIDTH n)) then
    w.up fun d => (d.wr (F.TIM_OUT_CTRL_MODE n) mode).setOut n (if d.rd (F.TIM_OUT_CTRL_MODE n) = 0 && x.armed then x.aim x.target d.time.now else x)
  else w.outRej n

/-- A write of an output's WIDTH (R52): checked while a mode is applied. -/
def Wk.outWidth (w : Wk) (n v : Nat) : Wk :=
  if outRulesOk (w.d.rd (F.TIM_OUT_CTRL_MODE n)) (w.d.out n).per v then w.up (·.wr (F.TIM_OUT_WIDTH n) v) else w.outRej n

/-- A write of an output's PER_HI (R52): both halves apply, checked while a mode is applied. -/
def Wk.outPerHi (w : Wk) (n v : Nat) : Wk :=
  let per := (v % 65536) * 2 ^ 32 + w.d.rd (F.TIM_OUT_PER_LO n)
  if outRulesOk (w.d.rd (F.TIM_OUT_CTRL_MODE n)) per (w.d.rd (F.TIM_OUT_WIDTH n)) then
    w.up fun d => (d.wr (F.TIM_OUT_PER_HI n) v).setOut n { d.out n with per := per }
  else w.outRej n

/-- A write of an output's TGT_HI (R51): the full target applies and PEND is set; during a pulse it waits for its end. -/
def Wk.outTgtHi (w : Wk) (n v : Nat) : Wk :=
  w.up fun d =>
    let d := (d.wr (F.TIM_OUT_TGT_HI n) v).wr (F.TIM_OUT_CTRL_PEND n) 1
    let t := BitVec.ofNat 64 (v * 2 ^ 32 + d.rd (F.TIM_OUT_TGT_LO n))
    let x := d.out n
    if x.active then d.setOut n { x with held := some t } else d.setOut n (x.aim t d.time.now)

/-- A pulse output reaches its target (R45, R48, R49): the pin takes its active level, at the edge at which a step passed the target if
one did; a periodic output takes the first later target of its grid, and the targets passed over are added to SKIP, whether a step
passed them or they lay in the past when written. While the TIM clock stands nothing fires (R47). [Log: DEDUCED 88] -/
def Wk.pulseFire (w : Wk) (n : Nat) : Wk :=
  let x := w.d.out n
  let mode := w.d.rd (F.TIM_OUT_CTRL_MODE n)
  if !(x.armed && (mode = 1 || mode = 2)) || w.d.timStopped then w else
  let w := w.advanceTo x.target
  w.up fun d =>
    let start := x.passed.getD (if d.behind x.target ≤ (d.time.incI : Int) then x.target else d.time.now)
    let on := { x with active := true, start := start, edge := nearestTick start, passed := none }
    if mode = 1 ∨ x.per = 0 then (d.wr (F.TIM_OUT_CTRL_PEND n) 0).setOut n { on with armed := false }
    else
      let m := (d.behind x.target).toNat / x.per + 1
      (d.addSat F.TIM_STAT_SKIP (m - 1)).setOut n { on with target := x.target + BitVec.ofNat 64 (m * x.per) }

/-- A pulse ends after WIDTH ns (R48); a target written meanwhile takes effect (R51). -/
def Wk.pulseEnd (w : Wk) (n : Nat) : Wk :=
  let x := w.d.out n
  if !x.active || w.d.timStopped then w else
  let stop := x.start + BitVec.ofNat 64 (w.d.rd (F.TIM_OUT_WIDTH n) * 65536)
  let w := w.advanceTo stop
  let off := { x with active := false, edge := nearestTick stop }
  w.up fun d => match x.held with
    | some t => d.setOut n ({ off with held := none }.aim t stop)
    | none => d.setOut n off

/-! ## Captures (R53, R54) -/

/-- The FIFO of a TRIG_IN input. -/
def Dev.caps (d : Dev) (i : Nat) : List Capture := tget [] d.time.caps i

/-- An accepted edge at device time `t`: into the FIFO, or counted in OVF when 8 entries wait. -/
def Wk.capture (w : Wk) (i : Nat) (rising : Bool) (t : BitVec 64) : Wk :=
  if !bitOf (w.d.rd (F.TIM_CAP_CTRL_EDGE i)) (if rising then 0 else 1) then w else
  w.up fun d =>
    let q := d.caps i
    if q.length ≥ 8 then d.inc (F.TIM_CAP_STAT_OVF i) else
    let e : Capture := ⟨BitVec.ofNat 64 (t.toNat / 5120 * 5120), d.rd F.TIM_EPOCH % 65536, rising, tget false d.time.stepped i, d.rdB F.TIM_STAT_COARSE⟩
    { d with time := { d.time with caps := tput [] d.time.caps i (q ++ [e]), stepped := tput false d.time.stepped i false } }

/-- A capture entry as four words (Table 2-3), with the entries left behind it. -/
def capWords (e : Option Capture) (left : Nat) : List Nat :=
  match e with
  | none => [0, 0, 0, 0]
  | some e => [e.t.toNat % 2 ^ 32, e.t.toNat / 2 ^ 32, e.epoch + b2n e.rising * 2 ^ 16 + b2n e.stepped * 2 ^ 17 + b2n e.coarse * 2 ^ 18, left % 16 + 16]

/-- Whether four words show an entry of a capture FIFO, however many were left behind it. -/
def Capture.shown (e : Capture) (ws : List Nat) : Bool := (capWords (some e) 0).take 3 = ws.take 3

/-- Drop the head of a capture FIFO. -/
def Dev.popCap (d : Dev) (i : Nat) : Dev := { d with time := { d.time with caps := tput [] d.time.caps i ((d.caps i).drop 1) } }

/-! ## Reseeding (R47) -/

/-- The pair recorded on entry to HOLD or SLEEP. -/
def Dev.recordPair (d : Dev) : Dev := { d with time := { d.time with holdPair := some (d.time.now, d.aonTime) } }

/-- Reseed TIM_NOW on leaving HOLD or SLEEP: the recorded value plus 2,000,000,000 tu per AON cycle, with wraps, COARSE
set and both logs marked (R47, R395). [Log: DEDUCED 74] -/
def Wk.reseed (w : Wk) : Wk :=
  match w.d.time.holdPair with
  | some (t, a) =>
    if !w.d.rdB F.TIM_CTRL_HOLD_SEED then w.up fun d => { d with time := { d.time with holdPair := none } } else
    let n := (w.d.aonTime + 2 ^ 48 - a) % 2 ^ 48
    let tot := t.toNat + n * 2000000000
    let w := w.up fun d => { d with
      time := { d.time.jump (BitVec.ofNat 64 tot) with holdPair := none }
      flt := { d.flt with ramMarkDue := true }
      aon := { d.aon with markDue := true } }
    let w := w.up (·.wr F.TIM_STAT_COARSE 1)
    w.each (List.range (tot / 2 ^ 64)) fun _ w => w.wrap false
  | none => w.up fun d => (d.wr F.TIM_STAT_COARSE 1)

/-! ## Members and standby twins (R56, R57) -/

/-- Where the device's time comes from (Table 2-2): the TWIN in a twin that stands by, the cascade in a member of a stack, else the
host. A take-over in a unit that is a member of a stack leaves it a member (R42, R56). [Log: DEDUCED 46] -/
def Dev.tsrcNow (d : Dev) : Nat :=
  let tw := d.rd F.TWN_STAT_STATE
  let r := d.rd F.STK_STAT_ROLE
  if tw = 2 ∨ tw = 3 then 2 else if d.rdB F.STK_CTRL_EN ∧ r ≠ 0 ∧ r ≠ 1 ∧ r ≠ 4 then 1 else 0

/-- A write of TIM_STAT.TSRC; a unit that follows nobody any more changes TIM_INC and TIM_NOW by itself
no more (R40): the trim and a step that was due are gone, the host's increment is in force, and LOCK reads 0 (Table 2-2). -/
def Dev.setTsrc (d : Dev) (v : Nat) : Dev :=
  if v ≠ 0 then d.wr F.TIM_STAT_TSRC v else
  { (d.wr F.TIM_STAT_TSRC 0).wr F.TIM_STAT_LOCK 0 with time := { d.time with trim := none, stepDue := none, goodRun := 0, badRun := 0, incI := d.rd F.TIM_INC_INT, incF := d.rd F.TIM_INC_FRAC } }

/-- TIM_STAT.TSRC follows the unit's place in its twin and its stack. -/
def Dev.retime (d : Dev) : Dev := if d.rd F.TIM_STAT_TSRC = d.tsrcNow then d else d.setTsrc d.tsrcNow

/-- One measured offset to the upstream unit, in tu: more than 1 µs steps at the next boundary, else a trim over 16
frames; LOCK after 64 frames within 500 ps, lost after 4 beyond 2 ns. A frame that brings no offset neither counts in a run of
consecutive frames nor ends it. [Log: DEDUCED 74] -/
def Wk.discipline (w : Wk) (off : Int) : Wk :=
  let t := w.d.time
  let big := decide (off.natAbs > 65536 * 1000)
  let w := w.up fun d => { d with time := { d.time with
    stepDue := if big then some (-off) else d.time.stepDue
    trim := if big then d.time.trim else some (16, -off)
    goodRun := if off.natAbs ≤ 32768 then t.goodRun + 1 else 0
    badRun := if off.natAbs > 131072 then t.badRun + 1 else 0 } }
  let w := w.on (t.goodRun + 1 ≥ 64 && decide (off.natAbs ≤ 32768)) (·.up fun d => (d.wr F.TIM_STAT_LOCK 1).wr F.TIM_STAT_COARSE 0)
  w.on (t.badRun + 1 ≥ 4 && decide (off.natAbs > 131072) && w.d.rdB F.TIM_STAT_LOCK)
    (fun w => (w.up (·.wr F.TIM_STAT_LOCK 0)).raise 37 0 0)

/-- What the discipline does at a boundary in a unit that follows another (R40): the step that is due (R41), which takes the trim
back, or one sixteenth of the trim (R56). -/
def Wk.disciplineBoundary (w : Wk) : Wk :=
  if !w.d.followsTime then w else
  let w := match w.d.time.stepDue with
    | some o => (w.stepNow o).up fun d => { d with time := { d.time with stepDue := none, trim := none, incI := d.rd F.TIM_INC_INT, incF := d.rd F.TIM_INC_FRAC } }
    | none => w
  match w.d.time.trim with
  | some (n, o) =>
    if n = 0 then w.up fun d => { d with time := { d.time with trim := none, incI := d.rd F.TIM_INC_INT, incF := d.rd F.TIM_INC_FRAC } }
    else w.up fun d =>
      let edges : Int := (d.frameTu / 524288 : Nat)
      let base : Int := ((d.rd F.TIM_INC_INT * 2 ^ 32 + d.rd F.TIM_INC_FRAC : Nat) : Int)
      let inc := if edges = 0 then base else base + o * 2 ^ 32 / (16 * edges)
      { d with time := { d.time with trim := some (n - 1, o), incI := (inc / 2 ^ 32).toNat, incF := (inc % 2 ^ 32).toNat } }
  | none => w

/-! ## NET lanes (R60 to R63) -/

/-- The NET lanes in ascending order; the host names them 0 and 1. -/
def Dev.netIndex (d : Dev) (lane : Nat) : Option Nat :=
  let l := d.lanesOf 4
  if l.head? = some lane then some 0 else if (l.drop 1).head? = some lane then some 1 else none

/-- Whether a frame is a PTP event message carried directly over Ethernet (R61), behind at most one tag with NET_VLAN = 1. -/
def Dev.ptpEvent (d : Dev) (b : List Byte) : Bool :=
  let et := (b.getD 12 0).toNat * 256 + (b.getD 13 0).toNat
  let o := if et = 0x8100 ∧ d.rdB F.TIM_CTRL_NET_VLAN then 16 else 12
  let et := (b.getD o 0).toNat * 256 + (b.getD (o + 1) 0).toNat
  et = 0x88F7 && (b.getD (o + 2) 0).toNat % 16 ≤ 3

/-- A NET timestamp resolves to 800 ps, one bit at 1.25 Gbaud (R63). [Log: DEDUCED 61] -/
def netStamp (t : BitVec 64) : BitVec 64 := BitVec.ofNat 64 (t.toNat * 10 / 524288 * 524288 / 10)

/-- A NET frame arrives (R60, R62, R413, R456): of 64 to 1,522 bytes with its FCS, and with a good FCS, it goes to every port that
takes its lane; a full queue drops it for that port alone. The timestamp is corrected by the lane's receive delay (R63); it is
valid while NET_TS_EN = 1. [Log: DEDUCED 61] -/
def Wk.netReceive (w : Wk) (lane : Nat) (fcsOk : Bool) (bytes : List Byte) (ts : BitVec 64) : Wk :=
  match w.d.netIndex lane with
  | none => w
  | some i =>
    if !fcsOk ∨ bytes.length < 60 ∨ 1518 < bytes.length then w else
    let cor := w.d.rd (F.LANE_NET_RXD lane) * 65536 / 1000
    let t := netStamp ts - BitVec.ofNat 64 cor
    let f : NetFrame := ⟨bytes, i, w.d.rdB F.TIM_CTRL_NET_TS_EN, w.d.rdB F.TIM_STAT_COARSE, t, w.d.rd F.TIM_EPOCH % 65536⟩
    w.each [0, 1] fun p w =>
      if !bitOf (w.d.rd (F.HST_CFG_NETL p)) i then w else
      let q := (w.d.port p).netq
      let size := (q.map fun x => 16 + (x.bytes.length + 3) / 4 * 4).foldl (· + ·) 0
      if q.length ≥ 32 ∨ size + 16 + bytes.length > 24576 then w.up (·.inc (F.HST_NET_DROP p))
      else w.up (·.upPort p fun x => { x with netq := x.netq ++ [f] })

/-! ## The rows -/

/-- TIM_WRAP: device time passes 2^64 (R43), unless the TIM clock stands (R47). -/
def execTimWrap (s : State) : Host.Outcome State Fault Refusal :=
  s.run fun w =>
    if w.d.timStopped then w else
    let t := w.d.time
    let inc := t.incI * 2 ^ 32 + t.incF
    w.edges ((2 ^ 96 - (t.now.toNat * 2 ^ 32 + t.rem.toNat) + inc - 1) / inc)

/-- PULSE_OUT_FIRE. -/
def execPulseOutFire (n : Nat) (s : State) : Host.Outcome State Fault Refusal := s.run (·.pulseFire n)

/-- PULSE_WIDTH_END. -/
def execPulseWidthEnd (n : Nat) (s : State) : Host.Outcome State Fault Refusal := s.run (·.pulseEnd n)

/-- NET_FRAME_RECEIVE. [Log: DEDUCED 27] -/
def execNetFrameReceive (lane : Nat) (fcsOk : Bool) (bytes : List Byte) (ts : BitVec 64) (s : State) : Host.Outcome State Fault Refusal :=
  s.run (·.netReceive lane fcsOk bytes ts)

/-- NET_AUTONEGOTIATION (R69): a NET lane's link is up at rate index 0. -/
def execNetAutonegotiation (lane : Nat) (s : State) : Host.Outcome State Fault Refusal :=
  s.run fun w => w.on (w.d.role lane = 4) (·.up fun d => ((d.setLane lane { d.lane lane with out := .data }).wr (F.LANE_STAT_RATE lane) 0).wr (F.LANE_STAT_PHASE lane) 2)

/-- NET_FRAME_SENT (R455): the frame has left with its FCS (IEEE 802.3, R60); the reply carries the egress timestamp of an event
message, valid while NET_TS_EN = 1. [Log: DEDUCED 61] -/
def execNetFrameSent (lane : Nat) (ts : BitVec 64) (s : State) : Host.Outcome State Fault Refusal :=
  s.run fun w =>
    let mine (x : Wait) : Bool := decide (x.kind = WaitKind.net) && (match (w.d.port x.hdr.port).netWait with
      | some (i, _) => w.d.netIndex lane = some i
      | none => false)
    match w.d.waits.find? mine with
    | none => w
    | some x =>
      let p := x.hdr.port
      match (w.d.port p).netWait with
      | none => w
      | some (_, bytes, h, tsreq) =>
        let d := w.d.upPort p fun q => { q with netWait := none }
        let d := { d with waits := d.waits.filter fun y => !(decide (y.kind = WaitKind.net) && y.hdr.port = p), tx := tput [] d.tx lane (bytes ++ leBytes 4 (crc32 bytes)) }
        let t := netStamp ts + BitVec.ofNat 64 (d.rd (F.LANE_NET_TXD lane) * 65536 / 1000)
        let ws := if tsreq ∧ d.ptpEvent bytes then
          [t.toNat % 2 ^ 32, t.toNat / 2 ^ 32, d.rd F.TIM_EPOCH % 65536 + b2n (d.rdB F.TIM_CTRL_NET_TS_EN) * 2 ^ 16 + b2n (d.rdB F.TIM_STAT_COARSE) * 2 ^ 17] else []
        { w with d := d.replyOk h 0x0B00 ws }

end Sys2Proof.Machine
end

