-- ==== Sys2Proof/Machine/Lanes.lean ====
section
/-! DEFINITION. Lanes: bring-up, rejoin, loss of signal and lock, retirement, link delays, modules (03_lanes.md, R125, R331). -/
namespace Sys2Proof.Machine

/-! ## Olgen service maps (R483, R484) -/

/-- The service-map codes of beads (Table 11-1): 3 absent, 1 spare, 0 in service, 2 retired. -/
def beadOlg (st : Nat) : Nat := if st = 0 then 3 else if st ≤ 2 then 1 else if st = 3 then 0 else 2

/-- The service maps that can change after boot, in the order of Table 17-10: die sensors, lanes, beads, converters,
clusters, management cores, inputs, state rows, key slots, images. A die sensor that fails with no spare left in its row is retired where it
stands (R326). The row maps are added by the loop engine's own state. -/
def Dev.serviceMaps (d : Dev) (v : Vault) : List (List Nat) :=
  let waking (r : Nat) : Bool := (tget none d.thm.wake r).isSome
  let left (i : Nat) : Bool := decide (i < 24) && !bitOf (d.rd F.THM_DSVC_SVC) (24 + i / 6) && (waking (i / 6) || !bitOf (d.rd F.THM_DBRK_BROKEN) (24 + i / 6))
  let die := (List.range 28).map fun i =>
    if bitOf (d.rd F.THM_DSVC_SVC) i then (if bitOf (d.rd F.THM_DBRK_BROKEN) i && !left i then 2 else 0)
    else if i < 24 || (bitOf (d.rd F.THM_DBRK_BROKEN) i && !waking (i - 24)) then 2 else 1
  let lanes := (List.range 24).map fun n => if (d.lane n).retired then 2 else if d.rd (F.LANE_CTRL_ROLE n) = 5 then 1 else 0
  let beads := (List.range 96).map fun b => beadOlg (d.rd (F.BDT_STATE b))
  let adc := (List.range 5).map fun c => tget (if c = 4 then 1 else 0) d.adcMap c
  let cl := (List.range 6).map fun c => match (d.rd F.LPE_ROLE / 16 ^ c) % 16 with
    | 9 => 1 | 0xE => 2 | 0xF => 3 | _ => 0
  let mc := (List.range 3).map fun c => match (d.rd F.SYS_MCORE_ROLE / 4 ^ c) % 4 with | 0 => 0 | 1 => 1 | 3 => 3 | _ => 2
  let ain := (List.range 48).map fun i => tget 0 d.ainMap i
  let rows := (List.range 1088).map fun i => tget (if i < 1024 then 0 else 1) d.rowMap i
  let keys := (List.range 4).map fun k => let x := (tget 0 v.otp (128 + 64 * k)).toNat
    if x = 0 then 1 else if x = 0x5A5A0001 then 0 else 2
  let img := (List.range 2).map fun k => if d.sec.retired.contains k then 2
    else if d.rd F.SEC_BOOT_IMAGE = k then 0 else 1
  [die, lanes, beads, adc, cl, mc, ain, rows, keys, img]

/-- A change of one or more service-map codes (R484): the new codes and GEN in one cycle, OLG_CHANGED (FS99) and
notification 0x01; the header CRC follows. Before the boot build nothing happens. -/
def Wk.olgSync (w : Wk) : Wk :=
  let m := w.d.serviceMaps w.v
  if !w.d.olg.built ∨ m = w.d.olg.maps then w else
  let g := w.d.olg.gen + 1
  let w := w.up fun d => ({ d with olg := { d.olg with maps := m, gen := g, crcDue := true } }).notify 1 [g.toNat]
  w.raise 99 0 0

/-! ## Capability sets (R71, Table 3-3) -/

/-- A /CAP/ ordered set. -/
def capSet (type rates hops target str st : Nat) (pass : Bool) : List Byte :=
  let b := [BitVec.ofNat 8 (type * 16 + 1), BitVec.ofNat 8 rates, BitVec.ofNat 8 hops, BitVec.ofNat 8 (target + str * 16), BitVec.ofNat 8 (st + 128 * b2n pass)]
  b ++ [BitVec.ofNat 8 (crc8 b)]

/-- TYPE of a /CAP/ from a lane of the device. -/
def Dev.capType (d : Dev) (n : Nat) : Nat := match d.role n with | 2 => 3 | 3 => 4 | _ => 1

/-- The /CAP/ of a lane: STATE 0 OFFER, 1 STEP, 2 REPORT, 3 CONFIRM. -/
def Dev.capOf (d : Dev) (n st target : Nat) (pass : Bool) : List Byte :=
  capSet (d.capType n) 15 0 target (if d.role n = 1 then d.rd (F.LANE_CTRL_STR n) else 0) st pass

/-- Send a /CAP/. -/
def Dev.sendCap (d : Dev) (n st target : Nat) (pass : Bool) : Dev := d.sendSet n .cap (d.capOf n st target pass)

/-- The measurements of a link that has gone down or changes its rate count no more: they are not of the last 64 frames at this
rate (R55, R58, R86). [Log: DEDUCED 27] -/
def Dev.delayLost (d : Dev) (n : Nat) : Dev := (d.setLane n { d.lane n with dlys := [], ttSent := false }).wr (F.LANE_DLY n) 0

/-- A lane's rate changes. -/
def Dev.setRate (d : Dev) (n r : Nat) : Dev := (d.delayLost n).wr (F.LANE_STAT_RATE n) r

/-- Whether a lane is the A end of its link (R72): END of a STRAND lane, the TWIN_ROLE-preferred unit of a TWIN link, the unit with
the lower STACK_ID of a CASCADE link, whose ends R360 joins. -/
def Dev.aEnd (d : Dev) (n : Nat) : Bool :=
  let away := d.rdB (F.LANE_CTRL_END n)
  match d.role n with
  | 1 => !away
  | 2 => d.rdB F.TWN_CTRL_PREF == d.sec.twinRole
  | 3 =>
    let i := d.rd F.STK_ID
    let last := d.rd F.STK_CTRL_NDEV - 1
    if away then !(d.rdB F.STK_CTRL_RING && i = last) else d.rdB F.STK_CTRL_RING && i = 0
  | _ => false

/-- A lane goes to index 0 with nothing known of its link (R73). -/
def Dev.toIndex0 (d : Dev) (n cap : Nat) : Dev :=
  let d := d.setRate n 0
  d.setLane n { d.lane n with out := .data, bring := .none, cap := cap, hops0 := none, turned := false, bServes := true, rejoin := false }

/-- Start capability stepping at index 0 (R73): the A end sends an OFFER; a B end waits for it, a STRAND lane with PHASE 0 (R72). The
B-end lane that a strand's A end has beside it on this device goes to index 0 with it. -/
def Dev.bringUp (d : Dev) (n cap : Nat) : Dev :=
  let d := d.toIndex0 n cap
  if !d.aEnd n then d.wr (F.LANE_STAT_PHASE n) (if d.role n = 1 then 0 else 1) else
  let d := match d.strandLane (d.rd (F.LANE_CTRL_STR n)) true with
    | some m => if d.role n = 1 then (d.toIndex0 m (d.rd (F.LANE_CTRL_MAX_RATE m))).wr (F.LANE_STAT_PHASE m) 0 else d
    | none => d
  ((d.wr (F.LANE_STAT_PHASE n) 1).setLane n { d.lane n with bring := .offer false }).sendCap n 0 0 false

/-- Whether an end of a strand is up, as far as this unit can tell; of an end that a twin's partner holds it cannot, and takes it as up
(R66, R72). [Log: DEDUCED 38] -/
def Dev.endUp (d : Dev) (s : Nat) (e : Bool) : Bool :=
  match d.strandLane s e with
  | some n => d.rd (F.LANE_STAT_PHASE n) = 2
  | none => d.rdB F.TWN_CTRL_EN

/-- Serve state of a strand after a lane change (R34, R79): which end is up, BROKEN and BREAK. -/
def Dev.strandEnds (d : Dev) (s : Nat) : Dev :=
  let a := d.endUp s false
  let b := d.endUp s true
  let d := d.wrB (F.STR_STAT_UP s) ((a && (d.strandLane s false).isSome) || (b && (d.strandLane s true).isSome))
  if !d.rdB (F.STR_CTRL_BEND s) then d
  else if a && b then d
  else if b then (d.wr (F.STR_STAT_BROKEN s) 1).wr (F.STR_STAT_BREAK s) 0
  else d.wr (F.STR_STAT_BROKEN s) 1

/-- The OFFER of a strand's bring-up has returned to its A-end lane (R72): a B-end lane that has received no /CAP/ of the strand does
not serve it. -/
def Dev.offerBack (d : Dev) (n : Nat) : Dev :=
  if d.role n ≠ 1 then d else
  let s := d.rd (F.LANE_CTRL_STR n)
  match d.strandLane s true with
  | some m => if (d.lane m).turned then d else ((d.setLane n { d.lane n with bServes := false }).wr (F.LANE_STAT_PHASE m) 0).wr (F.STR_STAT_BROKEN s) 1
  | none => d

/-- A RATE that waits for a lane's bring-up replies (R454). -/
def Dev.rateReply (d : Dev) (n : Nat) : Dev :=
  d.settle (fun x => decide (x.kind = .rate) && x.arg = [n]) fun _ => (.ok, 0, [d.rd (F.LANE_STAT_RATE n), d.rd (F.LANE_STAT_HOPS n)])

/-- The link is up at its rate (R73): the strand with it, and RATE replies. -/
def Dev.linkUp (d : Dev) (n : Nat) : Dev :=
  let d := (d.wr (F.LANE_STAT_PHASE n) 2).setLane n { d.lane n with bring := .none }
  let serves := (d.lane n).bServes
  let d := if d.role n = 1 then
      let s := d.rd (F.LANE_CTRL_STR n)
      let d := match d.strandLane s true with
        | some m => if serves then (d.wr (F.LANE_STAT_PHASE m) 2).wr (F.LANE_STAT_RATE m) (d.rd (F.LANE_STAT_RATE n))
                    else (d.wr (F.LANE_STAT_PHASE m) 0).wr (F.STR_STAT_BROKEN s) 1
        | none => d
      let whole := match d.strandLane s true with | some _ => serves | none => !d.rdB (F.STR_CTRL_BEND s) || d.rdB F.TWN_CTRL_EN
      let d := if whole then (d.wr (F.STR_STAT_BROKEN s) 0).wr (F.STR_STAT_BREAK s) 15 else d
      d.strandEnds s
    else d
  d.rateReply n

/-- Step to the next rate, with STEPs for 10 µs, or be done (R73). -/
def Dev.stepOrUp (d : Dev) (n : Nat) : Dev :=
  let r := d.rd (F.LANE_STAT_RATE n)
  if r < (d.lane n).cap ∧ bitOf (d.rd (F.LANE_STAT_RATES n)) (r + 1) then
    (d.setLane n { d.lane n with bring := .stepping (r + 1) }).sendSetFor n .cap (d.capOf n 1 (r + 1) false) 10000
  else d.linkUp n

/-- A failed step that restarts bring-up from index 0 (R72, R75): LANE_STEP_FAIL (FS49) with the A-end lane. -/
def Wk.stepFail (w : Wk) (n : Nat) : Wk := (w.up fun d => d.bringUp n (d.lane n).cap).raise 49 0 n

/-- A /CAP/ at the A-end lane (R72, R73, R75). -/
def Wk.capAtA (w : Wk) (n : Nat) (b : List Byte) : Wk :=
  let rates := (b.getD 1 0).toNat % 16
  let hops := (b.getD 2 0).toNat
  let st := (b.getD 4 0).toNat % 4
  let pass := decide ((b.getD 4 0).toNat ≥ 128)
  let x := w.d.lane n
  match x.bring, st with
  | .offer final, 0 =>
    if final ∧ x.hops0 ≠ some hops then w.stepFail n else
    w.up fun d =>
      let d := (d.wr (F.LANE_STAT_RATES n) rates).wr (F.LANE_STAT_HOPS n) hops
      let d := d.setLane n { d.lane n with hops0 := some hops }
      let d := if final then d else d.offerBack n
      if final then d.linkUp n else d.stepOrUp n
  | .reporting dst, 2 =>
    if pass ∧ x.hops0 = some hops then w.up fun d => (d.sendCap n 3 dst false).stepOrUp n
    else w.up fun d => d.setLane n { d.lane n with bring := .falling }
  | _, _ => w

/-- A /CAP/ at a B-end lane (R72): turned round when its strand number is the lane's own; a REPORT loses PASS where the
lane's receiver failed the dwell. Where the A end is elsewhere, an OFFER that no STEP follows leaves the link up at its rate; a
lane whose strand has come up from its A end alone stays at PHASE 0. The OFFER to a lane that went down in service is that of its
rejoin, whose dwell follows (R76). [Log: DEDUCED 38] -/
def Dev.capAtB (d : Dev) (n : Nat) (b : List Byte) : Dev :=
  let str := (b.getD 3 0).toNat / 16
  let dst := (b.getD 3 0).toNat % 4
  let st := (b.getD 4 0).toNat % 4
  if d.role n = 1 ∧ str ≠ d.rd (F.LANE_CTRL_STR n) then d else
  let body := if st = 2 ∧ !(d.lane n).dwellOk then b.take 4 ++ [BitVec.ofNat 8 2] else b.take 5
  let d := d.sendSet n .cap (body ++ [BitVec.ofNat 8 (crc8 body)])
  if (d.lane n).rejoin then (if st = 0 then d.setLane n { d.lane n with bring := .rejoinOffer } else d) else
  let d := d.setLane n { d.lane n with turned := true, bring := if st = 1 then .stepping dst else if st = 2 then (d.lane n).bring else .none }
  let a := if d.role n = 1 then d.strandLane str false else none
  let phase (d : Dev) (v : Nat) : Dev := match a with
    | some m => if (d.lane m).bServes then d.wr (F.LANE_STAT_PHASE n) v else d
    | none => d.wr (F.LANE_STAT_PHASE n) v
  if st = 0 then let d := d.wr (F.LANE_STAT_HOPS n) (b.getD 2 0).toNat; if a.isSome then d else (phase d 2).rateReply n
  else if st = 1 then phase d 1 else if st = 3 then (phase d 2).rateReply n else d

/-- CAP_RECEIVE: a wrong check byte discards it (R71). [Log: DEDUCED 38] -/
def Wk.capReceive (w : Wk) (n : Nat) (b : List Byte) : Wk :=
  if b.length ≠ 6 ∨ crc8 (b.take 5) ≠ (b.getD 5 0).toNat ∨ ¬ [1, 2, 3].contains (w.d.role n) then w
  else if w.d.aEnd n then w.capAtA n b
  else w.up (·.capAtB n b)

/-! ## Retirement (R67, R331) -/

/-- The SPARE lane that stands for a lane. [Log: DEDUCED 29] -/
def Dev.spareOf (d : Dev) (n : Nat) : Option Nat :=
  (List.range 24).find? fun m => m ≠ n ∧ d.role m = 5 ∧ d.rd (F.LANE_CTRL_SPARE_FOR m) = n

/-- Retire a lane (R67): its settings go to the SPARE lane, which comes up in its role; LANE_RETIRED (FS35) and the maps. -/
def Wk.retireLane (w : Wk) (n : Nat) : Wk :=
  match w.d.spareOf n with
  | none => w
  | some m =>
    let w := w.up fun d =>
      let cp (d : Dev) (f : Nat → Fld) : Dev := d.wr (f m) (d.rd (f n))
      let d := [F.LANE_CTRL_MAX_RATE, F.LANE_CTRL_END, F.LANE_CTRL_STR, F.LANE_CTRL_ROLE, F.LANE_CTRL_SPARE_FOR,
                F.LANE_ASYM, F.LANE_NET_TXD, F.LANE_NET_RXD, F.LANE_MOD_BUS, F.LANE_MOD_CH].foldl cp d
      let serve := d.inService n
      let r := d.rd (F.LANE_STAT_RATE n)
      let d := (d.setLane n { d.lane n with retired := true, bring := .none, out := .idle }).wr (F.LANE_STAT_PHASE n) 0
      if serve then ((d.setLane m { d.lane m with out := .data, rejoin := true }).wr (F.LANE_STAT_RATE m) r).wr (F.LANE_STAT_PHASE m) 3
      else if [1, 2, 3].contains (d.rd (F.LANE_CTRL_ROLE m)) then d.bringUp m (d.rd (F.LANE_CTRL_MAX_RATE m)) else d
    (w.raise 35 0 n).olgSync

/-- The down-count rule of R331: DOWN_TH downs within WIN seconds, this one the last of them. -/
def Wk.downRule (w : Wk) (n : Nat) : Wk :=
  let l := (w.d.lane n).downs.filter (fun t => decide (w.d.time.rt - t ≤ rtSec (w.d.rd F.SYS_LRET_WIN))) ++ [w.d.time.rt]
  let w := w.up fun d => d.setLane n { d.lane n with downs := l }
  w.on (w.d.rdB F.SYS_LRET_EN && decide (w.d.rd F.SYS_LRET_DOWN_TH ≤ l.length) && decide (0 < w.d.rd F.SYS_LRET_DOWN_TH)) (·.retireLane n)

/-- An in-service lane goes down (R79): LANE_DOWN (FS48), DOWN_CNT, the other end serves the beads beyond. -/
def Wk.laneDown (w : Wk) (n : Nat) : Wk :=
  let w := (w.raise 48 0 n).up fun d => (d.inc (F.LANE_ERR_DOWN_CNT n)).wr (F.LANE_STAT_PHASE n) 0
  let w := w.up fun d => if d.role n = 1 then d.strandEnds (d.rd (F.LANE_CTRL_STR n)) else d
  w.downRule n

/-- A lane that loses light or lock is down (R79); one that served rejoins later, also where that had begun (R76). A lane that is being
brought up stays in its bring-up, which tells of the loss itself (R74). -/
def Dev.lossDown (d : Dev) (n : Nat) : Dev :=
  let p := d.rd (F.LANE_STAT_PHASE n)
  let x := d.lane n
  let d := d.setLane n { x with rejoin := d.inService n && (x.rejoin || p = 2), bring := if x.rejoin then .none else x.bring, out := if x.rejoin then .data else x.out }
  if p = 2 ∨ p = 3 then
    let d := d.wr (F.LANE_STAT_PHASE n) 0
    if d.role n = 1 then d.strandEnds (d.rd (F.LANE_CTRL_STR n)) else d
  else d

/-- LOS or LOL asserts: an in-service lane that was not down goes down with what R79 raises. -/
def Wk.lossAssert (w : Wk) (n : Nat) (los : Bool) : Wk :=
  let was := w.d.rdB (F.LANE_STAT_LOS n) || w.d.rdB (F.LANE_STAT_LOL n)
  let w := w.up fun d => if los then (d.wr (F.LANE_STAT_LOS n) 1).wr (F.LANE_STAT_LOS_SEEN n) 1
                         else (d.wr (F.LANE_STAT_LOL n) 1).wr (F.LANE_STAT_LOL_SEEN n) 1
  let w := w.on (!was) (·.up fun d => (d.delayLost n).lossDown n)
  w.on (!was && w.d.inService n) (·.laneDown n)

/-! ## Link delays (R55, R125) -/

/-- A two-way measurement in ps: the mean of both ways, corrected by the lane's asymmetry to the receive direction; the
last 64 are averaged into LANE_DLY. [Log: DEDUCED 27] -/
def Dev.linkDelay (d : Dev) (n rtt turn : Nat) : Dev :=
  let v : Int := ((rtt : Int) - turn) / 2 - sext 16 (d.rd (F.LANE_ASYM n)) / 2
  let l := (v :: (d.lane n).dlys).take 64
  let d := d.setLane n { d.lane n with dlys := l, ttSent := false }
  if l.length < 64 then d.wr (F.LANE_DLY n) 0 else d.wr (F.LANE_DLY n) ((l.foldl (· + ·) 0) / 64).toNat

/-- A /TT/ ordered set (Table 4-9). -/
def ttSet (kind seq turn : Nat) : List Byte :=
  let b := [BitVec.ofNat 8 (kind * 16 + seq % 16)] ++ leBytes 3 turn ++ [0]
  b ++ [BitVec.ofNat 8 (crc8 b)]

/-! ## The rows -/

/-- LANE_LOS_ASSERT (R77, R79). -/
def execLaneLosAssert (lane : Nat) (s : State) : Host.Outcome State Fault Refusal := s.run (·.lossAssert lane true)

/-- LANE_LOS_DEASSERT (R77). -/
def execLaneLosDeassert (lane : Nat) (s : State) : Host.Outcome State Fault Refusal := s.run (·.up (·.wr (F.LANE_STAT_LOS lane) 0))

/-- LANE_LOL_ASSERT (R78, R79). -/
def execLaneLolAssert (lane : Nat) (s : State) : Host.Outcome State Fault Refusal := s.run (·.lossAssert lane false)

/-- LANE_LOL_DEASSERT (R78). -/
def execLaneLolDeassert (lane : Nat) (s : State) : Host.Outcome State Fault Refusal := s.run (·.up (·.wr (F.LANE_STAT_LOL lane) 0))

/-- LANE_LOL_PERSIST (R331): LOL without LOS for 1 s, and the firmware's near-end loop fails. -/
def execLaneLolPersist (lane : Nat) (testFail : Bool) (s : State) : Host.Outcome State Fault Refusal :=
  s.run fun w => w.on (testFail && w.d.rdB F.SYS_LRET_EN && w.d.rdB (F.LANE_STAT_LOL lane) && !w.d.rdB (F.LANE_STAT_LOS lane)) (·.retireLane lane)

/-- Whether a lane's link is in service, or has been and will rejoin, at either end of its strand: it never changes rate (R76). [Log: DEDUCED 38] -/
def Dev.keepsRate (d : Dev) (n : Nat) : Bool :=
  d.inService n && (List.range 24).any fun m =>
    (m = n || (d.role n = 1 && d.role m = 1 && d.rd (F.LANE_CTRL_STR m) = d.rd (F.LANE_CTRL_STR n)))
      && (decide (d.rd (F.LANE_STAT_PHASE m) = 2) || (d.lane m).rejoin)

/-- LINK_BRING_UP (R73): on a STRAND, TWIN or CASCADE lane that has light and lock and does not serve. -/
def execLinkBringUp (lane : Nat) (s : State) : Host.Outcome State Fault Refusal :=
  s.run fun w => w.on ([1, 2, 3].contains (w.d.role lane) && !w.d.keepsRate lane && !w.d.rdB (F.LANE_STAT_LOS lane) && !w.d.rdB (F.LANE_STAT_LOL lane))
    (·.up fun d => d.bringUp lane (d.rd (F.LANE_CTRL_MAX_RATE lane)))

/-- CAP_RECEIVE. -/
def execCapReceive (lane : Nat) (bytes : List Byte) (s : State) : Host.Outcome State Fault Refusal := s.run (·.capReceive lane bytes)

/-- LANE_RATE_SWITCH (R73): 20 µs after the first STEP, both directions. -/
def execLaneRateSwitch (lane : Nat) (s : State) : Host.Outcome State Fault Refusal :=
  s.run (·.up fun d => match (d.lane lane).bring with
    | .stepping dst => let d := d.setRate lane dst; d.setLane lane { d.lane lane with bring := .settling dst }
    | _ => d)

/-- PRBS31_DWELL_START (R73, R76): the transmitter sends PRBS31, in bring-up and for the dwell of a rejoin. -/
def execPrbs31DwellStart (lane : Nat) (s : State) : Host.Outcome State Fault Refusal :=
  s.run (·.up fun d => match (d.lane lane).bring with
    | .settling dst => (d.wr (F.LANE_ERR_DWELL_ERR lane) 0).setLane lane { d.lane lane with bring := .dwelling dst, out := .prbs true }
    | .rejoinOffer => ((d.wr (F.LANE_ERR_DWELL_ERR lane) 0).wr (F.LANE_STAT_PHASE lane) 3).setLane lane { d.lane lane with out := .prbs true }
    | _ => d)

/-- LANE_DWELL_END (R74): the A end sends its REPORT. -/
def execLaneDwellEnd (lane errs : Nat) (lost : Bool) (s : State) : Host.Outcome State Fault Refusal :=
  s.run (·.up fun d => match (d.lane lane).bring with
    | .dwelling dst =>
      let ok := !lost && decide (errs ≤ d.rd (F.LANE_BRING_ERR_LIM lane))
      let a := d.aEnd lane
      let d := (d.wr (F.LANE_ERR_DWELL_ERR lane) (min errs 255)).setLane lane { d.lane lane with bring := .reporting dst, dwellOk := ok, out := .data }
      if a then d.sendCap lane 2 dst ok else d
    | _ => d)

/-- CAP_REPORT_TIMEOUT (R73). -/
def execCapReportTimeout (lane : Nat) (s : State) : Host.Outcome State Fault Refusal :=
  s.run (·.up fun d => match (d.lane lane).bring with
    | .reporting _ => d.setLane lane { d.lane lane with bring := .falling }
    | _ => d)

/-- The previous rate comes back (R73, R74): an A end offers it, which ends this run; a B end, to which no CONFIRM has come, waits. -/
def Dev.fallBack (d : Dev) (n : Nat) : Dev :=
  let r := d.rd (F.LANE_STAT_RATE n) - 1
  let d := d.setRate n r
  if d.aEnd n then (d.setLane n { d.lane n with bring := .offer true }).sendCap n 0 r false
  else d.setLane n { d.lane n with bring := .none }

/-- LANE_FALLBACK_END (R73, R74). -/
def execLaneFallbackEnd (lane : Nat) (s : State) : Host.Outcome State Fault Refusal :=
  s.run (·.up fun d => match (d.lane lane).bring with
    | .falling => d.fallBack lane
    | .reporting _ => if d.aEnd lane then d else d.fallBack lane
    | _ => d)

/-- LANE_STEP_FAIL (R75): an OFFER has not returned in 1 ms. -/
def execLaneStepFail (lane : Nat) (s : State) : Host.Outcome State Fault Refusal :=
  s.run fun w => match (w.d.lane lane).bring with
    | .offer _ => w.stepFail lane
    | _ => w

/-- LINK_REJOIN (R76): on the recovered link of a strand in service an OFFER at its present rate, put out already where a retry or the
other end has begun, and one dwell, which ends with this row; a pass rejoins at the next boundary, a failure waits for its retry. -/
def execLinkRejoin (lane errs : Nat) (lost : Bool) (s : State) : Host.Outcome State Fault Refusal :=
  s.run (·.up fun d =>
    if !d.inService lane ∨ d.rd (F.LANE_STAT_PHASE lane) = 2 ∨ (d.lane lane).bring = .rejoinWait ∨ d.rdB (F.LANE_STAT_LOS lane) ∨ d.rdB (F.LANE_STAT_LOL lane) then d else
    let d := if (d.lane lane).bring = .rejoinOffer then d else d.sendCap lane 0 (d.rd (F.LANE_STAT_RATE lane)) false
    let d := (d.wr (F.LANE_ERR_DWELL_ERR lane) (min errs 255)).wr (F.LANE_STAT_PHASE lane) 3
    if !lost ∧ errs ≤ d.rd (F.LANE_BRING_ERR_LIM lane) then d.setLane lane { d.lane lane with bring := .rejoined, out := .data, rejoin := true }
    else (d.inc (F.LANE_ERR_REJOIN_FAIL lane)).setLane lane { d.lane lane with bring := .rejoinWait, out := .data, rejoin := true })

/-- LINK_REJOIN_RETRY (R76): 100 ms after a failure the link is offered again. -/
def execLinkRejoinRetry (lane : Nat) (s : State) : Host.Outcome State Fault Refusal :=
  s.run (·.up fun d => match (d.lane lane).bring with
    | .rejoinWait => (d.setLane lane { d.lane lane with bring := .rejoinOffer }).sendCap lane 0 (d.rd (F.LANE_STAT_RATE lane)) false
    | _ => d)

/-- A lane that passed its rejoin dwell serves from the boundary (R76). -/
def Dev.rejoinLanes (d : Dev) : Dev :=
  (List.range 24).foldl (fun d n =>
    if (d.lane n).bring = .rejoined then
      let d := (d.wr (F.LANE_STAT_PHASE n) 2).setLane n { d.lane n with bring := .none, rejoin := false }
      if d.role n = 1 then
        let s := d.rd (F.LANE_CTRL_STR n)
        let d := d.strandEnds s
        if d.endUp s false && d.endUp s true then (d.wr (F.STR_STAT_BROKEN s) 0).wr (F.STR_STAT_BREAK s) 15 else d
      else d
    else d) d

/-- From which ends the strands are served from this boundary on (R34, R76): breaks detected by now count. -/
def Dev.rejoinBoundary (d : Dev) : Dev :=
  let d := d.rejoinLanes
  { d with strands := (List.range 16).foldl (fun t s => tput {} t s { beyond := if d.rdB (F.STR_STAT_BROKEN s) then some (d.rd (F.STR_STAT_BREAK s)) else none }) d.strands }

/-- Whether the loop test of a lane has run for its frames (R80); while no frames run none counts. [Log: DEDUCED 38] -/
def Dev.loopDone (d : Dev) (n : Nat) : Bool :=
  match d.waits.find? fun x => x.kind = .loopTest && x.arg.head? = some n with
  | some x => !d.running || match x.due with | some b => decide ((d.frame.k - b).toNat < 2 ^ 31) | none => true
  | none => true

/-- The transmitter of a lane that runs no test: idle where it carries nothing. -/
def Dev.outAfter (d : Dev) (n : Nat) : LaneOut := if 1 ≤ d.role n ∧ d.role n ≤ 4 then .data else .idle

/-- A lane's test is over: it carries again what it carried. -/
def Dev.testOver (d : Dev) (n : Nat) : Dev :=
  (if d.rdB (F.LANE_STAT_TEST n) then d.setLane n { d.lane n with out := d.outAfter n } else d).wr (F.LANE_STAT_TEST n) 0

/-- LOOP_TEST_END (R80): after its frames the reply gives bits checked, errors and loss of lock. -/
def execLoopTestEnd (lane bits errs : Nat) (lost : Bool) (s : State) : Host.Outcome State Fault Refusal :=
  s.run (·.up fun d =>
    if !d.loopDone lane then d else
    (d.testOver lane).settle (fun x => decide (x.kind = .loopTest) && x.arg.head? = some lane) fun _ => (.ok, 0, [bits % 2 ^ 32, bits / 2 ^ 32, errs, b2n lost]))

/-- The first set flag of two bytes, counted from the first byte's bit 0 (Table 14-3). [Log: DEDUCED 28] -/
def firstFlag (a b : Byte) : Option Nat := (List.range 16).find? fun i => bitOf (a.toNat + 256 * b.toNat) i

/-! ## Modules (R82 to R84) -/

/-- A two-wire master. -/
def Dev.bus (d : Dev) (k : Nat) : BusSt := tget {} d.buses k

/-- The rate of a master in kHz (R82). -/
def Dev.busRate (d : Dev) (k : Nat) : Nat := if d.rdB (F.SYS_MOD_BUS_FAST k) then 400 else 100

/-- The access of lane `n`'s master to its module (R83): the switch's channel is selected by one control byte, then come the transfers.
[Log: DEDUCED 28] -/
def Dev.busDo (d : Dev) (n : Nat) (l : List Xfer) : Dev :=
  let k := d.rd (F.LANE_MOD_BUS n)
  let c := d.rd (F.LANE_MOD_CH n)
  { d with buses := tput {} d.buses k { last := ⟨2 * d.rd (F.SYS_MOD_BUS_MUX_ADDR k), 2 ^ c, 0⟩ :: l, chan := some c, khz := d.busRate k } }

/-- MODULE_POLL (R84): the page is byte 92 at 0xA0, then bytes 96 to 105, 112, 113, 116 and 117 at 0xA2. A master with POLL 0 polls
nothing; there are three of them. [Log: DEDUCED 28] -/
def execModulePoll (lane : Nat) (page : Option (List Byte)) (s : State) : Host.Outcome State Fault Refusal :=
  s.run fun w =>
    let k := w.d.rd (F.LANE_MOD_BUS lane)
    if 3 ≤ k ∨ w.d.rd (F.SYS_MOD_BUS_POLL k) = 0 then w else
    match page with
    | none => w.up fun d => (d.busDo lane [⟨0xA0, 92, 0⟩]).wr (F.LANE_MOD_PRESENT lane) 0
    | some b =>
      let ddm := bitOf (b.getD 0 0).toNat 6
      let w := w.up fun d => (((d.busDo lane (⟨0xA0, 92, 1⟩ :: if ddm then [⟨0xA2, 96, 10⟩, ⟨0xA2, 112, 2⟩, ⟨0xA2, 116, 2⟩] else [])).wr (F.LANE_MOD_PRESENT lane) 1).wrB (F.LANE_MOD_DDM lane) ddm)
      if !ddm then w else
      let w := w.up fun d => d.setLane lane { d.lane lane with diag := slice b 1 10 }
      let w := match firstFlag (b.getD 11 0) (b.getD 12 0) with | some k => w.raise 50 k lane | none => w
      match firstFlag (b.getD 13 0) (b.getD 14 0) with | some k => w.raise 96 k lane | none => w

/-! ## The /TT/ exchange (R125) -/

/-- Whether a link takes part in the /TT/ exchange: every link that is up. -/
def Dev.ttLink (d : Dev) (n : Nat) : Bool := [1, 2, 3].contains (d.role n) && d.rd (F.LANE_STAT_PHASE n) = 2

/-- Whether an end still has its request of this frame to send: one in each guard window. -/
def Dev.ttOwed (d : Dev) (n : Nat) : Bool := d.running && d.rd F.SYS_FRM_STAT_WINDOW = 3 && d.ttLink n && (d.lane n).ttAt ≠ some d.frame.k

/-- The instant of the requests: 400 ns before the boundary. -/
def Dev.ttInstant (d : Dev) : BitVec 64 := d.boundaryAt (d.frame.k + 1) - 26214400

/-- TT_REQUEST_SEND (R125): in the guard window, 400 ns before the boundary, once a frame. -/
def execTtRequestSend (lane : Nat) (s : State) : Host.Outcome State Fault Refusal :=
  s.run fun w =>
    if !w.d.ttOwed lane then w else
    (w.advanceTo w.d.ttInstant).up fun d =>
      let q := ((d.lane lane).ttSeq + 1) % 16
      (d.setLane lane { d.lane lane with ttSeq := q, ttSent := true, ttAt := some d.frame.k }).sendSet lane .tt (ttSet 1 q 0)

/-- TT_REQUEST_RECEIVE (R125): the response carries TURN, the time from receipt to sending in ps. -/
def execTtRequestReceive (lane seq turn : Nat) (s : State) : Host.Outcome State Fault Refusal :=
  s.run (·.up fun d => if [1, 2, 3].contains (d.role lane) then d.sendSet lane .tt (ttSet 2 seq turn) else d)

/-- TT_RESPONSE_RECEIVE (R125): the answer to the request last sent. [Log: DEDUCED 27] -/
def execTtResponseReceive (lane rtt seq turn : Nat) (s : State) : Host.Outcome State Fault Refusal :=
  s.run (·.up fun d => if (d.lane lane).ttSent ∧ (d.lane lane).ttSeq = seq then d.linkDelay lane rtt turn else d)

end Sys2Proof.Machine
end

