-- ==== Sys2Proof/Machine/Thermal.lean ====
section
/-! DEFINITION. Temperature sensing and throttling (10_thermal.md): readings, states, excess, cross-checks, substitution,
the hold and the die spares. -/
namespace Sys2Proof.Machine

/-- A sensor by instance number (R379): b × 8 + s for a bead sensor, 768 + i for die sensor TSi. -/
def Dev.sens (d : Dev) (i : Nat) : SensSt := tget {} d.thm.sens i
/-- Write a sensor. -/
def Dev.setSens (d : Dev) (i : Nat) (x : SensSt) : Dev := { d with thm := { d.thm with sens := tput {} d.thm.sens i x } }

/-- Whether an instance number names a die sensor. -/
def isDie (i : Nat) : Bool := decide (768 ≤ i)

/-- The limit set of a sensor. -/
def Dev.lset (d : Dev) (i : Nat) : Nat :=
  if isDie i then bits (d.rd (F.THM_DLSET_LSET ((i - 768) / 8))) (3 * ((i - 768) % 8)) 3
  else bits (d.rd (F.BTH_CFG_LSET (i / 8))) (3 * (i % 8)) 3

/-- Whether a sensor is declared broken. -/
def Dev.broken (d : Dev) (i : Nat) : Bool :=
  if isDie i then bitOf (d.rd F.THM_DBRK_BROKEN) (i - 768) else bitOf (d.rd (F.BTH_STAT_BROKEN (i / 8))) (i % 8)

/-- Whether a sensor is enabled: a bead sensor by EN, a die sensor while it is in service. -/
def Dev.sensOn (d : Dev) (i : Nat) : Bool :=
  if isDie i then bitOf (d.rd F.THM_DSVC_SVC) (i - 768) else bitOf (d.rd (F.BTH_STAT_EN (i / 8))) (i % 8)

/-- A number of tenths as fp32. -/
def tenths (n : Nat) : Nat := fRat n 10

/-- Where a die sensor in service stands in the 4 × 6 grid; a spare takes the place of the sensor it replaced (R283, R290). -/
def Dev.diePlace (d : Dev) (i : Nat) : Option (Nat × Nat) :=
  if i < 24 then some (i / 6, i % 6)
  else ((List.range 6).find? fun c => !bitOf (d.rd F.THM_DSVC_SVC) ((i - 24) * 6 + c)).map fun c => (i - 24, c)

/-- The comparison set of a sensor (R290). [Log: DEDUCED 71] -/
def Dev.compareSet (d : Dev) (i : Nat) : List Nat :=
  let ok (j : Nat) : Bool := j ≠ i && d.sensOn j && !d.broken j
  if isDie i then
      match d.diePlace (i - 768) with
      | none => []
      | some (r, c) => (((List.range 28).filter fun j => match d.diePlace j with
          | some (r', c') => (r = r' && (c = c' + 1 || c' = c + 1)) || (c = c' && (r = r' + 1 || r' = r + 1))
          | none => false).map (· + 768)).filter ok
    else
      let b := i / 8
      let g := d.rd (F.BTH_CFG_HSG b)
      (((List.range 8).map (b * 8 + ·)).filter fun j => ok j && d.lset j = d.lset i)
        ++ (if g = 15 then [] else ((List.range 96).filter fun b' => b' ≠ b && d.rd (F.BTH_CFG_HSG b') = g).map fun b' => b' * 8 + i % 8)

/-- Insert in ascending order of value. -/
def fIns (a : Nat) : List Nat → List Nat
  | [] => [a]
  | x :: r => if fLt a x then a :: x :: r else x :: fIns a r

/-- The median of a non-empty list; of an even one the mean of the two middle values (R291). -/
def fMedian (l : List Nat) : Nat :=
  let s := l.foldl (fun r a => fIns a r) []
  let n := s.length
  if n % 2 = 1 then s.getD (n / 2) 0 else (fmul (fadd (s.getD (n / 2 - 1) 0) (s.getD (n / 2) 0)).v 0x3F000000).v

/-- The substituted value of a broken sensor (R292). [Log: DEDUCED 71] -/
def Dev.substitute (d : Dev) (i : Nat) : Nat :=
  let top := match (d.compareSet i).map fun j => (d.sens j).t with
    | [] => d.rd (F.THM_THR (d.lset i))
    | a :: r => r.foldl fmax a
  (fadd top (tenths (d.rd F.THM_SUB_SUBM))).v

/-- update() of R286: the state and the count of consecutive readings toward a change. -/
def dwell (s : Bool) (n lim : Nat) (enter leave : Bool) : Bool × Nat :=
  if (if s then leave else enter) then (if lim ≤ n + 1 then (!s, 0) else (s, n + 1)) else (s, 0)

/-- One reading of temperature `t`, `dt` seconds after the last (R286). [Log: DESIGN CHOICE 5] -/
def Dev.reading (d : Dev) (i : Nat) (x : SensSt) (t dt : Nat) : SensSt :=
  let n := d.lset i
  let rwin := fRat (d.rd (F.THM_WIN_RWIN n)) 1000
  let thr := d.rd (F.THM_THR n)
  let rlim := d.rd (F.THM_RLIM n)
  let hyst := tenths (d.rd F.THM_CTRL_HYST)
  let fm := tenths (d.rd (F.THM_WIN_FMGN n))
  let lim := max 1 (d.rd F.THM_CTRL_DWELL)
  let tf0 := if x.seen then x.tf else t
  let a := fmin fOne (fdiv dt rwin).v
  let tf := (fadd tf0 (fmul a (fsub t tf0).v).v).v
  let rate := (fdiv (fsub t tf).v rwin).v
  let (hot, dHot) := dwell x.hot x.dHot lim (fLt thr t || fLt rlim rate)
    (fLt t (fsub thr hyst).v && fLt rate (fmul (fRat 4 5) rlim).v)
  let (fast, dFast) := dwell x.fast x.dFast lim (fLe (fsub thr fm).v t || fLt (fmul rlim 0x3F000000).v rate)
    (fLt t (fsub (fsub thr fm).v hyst).v && fLt rate (fmul (fRat 2 5) rlim).v)
  let trip := d.rd (F.THM_TRIP n)
  let (ovr, dOver) := dwell x.ovr x.dOver lim (fLt trip t) (fLt t (fsub trip hyst).v)
  let ex := if hot then fmax (fmax 0 (fsub t thr).v) (fmul (d.rd (F.THM_RK n)) (fsub rate rlim).v).v else 0
  { x with seen := true, t := t, tf := tf, hot := hot, dHot := dHot, fast := fast, dFast := dFast, ovr := ovr, dOver := dOver, x := ex }

/-- The bead's excess before the hold: the largest x among its enabled sensors (R287). -/
def Dev.rawExcess (d : Dev) (b : Nat) : Nat :=
  ((List.range 8).filter fun s => d.sensOn (b * 8 + s)).foldl (fun m s => fmax m (d.sens (b * 8 + s)).x) 0

/-- Whether the bead's held excess applies (R293): a sensor of it is broken, or the hold after the last restoration runs. -/
def Dev.holding (d : Dev) (b : Nat) : Bool := d.rd (F.BTH_STAT_BROKEN b) ≠ 0 || (d.bead b).hold.isSome

/-- The result fields of a bead: HOT bits, excess and hottest enabled sensor (R287, Table 10-4). [Log: DEDUCED 71] -/
def Dev.beadThermal (d : Dev) (b : Nat) : Dev :=
  let on := (List.range 8).filter fun s => d.sensOn (b * 8 + s)
  let hot := ofBits ((List.range 8).filter fun s => (d.sens (b * 8 + s)).hot)
  let x := d.rawExcess b
  let x := if d.holding b then fmax x (d.rd (F.BTH_HELD b)) else x
  let tm := match on with
    | [] => 0
    | s :: r => r.foldl (fun m s => fmax m (d.sens (b * 8 + s)).t) (d.sens (b * 8 + s)).t
  ((d.wr (F.BTH_STAT_HOT b) hot).wr (F.BTH_EXC_THM_BEXC b) x).wr (F.BTH_TMAX b) tm

/-- What the registers show of a sensor: DHOT and DOVER of a die sensor (R288), the bead's fields of a bead sensor (R287). -/
def Dev.showSens (d : Dev) (i : Nat) : Dev :=
  if isDie i then
    let k := i - 768
    let x := d.sens i
    let d := if x.hot then d.setBit F.THM_DHOT k else d.clrBit F.THM_DHOT k
    if x.ovr then d.setBit F.THM_DOVER k else d.clrBit F.THM_DOVER k
  else d.beadThermal (i / 8)

/-- Enter a sensor's new values and raise what it entered (R288). [Log: DEDUCED 71] -/
def Wk.enterReading (w : Wk) (i : Nat) (x : SensSt) : Wk :=
  let o := w.d.sens i
  let w := w.up fun d => (d.setSens i x).showSens i
  let w := w.on (x.ovr && !o.ovr) fun w => (w.up (·.inc F.THM_CNT_OVER)).raise (if isDie i then 5 else 23) 0 i
  w.on (x.hot && !o.hot) (·.raise 94 0 i)

/-- The date in tu of a reading taken now: a bead sensor's is the present frame's boundary (R285). -/
def Dev.dateNow (d : Dev) (i : Nat) : Nat := if isDie i then d.time.rt * 1024 else d.frame.date

/-- Seconds since the sensor's previous reading (R286). -/
def Dev.sinceRead (d : Dev) (i : Nat) : Nat := fRat ((d.dateNow i : Int) - (d.sens i).last) 65536000000000

/-- A reading of temperature `t` dated now (R286, R288). -/
def Wk.takeReading (w : Wk) (i t : Nat) : Wk :=
  w.enterReading i { w.d.reading i (w.d.sens i) t (w.d.sinceRead i) with last := w.d.dateNow i, lastN := w.d.frame.n }

/-- A substituted reading of a broken sensor (R292). -/
def Wk.substituted (w : Wk) (i : Nat) : Wk := w.takeReading i (w.d.substitute i)

/-- Declare a sensor broken (R291): the BROKEN bit, the count and, for a bead the held excess, the larger of
the one held and the bead's excess at that reading (R293). -/
def Wk.breakQuiet (w : Wk) (i excess : Nat) : Wk :=
  let w := w.up fun d => d.inc F.THM_CNT_BRK
  let w := w.up fun d =>
    if isDie i then d.setBit F.THM_DBRK_BROKEN (i - 768)
    else
      let b := i / 8
      let d := (d.setBit (F.BTH_STAT_BROKEN b) (i % 8)).wr (F.BTH_HELD b) (fmax (d.rd (F.BTH_HELD b)) excess)
      d.setBead b { d.bead b with hold := none }
  w.up fun d => d.setSens i { d.sens i with agree := 0, off := 0 }

/-- Declare a sensor broken and raise SENSOR_BROKEN (FS63). [Log: DEDUCED 71] -/
def Wk.breakSensor (w : Wk) (i excess : Nat) : Wk := (w.breakQuiet i excess).raise 63 0 i

/-- The bead's excess as R287 gives it. -/
def Dev.excess (d : Dev) (b : Nat) : Nat :=
  if d.holding b then fmax (d.rawExcess b) (d.rd (F.BTH_HELD b)) else d.rawExcess b

/-- Restore a broken sensor (R294): when it was the bead's last, the hold runs on for HOLD seconds (R293). The
readings with an identical count go on counting (R291). -/
def Wk.restoreSensor (w : Wk) (i : Nat) : Wk :=
  let w := w.up fun d =>
    let d := d.setSens i { d.sens i with agree := 0, off := 0 }
    if isDie i then d.clrBit F.THM_DBRK_BROKEN (i - 768)
    else
      let b := i / 8
      let d := d.clrBit (F.BTH_STAT_BROKEN b) (i % 8)
      let d := if d.rd (F.BTH_STAT_BROKEN b) = 0 then d.setBead b { d.bead b with hold := some (d.time.rt + 64000000000 * d.rd F.THM_SUB_HOLD) } else d
      d.beadThermal b
  w.raise 95 0 i

/-- One count of an enabled sensor, or of a die spare that is waking: `conv` is its temperature (R284 to R294). -/
def Wk.sensorCount (w : Wk) (i count conv : Nat) : Wk :=
  let x := w.d.sens i
  let bad := decide (count = 0 ∨ count = 0xFFFFFF)
  let same := if x.cnt = some count then x.same + 1 else 1
  let cs := (w.d.compareSet i).map fun j => (w.d.sens j).t
  let band := w.d.rd (F.THM_BAND (w.d.lset i))
  let diff := fabs (fsub conv (fMedian cs)).v
  let out := !bad && decide (2 ≤ cs.length) && fLt band diff
  let w := w.up (·.setSens i { x with cnt := some count, same := same })
  if w.d.broken i then
    let near := !bad && cs ≠ [] && fLe diff (fsub band (tenths (w.d.rd F.THM_CTRL_HYST))).v
    let agree := if near ∧ x.cnt ≠ some count then x.agree + 1 else 0
    let w := w.up fun d => d.setSens i { d.sens i with agree := agree }
    if 64 ≤ agree ∧ !isDie i then (w.restoreSensor i).takeReading i conv else w.substituted i
  else
    let off := if out then x.off + 1 else 0
    if bad || decide (8 ≤ same) || decide (max 1 (w.d.rd F.THM_CTRL_DWELL) ≤ off) then
      let y := if bad then x else w.d.reading i x conv (w.d.sinceRead i)
      let ex := if isDie i then 0 else (w.d.setSens i y).excess (i / 8)
      (w.breakSensor i ex).substituted i
    else (w.up fun d => d.setSens i { d.sens i with off := off }).takeReading i conv

/-- Sensor slot `j` of a valid uplink record (R284, R285): readings of enabled sensors are dated to the frame's boundary. Slots 1 to 3
carry the FAST sensors in turn (R117). -/
def Wk.beadSlot (w : Wk) (b j slot : Nat) : Wk :=
  let s := bits slot 29 3
  let i := b * 8 + s
  let w := w.on (bitOf slot 28 && decide (1 ≤ j)) (·.up fun d => d.setBead b { d.bead b with rot := s })
  if !bitOf slot 28 ∨ !w.d.sensOn i ∨ !w.d.rdB F.THM_CTRL_BEAD_EN then w else
  let n : Nat := slot % 2 ^ 24
  let u := fRat n 65536
  let d := w.d
  let t := (fadd (d.rd (F.BTH_C0 b s)) (fmul u (fadd (d.rd (F.BTH_C1 b s)) (fmul u (d.rd (F.BTH_C2 b s))).v).v).v).v
  w.sensorCount i n t

/-- A bead message SENSOR_STUCK (R188, R291): SENSOR_BROKEN with KIND 1, and the sensor it names becomes broken. An index above 7
names no sensor. [Log: DESIGN CHOICE 89] -/
def Wk.stuckMessage (w : Wk) (b s time : Nat) : Wk :=
  if 8 ≤ s then w else
  let i := b * 8 + s
  let w := w.raiseAt 63 1 i time
  if w.d.broken i then w else (w.breakQuiet i (w.d.excess b)).up (·.beadThermal b)

/-- What a die row's waking spare has come to. -/
def Dev.setWake (d : Dev) (r : Nat) (x : Option (Nat × Nat)) : Dev := { d with thm := { d.thm with wake := tput none d.thm.wake r x } }

/-- Row `r`'s spare goes in service after its third reading, in the place of the sensor in column `c` (R295). -/
def Wk.spareDie (w : Wk) (r c : Nat) : Wk :=
  let w := w.up fun d => ((d.clrBit F.THM_DSVC_SVC (r * 6 + c)).setBit F.THM_DSVC_SVC (24 + r)).setWake r none
  (w.raise 32 0 (768 + 24 + r)).olgSync

/-- One die sensor of a housekeeping round (R283, R292, R295): a sensor in service, or a spare that is waking; a broken one that gives
no count is substituted. A spare that breaks as it wakes takes no place. [Log: DEDUCED 71] -/
def Wk.dieCount (w : Wk) (k : Nat) (count : Option Nat) : Wk :=
  let i := 768 + k
  let take (w : Wk) (c : Nat) : Wk := w.sensorCount i (c % 2 ^ 24) (Config.dieTemp k (c % 2 ^ 24))
  match w.d.sensOn i, count, tget none w.d.thm.wake (k - 24) with
  | true, some c, _ => take w c
  | true, none, _ => w.on (w.d.broken i) (·.substituted i)
  | false, some c, some (n, col) =>
    if k < 24 then w else
    let w := take w c
    if w.d.broken i then w.up (·.setWake (k - 24) none)
    else if 2 ≤ n then w.spareDie (k - 24) col else w.up (·.setWake (k - 24) (some (n + 1, col)))
  | false, _, _ => w

/-- The spare of each row that a sensor broken in this round needs is woken (R295). -/
def Wk.wakeSpares (w : Wk) : Wk :=
  w.each (List.range 4) fun r w =>
    if w.d.sensOn (792 + r) || w.d.broken (792 + r) || (tget none w.d.thm.wake r).isSome then w else
    match (List.range 6).find? fun c => w.d.sensOn (768 + r * 6 + c) && w.d.broken (768 + r * 6 + c) with
    | some c => w.up (·.setWake r (some (0, c)))
    | none => w

/-- A change of limit set or heatsink group resets states, dwell counts and TF of the sensors concerned (R298), and what the registers
show of them follows. -/
def Dev.resetSens (d : Dev) (i : Nat) : Dev :=
  let x := { d.sens i with seen := false, tf := 0, hot := false, fast := false, ovr := false, dHot := 0, dFast := 0, dOver := 0, x := 0, off := 0 }
  (d.setSens i x).showSens i

/-- A bead sensor was enabled or disabled: the bead's excess follows (R287), and frames without a reading count from here (R291). -/
def Dev.sensEnable (d : Dev) (i : Nat) : Dev := (d.setSens i { d.sens i with lastN := d.frame.n }).showSens i

/-- What follows from a bead's EN bits that have changed. -/
def Dev.enableFollow (d old : Dev) (b : Nat) : Dev :=
  let m := d.rd (F.BTH_STAT_EN b) ^^^ old.rd (F.BTH_STAT_EN b)
  if m = 0 then d else (maskBits 8 m).foldl (fun d s => d.sensEnable (b * 8 + s)) d

/-- What follows from the EN bits that an applied set has changed. -/
def Dev.afterEnable (d old : Dev) : Dev := (List.range 96).foldl (fun d b => d.enableFollow old b) d

/-- The FAST bits of a bead's next record (R289). -/
def Dev.fastBits (d : Dev) (b : Nat) : Nat :=
  if !d.rdB F.THM_CTRL_FAST_EN then 0 else
  ofBits ((List.range 8).filter fun s =>
    let x := d.sens (b * 8 + s)
    x.fast || x.hot || x.ovr || d.broken (b * 8 + s))

/-- The temperature of a sensor as the WIDE selectors give it: 0.0 while disabled or absent (R297). -/
def Dev.sensTemp (d : Dev) (i : Nat) : Nat := if d.sensOn i && (isDie i || d.rd (F.BDT_STATE (i / 8)) ≠ 0) then (d.sens i).t else 0

/-- The FAST sensors that slots 1 to 3 carry after sensor `p` was reported last (R117). -/
def fastTurn (fast p : Nat) : List Nat := (((List.range 8).map fun j => (p + 1 + j) % 8).filter (bitOf fast)).take 3

/-- The sensors a bead would report in the frame `seq`, reckoned from what it had reported before that frame (R117). -/
def Dev.slotTurn (d : Dev) (b seq : Nat) : List Nat :=
  let x := d.bead b
  (if seq % 8 = 0 then [seq % 64 / 8] else []) ++ fastTurn (d.rd (F.BTH_STAT_FAST b)) (if x.got then x.rotWas else x.rot)

/-- A broken sensor that gives no reading passes its substituted value at the instants at which it would have reported, by the
rotation of R117 with the FAST bits sent to its bead (R292); a bead that is ABSENT or at no position reports nothing. [Log: DEDUCED 71] -/
def Wk.silentSubstitutes (w : Wk) (seq : Nat) (placed : List Nat) : Wk :=
  w.each ((List.range 96).filter fun b => w.d.rd (F.BTH_STAT_BROKEN b) ≠ 0 && w.d.rd (F.BDT_STATE b) ≠ 0 && placed.contains b) fun b w =>
    let l := w.d.slotTurn b seq
    let w := w.each l fun s w => w.on (w.d.broken (b * 8 + s) && w.d.sensOn (b * 8 + s) && decide ((w.d.sens (b * 8 + s)).lastN ≠ w.d.frame.n)) (·.substituted (b * 8 + s))
    w.on (!(w.d.bead b).got) (·.up fun d => d.setBead b { d.bead b with rot := l.getLast?.getD (d.bead b).rot })

/-! ## The rows -/

/-- SENSOR_SILENT_TIMEOUT (R291): no reading for THM_SILENT.FR frames while the bead is in service; its substituted value passes at the
instants at which it would have reported (R292). -/
def execSensorSilentTimeout (b s : Nat) (st : State) : Host.Outcome State Fault Refusal :=
  st.run fun w =>
    let i := b * 8 + s
    let quiet := w.d.frame.n - max (w.d.sens i).lastN (w.d.bead b).svcN
    if s < 8 ∧ b < 96 ∧ w.d.rd (F.BDT_STATE b) = 3 ∧ w.d.sensOn i ∧ !w.d.broken i ∧ w.d.rd F.THM_SILENT_FR ≤ quiet then
      (w.breakSensor i (w.d.excess b)).up (·.beadThermal b)
    else w

/-- THM_HOLD_END (R293): the hold runs out while no sensor of the bead is broken, so H clears. [Log: DEDUCED 84] -/
def execThmHoldEnd (b : Nat) (s : State) : Host.Outcome State Fault Refusal :=
  s.run fun w => match (w.d.bead b).hold with
    | some t => w.on (w.d.rd (F.BTH_STAT_BROKEN b) = 0) fun w => (w.advanceRt t).up fun d =>
        ((d.setBead b { d.bead b with hold := none }).wr (F.BTH_HELD b) 0).beadThermal b
    | none => w

/-- HOUSEKEEPING_ROUND (R283, R295, R524): one count for each die sensor that was read, and each rail found out of its
limits. -/
def execHousekeepingRound (counts : List (Option Nat)) (rails : List (Nat × Bool)) (s : State) : Host.Outcome State Fault Refusal :=
  s.run fun w =>
    let w := w.each (List.range 28) fun k w => w.dieCount k (counts.getD k none)
    let w := w.wakeSpares.olgSync
    w.each rails fun r w => w.raise 4 (r.1 % 8 + b2n r.2 * 128) 0

/-- A host write of 1 to BROKEN bits (R294, R295): restores; of a die sensor only where no spare has replaced it, and a spare that broke as
it woke is none that another has replaced. [Log: DEDUCED 71] -/
def Wk.brokenWrite (w : Wk) (die : Bool) (b mask : Nat) : Wk :=
  if die then w.each (maskBits 28 mask) fun k w => w.on (w.d.broken (768 + k) && (w.d.sensOn (768 + k) || decide (24 ≤ k))) (·.restoreSensor (768 + k))
  else if b < 96 then w.each (maskBits 8 mask) fun s w => w.on (w.d.broken (b * 8 + s)) (·.restoreSensor (b * 8 + s))
  else w

end Sys2Proof.Machine
end

