-- ==== Sys2Proof/Machine/Beads.lean ====
section
/-! DEFINITION. What the device takes from the beads (R116 to R122, R157, R172, R179, R183 to R188, R564): uplink records, bead
fault messages, discovery and configuration. -/
namespace Sys2Proof.Machine

/-- The occupied positions of the applied set: bead, strand, position (Table 4-10). The rules have 96 beads and give BEAD seven bits: a
VALID position that names 96 to 127 is accepted and holds none. [Log: DESIGN CHOICE 91] -/
def Dev.placed (d : Dev) : List (Nat × Nat × Nat) :=
  (List.range 16).flatMap fun s => (List.range (min 12 (d.rd (F.STR_CTRL_NBEAD s)))).filterMap fun p =>
    if d.rdB (F.STR_POS_VALID s p) ∧ d.rd (F.STR_POS_BEAD s p) < 96 then some (d.rd (F.STR_POS_BEAD s p), s, p) else none

/-- The VALID positions, below NBEAD or not, with the beads they hold: bead, strand, position (Table 11-2). [Log: DEDUCED 82] -/
def Dev.standing (d : Dev) : List (Nat × Nat × Nat) :=
  (List.range 16).flatMap fun s => (List.range 12).filterMap fun p =>
    if d.rdB (F.STR_POS_VALID s p) ∧ d.rd (F.STR_POS_BEAD s p) < 96 then some (d.rd (F.STR_POS_BEAD s p), s, p) else none

/-- Where a bead stands. -/
def Dev.placeOf (d : Dev) (b : Nat) : Option (Nat × Nat) := (d.placed.find? fun x => x.1 = b).map (·.2)

/-- The channels routed to a front-end leg of a bead (R136). -/
def Dev.legChannels (d : Dev) (b sw : Nat) : List Nat :=
  (List.range 256).filter fun c => d.rd (F.CH_ROUTE_KIND c) = 2 ∧ d.rd (F.CH_ROUTE_BEAD c) = b ∧ d.rd (F.CH_ROUTE_SW c) = sw

/-- The channel whose values a leg takes: an enabled one first. -/
def Dev.legChannel (d : Dev) (b sw : Nat) : Option Nat :=
  let l := d.legChannels b sw
  match l.find? fun c => d.rdB (F.CH_CTRL_EN c) with
  | some c => some c
  | none => l.head?

/-! ## Configuration (R106, R115, R136, R564) -/

/-- The values the firmware keeps written in a bead: address and value (steps 3 and 4 of R564). [Log: DESIGN CHOICE 6; DEDUCED 49] -/
def Dev.cfgWanted (d : Dev) (b : Nat) : List (Nat × Nat) :=
  let ch := match d.legChannel b 0 with
    | some c =>
      let n := d.rd (F.CH_TRIP_BLANK c)
      [(0x0C, d.rd (F.CH_MINT c)), (0x14, n * 5 / 2 + (if n % 2 = 1 ∧ Config.blankHalf n then 1 else 0)),
       (0x1C, d.rd (F.CH_TRIP_N c) + 256 * d.rd (F.CH_TRIP_M c))]
    | none => []
  let w := d.rd (F.BDT_CFGW b)
  let opt (i a v : Nat) : List (Nat × Nat) := if bitOf w i then [(a, v)] else []
  ch ++ opt 3 0x28 (d.rd (F.BDT_ASYM b)) ++ opt 0 0x18 (d.rd (F.BDT_OC_LIM b)) ++ opt 1 0x20 (d.rd (F.BDT_UVLO b))
    ++ opt 2 0x24 (d.rd (F.BDT_OVP_BYP b))

/-- The wanted values as one list, to see a later change. -/
def Dev.cfgImage (d : Dev) (b : Nat) : List Nat := (d.cfgWanted b).flatMap fun x => [x.1, x.2]

/-- A bead enters discovery (R564): PLACE is written, NODE_ID and NODE_CAP are read, then the values above; FACK restarts
(R118). The tag goes on from the bead's last one, so that no operation repeats it (R106). -/
def Dev.startDiscovery (d : Dev) (b s : Nat) : Dev :=
  let place := b + 256 * d.rd (F.STR_CTRL_NBEAD s) + 4096 * d.rd (F.STR_CTRL_BEND s)
  let ops := [(8, 1, place), (0, 2, 0), (4, 2, 0)] ++ (d.cfgWanted b).map fun x => (x.1, 1, x.2)
  d.setBead b { cfgTag := ((d.bead b).cfgTag + 1) % 16, cfg := ops, cfgBase := d.cfgImage b, disc := true, hold := (d.bead b).hold }

/-- After a later change of what is kept written, the bead is written again (R564). -/
def Dev.refreshCfg (d : Dev) (b : Nat) : Dev :=
  let x := d.bead b
  let img := d.cfgImage b
  if d.rd (F.BDT_STATE b) = 0 ∨ x.cfgBase = img then d
  else d.setBead b { x with cfgBase := img, cfg := x.cfg ++ (d.cfgWanted b).map fun y => (y.1, 1, y.2) }

/-- The answer to the configuration operation outstanding (R106): NODE_ID and NODE_CAP are kept, the operation is done. The
sensor enables come from NODE_CAP (Table 10-4). -/
def Dev.cfgAnswer (d : Dev) (b : Nat) (r : List Byte) : Dev :=
  let x := d.bead b
  match x.cfg with
  | [] => d
  | (addr, op, _) :: rest =>
    if ¬ (le r 116 2 = addr ∧ le r 118 1 % 16 = x.cfgTag % 16) then d else
    let v := le r 120 4
    let ok := le r 118 1 / 16 % 4 = 0
    let x := { x with cfg := rest, cfgTag := (x.cfgTag + 1) % 16 }
    let x := if addr = 8 then { x with placed := true } else if addr = 0 ∧ op = 2 then { x with nodeId := some v } else
             if addr = 4 ∧ op = 2 ∧ ok then { x with nodeCap := v } else x
    let d := d.setBead b x
    if addr = 4 ∧ op = 2 ∧ ok then (d.wr (F.BTH_STAT_EN b) (2 ^ (min 8 (v % 16)) - 1)).enableFollow d b else d

/-! ## Fault messages (R118, R188) -/

/-- The source a bead message raises (Table 6-1); none for a reserved kind. -/
def beadSource : Nat → Option Nat
  | 1 => some 18 | 2 => some 45 | 3 => some 19 | 4 => some 20 | 5 => some 17 | 6 => some 84 | 7 => some 54 | 8 => some 85
  | 9 => some 86 | 0xA => some 87 | _ => none

/-- A message slot: FSEQ, kind, index, data, time. -/
structure BeadMsg where
  fseq : Nat
  kind : Nat
  idx : Nat
  data : Nat
  time : Nat
deriving DecidableEq, Repr

/-- The four slots of a record. -/
def beadMsgs (r : List Byte) : List BeadMsg :=
  ((List.range 4).map fun i => let o := 72 + 8 * i; (⟨le r (o + 7) 1, le r (o + 6) 1, le r (o + 5) 1, le r (o + 4) 1, le r o 4⟩ : BeadMsg)).filter (·.kind ≠ 0)

/-- The messages received in order, and the new R_b (R118). -/
def takeMsgs (rb : Nat) : List BeadMsg → List BeadMsg × Nat
  | [] => ([], rb)
  | m :: r =>
    if m.fseq = (rb + 1) % 256 then let (l, rb') := takeMsgs m.fseq r; (m :: l, rb') else takeMsgs rb r

/-- Raise one message (R188). -/
def Wk.beadMsg (w : Wk) (b : Nat) (m : BeadMsg) : Wk :=
  if m.kind = 0xB then w.stuckMessage b m.idx m.time else
  match beadSource m.kind with
  | none => w
  | some fs => (w.on (decide (m.kind = 5)) (·.up (·.inc F.GSV_CNT_ILK))).raiseAt fs m.data (b + 256 * (m.idx % 16)) m.time

/-- The distinct times of messages in ascending order (R382). -/
def msgTimes (l : List BeadMsg) : List Nat :=
  l.foldl (fun r m => if r.contains m.time then r else
    (r.filter (decide <| · < m.time)) ++ [m.time] ++ (r.filter (decide <| m.time < ·))) []

/-! ## A valid record of a bead -/

/-- What a record tells the gate supervision and the trip counts: held and latch bits (R157, R179), TRIPS of the front-end
legs. -/
def Dev.beadGates (d : Dev) (b : Nat) (r : List Byte) : Dev :=
  let latch := le r 71 1 % 64
  let d := (d.wr (F.GSV_BEAD_HELD b) (bits (le r 60 4) 24 6)).wr (F.GSV_BEAD_LATCH b) latch
  [0, 1].foldl (fun d sw => (d.legChannels b sw).foldl (fun d c =>
    (d.addSat (F.CH_TCNT_TOTAL c) (le r (64 + sw) 1)).wrB (F.CH_STAT_LATCHED c) (bitOf latch sw)) d) d

/-- Failures that a record shows (R310): a LATCH bit, STATE 4 while the device sends no quiesce, neither now nor in the header of the frame
at whose boundary the record was sampled, STATE 0 after another. [Log: DEDUCED 49] -/
def Dev.recordFails (d : Dev) (r : List Byte) (prev : Option Nat) : Bool :=
  let st := le r 2 1
  le r 71 1 % 64 ≠ 0 || (st = 4 && !d.safe && !d.frame.quiesce) || (st = 0 && match prev with | some p => decide (p ≠ 0) | none => false)

/-- SEQ_APPLIED shows a frame whose record carried ENABLE = 0 (R185, R321). -/
def BeadSt.applied (x : BeadSt) (seq : Nat) : BeadSt :=
  if x.sent0.contains seq ∧ ¬ x.seen0.contains seq then { x with seen0 := (x.seen0 ++ [seq]).take 8 } else x

/-- The MEAS and DAB_VS values after a record: a NaN field keeps its last valid value (R237). -/
def BeadSt.takeMeas (x : BeadSt) (r : List Byte) : BeadSt :=
  let new := ((List.range 8).map fun i => le r (12 + 4 * i) 4) ++ [le r 104 4]
  let bad (v : Nat) : Bool := (v >>> 23) % 256 = 255 && v % 2 ^ 23 ≠ 0
  { x with meas := (List.range 9).map (fun i => if bad (new.getD i 0) then x.meas.getD i 0 else new.getD i 0), nan := new.any bad }

/-- Take the first valid copy of a bead's record (R119). [Log: DEDUCED 49, 82] -/
def Wk.takeRecord (w : Wk) (b : Nat) (r : List Byte) : Wk :=
  let x := w.d.bead b
  let st := le r 2 1
  let prev := x.state0
  let back := decide (st = 0) && (match prev with | some p => decide (p ≠ 0) | none => false)
  let x := { ((x.applied (le r 10 2)).takeMeas r) with last := r, got := true, missRun := 0, rotWas := x.rot, state0 := some st, rb := if back then 0 else x.rb }
  let fails := w.d.recordFails r prev
  let w := w.up fun d => (d.setBead b x).beadGates b r
  let w := w.up fun d => if fails then d.beadFails b else d
  let w := w.up fun d => if st = 5 then d.wr (F.BDT_STATE_UNCONF b) 0 else d
  let w := w.up (·.cfgAnswer b r)
  let (ms, rb) := takeMsgs (w.d.bead b).rb (beadMsgs r)
  let w := w.up fun d => d.setBead b { d.bead b with rb := rb }
  let w := w.each (msgTimes ms) fun t w => (w.each (ms.filter (·.time = t)) fun m w => w.beadMsg b m).nextCycle
  w.each (List.range 4) fun i w => w.beadSlot b i (le r (44 + 4 * i) 4)

/-- A bead whose uplink shows the toggle done sends ENABLE = 1 from the next planned record (R185). [Log: DEDUCED 44] -/
def BeadSt.toggled (x : BeadSt) : Bool := decide (2 ≤ x.seen0.length)

/-! ## Uplink frames (R91, R116, R119, R24) -/

/-- Whether a 32-byte header is valid: its CRC, VER 1 and its type (R91). -/
def hdrOk (type : Nat) (b : List Byte) : Bool :=
  decide (32 ≤ b.length) && crc32c (slice b 0 28) = le b 28 4 && le b 0 1 = 1 + 16 * type

/-- One record of an uplink frame: its CRC, its position and bead number, the first copy. -/
def Wk.uplinkRecord (w : Wk) (s : Nat) (r : List Byte) : Wk :=
  if r.length < 128 ∨ crc32c (slice r 0 124) ≠ le r 124 4 then w.up (·.inc (F.STR_ERR_UPL_CRC s)) else
  let p := le r 0 1
  let b := w.d.rd (F.STR_POS_BEAD s p)
  let known := decide (p < 12) && decide (p < w.d.rd (F.STR_CTRL_NBEAD s)) && w.d.rdB (F.STR_POS_VALID s p) && decide (b < 96)
  if known && (le r 1 1 = b || (le r 1 1 = 0 && w.d.rd (F.BDT_STATE b) = 0)) then
    if (w.d.bead b).got then w else w.takeRecord b r
  else w.up (·.inc (F.STR_ERR_ID_ERR s))

/-- What the originating position says about a break (R94, R34): the frame toward A starts at the last bead and the one
toward B at the first, unless a bead timed out. [Log: DEDUCED 29] -/
def Dev.originBreak (d : Dev) (s : Nat) (b : List Byte) : Dev :=
  let o := le b 4 1
  let n := d.rd (F.STR_CTRL_NBEAD s)
  let toB := bitOf (le b 1 1) 4
  if bitOf (le b 6 1) 0 ∨ !d.rdB (F.STR_CTRL_BEND s) ∨ n = 0 then d
  else if !toB then
    if o + 1 < n then (d.wr (F.STR_STAT_BROKEN s) 1).wr (F.STR_STAT_BREAK s) (o + 1)
    else
      let up : Bool := match d.strandLane s true with | some m => decide (d.rd (F.LANE_STAT_PHASE m) = 2) | none => true
      if d.rd (F.STR_STAT_BREAK s) ≠ 0 && up then (d.wr (F.STR_STAT_BROKEN s) 0).wr (F.STR_STAT_BREAK s) 15 else d
  else if 0 < o ∧ o < 12 then (d.wr (F.STR_STAT_BROKEN s) 1).wr (F.STR_STAT_BREAK s) o
  else if d.rd (F.STR_STAT_BREAK s) ≠ 0 && d.endUp s false then (d.wr (F.STR_STAT_BROKEN s) 0).wr (F.STR_STAT_BREAK s) 15
  else d

/-- An uplink frame completes (R24, R119): of the present frame, inside its uplink window. -/
def Wk.uplinkFrame (w : Wk) (s : Nat) (b : List Byte) : Wk :=
  if 16 ≤ s ∨ !w.d.rdB (F.STR_CTRL_EN s) then w
  else if !hdrOk 2 b then w.up (·.inc (F.STR_ERR_UPL_CRC s))
  else if le b 2 2 ≠ seqOf w.d.frame.k ∨ w.d.rd F.SYS_FRM_STAT_WINDOW ≠ 0 ∨ !w.d.running then w
  else
    let w := w.up (·.originBreak s b)
    w.each (List.range (min (min 12 (le b 5 1)) ((b.length - 32) / 128))) fun i w => w.uplinkRecord s (slice b (32 + 128 * i) 128)

end Sys2Proof.Machine
end

