-- ==== Sys2Proof/Machine/Prims.lean ====
section
/-! DEFINITION. The arithmetic of the loop primitives (Table 9-1, R263 to R277): fp32 operations that note overflow and NaN,
sine and cosine, and one computation for each opcode that works instance by instance. -/
namespace Sys2Proof.Machine

/-- What an instance's arithmetic has met: overflows counted, whether a result was not a number (R249). -/
structure FE where
  ov : Nat := 0
  nan : Bool := false
deriving DecidableEq, Repr

/-- A computation in fp32. [Log: DEDUCED 39] -/
abbrev FpM (α : Type) := StateM FE α

namespace Fp

/-- Note the result of one operation. -/
def note (r : FpR) : FpM Nat := fun s => (r.v, ⟨s.ov + b2n r.ov, s.nan || fisNan r.v⟩)
/-- Sum. -/
def add (a b : Nat) : FpM Nat := note (fadd a b)
/-- Difference. -/
def sub (a b : Nat) : FpM Nat := note (fsub a b)
/-- Product. -/
def mul (a b : Nat) : FpM Nat := note (fmul a b)
/-- Quotient. -/
def div (a b : Nat) : FpM Nat := note (fdiv a b)
/-- Square root. -/
def sqrt (a : Nat) : FpM Nat := note (fsqrt a)
/-- A number held between two limits; NaN is noted; with crossed limits the result is left open. [Log: DESIGN CHOICE 14] -/
def clamp (x lo hi : Nat) : FpM Nat :=
  note ⟨if fisNan x then fpNan else if fLt hi lo then (Config.clampCrossed x lo hi).toNat else if fLt x lo then lo else if fLt hi x then hi else x, false⟩
/-- A value copied: subnormals flushed, infinities replaced (counted), NaN noted. -/
def copy (x : Nat) : FpM Nat :=
  match fpDec x with
  | .nan => note ⟨fpNan, false⟩
  | .num s m _ => if m = 0 then note ⟨fpSign s, false⟩
    else if (x >>> 23) % 256 = 255 then note ⟨fpSign s + fpMax, true⟩ else note ⟨x, false⟩

end Fp

/-! ## Sine and cosine -/

/-- π × 2^400, rounded down. -/
def piFix : Int :=
  8112377246730971238862271351300894519161151600179265203591191037615230905373990498745523360926816815427566779727327576236

/-- Taylor series of the sine of `r × 2^-200`: `n` further terms from `term`. -/
def sinSeries (r2 : Int) : Nat → Nat → Int → Int → Int
  | 0, _, _, acc => acc
  | n + 1, k, term, acc =>
    let t := -(term * r2 / 2 ^ 200) / (((2 * k + 2) * (2 * k + 3) : Nat) : Int)
    sinSeries r2 n (k + 1) t (acc + t)

/-- The sine of an angle given in units of 2^-400, in units of 2^-200. -/
def sinFix (x : Int) : Int :=
  let two := 2 * piFix
  let r := (x + piFix) % two - piFix
  let r := r / 2 ^ 200
  sinSeries (r * r / 2 ^ 200) 60 0 r r

/-- Move a code by a few units in the last place, away from or toward zero. [Log: DESIGN CHOICE 7] -/
def ulpMove (a : Nat) (k : Int) : Nat :=
  let mag : Int := ((fabs a : Nat) : Int) + clampI (-2) 2 k
  if fabs a = 0 then a else if mag < 2 ^ 23 then fpSign (a.testBit 31) else fpSign (a.testBit 31) + mag.toNat

/-- The code of sin or cos: within 2 units in the last place of the exact value, by an offset that is left open. [Log: DESIGN CHOICE 7] -/
def trig (isCos : Bool) (a : Nat) : FpR :=
  match fpDec a with
  | .nan => ⟨fpNan, false⟩
  | .num s m e =>
    let x : Int := (if s then -1 else 1) * ((m * 2 ^ (e + 400).toNat : Nat) : Int)
    let v := sinFix (if isCos then x + piFix / 2 else x)
    ⟨ulpMove (fpRound (decide (v < 0)) v.natAbs (-200)).v (if isCos then Config.cosUlp a else Config.sinUlp a), false⟩

/-- The code of tan below a quarter turn: the quotient of sine and cosine, within 2 units in the last place by an offset that is left
open. [Log: DESIGN CHOICE 7] -/
def trigTan (a : Nat) : Nat :=
  match fpDec a with
  | .nan => fpNan
  | .num s m e =>
    let x : Int := (if s then -1 else 1) * ((m * 2 ^ (e + 400).toNat : Nat) : Int)
    ulpMove (fScaled (sinFix x) (sinFix (x + piFix / 2)).toNat 0) (Config.tanUlp a)

open Fp

/-- 2π, 2π/3, π and 2/3 as fp32. -/
def f2Pi : Nat := 0x40C90FDB
/-- See `f2Pi`. -/
def f2Pi3 : Nat := 0x40060A92
/-- See `f2Pi`. -/
def fPi : Nat := 0x40490FDB
/-- See `f2Pi`. -/
def fTwo3 : Nat := 0x3F2AAAAB

/-- wrap() of R270: an angle reduced into [0, 2π), by the exact remainder to the code of 2π, rounded once. [Log: DEDUCED 39] -/
def wrapAngle (x : Nat) : FpM Nat :=
  match fpDec x, fpDec f2Pi with
  | .num s m e, .num _ p f =>
    let g := min e f
    let r := ((if s then -1 else 1) * ((m * 2 ^ (e - g).toNat : Nat) : Int)) % ((p * 2 ^ (f - g).toNat : Nat) : Int)
    let y := (fpRound false r.toNat g).v
    note ⟨if fLe f2Pi y then 0 else y, false⟩
  | _, _ => note ⟨fpNan, false⟩

/-- The amplitude-invariant transform (R269). -/
def abcDq (a b c th : Nat) : FpM (Nat × Nat × Nat) := do
  let tm ← sub th f2Pi3
  let tp ← add th f2Pi3
  let d ← add (← add (← mul a (← note (trig true th))) (← mul b (← note (trig true tm)))) (← mul c (← note (trig true tp)))
  let q ← add (← add (← mul a (← note (trig false th))) (← mul b (← note (trig false tm)))) (← mul c (← note (trig false tp)))
  let z ← div (← add (← add a b) c) 0x40400000
  return (← mul fTwo3 d, fneg (← mul fTwo3 q), z)

/-- One phase of the inverse transform (R269). -/
def dqPhase (d q z th : Nat) : FpM Nat := do
  add (← sub (← mul d (← note (trig true th))) (← mul q (← note (trig false th)))) z

/-! ## What a primitive sees and gives -/

/-- The operands of one instance: entry number, OPX, inputs, parameters, state words, T_E, whether the frame is the first
after a swap, whether an input is stale, the reference of the first input, and for a chained PR the Y before it. -/
structure PrimIn where
  entry : Nat
  opx : Nat
  xs : List Nat
  ps : List Nat
  st : List Nat
  te : Nat
  swap : Bool
  stale : Bool
  ref0 : Nat
  chain : Option Nat

/-- What one instance writes: outputs, state words, and events it holds for the commit (R278): source and instance. -/
structure PrimOut where
  outs : List Nat
  st : List Nat := []
  evs : List (Nat × Nat) := []

/-- Input, parameter and state accessors. -/
def PrimIn.x (p : PrimIn) (i : Nat) : Nat := p.xs.getD i 0
/-- See `PrimIn.x`. -/
def PrimIn.p (p : PrimIn) (i : Nat) : Nat := p.ps.getD i 0
/-- See `PrimIn.x`. -/
def PrimIn.s (p : PrimIn) (i : Nat) : Nat := p.st.getD i 0

/-- fp32 12,800, the ticks of 1 µs. -/
def f12800 : Nat := 0x46480000

/-- PI and PID (R263). -/
def primPI (pid : Bool) (p : PrimIn) : FpM PrimOut := do
  let i := p.s 0
  let y := p.s (if pid then 3 else 1)
  let gs := p.s (if pid then 4 else 2)
  let gsp := p.s (if pid then 5 else 3)
  let lo := p.p (if pid then 4 else 2)
  let hi := p.p (if pid then 5 else 3)
  let k ← mul gs (p.p 0)
  let ki ← mul gs (p.p 1)
  let e ← sub (p.x 0) (p.x 1)
  let i ← if p.swap || !fEq gs gsp then do sub y (← mul k e) else do add i (← mul (← mul ki p.te) e)
  let i ← clamp i lo hi
  let s ← add (← mul k e) i
  let out (y : Nat) : List Nat := if p.opx % 2 = 1 then [y, e] else [y]
  if pid then
    let kd ← mul gs (p.p 2)
    let td := p.p 3
    let d ← div (← sub (← mul td (p.s 1)) (← mul kd (← sub (p.x 1) (p.s 2)))) (← add td p.te)
    let y ← clamp (← add s d) lo hi
    return { outs := out y, st := [i, d, p.x 1, y, gs, gs] }
  else
    let y ← clamp s lo hi
    return { outs := out y, st := [i, y, gs, gs] }

/-- PR (R264). -/
def primPR (p : PrimIn) : FpM PrimOut := do
  let (kr, w0, wc, hi) := (p.p 0, p.p 1, p.p 2, p.p 3)
  let (x1, x2, y0, gs, gsp) := (p.s 0, p.s 1, p.s 2, p.s 3, p.s 4)
  let e := p.x 0
  let half ← div (← mul w0 p.te) 0x40000000
  let kw ← div w0 (← note ⟨if fLe 0x40000000 (← mul w0 p.te) then fpNan else trigTan half, false⟩)
  let kw2 ← mul kw kw
  let wck ← mul (← mul 0x40000000 wc) kw
  let w02 ← mul w0 w0
  let dn ← add (← add kw2 wck) w02
  let b0 ← div (← mul (← mul (← mul (← mul gs kr) 0x40000000) wc) kw) dn
  let a1 ← div (← mul 0x40000000 (← sub w02 kw2)) dn
  let a2 ← div (← add (← sub kw2 wck) w02) dn
  let x1 ← if p.swap || !fEq gs gsp then do sub y0 (← mul b0 e) else pure x1
  let v ← add (← mul b0 e) x1
  let h4 ← mul 0x40800000 hi
  let n1 ← clamp (← add (← mul (fneg a1) v) x2) (fneg h4) h4
  let n2 ← clamp (← sub (← mul (fneg b0) e) (← mul a2 v)) (fneg h4) h4
  let v' ← match p.chain with
    | some c => add v c
    | none => pure v
  let y ← clamp v' (fneg hi) hi
  return { outs := [y], st := [n1, n2, y, gs, gs] }

/-- BIQUAD (R264); at a swap X1 = Y − B0·x. -/
def primBiquad (p : PrimIn) : FpM PrimOut := do
  let x := p.x 0
  let x1 ← if p.swap then do sub (p.s 2) (← mul (p.p 0) x) else pure (p.s 0)
  let y ← add (← mul (p.p 0) x) x1
  let n1 ← add (← sub (← mul (p.p 1) x) (← mul (p.p 3) y)) (p.s 1)
  let n2 ← sub (← mul (p.p 2) x) (← mul (p.p 4) y)
  return { outs := [y], st := [n1, n2, y] }

/-- LEADLAG (R264). -/
def primLeadlag (p : PrimIn) : FpM PrimOut := do
  let x := p.x 0
  let k := p.p 0
  let ta2 ← mul 0x40000000 (p.p 1)
  let tb2 ← mul 0x40000000 (p.p 2)
  let dn ← add tb2 p.te
  let b0 ← div (← mul k (← add ta2 p.te)) dn
  let b1 ← div (← mul k (← sub p.te ta2)) dn
  let a1 ← div (← sub p.te tb2) dn
  let x1 ← if p.swap then do sub (p.s 1) (← mul b0 x) else pure (p.s 0)
  let y ← add (← mul b0 x) x1
  let n1 ← sub (← mul b1 x) (← mul a1 y)
  return { outs := [y], st := [n1, y] }

/-- RAMP (R266). -/
def primRamp (p : PrimIn) : FpM PrimOut := do
  let (t, m, y0, ph) := (p.x 0, p.x 1, p.s 0, p.s 1)
  let lim ← mul (p.p 0) p.te
  let one := fOne
  let two := 0x40000000
  if fEq ph 0 then
    let y ← copy m
    return { outs := [y, 0], st := [y, 0] }
  else
    let y ← add y0 (← clamp (← sub t y0) (fneg lim) lim)
    if fEq ph one then
      let gap ← sub t y
      if fLe (fabs gap) (p.p 1) then
        let y ← copy t
        return { outs := [y, one], st := [y, two] }
      else return { outs := [y, 0], st := [y, one] }
    else return { outs := [y, one], st := [y, two] }

/-- CMP (R268); a stale input leaves CNT and FLAG as they are. -/
def primCmp (p : PrimIn) : FpM PrimOut := do
  let (cnt, flag) := (p.s 0, p.s 1)
  if p.stale then return { outs := [flag], st := [cnt, flag] } else
  let lim ← add (p.p 0) (← mul (p.p 1) (fabs (p.x 1)))
  let df ← sub (p.x 0) (p.x 1)
  let bad := fLt lim (fabs df)
  let up ← add cnt fOne
  if fEq flag 0 then
    let cnt := if bad then up else 0
    if fLe (p.p 2) cnt then
      return { outs := [fOne], st := [0, fOne], evs := if p.opx % 2 = 1 then [(58, p.ref0 % 2 ^ 21 / 4)] else [] }
    else return { outs := [0], st := [cnt, 0] }
  else
    let cnt := if bad then 0 else up
    if fLe (p.p 2) cnt then return { outs := [0], st := [0, 0] }
    else return { outs := [flag], st := [cnt, flag] }

/-- PLL (R270). -/
def primPll (p : PrimIn) : FpM PrimOut := do
  let (th, i) := (p.s 0, p.s 1)
  let (kp, ki, wn, wlo, whi, lead, vmin) := (p.p 0, p.p 1, p.p 2, p.p 3, p.p 4, p.p 5, p.p 6)
  let (vd, vq, _) ← abcDq (p.x 0) (p.x 1) (p.x 2) th
  let vn ← div vq (fmax vd vmin)
  let i ← clamp (← add i (← mul (← mul ki p.te) vn)) (← sub wlo wn) (← sub whi wn)
  let w ← clamp (← add (← add wn i) (← mul kp vn)) wlo whi
  let th ← wrapAngle (← add th (← mul w p.te))
  let theta ← wrapAngle (← add th (← mul w lead))
  return { outs := [theta, w, vd], st := [th, i] }

/-- LUT: linear interpolation between OPX points, the end values outside. -/
def primLut (p : PrimIn) : FpM PrimOut := do
  let n := max 2 p.opx
  let u ← mul (← sub (p.x 0) (p.p 0)) (p.p 1)
  let u ← clamp u 0 (fInt (n - 1 : Nat))
  let j := min ((fFloor u).getD 0).toNat (n - 2)
  let fr ← sub u (fInt (j : Nat))
  let y ← add (p.p (2 + j)) (← mul fr (← sub (p.p (3 + j)) (p.p (2 + j))))
  return { outs := [if fEq fr fOne then p.p (3 + j) else y] }

/-- DABPH (R275). -/
def primDabph (p : PrimIn) : FpM PrimOut := do
  let (q, v1, i) := (p.x 0, p.x 1, p.x 2)
  let (hper, lk, nt, pmax, pstep) := (p.p 0, p.p 1, p.p 2, p.p 3, p.p 4)
  let prev := p.s 0
  let pi2 ← mul fPi fPi
  let raw ← if fLt v1 0x41200000 then pure 0 else do
    let k ← div (← mul (← mul (← mul pi2 lk) q) (fabs i)) (← mul (← mul (← mul nt v1) hper) (fRat 78125 1000000000000000))
    let phi ← if fLe (← div pi2 0x40800000) k then div fPi 0x40000000
      else do div (← sub fPi (← sqrt (← sub pi2 (← mul 0x40800000 k)))) 0x40000000
    let t ← div (← mul phi hper) fPi
    let qi ← mul q i
    pure (fabs t + fpSign (qi.testBit 31))
  let a ← clamp raw (fneg pmax) pmax
  let a ← clamp a (← sub prev pstep) (← add prev pstep)
  return { outs := [a], st := [a] }

/-- FLUX (R276). -/
def primFlux (p : PrimIn) : FpM PrimOut := do
  let (vs, v1) := (p.x 0, p.x 1)
  let (cpf, gain, bound, tmax, sgn) := (p.p 0, p.p 1, p.p 2, p.p 3, p.p 4)
  let (lam, t1, t2) := (p.s 0, p.s 1, p.s 2)
  let sv ← mul sgn v1
  let e2 ← div (← mul sv t2) f12800
  let lam ← add (← add lam (← mul cpf (← sub vs e2))) e2
  let est ← add lam (← div (← mul sv t1) f12800)
  let t ← if fLt 0 v1 && fLt bound (fabs est) then do
      clamp (← div (← mul (← mul (fneg gain) est) f12800) sv) (fneg tmax) tmax
    else pure 0
  return { outs := [← div t 0x40000000, t], st := [lam, t, t1] }

/-- SHIM (R277). -/
def primShim (p : PrimIn) : FpM PrimOut := do
  let e := p.x 0
  let (amp, win, nzc, step, floor) := (p.p 0, p.p 1, p.p 2, p.p 3, p.p 4)
  let g := if p.swap then fOne else p.s 3
  let big := fLt amp (fabs e)
  let s := if fLt 0 e then fOne else fneg fOne
  let cnt ← if big && !fEq (p.s 2) 0 && !fEq s (p.s 2) then add (p.s 0) fOne else pure (p.s 0)
  let sg := if big then s else p.s 2
  let wn ← add (p.s 1) fOne
  if fLe win wn then
    if fLe nzc cnt then
      let g := fmax (← mul g step) floor
      return { outs := [g], st := [0, 0, sg, g], evs := [(62, p.entry)] }
    else return { outs := [g], st := [0, 0, sg, g] }
  else return { outs := [g], st := [cnt, wn, sg, g] }

/-- Σ Wj·xj, left to right. -/
def primSum (p : PrimIn) : FpM PrimOut := do
  let rec go : List Nat → List Nat → Nat → FpM Nat
    | x :: xs, w :: ws, acc => do go xs ws (← add acc (← mul w x))
    | _, _, acc => pure acc
  match p.xs, p.ps with
  | x :: xs, w :: ws => do
    let a ← mul w x
    return { outs := [← go xs ws a] }
  | _, _ => return { outs := [0] }

/-- One instance of an opcode that works instance by instance (Table 9-1). [Log: DEDUCED 39] -/
def prim (op : Nat) (p : PrimIn) : FpM PrimOut := do
  match op with
  | 0x01 => return { outs := [← copy (p.x 0)] }
  | 0x02 => primSum p
  | 0x03 => return { outs := [← mul (← mul (p.p 0) (p.x 0)) (p.x 1)] }
  | 0x06 => primPI false p
  | 0x07 => primPI true p
  | 0x08 => primPR p
  | 0x09 => primBiquad p
  | 0x0A => primLeadlag p
  | 0x0B => return { outs := [← clamp (← copy (p.x 0)) (p.p 0) (p.p 1)] }
  | 0x0C =>
    let d ← clamp (← sub (p.x 0) (p.s 0)) (fneg (← mul (p.p 1) p.te)) (← mul (p.p 0) p.te)
    let y ← add (p.s 0) d
    return { outs := [y], st := [y] }
  | 0x0D => primRamp p
  | 0x0E =>
    let y ← mul (← mul (p.x 1) (p.p 0)) (← add (p.x 0) (← mul (p.p 1) (← sub (p.x 0) (p.s 0))))
    return { outs := [y], st := [← copy (p.x 0)] }
  | 0x0F =>
    let (d, q, z) ← abcDq (p.x 0) (p.x 1) (p.x 2) (p.x 3)
    return { outs := [d, q, z] }
  | 0x10 =>
    let (d, q, z, th) := (p.x 0, p.x 1, p.x 2, p.x 3)
    return { outs := [← dqPhase d q z th, ← dqPhase d q z (← sub th f2Pi3), ← dqPhase d q z (← add th f2Pi3)] }
  | 0x11 => primPll p
  | 0x13 => primLut p
  | 0x14 => return { outs := [← copy (if fLe 0x3F000000 (p.x 0) then p.x 1 else p.x 2)] }
  | 0x15 => primCmp p
  | 0x16 => primFlux p
  | 0x17 => primDabph p
  | 0x19 =>
    let kt := fmin (← clamp (← sub fOne (← mul (p.p 0) (p.x 0))) (p.p 1) fOne) (← copy (p.x 1))
    let k ← if fLt kt (p.s 0) then pure kt else do pure (fmin kt (← add (p.s 0) (← mul (p.p 2) p.te)))
    return { outs := [k], st := [k] }
  | 0x1A => return { outs := [← clamp (← add (p.p 1) (← mul (p.p 0) (p.x 0))) (p.p 2) (p.p 3)] }
  | 0x1B => primShim p
  | _ => return { outs := [] }

end Sys2Proof.Machine
end

