-- ==== Sys2Proof/Machine/Lpe.lean ====
section
/-! DEFINITION. The loop engine (08_loop_engine.md): memories, entries, partitions, checking and voting, the commit, LP_VERIFY
and the program image. -/
namespace Sys2Proof.Machine

/-! ## Memories and entries (R223 to R230) -/

/-- Change the loop engine. -/
def Dev.upLpe (d : Dev) (f : LpeSt → LpeSt) : Dev := { d with lpe := f d.lpe }

/-- A committed state-memory word. [Log: DESIGN CHOICE 2] -/
def Dev.smem (d : Dev) (w : Nat) : Nat := tget 0 d.lpe.mem w
/-- A program-memory word. [Log: DESIGN CHOICE 2] -/
def Dev.pmem (d : Dev) (w : Nat) : Nat := tget 0 d.lpe.prog w
/-- Write a state-memory word: an uncorrectable error in it is gone (R252). -/
def Dev.putS (d : Dev) (w v : Nat) : Dev :=
  d.upLpe fun l => { l with mem := tput 0 l.mem w (v % 2 ^ 32), bad := tput false l.bad (65536 + w) false }
/-- Write a program-memory word; VERIFIED clears (R225). -/
def Dev.putP (d : Dev) (w v : Nat) : Dev :=
  (d.upLpe fun l => { l with prog := tput 0 l.prog w (v % 2 ^ 32), bad := tput false l.bad w false, dirty := true }).wr F.LPE_STAT_VERIFIED 0

/-- The fields of an entry (Table 8-4). -/
structure Entry where
  op : Nat
  rc : Nat
  il : Bool
  ps : Bool
  skip : Bool
  n : Nat
  out : Nat
  inp : Nat
  par : Nat
  st : Nat
  ostr : Nat
  opx : Nat
deriving DecidableEq, Repr

/-- Entry `e` from its four program words. -/
def Dev.entry (d : Dev) (e : Nat) : Entry :=
  let v := d.pmem (4 * e) + d.pmem (4 * e + 1) * 2 ^ 32 + d.pmem (4 * e + 2) * 2 ^ 64 + d.pmem (4 * e + 3) * 2 ^ 96
  { op := bits v 120 8, rc := bits v 116 4, il := bitOf v 115, ps := bitOf v 114, skip := bitOf v 113, n := bits v 104 8,
    out := bits v 80 24, inp := bits v 56 24, par := bits v 32 24, st := bits v 14 18, ostr := bits v 8 6, opx := bits v 0 8 }

/-- Inputs, cost per pass and cost per entry of an opcode (Table 8-5). -/
def opCost : Nat → Nat × Nat × Nat
  | 0x01 => (1, 2, 0) | 0x02 => (0, 4, 0) | 0x03 => (2, 4, 0) | 0x04 => (1, 4, 12) | 0x05 => (1, 4, 12) | 0x06 => (2, 16, 0)
  | 0x07 => (2, 22, 0) | 0x08 => (1, 20, 0) | 0x09 => (1, 18, 0) | 0x0A => (1, 14, 0) | 0x0B => (1, 4, 0) | 0x0C => (1, 8, 0)
  | 0x0D => (2, 12, 0) | 0x0E => (2, 10, 0) | 0x0F => (4, 24, 0) | 0x10 => (4, 24, 0) | 0x11 => (3, 64, 0) | 0x12 => (2, 0, 48)
  | 0x13 => (1, 12, 0) | 0x14 => (3, 4, 0) | 0x15 => (2, 8, 0) | 0x16 => (2, 28, 0) | 0x17 => (3, 72, 0) | 0x18 => (2, 16, 0)
  | 0x19 => (2, 12, 0) | 0x1A => (1, 10, 0) | 0x1B => (1, 14, 0) | _ => (0, 0, 0)

/-- Inputs of an entry: for SUM the count is OPX. -/
def Entry.g (e : Entry) : Nat := if e.op = 2 then e.opx else (opCost e.op).1

/-- Parameter, state and per-instance output counts (Table 9-1). -/
def Entry.counts (e : Entry) : Nat × Nat × Nat :=
  match e.op with
  | 0x01 => (0, 0, 1) | 0x02 => (e.opx, 0, 1) | 0x03 => (1, 0, 1) | 0x04 => (0, 0, 0) | 0x05 => (0, 0, 0)
  | 0x06 => (4, 4, 1 + e.opx % 2) | 0x07 => (6, 6, 1 + e.opx % 2) | 0x08 => (4, 5, 1) | 0x09 => (5, 3, 1) | 0x0A => (3, 2, 1)
  | 0x0B => (2, 0, 1) | 0x0C => (2, 1, 1) | 0x0D => (2, 2, 2) | 0x0E => (2, 1, 1) | 0x0F => (0, 0, 3) | 0x10 => (0, 0, 3)
  | 0x11 => (7, 2, 3) | 0x12 => (0, 0, 2) | 0x13 => (2 + e.opx, 0, 1) | 0x14 => (0, 0, 1) | 0x15 => (3, 2, 1) | 0x16 => (5, 3, 2)
  | 0x17 => (5, 1, 1) | 0x18 => (2, 0, 2) | 0x19 => (3, 1, 1) | 0x1A => (4, 0, 1) | 0x1B => (5, 4, 1) | _ => (0, 0, 0)

/-- The output stride in force. -/
def Entry.stride (e : Entry) : Nat := if e.ostr = 0 then e.counts.2.2 else e.ostr

/-- Entry-level outputs behind the per-instance ones (R262). -/
def Entry.tail (e : Entry) : Nat := if e.op = 4 then 2 else if e.op = 5 then 4 else if e.op = 0x12 then 4 else 0

/-- Where the entry-level outputs start. -/
def Entry.tailAt (e : Entry) : Nat := if e.op = 0x12 then e.out + e.n * e.stride else e.out

/-- Every reference an entry writes: outputs, then state words. -/
def Entry.writeRefs (e : Entry) : List Nat :=
  let (_, ks, no) := e.counts
  ((List.range e.n).flatMap fun i => (List.range no).map (e.out + i * e.stride + ·)) ++ (List.range e.tail).map (e.tailAt + ·)
    ++ (List.range (e.n * ks)).map (e.st + ·)

/-- The reference of input `j` of instance `i` (R228). -/
def Dev.inRef (d : Dev) (e : Entry) (i j : Nat) : Nat :=
  if e.il then d.pmem (e.inp % 2 ^ 21 + i * e.g + j) % 2 ^ 24 else e.inp + i * e.g + j

/-- Effective period of a class in frames (R230); 0 while unused, or not a class (BASE not below it, DIV above 256). [Log: DEDUCED 81] -/
def Dev.effPer (d : Dev) : Nat → Nat → Nat
  | 0, _ => 1
  | f + 1, k => if d.rd (F.LPE_RC_DIV k) = 0 then 0 else if k = 0 then 1 else
    let b := d.rd (F.LPE_RC_BASE k)
    if b < k ∧ d.rd (F.LPE_RC_DIV k) ≤ 256 then d.rd (F.LPE_RC_DIV k) * d.effPer f b else 0

/-- E_k. -/
def Dev.period (d : Dev) (k : Nat) : Nat := d.effPer 16 k

/-- Whether a class runs in the frame of count `f` (R230). -/
def Dev.runsIn (d : Dev) (k f : Nat) : Bool :=
  let e := d.period k
  e ≠ 0 && ((f : Int) - d.rd (F.LPE_RC_PHASE k)) % (e : Int) = 0

/-! ## Running a partition (R222, R236) -/

/-- A partition in progress: the entry that runs, its own writes of this frame, the writes in program order (latest first), events held,
FPEV, the first LPE_FP, an uncorrectable word read. -/
structure PRun where
  cur : Nat := 0
  ov : Tab (Option Nat) := []
  wr : List (Nat × Nat) := []
  evs : List (Nat × Nat) := []
  fpev : Nat := 0
  fp : Option (Nat × Nat) := none
  bad : Option Nat := none

/-- The row number that LPE_ECC sources carry: a state row, or behind the 1,024 state rows a group of 256 program words. -/
def eccRow (key : Nat) : Nat := if key < 65536 then 1024 + key / 256 else (key - 65536) / 256

/-- An uncorrectable word is met (R252). -/
def PRun.meet (r : PRun) (d : Dev) (key : Nat) : PRun :=
  if tget false d.lpe.bad key then { r with bad := some (r.bad.getD (eccRow key)) } else r

/-- What an operand's code counts as (Table 8-9): a subnormal is 0, an infinity is replaced, which FPEV counts. -/
def PRun.operand (r : PRun) (v : Nat) : Nat × PRun :=
  match fpDec v with
  | .nan => (v, r)
  | .num s m _ =>
    if m = 0 then (fpSign s, r)
    else if (v >>> 23) % 256 = 255 then (fpSign s + fpMax, { r with fpev := r.fpev + 1, fp := some (r.fp.getD (1, r.cur)) })
    else (v, r)

/-- Read an operand reference (Table 8-2). -/
def PRun.read (r : PRun) (d : Dev) (ref : Nat) : Nat × PRun :=
  let sp := ref / 2 ^ 21
  let ix := ref % 2 ^ 21
  if sp = 0 then
    match tget none r.ov ref with
    | some v => r.operand v
    | none => (r.meet d (65536 + ix)).operand (d.smem ix)
  else if sp = 1 then
    let k := 131072 + 65536 * d.rd F.LPE_COEF_BANK + ix
    (r.meet d (65536 + k)).operand (d.smem k)
  else r.operand (tget 0 d.lpe.snap ref)

/-- The references of an instance's inputs, read from the input list where the entry has one (R228, R252). -/
def PRun.refs (r : PRun) (d : Dev) (e : Entry) (i : Nat) : List Nat × PRun :=
  ((List.range e.g).map (d.inRef e i), if e.il then (List.range e.g).foldl (fun r j => r.meet d (e.inp % 2 ^ 21 + i * e.g + j)) r else r)

/-- Read several references. -/
def PRun.reads (r : PRun) (d : Dev) : List Nat → List Nat × PRun
  | [] => ([], r)
  | a :: l =>
    let (v, r) := r.read d a
    let (vs, r) := r.reads d l
    (v :: vs, r)

/-- Range of an EDG or BDL field (R249). [Log: DEDUCED 41] -/
def edgRange (ix : Nat) : Int × Int :=
  if ix < 512 then (0, 2 ^ 29 - 1) else if (ix - 512) % 8 = 0 then (2, 16777215) else (0, 2 ^ 29 - 1)
/-- See `edgRange`. [Log: DEDUCED 41] -/
def bdlRange (ix : Nat) : Int × Int :=
  match ix % 16 with
  | 0 | 2 => (0, 2 ^ 32 - 1) | 1 => (-(2 ^ 31), 2 ^ 31 - 1) | 3 | 4 => (0, 65535) | 5 | 6 => (-32768, 32767) | _ => (0, 3)

/-- What a write stores: EDG and BDL values are rounded and saturated. -/
def writeVal (ref v : Nat) : Nat :=
  let sp := ref / 2 ^ 21
  let cv (lim : Int × Int) (w : Nat) : Nat := toField w (clampI lim.1 lim.2 ((fToInt v).getD 0))
  if sp = 5 then cv (edgRange (ref % 2 ^ 21)) 32 else if sp = 6 then cv (bdlRange (ref % 2 ^ 21)) 32 else v

/-- One write. -/
def PRun.write (r : PRun) (ref v : Nat) : PRun :=
  let v := writeVal ref v
  { r with ov := if ref / 2 ^ 21 = 0 then tput none r.ov ref (some v) else r.ov, wr := (ref, v) :: r.wr }

/-- Consecutive writes. -/
def PRun.writes (r : PRun) (ref : Nat) (vs : List Nat) : PRun :=
  (vs.foldl (fun (a : PRun × Nat) v => (a.1.write a.2 v, a.2 + 1)) (r, ref)).1

/-- Whether a reference is a stale input (R250). -/
def Dev.staleRef (d : Dev) (ref : Nat) : Bool :=
  let sp := ref / 2 ^ 21
  let ix := ref % 2 ^ 21
  if sp = 2 then tget 0 d.lpe.snap (2 * 2 ^ 21 + ix / 4 * 4 + 3) ≠ 0
  else if sp = 3 then tget 0 d.lpe.snap (3 * 2 ^ 21 + ix / 32 * 32 + 17) ≠ 0
  else false

/-- Note overflow events and a NaN of entry `e` (R249). [Log: DEDUCED 39] -/
def PRun.note (r : PRun) (e : Nat) (s : FE) : PRun :=
  let r := { r with fpev := r.fpev + s.ov + b2n s.nan }
  if s.nan then { r with fp := some (r.fp.getD (2, e)) } else if 0 < s.ov then { r with fp := some (r.fp.getD (1, e)) } else r

/-- T_E of an entry (R257). -/
def Dev.tE (d : Dev) (e : Entry) : Nat := (fmul (fInt (d.period e.rc : Nat)) (tget 0 d.lpe.snap (4 * 2 ^ 21))).v

/-- The state word of PI, PID and PR that the instance itself only reads: GS (Table 9-1). -/
def gsWord (op : Nat) : Option Nat := if op = 6 then some 2 else if op = 7 then some 4 else if op = 8 then some 3 else none

/-- One instance of an opcode of `prim`. [Log: DEDUCED 39] -/
def PRun.inst (r : PRun) (d : Dev) (no : Nat) (e : Entry) (i : Nat) : PRun :=
  let (kp, ks, _) := e.counts
  let (refs, r) := r.refs d e i
  let stale := refs.any d.staleRef
  if e.skip && stale then r else
  let (xs, r) := r.reads d refs
  let (ps, r) := r.reads d ((List.range kp).map fun j => if e.ps then e.par + i * kp + j else e.par + j)
  let (st, r) := r.reads d ((List.range ks).map fun j => e.st + i * ks + j)
  let (ch, r) := if e.op = 8 ∧ e.opx % 2 = 1 ∧ 0 < i then (let (v, r) := r.read d (e.st + (i - 1) * ks + 2); (some v, r)) else (none, r)
  let swap := tget 0 d.lpe.snap (4 * 2 ^ 21 + 2) ≠ 0
  let (o, s) := (prim e.op { entry := no, opx := e.opx, xs := xs, ps := ps, st := st, te := d.tE e, swap := swap, stale := stale,
                             ref0 := refs.headD 0, chain := ch }).run {}
  let nan := s.nan || (o.outs ++ o.st).any fisNan
  let r := r.note no { s with nan := nan }
  if nan then r else
  let r := r.writes (e.out + i * e.stride) o.outs
  let r := o.st.zipIdx.foldl (fun (r : PRun) x => if some x.2 = gsWord e.op then r else r.write (e.st + i * ks + x.2) x.1) r
  { r with evs := r.evs ++ o.evs }

/-- Whether an instance of an entry-level opcode takes part (R262): no stale input, in service under SVC, no NaN input. -/
def Dev.takesPart (d : Dev) (e : Entry) (refs xs : List Nat) : Bool :=
  !refs.any d.staleRef && !xs.any fisNan &&
  !(e.opx % 2 = 1 && match refs.head? with
    | some ref => ref / 2 ^ 21 = 3 && tget 0 d.lpe.snap (3 * 2 ^ 21 + ref % 2 ^ 21 / 32 * 32 + 18) ≠ 0
    | none => false)

/-- Sum of a list, left to right. -/
def fpSum (l : List Nat) : FpM Nat := l.foldlM (fun a v => Fp.add a v) 0

/-- The instances of an entry with their inputs, and NaN inputs counted in FPEV. [Log: DEDUCED 16] -/
def PRun.gather (r : PRun) (d : Dev) (e : Entry) : List (Nat × List Nat × List Nat) × PRun :=
  (List.range e.n).foldl (fun (a : List (Nat × List Nat × List Nat) × PRun) i =>
    let (refs, r) := a.2.refs d e i
    let (xs, r) := r.reads d refs
    let r := if xs.any fisNan then { r with fpev := r.fpev + 1 } else r
    (a.1 ++ [(i, refs, xs)], r)) ([], r)

/-- Write entry-level outputs unless the quantity is NaN (R262). [Log: DEDUCED 17] -/
def PRun.tails (r : PRun) (no : Nat) (e : Entry) (m : FpM (List Nat)) : PRun × Bool :=
  let (vs, s) := m.run {}
  let nan := s.nan || vs.any fisNan
  let r := r.note no { s with nan := nan }
  if nan then (r, false) else (r.writes e.tailAt vs, true)

/-- AVG and MINMAX (R262). [Log: DEDUCED 17] -/
def PRun.stats (r : PRun) (d : Dev) (no : Nat) (e : Entry) : PRun :=
  let (l, r) := r.gather d e
  let l := (l.filter fun x => d.takesPart e x.2.1 x.2.2).map fun x => (x.1, x.2.2.headD 0)
  if e.op = 4 then
    (r.tails no e (if l = [] then pure [0, 0] else do
      let s ← fpSum (l.map (·.2))
      let n := fInt (l.length : Nat)
      return [← Fp.div s n, n])).1
  else match l with
    | [] => r
    | x :: t =>
      let mn := t.foldl (fun m y => if fLt y.2 m.2 then y else m) x
      let mx := t.foldl (fun m y => if fLt m.2 y.2 then y else m) x
      (r.tails no e (pure [mn.2, mx.2, fInt (mn.1 : Nat), fInt (mx.1 : Nat)])).1

/-- SORT (R271). -/
def PRun.sort (r : PRun) (d : Dev) (no : Nat) (e : Entry) : PRun :=
  let (l, r) := r.gather d e
  let ok := (l.filter fun x => d.takesPart e x.2.1 x.2.2 && fLt 0 (x.2.2.getD 1 0)).map fun x => (x.1, x.2.2.getD 0 0, x.2.2.getD 1 0)
  let desc := e.opx / 2 % 2 = 1
  let before (a b : Nat × Nat × Nat) : Bool := if fEq a.2.1 b.2.1 then decide (a.1 < b.1) else if desc then fLt b.2.1 a.2.1 else fLt a.2.1 b.2.1
  let skips := (l.filter fun x => e.skip && x.2.1.any d.staleRef).map (·.1)
  let rank (x : Nat × Nat × Nat) : Nat := (ok.filter fun y => before y x).length
  let (sw, s) := (fpSum (ok.map (·.2.2))).run {}
  let r := r.note no { s with nan := s.nan || fisNan sw }
  let nanW := s.nan || fisNan sw
  let r := (List.range e.n).foldl (fun r i =>
    match ok.find? fun x => x.1 = i with
    | some x =>
      let r := r.write (e.out + i * e.stride) (fInt (rank x : Nat))
      let b := fdiv x.2.2 sw
      if nanW then r else r.write (e.out + i * e.stride + 1) b.v
    | none => if skips.contains i then r else (r.write (e.out + i * e.stride) (fneg fOne)).write (e.out + i * e.stride + 1) 0) r
  (r.tails no e (match ok with
    | [] => pure [0, 0, 0, 0]
    | x :: t => do
      let sum ← fpSum (ok.map (·.2.1))
      let n := fInt (ok.length : Nat)
      let mn := t.foldl (fun m y => if fLt y.2.1 m then y.2.1 else m) x.2.1
      let mx := t.foldl (fun m y => if fLt m y.2.1 then y.2.1 else m) x.2.1
      return [n, ← Fp.div sum n, mn, mx])).1

/-- SHARE (R272): the P input names a rank and the base share behind it. A NaN in Σf withholds every s (R262); a NaN in an
instance's own s or q withholds that instance (R249). [Log: DEDUCED 16] -/
def PRun.share (r : PRun) (d : Dev) (no : Nat) (e : Entry) : PRun :=
  let (l, r) := (List.range e.n).foldl (fun (a : List (Nat × List Nat × List Nat × Nat × Nat) × PRun) i =>
    let (refs, r) := a.2.refs d e i
    let p := refs.getD 0 0
    let c := refs.getD 1 0
    let par := if e.ps then e.par + i * 2 else e.par
    let (xs, r) := r.reads d [p, p + 1, c]
    let (ps, r) := r.reads d [par, par + 1]
    let r := if xs.any fisNan then { r with fpev := r.fpev + 1 } else r
    (a.1 ++ [(i, [p, c], xs, ps.getD 0 0, ps.getD 1 0)], r)) ([], r)
  let ok := l.filter fun x => !x.2.1.any d.staleRef && !x.2.2.1.any fisNan && fLe 0 (x.2.2.1.getD 0 0)
  let held (x : Nat × List Nat × List Nat × Nat × Nat) : Bool := e.skip && x.2.1.any d.staleRef
  let out := l.filter fun x => !(ok.any fun y => y.1 = x.1) && !held x
  let m := fInt (ok.length : Nat)
  let sums : FpM (Nat × List Nat × Nat) := do
    let c ← Fp.div (← Fp.sub m fOne) 0x40000000
    let cm ← Fp.div (← fpSum (ok.map fun x => x.2.2.1.getD 2 0)) m
    let fs ← ok.mapM fun x => do
      Fp.mul (x.2.2.1.getD 1 0) (← Fp.add fOne (← Fp.div (← Fp.mul x.2.2.2.1 (← Fp.sub c (x.2.2.1.getD 0 0))) m))
    let sf ← fpSum fs
    return (cm, fs, sf)
  let ((cm, fs, sf), s) := if ok = [] then ((0, [], 0), {}) else sums.run {}
  let r := r.note no s
  let r := (ok.zip fs).foldl (fun (r : PRun) x =>
    let own : FpM (Nat × Nat) := do
      let sh ← if s.nan then pure 0 else Fp.div x.2 sf
      let q ← Fp.clamp (← Fp.sub (← Fp.add (← Fp.mul m (x.1.2.2.1.getD 1 0)) (x.1.2.2.1.getD 2 0)) cm) 0 x.1.2.2.2.2
      return (sh, q)
    let ((sh, q), t) := own.run {}
    let r := r.note no t
    let o := e.out + x.1.1 * e.stride
    if t.nan then r else (if s.nan then r else r.write o sh).write (o + 1) q) r
  out.foldl (fun r x => (r.write (e.out + x.1 * e.stride) 0).write (e.out + x.1 * e.stride + 1) 0) r

/-- One entry, if its class runs. -/
def PRun.entryRun (r : PRun) (d : Dev) (no : Nat) : PRun :=
  let e := d.entry no
  let r := (List.range 4).foldl (fun r k => r.meet d (4 * no + k)) { r with cur := no }
  if e.op = 0 ∨ !d.runsIn e.rc (d.rd F.LPE_FCNT) then r
  else if e.op = 4 ∨ e.op = 5 then r.stats d no e
  else if e.op = 0x12 then r.sort d no e
  else if e.op = 0x18 then r.share d no e
  else (List.range e.n).foldl (fun r i => r.inst d no e i) r

/-- The reset values of an instance's state words (Table 9-1): a number, or the value of an input. -/
def resetVals : Nat → List (Nat ⊕ Nat)
  | 0x06 => [.inl 0, .inl 0, .inl fOne, .inl fOne]
  | 0x07 => [.inl 0, .inl 0, .inr 1, .inl 0, .inl fOne, .inl fOne]
  | 0x08 => [.inl 0, .inl 0, .inl 0, .inl fOne, .inl fOne]
  | 0x09 => [.inl 0, .inl 0, .inl 0]
  | 0x0A => [.inl 0, .inl 0]
  | 0x0C => [.inr 0]
  | 0x0D => [.inr 1, .inl 0]
  | 0x0E => [.inr 0]
  | 0x11 => [.inl 0, .inl 0]
  | 0x15 => [.inl 0, .inl 0]
  | 0x16 => [.inl 0, .inl 0, .inl 0]
  | 0x17 => [.inl 0]
  | 0x19 => [.inl fOne]
  | 0x1B => [.inl 0, .inl 0, .inl 0, .inl fOne]
  | _ => []

/-- Reset the instances of an entry (R258). -/
def PRun.resetEntry (r : PRun) (d : Dev) (no : Nat) : PRun :=
  let e := d.entry no
  if !d.lpe.resetAll && (e.op = 0x11 || e.op = 0x19) then r else
  (List.range e.n).foldl (fun r i =>
    ((resetVals e.op).foldl (fun (a : PRun × Nat) x =>
      let (v, r) := match x with
        | .inl v => (v, a.1)
        | .inr j => let (refs, r) := a.1.refs d e i; r.read d (refs.getD j 0)
      (r.write a.2 v, a.2 + 1)) (r, e.st + i * e.counts.2.1)).1) r

/-- RAMP instances in phase 0 start (R266). -/
def PRun.startRamps (r : PRun) (d : Dev) (no : Nat) : PRun :=
  let e := d.entry no
  if e.op ≠ 0x0D then r else
  (List.range e.n).foldl (fun r i =>
    let (ph, r) := r.read d (e.st + i * 2 + 1)
    if fEq ph 0 then r.write (e.st + i * 2 + 1) fOne else r) r

/-- The entries of a partition. -/
def Dev.partEntries (d : Dev) (p : Nat) : List Nat :=
  (List.range (d.rd (F.LPE_PART_LEN p))).map (d.rd (F.LPE_PART_START p) + ·)

/-- The resets of a frame that begins with EDG_STAT.QUIESCED = 1 while no partition runs (R258, R386): the program's instances are reset in
it all the same. Only a program that has passed LP_VERIFY has instances. [Log: DEDUCED 93] -/
def Dev.quietReset (d : Dev) : Dev :=
  if !d.lpe.resetQ || !d.rdB F.LPE_STAT_VERIFIED then d else
  (List.range d.lpe.npart).foldl (fun d p =>
    ((d.partEntries p).foldl (fun (r : PRun) e => r.resetEntry d e) {}).wr.reverse.foldl (fun d x => d.putS (x.1 % 2 ^ 21) x.2) d) d

/-- A whole partition in this frame. -/
def Dev.runPart (d : Dev) (p : Nat) : PRun :=
  let es := d.partEntries p
  let r : PRun := {}
  let r := if d.lpe.resetAll ∨ d.lpe.resetQ then es.foldl (fun r e => r.resetEntry d e) r else r
  let r := if d.lpe.rampGo then es.foldl (fun r e => r.startRamps d e) r else r
  es.foldl (fun r e => r.entryRun d e) r

/-! ## Checking (R244, R245) -/

/-- The role of a cluster (Table 8-1). -/
def Dev.clRole (d : Dev) (c : Nat) : Nat := d.rd F.LPE_ROLE / 16 ^ c % 16
/-- Give a cluster a role. -/
def Dev.setRole (d : Dev) (c r : Nat) : Dev := d.wr F.LPE_ROLE (setBits (d.rd F.LPE_ROLE) (4 * c) 4 r)
/-- The cluster that holds a role. -/
def Dev.clWith (d : Dev) (r : Nat) : Option Nat := (List.range 6).find? fun c => d.clRole c = r

/-- The partition the checker recomputes in this frame (R244); in a vote frame the one under vote. -/
def Dev.checked (d : Dev) : Option Nat :=
  match d.lpe.vote with
  | some p => some p
  | none => if d.rdB F.LPE_CTRL_CHK_EN ∧ d.lpe.npart ≠ 0 ∧ (d.clWith 8).isSome then some (d.rd F.LPE_FCNT % d.lpe.npart) else none

/-- The partition a cluster computes in this frame. -/
def Dev.partOf (d : Dev) (c : Nat) : Option Nat :=
  let r := d.clRole c
  if r < 4 then (if r < d.lpe.npart then some r else none) else if r = 8 then d.checked else if r = 0xA then d.lpe.vote else none

/-- The result of a cluster, if it has completed. -/
def Dev.clRes (d : Dev) (c : Nat) : Option LpeRes := tget none d.lpe.res c

/-- A mismatch found by a check (R245). -/
def Wk.mismatch (w : Wk) (p : Nat) : Wk :=
  let w := w.up fun d => (d.upLpe fun l => { l with mism := some p }).inc F.LPE_CNT_MISMATCH
  let w := w.up fun d => if (d.clWith 9).isSome ∧ d.rdB F.LPE_CTRL_SPARE_EN then d.upLpe fun l => { l with waking := true } else d
  w.raise 60 0 p

/-- A cluster completes its partition (R236, R244, R249): `flt` is a write that the cluster's own fault has changed. [Log: DESIGN CHOICE 92] -/
def Wk.partComplete (w : Wk) (c : Nat) (flt : Option (Nat × Word)) : Wk :=
  if !w.d.lpe.active ∨ 6 ≤ c ∨ (w.d.clRes c).isSome then w else
  match w.d.partOf c with
  | none => w
  | some p =>
    let r := w.d.runPart p
    let ws := r.wr.reverse
    let ws := match flt with
      | some (k, v) => match ws[k]? with
        | some x => ws.set k (x.1, v.toNat)
        | none => ws
      | none => ws
    let w := w.up (·.upLpe fun l => { l with res := tput none l.res c (some ⟨ws, r.evs⟩) })
    let w := w.on (decide (w.d.clRole c < 4)) (·.up fun d => d.addSat F.LPE_CNT2_FPEV r.fpev)
    let w := match r.fp with
      | some (k, e) => w.on (!w.d.lpe.fpSent && decide (w.d.clRole c < 4)) fun w => (w.up (·.upLpe fun l => { l with fpSent := true })).raise 92 k e
      | none => w
    let w := match r.bad with
      | some row => w.on (!w.d.lpe.eccHit) fun w => (w.up (·.upLpe fun l => { l with eccHit := true })).raise 6 0 row
      | none => w
    if w.d.lpe.vote.isSome ∨ w.d.lpe.mism.isSome ∨ w.d.checked ≠ some p then w else
    match w.d.clWith p, w.d.clWith 8 with
    | some a, some b => match w.d.clRes a, w.d.clRes b with
      | some x, some y => w.on (decide (x.writes ≠ y.writes)) (·.mismatch p)
      | _, _ => w
    | _, _ => w

/-! ## The commit (R238 to R241) -/

/-- The front-end channels that bead service manages (R304). -/
def Dev.managed (d : Dev) (c : Nat) : Bool :=
  d.rd (F.CH_ROUTE_KIND c) = 2 &&
  (let b := d.rd (F.CH_ROUTE_BEAD c)
   let g := d.rd (F.BDT_STATE_STRING b)
   decide (b < 96) && decide (g < 6) && d.rdB (F.BSV_CTRL_EN g))

/-- The CAR field an EDG index names. -/
def edgField (ix : Nat) : Option Fld :=
  if ix < 512 then some (if ix % 2 = 0 then F.CH_CMP (ix / 2) else F.CH_PHS (ix / 2))
  else if ix < 1024 then
    let t := (ix - 512) / 8
    match (ix - 512) % 8 with
    | 0 => some (F.TB_PER t) | 1 => some (F.TB_CMPX t 0) | 2 => some (F.TB_CMPX t 1) | 3 => some (F.TB_CMPX t 2) | 4 => some (F.TB_CMPX t 3)
    | _ => none
  else none

/-- Write a shadow. -/
def Dev.setShadow (d : Dev) (f : Fld) (v : Nat) : Dev :=
  let v := v % 2 ^ f.width
  { d with shad := tput none d.shad f.key (if v = d.rd f then none else some v) }

/-- The loupe's record of a committed EDG write: channel or timebase, field, value (R506). [Log: DESIGN CHOICE 73] -/
def edgRecord (ix v : Nat) : BitVec 64 :=
  let tb := decide (512 ≤ ix)
  let (u, f) := if tb then ((ix - 512) / 8, (ix - 512) % 8) else (ix / 2, ix % 2)
  BitVec.ofNat 64 (u * 2 ^ 48 + (Config.loupeField tb f).toNat * 2 ^ 40 + v % 2 ^ 32)

/-- One committed write (R238). [Log: DEDUCED 41] -/
def Dev.commitWrite (d : Dev) (ref v : Nat) : Dev :=
  let sp := ref / 2 ^ 21
  let ix := ref % 2 ^ 21
  if sp = 0 then d.putS ix v
  else if sp = 5 then
    if ix < 512 ∧ ix % 2 = 1 ∧ d.managed (ix / 2) then d else
    match edgField ix with
    | some f => (d.setShadow f v).loupeTake 2 [edgRecord ix v]
    | none => d
  else if sp = 6 then
    d.upLpe fun l => { l with bdl := tput none l.bdl ix (some v), trims := if ix % 16 = 5 ∨ ix % 16 = 6 then tput false l.trims ix true else l.trims }
  else d

/-- The valid result of each partition at CMP_END, and what the vote decides: partition and result, none where the partition
has no valid result (R244 to R247). -/
def Dev.validRes (d : Dev) (p : Nat) : Option LpeRes :=
  let work := (d.clWith p).bind d.clRes
  if d.lpe.vote = some p then
    let chk := (d.clWith 8).bind d.clRes
    let spare := (d.clWith 0xA).bind d.clRes
    let same (a b : Option LpeRes) : Bool := match a, b with
      | some x, some y => decide (x.writes = y.writes)
      | _, _ => false
    if (d.clWith 0xA).isSome then
      if same work chk ∨ same work spare then work else if same chk spare then chk else none
    else if same work chk then work else none
  else if d.lpe.mism = some p then none
  else work

/-- The outcome of a vote (Table 8-8, R247): roles, retirement, sources. -/
def Wk.voteOutcome (w : Wk) (p : Nat) : Wk :=
  let cw := w.d.clWith p
  let cc := w.d.clWith 8
  let work := cw.bind w.d.clRes
  let chk := cc.bind w.d.clRes
  let same (a b : Option LpeRes) : Bool := match a, b with
    | some x, some y => decide (x.writes = y.writes)
    | _, _ => false
  let retire (w : Wk) (c : Nat) (s : Option (Nat × Nat)) : Wk :=
    let w := w.up fun d => d.setRole c 0xE
    let w := match s with
      | some (sp, r) => w.up fun d => d.setRole sp r
      | none => w
    (w.raise 27 0 c).olgSync
  match w.d.clWith 0xA with
  | some sp =>
    let spare := w.d.clRes sp
    let back (w : Wk) : Wk := w.up fun d => d.setRole sp 9
    if same work chk ∧ same work spare then (back w).up (·.inc F.LPE_CNT2_TRANSIENT)
    else if same chk spare then (match cw with | some c => retire w c (some (sp, p)) | none => w)
    else if same work spare then (match cc with | some c => retire w c (some (sp, 8)) | none => w)
    else if same work chk then retire w sp none
    else (back w).raise 7 0 p
  | none => if same work chk then w.up (·.inc F.LPE_CNT2_TRANSIENT) else w.raise 7 0 p

/-- Groups of EDG_ARM armed: every timebase of the group and every channel bound to one of them (R143). -/
def Dev.armGroups (d : Dev) (mask : Nat) : Dev :=
  if mask = 0 then d else
  let d := d.wr F.EDG_ARM (d.rd F.EDG_ARM ||| mask)
  let tbs := (List.range 64).filter fun t => bitOf mask (d.rd (F.TB_CTRL_GRP t))
  let d := tbs.foldl (fun d t => (d.setTb t { d.tb t with armed := true, byGrp := true }).wr (F.TB_STAT_ARMED t) 1) d
  (List.range 256).foldl (fun d c => if tbs.contains (d.rd (F.CH_CTRL_TB c)) then
    (d.setCh c { d.ch c with armed := true, byGrp := true }).wr (F.CH_STAT_ARMED c) 1 else d) d

/-- The alternate input of a watched accumulator (R215) is chosen by the acquisition block; here the event is only noted. -/
def commitEvents (rs : List LpeRes) : List (Nat × Nat) := rs.flatMap (·.evs)

/-- After program words have changed, a BDL field that no entry writes any more is the bead table's again (R260). -/
def Dev.dropBdl (d : Dev) : Dev :=
  if !d.lpe.dirty then d else
  let refs := (List.range d.lpe.nent).foldl (fun t no => ((d.entry no).writeRefs.filter fun r => r / 2 ^ 21 = 6).foldl (fun t r => tput false t (r % 2 ^ 21) true) t) []
  d.upLpe fun l => { l with dirty := false, bdl := l.bdl.filter fun e => tget false refs e.1, trims := l.trims.filter fun e => tget false refs e.1 }

/-- CMP_END of a computing frame (R238 to R248): the events to raise are returned beside the work. [Log: DEDUCED 41; DESIGN CHOICE 92] -/
def Wk.lpeCommit (w : Wk) : Wk × List (Nat × Nat) :=
  let w := w.up (·.dropBdl)
  if !w.d.lpe.active then (w.up (·.upLpe fun l => { l with trims := [] }), []) else
  let parts := List.range w.d.lpe.npart
  -- a check not completed by CMP_END is a mismatch (R244)
  let w := match w.d.lpe.vote, w.d.lpe.mism, w.d.checked with
    | none, none, some p =>
      let done (c : Option Nat) : Bool := (c.bind w.d.clRes).isSome
      w.on (!(done (w.d.clWith p) && done (w.d.clWith 8))) (·.mismatch p)
    | _, _, _ => w
  let valid := parts.filterMap fun p => (w.d.validRes p).map fun r => (p, r)
  let invalid := parts.length - valid.length
  let ovr := decide (2 ≤ invalid) || w.d.lpe.eccHit || decide (w.d.cmpEnd - w.d.uplEnd < w.d.rd F.LPE_VFYCNT_WCET_CNT)
  let w := match w.d.lpe.vote with
    | some p => w.voteOutcome p
    | none => w
  let next (w : Wk) : Wk := w.up (·.upLpe fun l => { l with vote := none, active := false, res := [] })
  if ovr then
    let w := w.up fun d => ((d.inc F.LPE_CNT_OVR).wr F.LPE_STAT_OVR 1).inc F.LPE_STAT_OVR_CONSEC
    let w := w.on (decide (0 < invalid)) (·.up (·.wr F.LPE_STAT_HELD 1))
    let w := w.up (·.upLpe fun l => { l with trims := [] })
    let w := w.raise 59 0 0
    let w := w.on (w.d.rd F.LPE_STAT_OVR_CONSEC = w.d.rd F.LPE_CTRL_OVR_TRIP) (·.raise 8 0 0)
    (next w, [])
  else
    let w := w.on (decide (0 < invalid)) (·.up (·.wr F.LPE_STAT_HELD 1))
    let w := w.up (·.upLpe fun l => { l with trims := [] })
    if valid = [] then (next w, []) else
    let w := w.up fun d => valid.foldl (fun d x => x.2.writes.foldl (fun d y => d.commitWrite y.1 y.2) d) d
    let w := w.up fun d => ((d.wr F.LPE_COMMITS (d.rd F.LPE_COMMITS + 1)).wr F.LPE_STAT_OVR_CONSEC 0).armGroups (d.rd F.LPE_ARMG)
    let w := w.up (·.upLpe fun l => { l with remapRdy := l.remapRdy ++ l.remap, remap := [] })
    (next w, commitEvents (valid.map (·.2)))

/-- What a boundary does to the loop engine: the frame count, the vote that a mismatch starts, the coefficient swap, RUN's
first frame, the resets and the ramps of the frame that begins, and due row remaps (R232, R242, R246, R253, R258, R266).
[Log: DEDUCED 41; DESIGN CHOICE 92] -/
def Dev.lpeBoundary (d : Dev) (fcnt : Nat) : Dev :=
  let d := d.wr F.LPE_FCNT fcnt
  let sw := d.rdB F.LPE_COEF_SWAP_PEND
  let d := (d.wrB F.LPE_STAT_SWAPPED (sw || d.lpe.swapped)).upLpe fun l => { l with swapped := false }
  let d := if sw then (d.wr F.LPE_COEF_BANK (1 - d.rd F.LPE_COEF_BANK)).wr F.LPE_COEF_SWAP_PEND 0 else d
  let run := d.rdB F.LPE_CTRL_RUN
  let d := d.upLpe fun l => { l with vote := l.mism, mism := none, active := false, eccHit := false, fpSent := false, res := [] }
  let d := d.upLpe fun l => { l with resetAll := l.fresh && run, rampGo := l.rampDue, rampDue := false }
  let d := d.upLpe fun l => { l with fresh := l.fresh && !run }
  let d := d.upLpe fun l => { l with resetQ := d.safe }
  let d := match d.lpe.vote with
    | some p => (d.wr F.LPE_STAT_VOTING 1).wr F.LPE_STAT_VOTE_P p
    | none => d.wr F.LPE_STAT_VOTING 0
  if d.lpe.waking then
    let d := d.upLpe fun l => { l with waking := false }
    match d.clWith 9 with
    | some c => d.setRole c 0xA
    | none => d
  else d

/-! ## LP_VERIFY (R233 to R235) -/

/-- Whether OPX is one the opcode allows (R261). -/
def Entry.opxOk (e : Entry) : Bool :=
  match e.op with
  | 0x02 => decide (2 ≤ e.opx) && decide (e.opx ≤ 8)
  | 0x13 => decide (2 ≤ e.opx)
  | 0x04 | 0x05 | 0x06 | 0x07 | 0x08 | 0x15 => decide (e.opx ≤ 1)
  | 0x12 => decide (e.opx ≤ 3)
  | _ => e.opx = 0

/-- Whether a reference lies within its space (Table 8-2). -/
def refIn (ref : Nat) : Bool :=
  let ix := ref % 2 ^ 21
  match ref / 2 ^ 21 with
  | 0 => decide (ix < 131072) | 1 => decide (ix < 65536) | 2 => decide (ix < 512) | 3 => decide (ix < 3072) | 4 => true
  | 5 => decide (ix < 512) || (decide (ix < 1024) && decide ((ix - 512) % 8 ≤ 4))
  | 6 => decide (ix < 1536) && decide (ix % 16 ≤ 7)
  | _ => false

/-- Every reference an entry reads as an input. -/
def Dev.inRefs (d : Dev) (e : Entry) : List Nat :=
  (List.range e.n).flatMap fun i => (List.range e.g).flatMap fun j =>
    let r := d.inRef e i j
    if e.op = 0x18 ∧ j = 0 then [r, r + 1] else [r]

/-- Whether an EDG target may be committed (R233). -/
def Dev.edgAllowed (d : Dev) (ix : Nat) : Bool :=
  if ix < 512 then d.rd (F.CH_ROUTE_KIND (ix / 2)) ≠ 0
  else
    let t := (ix - 512) / 8
    d.rd (F.TB_CMPX_RT_RT0 t) ≠ 0 || d.rd (F.TB_CMPX_RT_RT1 t) ≠ 0 || d.rd (F.TB_CMPX_RT_RT2 t) ≠ 0 || d.rd (F.TB_CMPX_RT_RT3 t) ≠ 0
    || (List.range 256).any fun c => d.rd (F.CH_CTRL_TB c) = t && d.rd (F.CH_ROUTE_KIND c) ≠ 0

/-- The first of codes 0x02 to 0x05 of Table 8-6 that an entry fails; 0 for none. [Log: DEDUCED 42] -/
def Dev.entryCode (d : Dev) (e : Entry) : Nat :=
  let (kp, ks, _) := e.counts
  if 0x1B < e.op ∨ !e.opxOk then 2
  else if e.n = 0 ∨ (if e.op = 0x12 then 96 else 128) < e.n then 3
  else if e.op = 0 then 0
  else
    let ins := d.inRefs e
    let outs := e.writeRefs.take (e.writeRefs.length - e.n * ks)
    let spIn := ins.all fun r => decide (r / 2 ^ 21 ≤ 4)
    let spOut := outs.all fun r => [0, 5, 6].contains (r / 2 ^ 21)
    let spPar := kp = 0 || decide (e.par / 2 ^ 21 ≤ 1)
    let evt := !(e.op = 0x15 && e.opx = 1) || (List.range e.n).all fun i => d.inRef e i 0 / 2 ^ 21 = 2
    if !(spIn && spOut && spPar && evt) then 4
    else
      let list := !e.il || (decide (4 * d.lpe.nent ≤ e.inp % 2 ^ 21) && decide (e.inp % 2 ^ 21 + e.n * e.g ≤ 65536))
      let pend := e.par + (if e.ps then e.n * kp else kp)
      let parOk := kp = 0 || (refIn e.par && refIn (pend - 1) && e.par / 2 ^ 21 = (pend - 1) / 2 ^ 21)
      if !(ins.all refIn && outs.all refIn && list && parOk && decide (e.st + e.n * ks ≤ 131072)) then 5 else 0

/-- Codes 0x08 and 0x0B of an entry; 0 for none. [Log: DEDUCED 42] -/
def Dev.lateCode (d : Dev) (e : Entry) : Nat :=
  let p := d.period e.rc
  if p = 0 ∨ 65536 < p ∨ p ≤ d.rd (F.LPE_RC_PHASE e.rc) then 8
  else if e.op ≠ 0 ∧ e.writeRefs.any fun r => r / 2 ^ 21 = 5 && !d.edgAllowed (r % 2 ^ 21) then 0xB
  else 0

/-- Cycles of an entry (R229). -/
def Entry.cycles (e : Entry) : Nat :=
  let (_, c, x) := opCost e.op
  if e.op = 0x12 then 6 + x + 2 * e.n else 6 + x + (e.n + 7) / 8 * (c + (if e.il then e.g else 0))

/-- Worst case of a partition in frame `f`; every class in every frame when `f` is none (R234, R235). -/
def Dev.partCycles (d : Dev) (p : Nat) (f : Option Nat) : Nat :=
  (d.partEntries p).foldl (fun a no =>
    let e := d.entry no
    if (match f with | some f => d.runsIn e.rc f | none => true) then a + e.cycles else a) 30

/-- The least common multiple of the periods of the classes in use. [Log: DESIGN CHOICE 92] -/
def Dev.hyper (d : Dev) : Nat :=
  (List.range d.lpe.nent).foldl (fun a no => Nat.lcm a (max 1 (d.period (d.entry no).rc))) 1

/-- LPE_PWCp. -/
def Dev.worst (d : Dev) (p : Nat) : Nat :=
  let h := d.hyper
  if h ≤ 65536 then (List.range h).foldl (fun a f => max a (d.partCycles p (some f))) 0 else d.partCycles p none

/-- Whether the partition table tiles the entries (code 0x0A). [Log: DEDUCED 81] -/
def Dev.partsOk (d : Dev) : Bool :=
  let l := (List.range d.lpe.npart).map fun p => (d.rd (F.LPE_PART_START p), d.rd (F.LPE_PART_LEN p))
  let used := l.filter fun x => x.2 ≠ 0
  let sum := used.foldl (fun a x => a + x.2) 0
  decide (1 ≤ d.lpe.npart) && decide (d.lpe.npart ≤ 4) && sum = d.lpe.nent && used.all (fun x => decide (x.1 + x.2 ≤ d.lpe.nent))
    && (List.range 4).all fun i => (List.range i).all fun j =>
      let a := l.getD i (0, 0)
      let b := l.getD j (0, 0)
      a.2 = 0 || b.2 = 0 || decide (a.1 + a.2 ≤ b.1) || decide (b.1 + b.2 ≤ a.1)

/-- The partition of an entry. -/
def Dev.partOfEntry (d : Dev) (no : Nat) : Nat := ((List.range 4).find? fun p => (d.partEntries p).contains no).getD 0

/-- The first entry that is not in exactly one partition, where there is one (code 0x0A). [Log: DEDUCED 42, 81] -/
def Dev.partGap (d : Dev) : Nat :=
  ((List.range d.lpe.nent).find? fun no =>
    ((List.range (min 4 d.lpe.npart)).filter fun p => decide (d.rd (F.LPE_PART_START p) ≤ no) && decide (no < d.rd (F.LPE_PART_START p) + d.rd (F.LPE_PART_LEN p))).length ≠ 1).getD 0

/-- The code of a write that another entry's writes forbid: 0x06, 0x07 (R222, R368); `t` holds what the entries before wrote, by partition. -/
def Dev.writeCode (d : Dev) (t : Tab (Option Nat)) (p : Nat) (e : Entry) : Nat :=
  let rb := d.rd F.STK_RBASE
  let inRep (r : Nat) : Bool := d.rdB F.STK_CTRL_EN && decide (rb ≤ r) && decide (r < rb + 128)
  (e.writeRefs.findSome? fun r =>
    if r / 2 ^ 21 = 0 then
      if inRep r then some 6 else match tget none t r with
        | some q => if q = p then none else some 6
        | none => none
    else if (tget none t r).isSome then some 7 else none).getD 0

/-- The first failing entry with its code, the lowest that it fails (R233). [Log: DEDUCED 42] -/
def Dev.scanEntries (d : Dev) : Option (Nat × Nat) :=
  ((List.range d.lpe.nent).foldl (fun (a : Tab (Option Nat) × Option (Nat × Nat)) no =>
    match a.2 with
    | some _ => a
    | none =>
      let e := d.entry no
      let p := d.partOfEntry no
      match [d.entryCode e, d.writeCode a.1 p e, d.lateCode e].find? (· ≠ 0) with
      | some c => (a.1, some (c, no))
      | none => (e.writeRefs.foldl (fun t r => tput none t r (some p)) a.1, none)) ([], none)).2

/-- LP_VERIFY (R233): the code and the first failing entry. [Log: DEDUCED 42; DESIGN CHOICE 92] -/
def Dev.verifyCode (d : Dev) : Nat × Nat :=
  if !d.partsOk then (0xA, d.partGap) else
  match d.scanEntries with
  | some x => x
  | none =>
    let wc := (List.range 4).foldl (fun a p => max a (if d.rd (F.LPE_PART_LEN p) = 0 then 0 else d.worst p)) 0
    if d.cmpEnd - d.uplEnd < (wc + 1) / 2 then (9, 0) else (0, 0)

/-- Numbers in ascending order. -/
def natSort (l : List Nat) : List Nat :=
  l.foldr (fun a r => r.takeWhile (decide <| · < a) ++ [a] ++ r.dropWhile (decide <| · < a)) []

/-- The state words that the entries due in frame `f`, or those of every class when `f` is none, address as outputs or state, in program
order (R340). -/
def Dev.stateWords (d : Dev) (f : Option Nat) : List Nat :=
  (List.range d.lpe.nent).flatMap fun no =>
    let e := d.entry no
    if (match f with | some f => !d.runsIn e.rc f | none => false) then [] else
    let (_, ks, outs) := e.counts
    let ins := (List.range e.n).flatMap fun i =>
      natSort ((((List.range outs).map (e.out + i * e.stride + ·)).filter (decide <| · < 2 ^ 21)) ++ (List.range ks).map (e.st + i * ks + ·))
    ins ++ ((List.range e.tail).map (e.tailAt + ·)).filter (decide <| · < 2 ^ 21)

/-- The largest number of state values in a frame of R235 (R340). -/
def Dev.syncWords (d : Dev) : Nat :=
  let h := d.hyper
  if h ≤ 65536 then (List.range h).foldl (fun a f => max a (d.stateWords (some f)).length) 0
  else (d.stateWords none).length

/-- Store the result of LP_VERIFY. [Log: DEDUCED 42; DESIGN CHOICE 92] -/
def Dev.lpVerify (d : Dev) : Dev :=
  let (c, e) := d.verifyCode
  let d := (d.wr F.LPE_VFY_CODE c).wr F.LPE_VFY_ENTRY e
  let d := d.wrB F.LPE_STAT_VERIFIED (c = 0)
  let wc (p : Nat) : Nat := if (c = 0 ∨ c = 9) ∧ d.rd (F.LPE_PART_LEN p) ≠ 0 then d.worst p else 0
  let d := (List.range 4).foldl (fun x p => x.wr (F.LPE_PWC p) (wc p)) d
  let m := (List.range 4).foldl (fun a p => max a (wc p)) 0
  let d := (d.wr F.LPE_VFYCYC_WCET_CYC m).wr F.LPE_VFYCNT_WCET_CNT ((m + 1) / 2)
  if d.rdB F.TWN_CTRL_EN ∧ c = 0 then d.wr F.TWN_SYNCW d.syncWords else d

/-! ## The program image (R254) -/

/-- Whether an image is valid: magic, version, header CRC, sizes, body CRC (Table 8-10). -/
def imageOk (b : List Byte) : Bool :=
  let e := le b 8 4
  let l := le b 12 4
  let c := le b 100 4
  let s := le b 104 4
  let len := 128 + 16 * e + 4 * l + 4 * c + 4 * s
  decide (128 ≤ b.length) && le b 0 4 = 0x4752504C && le b 4 2 = 1 && decide (1 ≤ le b 6 1) && decide (le b 6 1 ≤ 4)
    && crc32c (slice b 0 124) = le b 124 4 && decide (4 * e + l ≤ 65536) && decide (c ≤ 65536) && decide (s ≤ 131072)
    && b.length = len + 4 && crc32c (slice b 0 len) = le b len 4

/-- Store consecutive words. -/
def Dev.storeWords (d : Dev) (put : Dev → Nat → Nat → Dev) : Nat → Nat → List Byte → Dev
  | 0, _, _ => d
  | n + 1, w, b => Dev.storeWords (put d w (le b 0 4)) put n (w + 1) (b.drop 4)

/-- Take a valid image (R254): VERIFIED and the worst cases clear. [Log: DEDUCED 72] -/
def Dev.loadImage (d : Dev) (b : List Byte) : Dev :=
  let e := le b 8 4
  let l := le b 12 4
  let c := le b 100 4
  let s := le b 104 4
  let body := b.drop 128
  let d := d.storeWords Dev.putP (4 * e + l) 0 body
  let coef := body.drop (16 * e + 4 * l)
  let d := d.storeWords Dev.putS c 131072 coef
  let d := d.storeWords Dev.putS c 196608 coef
  let d := d.storeWords Dev.putS s 0 (coef.drop (4 * c))
  let d := (List.range 4).foldl (fun d p =>
    ((d.wr (F.LPE_PART_START p) (le b (16 + 2 * p) 2)).wr (F.LPE_PART_LEN p) (le b (24 + 2 * p) 2)).wr (F.LPE_PWC p) 0) d
  let d := (List.range 16).foldl (fun d k =>
    let v := le b (32 + 4 * k) 4
    ((d.wr (F.LPE_RC_PHASE k) (bits v 16 16)).wr (F.LPE_RC_BASE k) (bits v 12 4)).wr (F.LPE_RC_DIV k) (bits v 0 9)) d
  let d := (((d.wr F.LPE_ARMG (le b 96 2)).wr F.LPE_STAT_VERIFIED 0).wr F.LPE_VFYCYC_WCET_CYC 0).wr F.LPE_VFYCNT_WCET_CNT 0
  d.upLpe fun x => { x with nent := e, npart := le b 6 1, fresh := true, bdl := [], trims := [], dirty := false, imgCrc := le b (b.length - 4) 4 }

/-! ## Memory errors (R251 to R253) -/

/-- The memory word a host address names: a key of the error table (state words from 65,536 on). [Log: DEDUCED 40] -/
def memKey (addr : Nat) : Option Nat :=
  if 0x04000000 ≤ addr ∧ addr < 0x04040000 then some ((addr - 0x04000000) / 4)
  else if 0x04100000 ≤ addr ∧ addr < 0x04200000 then some (65536 + (addr - 0x04100000) / 4)
  else none

/-- The corrected-error counts clear every WIN seconds (R253): a row whose window has passed begins the one that runs now. -/
def Dev.rowWindow (d : Dev) (row : Nat) : Dev :=
  let win := rtSec (d.rd F.LPE_ECC_WIN)
  let t := tget 0 d.lpe.rowsAt row
  if win = 0 ∨ d.time.rt - t < win then d else
  d.upLpe fun l => { l with rows := tput 0 l.rows row 0, rowsAt := tput 0 l.rowsAt row (t + (d.time.rt - t) / win * win) }

/-- An error in a memory other than the loop engine's (Table 14-3): MEM_CORR (FS101) for one wrong bit, MEM_UNCORR (FS16) for
more, with the memory as KIND and the word address over 1,024 as INST. A row names word `i` of memory `m` by 2^28 (1 + m) + 4 i.
[Log: DESIGN CHOICE 75] -/
def Wk.otherMem (w : Wk) (addr errs : Nat) : Wk :=
  let m := addr / 2 ^ 28 - 1
  w.on (decide (2 ^ 28 ≤ addr) && decide (m < 5) && decide (0 < errs)) (·.raise (if errs = 1 then 101 else 16) m (addr % 2 ^ 28 / 4096))

/-- The scrubber reads a word (R251, R252): one wrong bit is corrected and counted, more are not correctable. [Log: DEDUCED 40] -/
def Wk.scrub (w : Wk) (addr errs : Nat) : Wk :=
  match memKey addr with
  | none => w.otherMem addr errs
  | some k =>
    if errs = 0 then w
    else if 2 ≤ errs ∨ tget false w.d.lpe.bad k then
      (w.up (·.upLpe fun l => { l with bad := tput false l.bad k true })).raise 6 0 (eccRow k)
    else
      let row := eccRow k
      let w := (w.up (·.inc F.LPE_ECC_CNT_CORR)).raise 93 0 row
      if row < 1024 then
        let w := w.up (·.rowWindow row)
        let n := tget 0 w.d.lpe.rows row + 1
        let due (l : LpeSt) : Bool := decide (w.d.rd F.LPE_ECC_ROW_TH ≤ n) && !l.remap.contains row && !l.remapRdy.contains row && !l.remapNow.contains row
        w.up (·.upLpe fun l => { l with rows := tput 0 l.rows row n, remap := if due l then l.remap ++ [row] else l.remap })
      else w

/-- A row that has reached ROW_TH is copied once a commit has come after it (R253). [Log: DEDUCED 40] -/
def Wk.rowRemap (w : Wk) (row : Nat) : Wk :=
  if ¬ w.d.lpe.remapRdy.contains row then w else
  let w := w.up (·.upLpe fun l => { l with remapRdy := l.remapRdy.filter (· ≠ row) })
  if w.d.rd F.LPE_ECC_SPARES_LEFT ≤ w.d.lpe.remapNow.length then w.raise 61 0 row
  else w.up (·.upLpe fun l => { l with remapNow := l.remapNow ++ [row] })

/-- The remaps that apply at a boundary (R253, R326). [Log: DEDUCED 40] -/
def Wk.remapBoundary (w : Wk) : Wk :=
  let l := w.d.lpe.remapNow
  if l = [] then w else
  let w := w.each l fun row w =>
    let sp := 1024 + (64 - w.d.rd F.LPE_ECC_SPARES_LEFT)
    let old := (tget none w.d.lpe.phys row).getD row
    let w := w.up fun d => { d with rowMap := tput (if sp < 1024 then 0 else 1) (tput (if old < 1024 then 0 else 1) d.rowMap old 2) sp 0 }
    let w := w.up fun d => ((d.upLpe fun x => { x with phys := tput none x.phys row (some sp), rows := tput 0 x.rows row 0 }).wr F.LPE_ECC_SPARES_LEFT
      (d.rd F.LPE_ECC_SPARES_LEFT - 1)).inc F.LPE_ECC_CNT_REMAPS
    w.raise 28 0 row
  (w.up (·.upLpe fun x => { x with remapNow := [] })).olgSync

/-! ## The rows -/

/-- PARTITION_COMPLETE (R244). -/
def execPartitionComplete (cl : Nat) (flt : Option (Nat × Word)) (s : State) : Host.Outcome State Fault Refusal :=
  s.run (·.partComplete cl flt)

/-- LPE_SPARE_READY (R245): the woken spare takes role VOTE. -/
def execLpeSpareReady (s : State) : Host.Outcome State Fault Refusal :=
  s.run (·.up fun d => if !d.lpe.waking then d else
    let d := d.upLpe fun l => { l with waking := false }
    match d.clWith 9 with
    | some c => d.setRole c 0xA
    | none => d)

/-- MEM_SCRUB (R251, R252): the word at a host address, with the wrong bits found in it. -/
def execMemScrub (addr errs : Nat) (s : State) : Host.Outcome State Fault Refusal := s.run (·.scrub addr errs)

/-- LPE_ROW_REMAP (R253). -/
def execLpeRowRemap (row : Nat) (s : State) : Host.Outcome State Fault Refusal := s.run (·.rowRemap row)

/-- ROW_COUNT_WINDOW_EXPIRE (R253): the row's count clears once WIN seconds have passed. -/
def execRowCountWindowExpire (row : Nat) (s : State) : Host.Outcome State Fault Refusal := s.run (·.up (·.rowWindow row))

end Sys2Proof.Machine
end

