-- ==== Sys2Proof/Machine/Acq.lean ====
section
/-! DEFINITION. Acquisition (07_acquisition.md): passes and triggers, conversion results, accumulators, the checking
converter, the alternates. -/
namespace Sys2Proof.Machine

/-- A sequence. -/
def Dev.seq (d : Dev) (c : Nat) : SeqSt := tget {} d.acq.seqs c
/-- Write a sequence; SLOT shows the next regular slot. -/
def Dev.setSeq (d : Dev) (c : Nat) (x : SeqSt) : Dev :=
  { d with acq := { d.acq with seqs := tput {} d.acq.seqs c x } }.wr (F.ADC_STAT_SLOT c) (if x.pos < x.reg.length then x.pos else 0)
/-- A physical converter. -/
def Dev.conv (d : Dev) (p : Nat) : ConvSt := tget {} d.acq.convs p
/-- Write a converter. -/
def Dev.setConv (d : Dev) (p : Nat) (x : ConvSt) : Dev := { d with acq := { d.acq with convs := tput {} d.acq.convs p x } }
/-- An accumulator. -/
def Dev.acc (d : Dev) (a : Nat) : AccSt := tget {} d.acq.accs a
/-- Write an accumulator. -/
def Dev.setAcc (d : Dev) (a : Nat) (x : AccSt) : Dev := { d with acq := { d.acq with accs := tput {} d.acq.accs a x } }

/-! ## Passes (R194 to R199) -/

/-- The regular slots in force. -/
def Dev.regSlots (d : Dev) (c : Nat) : List SlotCfg :=
  (List.range (min 32 (d.rd (F.ADC_CTRL_SEQLEN c)))).map fun k => ⟨d.rd (F.ADC_SLOT_AIN c k), d.rd (F.ADC_SLOT_ACC c k), d.rdB (F.ADC_SLOT_DISC c k)⟩

/-- The injected slots in force. -/
def Dev.injSlots (d : Dev) (c : Nat) : List SlotCfg :=
  (List.range (min 8 (d.rd (F.ADC_CTRL_INJLEN c)))).map fun k => ⟨d.rd (F.ADC_ISLOT_AIN c k), d.rd (F.ADC_ISLOT_ACC c k), d.rdB (F.ADC_ISLOT_DISC c k)⟩

/-- A regular pass begins at slot 0 with the contents in force (R199). -/
def Dev.startReg (d : Dev) (c : Nat) : Dev :=
  (d.setSeq c { d.seq c with reg := d.regSlots c, pos := 0 }).wr (F.ADC_STAT_REG_RUN c) 1

/-- An injected pass begins. -/
def Dev.startInj (d : Dev) (c : Nat) : Dev :=
  (d.setSeq c { d.seq c with inj := d.injSlots c, ipos := 0 }).wr (F.ADC_STAT_INJ_RUN c) 1

/-- A regular trigger (R196): it counts in MODE 2 only (R194); one that comes while a pass runs, an injected one included
(R198), is queued or discarded. [Log: DEDUCED 33] -/
def Wk.regTrigger (w : Wk) (c : Nat) : Wk :=
  if 4 ≤ c ∨ w.d.rd (F.ADC_CTRL_MODE c) ≠ 2 then w
  else if !w.d.rdB (F.ADC_STAT_REG_RUN c) && !w.d.rdB (F.ADC_STAT_INJ_RUN c) then w.up (·.startReg c)
  else if !w.d.rdB (F.ADC_STAT_REG_Q c) then w.up (·.wr (F.ADC_STAT_REG_Q c) 1)
  else (w.up (·.inc (F.ADC_CNT_REG_OVR c))).raise 55 0 c

/-- An urgent trigger (R197). [Log: DEDUCED 33] -/
def Wk.injTrigger (w : Wk) (c : Nat) : Wk :=
  if 4 ≤ c ∨ w.d.rd (F.ADC_CTRL_INJLEN c) = 0 then w
  else if !w.d.rdB (F.ADC_STAT_INJ_RUN c) then w.up (·.startInj c)
  else if !w.d.rdB (F.ADC_STAT_INJ_Q c) then w.up (·.wr (F.ADC_STAT_INJ_Q c) 1)
  else (w.up (·.inc (F.ADC_CNT_INJ_OVR c))).raise 56 0 c

/-- A queued regular pass begins where MODE is 2; in MODE 1 the next pass follows at once; in MODE 0 nothing does (R194,
R196). -/
def Dev.nextReg (d : Dev) (c : Nat) : Dev :=
  let m := d.rd (F.ADC_CTRL_MODE c)
  let q := d.rdB (F.ADC_STAT_REG_Q c)
  let d := d.wr (F.ADC_STAT_REG_Q c) 0
  if m = 1 ∨ (m = 2 ∧ q) then d.startReg c
  else (d.setSeq c { d.seq c with pos := 0, reg := [] }).wr (F.ADC_STAT_REG_RUN c) 0

/-- The running pass of one kind ends (R196 to R198): a queued injected pass follows directly, then the preempted regular
pass resumes at its next slot, then a queued regular pass begins. [Log: DEDUCED 33] -/
def Dev.passEnd (d : Dev) (c : Nat) (inj : Bool) : Dev :=
  if inj then
    if !d.rdB (F.ADC_STAT_INJ_RUN c) then d
    else if d.rdB (F.ADC_STAT_INJ_Q c) ∧ d.rd (F.ADC_CTRL_INJLEN c) ≠ 0 then (d.wr (F.ADC_STAT_INJ_Q c) 0).startInj c
    else
      let d := ((d.setSeq c { d.seq c with inj := [], ipos := 0 }).wr (F.ADC_STAT_INJ_RUN c) 0).wr (F.ADC_STAT_INJ_Q c) 0
      if d.rdB (F.ADC_STAT_REG_RUN c) then d else d.nextReg c
  else if d.rdB (F.ADC_STAT_REG_RUN c) ∧ !d.rdB (F.ADC_STAT_INJ_RUN c) then d.nextReg c
  else d

/-- What a boundary does to sequence c: with FSYNC the regular pass restarts; MODE 1 starts its first pass; FRAME is a
regular trigger (R194, Table 7-1). A pass that runs on after MODE went to 0 restarts under FSYNC too. [Log: DEDUCED 33] -/
def Wk.seqBoundary (w : Wk) (c : Nat) : Wk :=
  let w := w.on (w.d.rdB (F.ADC_CTRL_FSYNC c) && w.d.rdB (F.ADC_STAT_REG_RUN c)) (·.up fun d =>
    let x := d.seq c
    (d.setSeq c { x with was := x.reg, wasPos := x.pos }).startReg c)
  let w := w.on (w.d.rd (F.ADC_CTRL_MODE c) = 1 && !w.d.rdB (F.ADC_STAT_REG_RUN c)) (·.up (·.startReg c))
  w.on (w.d.rdB (F.ADC_TRG_FRAME c)) (·.regTrigger c)

/-- CMPXm of timebase t fires with its routes: bit 0 regular, bit 1 urgent (Table 7-1). -/
def Wk.cmpxTriggers (w : Wk) (t m : Nat) (reg inj : Bool) : Wk :=
  w.each (List.range 4) fun c w =>
    let w := w.on (inj && w.d.rd (F.ADC_TRGU_UTB c) = t && bitOf (w.d.rd (F.ADC_TRGU_UCM c)) m) (·.injTrigger c)
    w.on (reg && w.d.rd (F.ADC_TRG_RTB c) = t && bitOf (w.d.rd (F.ADC_TRG_RCM c)) m) (·.regTrigger c)

/-- The assertion of TRIPk as an urgent trigger (Table 7-1). -/
def Wk.tripTriggers (w : Wk) (k : Nat) : Wk :=
  w.each (List.range 4) fun c w => w.on (bitOf (w.d.rd (F.ADC_TRGU_TRIPM c)) k) (·.injTrigger c)

/-! ## Results (R190, R200, R201, R207, R208) -/

/-- The primary inputs whose alternate is switched in, each with the input converted in its place (R193). -/
def Dev.altPairs (d : Dev) : List (Nat × Nat) :=
  ((List.range 8).filter fun j => d.rdB (F.ACQ_ALT_EN j) && d.rdB (F.ACQ_ALT_SEL j)).map fun j => (d.rd (F.ACQ_ALT_PRIM j), d.rd (F.ACQ_ALT_SPARE j))

/-- The input a slot converts (R193): by the values in force when the sample was taken, so a `late` result by those before the last
boundary. [Log: DEDUCED 34] -/
def Dev.input (d : Dev) (ain : Nat) (late : Bool) : Nat :=
  match (if late then d.acq.alts else d.altPairs).find? fun x => x.1 = ain with
  | some x => x.2
  | none => ain

/-- A pair of extremes takes in a code. -/
def widen (e : Option (Int × Int)) (v : Int) : Option (Int × Int) :=
  match e with
  | none => some (v, v)
  | some (a, b) => some (min a v, max b v)

/-- A window takes in a result: `ov` over-range, `tn` tainted, `disc` of a DISC slot, `code` saturated (R200, R201, R207, R208). -/
def AccWin.take (x : AccWin) (ov tn disc : Bool) (code : Int) : AccWin :=
  let x := if ov then { x with ovr := true } else x
  if tn then { x with tnt := min 255 (x.tnt + 1) }
  else if disc then x
  else { x with sum := x.sum + code, cnt := x.cnt + 1, ext := widen x.ext code }

/-- The registers of the closed window, and what the loop engine reads of it (R202, R203): an empty one keeps MEAN, MIN and MAX. -/
def Dev.showWindow (d : Dev) (a : Nat) : Dev :=
  let x := d.acc a
  let o := x.old
  let d := (((d.wr (F.ACC_STAT_COUNT a) o.cnt).wr (F.ACC_STAT_TNT a) o.tnt).wrB (F.ACC_STAT_OVR a) o.ovr).wrB (F.ACC_STAT_EMPTY a) (o.cnt = 0)
  match o.ext with
  | none => d
  | some (mn, mx) =>
    let p := fLinear x.gain x.ofs mn 1
    let q := fLinear x.gain x.ofs mx 1
    let d := ((d.wr (F.ACC_MEAN a) (fLinear x.gain x.ofs o.sum o.cnt)).wr (F.ACC_EXT_MIN a) (toField 16 mn)).wr (F.ACC_EXT_MAX a) (toField 16 mx)
    d.setAcc a { d.acc a with lo := fmin p q, hi := fmax p q }

/-- The registers of a long window that has closed (R204). -/
def Dev.showLong (d : Dev) (a : Nat) (e : Option (Int × Int)) : Dev :=
  match e with
  | none => d
  | some (mn, mx) => (d.wr (F.ACC_LEXT_LMIN a) (toField 16 mn)).wr (F.ACC_LEXT_LMAX a) (toField 16 mx)

/-- A result enters the accumulator its slot names: `ov` over-range, `tn` tainted, `code` saturated, `late` sampled before the last
boundary, and so of the windows that closed there (R201). A DISC result, which enters no window, still shows its over-range and its
taint in the accumulator. [Log: DEDUCED 33] -/
def Wk.accumulate (w : Wk) (s : SlotCfg) (ov tn late : Bool) (code : Int) : Wk :=
  let a := s.acc
  let x := w.d.acc a
  let first := ov && !(if late then x.old else x.win).ovr
  let counts := !tn && !s.disc
  let w := w.up fun d =>
    let x := if late then { x with old := x.old.take ov tn s.disc code } else { x with win := x.win.take ov tn s.disc code }
    let show_ (d : Dev) : Dev := if late then d.showWindow a else d
    match (if late || x.lnow then x.lcut else none) with
    | some e =>
      let e := if counts then widen e code else e
      show_ ((d.setAcc a { x with lcut := some e }).showLong a e)
    | none => show_ (d.setAcc a { x with long := if counts then widen x.long code else x.long })
  let w := w.on ov (·.up (·.wr (F.ACC_STAT_OVR_SEEN a) 1))
  w.on first (·.raise 90 0 a)

/-- The taint of a converter after one conversion, and its own TAINT count (R208): TAINT of a sequence while it runs that sequence, as it
may no longer do when a result emerges. [Log: DEDUCED 34] -/
def Dev.taintStep (d : Dev) (p : Nat) (seq : Option Nat) (ov : Bool) : Dev :=
  let x := d.conv p
  let tn := decide (0 < x.taint)
  let shown := match seq with | some c => decide (d.rd (F.ADC_STAT_PHYS c) = p) | none => false
  let d := d.setConv p { x with taint := if ov then 3 else x.taint - 1, tnt := if tn ∧ !shown then min 65535 (x.tnt + 1) else x.tnt }
  match seq with
  | some c => if tn && shown then d.inc (F.ADC_TAINT c) else d
  | none => d

/-- One conversion of physical converter `p` for a slot of sequence `c`. -/
def Wk.converted (w : Wk) (p c : Nat) (s : SlotCfg) (late : Bool) (code : Int) : Wk :=
  let ov := decide (code < -8192 ∨ 8191 < code)
  let tn := decide (0 < (w.d.conv p).taint)
  let w := w.up fun d => let d := d.taintStep p (some c) ov; d.setConv p { d.conv p with ain := some (d.input s.ain late) }
  w.accumulate s ov tn late (clampI (-8192) 8191 code)

/-- A reference conversion of the converter under check: the first 8 of a third and tainted ones are dropped (R211). -/
def Dev.refConverted (d : Dev) (p third : Nat) (code : Int) : Dev :=
  let ov := decide (code < -8192 ∨ 8191 < code)
  let tn := decide (0 < (d.conv p).taint)
  let d := d.taintStep p none ov
  let x := d.conv p
  let t := tget {} x.thirds third
  let keep := decide (8 ≤ t.seen) && !tn
  let v := clampI (-8192) 8191 code
  let t : Third := { seen := t.seen + 1, n := t.n + b2n keep, sum := if keep then t.sum + v else t.sum }
  d.setConv p { x with ain := none, thirds := tput {} x.thirds third t }

/-- A result of converter `phys` (R190), sampled at `t`: taken when it is of the slot its sequence converts next and the sequence runs on
that converter, or of the converter under check. A regular result that emerges while an injected pass runs was sampled before that pass
took the converter (R190, R198). One sampled before the last boundary is of the windows that closed there (R201), and
may be of the pass that was abandoned there. [Log: DEDUCED 33] -/
def Wk.adcResult (w : Wk) (phys : Nat) (slot : AdcSlot) (code : Int) (t : BitVec 64) : Wk :=
  let late := decide ((t - w.d.boundaryNow).toInt < 0) && w.d.running
  match slot with
  | .reg c k =>
    let x := w.d.seq c
    let on := decide (phys = if late then x.wasPhys else w.d.rd (F.ADC_STAT_PHYS c))
    if 4 ≤ c ∨ !on then w
    else if late ∧ !x.was.isEmpty then
      if k ≠ x.wasPos then w else
      match x.was.drop k with
      | s :: _ => (w.converted phys c s true code).up (·.setSeq c { x with wasPos := k + 1 })
      | [] => w
    else if !w.d.rdB (F.ADC_STAT_REG_RUN c) ∨ k ≠ x.pos then w else
    match x.reg.drop k with
    | s :: _ => (w.converted phys c s late code).up (·.setSeq c { x with pos := k + 1 })
    | [] => w
  | .inj c k =>
    let x := w.d.seq c
    let on := decide (phys = if late then x.wasPhys else w.d.rd (F.ADC_STAT_PHYS c))
    if 4 ≤ c ∨ !on ∨ !w.d.rdB (F.ADC_STAT_INJ_RUN c) ∨ k ≠ x.ipos then w else
    match x.inj.drop k with
    | s :: _ => (w.converted phys c s late code).up (·.setSeq c { x with ipos := k + 1 })
    | [] => w
  | .ref t => if w.d.acq.check = some phys ∧ t < 3 then w.up (·.refConverted phys t code) else w

/-! ## Windows (R202 to R204) -/

/-- The frame window of accumulator a closes and the next opens (R202): GAIN and OFS are those in force before the boundary. The `first`
boundary ends no frame of a long window (R204). -/
def Wk.closeWindow (w : Wk) (a gain ofs : Nat) (first : Bool) : Wk :=
  let x := w.d.acc a
  let w := w.up fun d => (d.setAcc a { x with win := {}, old := x.win, gain := gain, ofs := ofs, lfr := if x.lnow || first then 0 else x.lfr + 1, lcut := if x.lnow then x.lcut else none, lnow := false }).showWindow a
  w.on (x.win.cnt = 0 && w.d.rdB (F.ACC_CFG_MONE a)) (·.raise 91 0 a)

/-- The long window closes and the next opens (R204). [Log: DEDUCED 34] -/
def Dev.closeLong (d : Dev) (a : Nat) : Dev :=
  let x := d.acc a
  (d.setAcc a { x with long := none, lfr := 0, lclr := false, lcut := some x.long }).showLong a x.long

/-- Whether a long window that has spanned `n` frames is over (R204). -/
def Dev.longOver (d : Dev) (a n : Nat) : Bool := d.rd (F.ACC_CFG_LWIN a) ≠ 0 && decide (d.rd (F.ACC_CFG_LWIN a) ≤ n)

/-- LCLR (R204): the long window closes at the next boundary. -/
def Dev.accLclr (d : Dev) (a : Nat) : Dev := d.setAcc a { d.acc a with lclr := true }

/-- What the loop engine reads of an accumulator: MEAN, the two scaled extremes in ascending order, and whether they are
stale (R202, R203). [Log: DEDUCED 34] -/
def Dev.accOut (d : Dev) (a : Nat) : List Nat := [d.rd (F.ACC_MEAN a), (d.acc a).lo, (d.acc a).hi, if d.rdB (F.ACC_STAT_EMPTY a) then fOne else 0]

/-! ## The checking converter (R209 to R212) -/

/-- Whether any converter is retired: checking has stopped. -/
def Dev.checksOver (d : Dev) : Bool := (List.range 5).any fun c => d.rdB (F.ADC_CST_RETIRED c)

/-- The converter that a place in the order of checks stands for. -/
def checkTurn (n : Nat) : Nat := if n % 5 = 0 then 4 else n % 5 - 1

/-- ADC4 takes over sequence c, or ADCc takes it back: PHYS, and the TAINT count that the register shows (Table 7-3). -/
def Dev.handOver (d : Dev) (c src dst : Nat) : Dev :=
  let d := d.setConv src { d.conv src with tnt := d.rd (F.ADC_TAINT c) }
  (d.wr (F.ADC_TAINT c) (d.conv dst).tnt).wr (F.ADC_STAT_PHYS c) dst

/-- What a check stores for `n / d`. [Log: DESIGN CHOICE 8] -/
def checkCode (n : Int) (d : Nat) : Nat :=
  let q := n / (d : Int)
  let v := if n % (d : Int) ≠ 0 ∧ Config.checkUp n d then q + 1 else q
  if -32768 ≤ v ∧ v ≤ 32767 then toField 16 v else Config.checkOut v % 65536

/-- The check of converter c is computed from its thirds (R211, R212). [Log: DEDUCED 34] -/
def Wk.checkResult (w : Wk) (c : Nat) : Wk :=
  let x := w.d.conv c
  let t (i : Nat) : Third := tget {} x.thirds i
  if (t 0).n = 0 ∨ (t 1).n = 0 ∨ (t 2).n = 0 then w else
  let on : Int := 16 * (t 1).sum
  let od := (t 1).n
  let gn : Int := ((t 2).sum * (t 0).n - (t 0).sum * (t 2).n) * 1000000 - 12800000000 * ((t 0).n * (t 2).n : Nat)
  let gd := 12800 * ((t 0).n * (t 2).n)
  let bad : Bool := decide (w.d.rd F.ACQ_CHKLIM_OFS * od < on.natAbs) || decide (w.d.rd F.ACQ_CHKLIM_GAIN * gd < gn.natAbs)
  let twice := bad && w.d.rdB (F.ADC_CST_FAILED c)
  let w := w.up fun d =>
    (((d.wr (F.ADC_CHK_OFS c) (checkCode on od)).wr (F.ADC_CHK_GAIN c) (checkCode gn gd)).wr (F.ADC_CST_CHECKS c) (d.rd (F.ADC_CST_CHECKS c) + 1)).wrB (F.ADC_CST_FAILED c) bad
  let w := w.on bad (·.raise 57 0 c)
  if bad && decide (3 ≤ ((List.range 5).filter fun i => w.d.rdB (F.ADC_CST_FAILED i)).length) then
    (w.up fun d => (d.wr F.ACQ_CHK_EN 0).wr F.ACQ_CHK_REF_FAULT 1).raise 30 0 0
  else if twice then
    let w := w.up fun d => { d.wr (F.ADC_CST_RETIRED c) 1 with adcMap := tput (if 4 = c then 1 else 0) d.adcMap c 2 }
    let w := w.on (c ≠ 4) (·.up fun d => { d with adcMap := tput 1 d.adcMap 4 0 })
    w.olgSync.raise 29 0 c
  else w

/-- The check frame that ends at a boundary, and the one that begins there. [Log: DEDUCED 34] -/
def Wk.checkBoundary (w : Wk) : Wk :=
  let w := match w.d.acq.check with
    | none => w
    | some c =>
      let w := w.on (w.d.rdB F.ACQ_CHK_EN) (·.checkResult c)
      let w := w.up fun d => d.setConv c { d.conv c with thirds := [] }
      let w := w.on (c ≠ 4 && !w.d.rdB (F.ADC_CST_RETIRED c)) (·.up (·.handOver c 4 c))
      w.up fun d => { d with acq := { d.acq with check := none } }
  if !w.d.rdB F.ACQ_CHK_EN ∨ w.d.checksOver then w.up fun d => { d with acq := { d.acq with since := 0 } } else
  let n := w.d.acq.since + 1
  if n < w.d.rd F.ACQ_CHK_DIV then w.up fun d => { d with acq := { d.acq with since := n } } else
  let c := checkTurn w.d.acq.turn
  let w := w.up fun d => { d with acq := { d.acq with since := 0, turn := (d.acq.turn + 1) % 5, check := some c } }
  w.on (c ≠ 4) (·.up (·.handOver c c 4))

/-- The alternates that a boundary puts in service: both marks of the service map, and AIN_SWITCHED (R215, R326). -/
def Wk.ainBoundary (w : Wk) : Wk :=
  let l := w.d.acq.ainDue.reverse
  let w := w.up fun d => { l.foldl (fun d j => { d with ainMap := tput 0 (tput 0 d.ainMap (d.rd (F.ACQ_ALT_PRIM j)) 2) (d.rd (F.ACQ_ALT_SPARE j)) 0 }) d with acq := { d.acq with ainDue := [] } }
  w.each l fun j w => w.raise 31 0 j

/-- The acquisition at a boundary: windows close with the GAIN and OFS in force before it, long windows that are over or have LCLR close,
check frames end and begin, sequences restart or are triggered. Boundary 0 is the `first`. -/
def Wk.acqBoundary (w : Wk) (p : Prior) (first : Bool) : Wk :=
  let w := w.ainBoundary.up fun d => if d.acq.alts = p.alts then d else { d with acq := { d.acq with alts := p.alts } }
  let w := w.each (List.range 128) fun a w =>
    let (g, o) := p.gains.getD a (fOne, 0)
    let w := w.closeWindow a g o first
    w.on ((w.d.acc a).lclr || w.d.longOver a (w.d.acc a).lfr) (·.up (·.closeLong a))
  let w := w.up fun d => (List.range 4).foldl (fun d c => d.setSeq c { d.seq c with was := [], wasPos := 0, wasPhys := d.rd (F.ADC_STAT_PHYS c) }) d
  let w := w.checkBoundary
  w.each (List.range 4) fun c w => w.seqBoundary c

/-! ## Alternates (R215) -/

/-- MEAS_IMPLAUS was raised with accumulator `a`, whose input has not been switched before: the alternate of a watched pair is switched in
at the next boundary. -/
def Dev.ainSwitch (d : Dev) (a : Nat) : Dev :=
  if d.acq.switched.contains a then d else
  match (List.range 8).find? fun j => d.rdB (F.ACQ_ALT_EN j) && d.rdB (F.ACQ_ALT_AUTO j) && d.rd (F.ACQ_ALT_ACC j) = a
      && !d.rdB (F.ACQ_ALT_SEL j) && ((tget [] d.frm (F.ACQ_ALT_SEL j).key).all fun x => decide (x.1 = 0)) with
  | none => d
  | some j => { d with
      frm := tput [] d.frm (F.ACQ_ALT_SEL j).key [(1, d.frame.k + 1)]
      acq := { d.acq with switched := a :: d.acq.switched, ainDue := j :: d.acq.ainDue } }

/-! ## Rows -/

/-- ACQ_REGULAR_TRIGGER. -/
def execAcqRegularTrigger (c : Nat) (s : State) : Host.Outcome State Fault Refusal := s.run (·.regTrigger c)

/-- ACQ_URGENT_TRIGGER. -/
def execAcqUrgentTrigger (c : Nat) (s : State) : Host.Outcome State Fault Refusal := s.run (·.injTrigger c)

/-- ACQ_PASS_END. -/
def execAcqPassEnd (c : Nat) (inj : Bool) (s : State) : Host.Outcome State Fault Refusal :=
  s.run fun w => w.on (decide (c < 4)) (·.up (·.passEnd c inj))

/-- ADC_RESULT. -/
def execAdcResult (phys : Nat) (slot : AdcSlot) (x : Sample) (s : State) : Host.Outcome State Fault Refusal :=
  s.run (·.adcResult phys slot x.code x.t)

/-- LONG_WINDOW_CLOSE (R204): at the boundary that comes, with which the long window has spanned LWIN frames; FRAME_BOUNDARY, which follows,
closes those that are over in any case. [Log: DEDUCED 34] -/
def execLongWindowClose (a : Nat) (s : State) : Host.Outcome State Fault Refusal :=
  s.run fun w => w.on (decide (a < 128) && w.d.running && w.d.rd F.SYS_FRM_STAT_WINDOW = 3 && !(w.d.acc a).lnow && w.d.longOver a ((w.d.acc a).lfr + 1)) fun w =>
    (w.advanceTo (w.d.boundaryAt (w.d.frame.k + 1))).up fun d => let d := d.closeLong a; d.setAcc a { d.acc a with lnow := true }

/-- An edge at `t` of TRIG_INi, after which the ball has been stable for `stable` ns (R53, R54, R195); once that is FILT × 8 ns the edge
is timestamped and triggers the sequences that take it. -/
def Wk.trigIn (w : Wk) (i : Nat) (rising : Bool) (t : BitVec 64) (stable : Nat) : Wk :=
  if 4 ≤ i ∨ stable < 8 * w.d.rd (F.TIM_CAP_CTRL_FILT i) then w else
  let w := w.capture i rising t
  let go := bitOf (w.d.rd (F.TIM_CAP_CTRL_EDGE i)) (if rising then 0 else 1) && w.d.rdB (F.TIM_CAP_CTRL_ACQ_TRIG i)
  w.on go fun w => w.each (List.range 4) fun c w => w.on (bitOf (w.d.rd (F.ADC_TRGU_TINM c)) i) (·.injTrigger c)

/-- TRIG_IN_CAPTURE. -/
def execTrigInCapture (i : Nat) (rising : Bool) (x : TrigIn) (s : State) : Host.Outcome State Fault Refusal := s.run (·.trigIn i rising x.t x.stable)

end Sys2Proof.Machine
end

