-- ==== Sys2Proof/Machine/Apply.lean ====
section
/-! DEFINITION. Apply points (R461 to R465): FRM values, the staged set, and the device as it will stand at the next
boundary, which the plan of R128 and the checks of R439 look at. -/
namespace Sys2Proof.Machine

/-- The field at a key of the register tables. -/
def fldOf (key : Nat) : Option Fld := (fieldsAt (key / 32)).find? fun f => f.lo = key % 32

/-- Whether a boundary is the next one or has passed. -/
def Dev.dueBy (d : Dev) (b : BitVec 32) : Bool := (b - d.frame.k).toNat ≤ 1 || (d.frame.k - b).toNat < 2 ^ 31

/-- Write a field by its key. -/
def Dev.wrKey (d : Dev) (key v : Nat) : Dev :=
  match fldOf key with
  | some f => d.wr f v
  | none => d

/-- The FRM values due by the next boundary take effect (R462). -/
def Dev.frmApply (d : Dev) : Dev :=
  let l := d.frm
  l.foldl (fun d e =>
    let due := e.2.filter fun x => d.dueBy x.2
    match due.getLast? with
    | none => d
    | some x => { d.wrKey e.1 x.1 with frm := tput [] d.frm e.1 (e.2.filter fun x => !d.dueBy x.2) }) d

/-- The STG fields of a register table. -/
def stgRegs (l : Tab Nat) : Tab Nat := l.filter fun e => match fldOf e.1 with | some f => decide (f.app = .stg) | none => false

/-- A staged set opens: the pending copy is the applied values (R438). -/
def Dev.openSet (d : Dev) (p : Nat) : Dev := { d with stg := [], stage := some ⟨p, none⟩, stgCopy := some (stgRegs d.regs) }

/-- The value of a STG field in the copy that STAGE_OPEN made; the applied one where it made none. -/
def Dev.copied (d : Dev) (f : Fld) : Nat :=
  match d.stgCopy with
  | some b => tget f.rst b f.key % 2 ^ f.width
  | none => d.rd f

/-- The value of a STG field in the pending copy of the open set; the applied one while no set is open (R438). [Log: DEDUCED 23] -/
def Dev.pendOr (d : Dev) (f : Fld) : Nat := if d.stage.isSome then (tget none d.stg f.key).getD (d.copied f) else d.rd f

/-- Every STG field whose copied value is not the applied one any more takes the copied value. -/
def Dev.applyCopy (d : Dev) : Dev :=
  match d.stgCopy with
  | some b => (stgRegs d.regs ++ b).foldl (fun x e => match fldOf e.1 with | some f => x.wr f (d.copied f) | none => x) d
  | none => d

/-- The staged set's values take effect, and the set closes (R440). -/
def Dev.stageValues (d : Dev) : Dev :=
  (d.stg.foldl (fun d e => match e.2 with | some v => d.wrKey e.1 v | none => d) d.applyCopy).closeSet

/-- Whether an accepted staged set is due by the next boundary. -/
def Dev.stageDue (d : Dev) : Bool :=
  match d.stage with
  | some ⟨_, some b⟩ => d.dueBy b
  | _ => false

/-- The device with the values of the next boundary, for planning (R128, R440). [Log: DEDUCED 78] -/
def Dev.preview (d : Dev) : Dev :=
  let d := if d.stageDue then d.stageValues else d
  d.frmApply

/-- The value of an FRM or other field that a plain read returns: the one written last (R461). -/
def Dev.lastWritten (d : Dev) (f : Fld) : Nat :=
  match (tget [] d.frm f.key).getLast? with
  | some x => x.1
  | none => d.rd f

/-- A FRM value takes effect now, and none waits any more. -/
def Dev.frmSet (d : Dev) (f : Fld) (v : Nat) : Dev := { d with frm := tput [] d.frm f.key [] }.wr f v

/-- A FRM write (R462, R464): at once while the frame generator stands, else at its apply boundary. [Log: DEDUCED 55] -/
def Dev.frmWrite (d : Dev) (f : Fld) (v : Nat) : Dev :=
  let v := v % 2 ^ f.width
  if !d.running then d.frmSet f v else
  let b := d.dueNext
  let l := (tget [] d.frm f.key).filter fun x => x.2 ≠ b
  { d with frm := tput [] d.frm f.key (l ++ [(v, b)]) }

/-- A FRM value that the device itself writes for the next boundary, whether the plan instant has passed or not. -/
def Dev.frmNext (d : Dev) (f : Fld) (v : Nat) : Dev :=
  if !d.running then d.frmSet f v else
  { d with frm := tput [] d.frm f.key [(v % 2 ^ f.width, d.frame.k + 1)] }

end Sys2Proof.Machine
end

