-- ==== Sys2Proof/Machine/Edge.lean ====
section
/-! DEFINITION. The edge engine as it runs (05_edge_engine.md) and the supervision of local gates (06_gate_supervision.md). -/
namespace Sys2Proof.Machine

/-! ## Shadows and arming (R142 to R146) -/

/-- The units whose ARMED bit is behind show it, and an EDG_ARM bit clears once every unit it armed has transferred. [Log: DEDUCED 26] -/
def Dev.syncArmed (d : Dev) : Dev :=
  let d := (List.range 64).foldl (fun d t => if d.rdB (F.TB_STAT_ARMED t) ≠ (d.tb t).armed then d.wrB (F.TB_STAT_ARMED t) (d.tb t).armed else d) d
  let d := (List.range 256).foldl (fun d c => if d.rdB (F.CH_STAT_ARMED c) ≠ (d.ch c).armed then d.wrB (F.CH_STAT_ARMED c) (d.ch c).armed else d) d
  let grp (t : Nat) : Nat := d.rd (F.TB_CTRL_GRP t)
  let left := (List.range 16).filter fun g => bitOf (d.rd F.EDG_ARM) g &&
    ((List.range 64).any (fun t => decide (grp t = g) && (d.tb t).armed && (d.tb t).byGrp) ||
     (List.range 256).any fun c => (d.ch c).armed && (d.ch c).byGrp && decide (grp (d.rd (F.CH_CTRL_TB c)) = g))
  d.wr F.EDG_ARM (ofBits left)

/-- A write to the groups `m` of EDG_ARM (R143, R467): a bit written 1 arms its group, a bit written 0 cancels what is not
yet latched. -/
def Dev.armMask (d : Dev) (m v : Nat) : Dev :=
  let off (t : Nat) : Bool := bitOf m (d.rd (F.TB_CTRL_GRP t)) && !bitOf v (d.rd (F.TB_CTRL_GRP t))
  let d := (List.range 64).foldl (fun d t => if off t && (d.tb t).armed then d.setTb t { d.tb t with armed := false, byGrp := false } else d) d
  let d := (List.range 256).foldl (fun d c => if off (d.rd (F.CH_CTRL_TB c)) && (d.ch c).armed then d.setCh c { d.ch c with armed := false, byGrp := false } else d) d
  let d := (List.range 16).foldl (fun d g => if bitOf m g then d.clrBit F.EDG_ARM g else d) d
  (d.armGroups (ofBits ((List.range 16).filter fun g => bitOf m g && bitOf v g))).syncArmed

/-- A write to EDG_ARM as a whole. -/
def Dev.armWrite (d : Dev) (v : Nat) : Dev := d.armMask 65535 v

/-- Whether a reload of a unit is latched and still to come (R146). [Log: DEDUCED 26] -/
def Dev.latched (d : Dev) (isTb : Bool) (u : Nat) : Bool :=
  let sel (e : Ev) : Bool := decide (e.unit = u) && (if isTb then decide (e.kind = .tbReload) else decide (e.kind = .reload))
  d.edge.plan.any sel || (d.frame.planned && d.edge.next.any sel)

/-- A host write to a shadow of timebase `t` (R131, R144, R146); a period below 2 is refused. -/
def Dev.tbShadow (d : Dev) (t : Nat) (f : Fld) (v : Nat) : Dev :=
  if f = F.TB_PER t ∧ v < 2 then d.wr (F.TB_STAT_PER_REJ t) 1 else
  let d := d.setShadow f v
  let d := if d.latched true t then d.wr (F.TB_STAT_UPDATE_LATE t) 1 else d
  if d.rdB (F.TB_CTRL_AUTOARM t) then (d.setTb t { d.tb t with armed := true }).wr (F.TB_STAT_ARMED t) 1 else d

/-- A host write to a shadow of channel `c`. [Log: DEDUCED 21] -/
def Dev.chShadow (d : Dev) (c : Nat) (f : Fld) (v : Nat) : Dev :=
  let d := d.setShadow f v
  let d := if d.latched false c then d.wr (F.CH_STAT_UPDATE_LATE c) 1 else d
  if d.rdB (F.TB_CTRL_AUTOARM (d.rd (F.CH_CTRL_TB c))) then (d.setCh c { d.ch c with armed := true }).wr (F.CH_STAT_ARMED c) 1 else d

/-- A write to any shadow, by its field. -/
def Dev.carShadow (d : Dev) (f : Fld) (v : Nat) : Dev :=
  if 0x60000 ≤ f.addr ∧ f.addr < 0x64000 then d.tbShadow ((f.addr - 0x60000) / 256) f v
  else if 0x64000 ≤ f.addr ∧ f.addr < 0x68000 then d.chShadow ((f.addr - 0x64000) / 64) f v
  else d

/-- A latched value transfers: it becomes the applied value; a shadow written since the latch stays pending. -/
def Dev.transfer (d : Dev) (key v : Nat) : Dev :=
  match fldOf key with
  | none => d
  | some f =>
    let sh := d.carVal f
    let d := d.wr f v
    { d with shad := tput none d.shad key (if sh = v then none else some sh) }

/-! ## Local pins (R137, R164 to R169) -/

/-- Whether outputs are held off by the twin state (R341). -/
def Dev.outputsHeld (d : Dev) : Bool := d.rd F.TWN_STAT_STATE ≠ 0 && !d.twn.live

/-- The channel of a local pair. -/
def Dev.pairCh (d : Dev) (k : Nat) : Option Nat :=
  (List.range 256).find? fun c => d.rd (F.CH_ROUTE_KIND c) = 1 ∧ d.rd (F.CH_ROUTE_PAIR c) = k ∧ d.rdB (F.CH_CTRL_EN c)

/-- Whether DEN group `m` is low in a toggle (R184). -/
def Dev.denLow (d : Dev) (m : Nat) : Bool :=
  match tget none d.edge.den m with
  | some n => decide (0 < n)
  | none => false

/-- Whether a pair is held at LEVEL 2: a gate latch, a trip latch of its channel, a DEN toggle. -/
def Dev.pairHeldOff (d : Dev) (k : Nat) : Bool :=
  bitOf (d.rd F.GSV_STAT_LATCHED) k || d.denLow (d.rd (F.GSV_PAIR_DEN k)) ||
  (match d.pairCh k with | some c => d.rdB (F.CH_STAT_LATCHED c) | none => false)

/-- The minimum time of a pair in ticks: MINT of its channel (R135, R137). [Log: DEDUCED 79] -/
def Dev.pairMint (d : Dev) (k : Nat) : Nat := match d.pairCh k with | some c => d.rd (F.CH_MINT c) | none => 0

/-- Whether a planned event moves the pins of a pair: a transition of its channel, or its precharge pulse. -/
def Dev.movesPair (d : Dev) (k : Nat) (e : Ev) : Bool :=
  (decide (e.kind = .reload) || decide (e.kind = .compare)) &&
  (decide (e.unit = 256 + k) || (decide (e.unit < 256) && decide (d.rd (F.CH_ROUTE_KIND e.unit) = 1) && decide (d.rd (F.CH_ROUTE_PAIR e.unit) = k)))

/-- The instant at which the pins of a pair follow a transition at `t` (R137): LOC_ADJ before it. -/
def Dev.leadAt (d : Dev) (k : Nat) (t : BitVec 64) : BitVec 64 := t - BitVec.ofNat 64 (5120 * d.rd (F.EDG_PAIR_LOC_ADJ k))

/-- The pin edges that the events of one frame, which begins at `b`, have for a pair: none for the compare of a period that a trip has
ended (R154), and none for a reload that an asserted trip may suppress, which is decided at the reload. [Log: DEDUCED 79] -/
def Dev.leadsOf (d : Dev) (k : Nat) (b : BitVec 64) (l : List Ev) : List Lead :=
  (l.foldl (fun (s : Bool × List Lead) e =>
    if !d.movesPair k e then s else
    let ended := s.1 && !decide (e.kind = .reload)
    let asks := decide (e.kind = .reload) && e.level = 1 && d.rdB (F.CH_TRIP_TEN e.unit) && d.rdB (F.EDG_TRIP_LEVEL (d.rd (F.CH_TRIP_TIN e.unit)))
    if (ended && decide (e.unit < 256)) || asks then (ended, s.2)
    else (ended, s.2 ++ [⟨d.leadAt k (b + BitVec.ofNat 64 (e.off * 5120)), e.level, d.pairMint k⟩]))
    ((match d.pairCh k with | some c => (d.ch c).ended | none => false), [])).2

/-- Whether the enable of the channel on a pair changes at the coming boundary, and to what (R132, R149): `pv` shows the values that
apply there. -/
def Dev.leadEnable (d pv : Dev) (k : Nat) : List Lead :=
  match (List.range 256).find? fun c => decide (pv.rd (F.CH_ROUTE_KIND c) = 1) && decide (pv.rd (F.CH_ROUTE_PAIR c) = k) && ((d.ch c).run || pv.rdB (F.CH_CTRL_EN c)) with
  | none => []
  | some c =>
    let run := pv.rdB (F.CH_CTRL_EN c) && pv.rdB (F.TB_CTRL_EN (pv.rd (F.CH_CTRL_TB c)))
    let atOnce := run && d.edge.next.any fun e => e.off = 0 && decide (e.kind = .reload) && e.unit = c && e.level = 1
    if run = (d.ch c).run ∨ atOnce then [] else [⟨d.leadAt k (d.boundaryAt (d.frame.k + 1)), if run then 0 else 2, pv.rd (F.CH_MINT c)⟩]

/-- The pin edges to come of a pair follow the plan, from the last one made on; a pair held at LEVEL 2 has none. `pv` shows the values of the
coming boundary once its plan is fixed. [Log: DEDUCED 79] -/
def Dev.aimPair (d : Dev) (pv : Option Dev) (k : Nat) : Dev :=
  let l := if d.pairHeldOff k then [] else
    d.leadsOf k d.boundaryNow d.edge.plan ++ (match pv with | some p => d.leadEnable p k ++ p.leadsOf k (d.boundaryAt (d.frame.k + 1)) d.edge.next | none => [])
  let l := match (d.pair k).ledTo with | some t => l.filter fun e => 0 < (e.at_ - t).toInt | none => l
  if l = (d.pair k).ahead then d else d.setPair k { d.pair k with ahead := l }

/-- The values of the coming boundary, once its plan is fixed. -/
def Dev.planView (d : Dev) : Option Dev := if d.frame.planned then some d.preview else none

/-- The pin edges to come of one pair after a change of its channel. -/
def Wk.aim (w : Wk) (k : Nat) : Wk :=
  if (w.d.pair k).ahead = [] ∧ w.d.edge.plan = [] ∧ w.d.edge.next = [] then w else w.up fun d => d.aimPair d.planView k

/-- The pin edges to come of every pair that a channel or the precharge pattern drives. -/
def Dev.aimAll (d : Dev) (pv : Option Dev) : Dev :=
  let local_ (d : Dev) : Bool := (List.range 256).any fun c => d.rd (F.CH_ROUTE_KIND c) = 1
  if local_ d || (match pv with | some p => local_ p | none => false) || (d.edge.plan ++ d.edge.next).any (fun e => decide (256 ≤ e.unit)) then
    (List.range 16).foldl (·.aimPair pv) d
  else d

/-- A pair goes to a level (R137) by a transition of its pins at the real time `t`; the incoming pin follows when its minimum time has passed
(R135) and the handshake lets it (R164). Pins forced to SAFE stay so. [Log: DEDUCED 79] -/
def Wk.pairLevel (w : Wk) (k lvl t : Nat) : Wk :=
  if w.d.rdB F.EDG_STAT_SAFE then w else
  let lvl := if w.d.pairHeldOff k then 2 else lvl
  (w.up fun d => d.setPair k (d.pairTo k lvl t (t + d.tickRt (d.pairMint k)))).releasePin k

/-- A pair takes the level its channel stands at, by a transition at the real time `t`. -/
def Wk.drivePair (w : Wk) (k t : Nat) : Wk :=
  w.pairLevel k (match w.d.pairCh k with | some c => (w.d.ch c).out | none => 2) t

/-- A pair follows a planned transition to `lvl` at the device time `t` (R137): the plan has made it already, LOC_ADJ early, or it is made
now; a level that is not the planned one comes at `t` itself. [Log: DEDUCED 79] -/
def Wk.planned (w : Wk) (k lvl : Nat) (asPlanned : Bool) (t : BitVec 64) : Wk :=
  let w := w.leadPin k
  let early := w.d.leadAt k t
  let led : Bool := match (w.d.pair k).ledTo with | some x => decide (0 ≤ (x - early).toInt) | none => false
  let w := if asPlanned && led then w else w.pairLevel k lvl (w.d.time.rt - w.d.since (if asPlanned then early else t))
  w.aim k

/-- A pair is held at LEVEL 2, and its channel with it. -/
def Wk.pairOff (w : Wk) (k : Nat) : Wk :=
  ((w.up fun d => match d.pairCh k with | some c => d.setCh c { d.ch c with out := 2 } | none => d).pairLevel k 2 w.d.time.rt).aim k

/-- A pair latches at LEVEL 2 (R167, R171, R180). [Log: DEDUCED 85] -/
def Wk.latchPair (w : Wk) (k : Nat) : Wk := (w.up (·.setBit F.GSV_STAT_LATCHED k)).pairOff k

/-- DEN levels (R565) follow from what holds them; in HOLD every DEN is inactive (R515). -/
def Dev.syncDen (d : Dev) : Dev :=
  d.wr F.GSV_DEN_LVL (ofBits ((List.range 8).filter fun m => bitOf (d.rd F.GSV_DEN_EN) m && !d.denLow m && !d.outputsHeld && !d.timStopped))

/-- The pins follow a change of the safe state, of the twin state, or of a SAFE level while they are held (R159, R163, R341). -/
def Wk.syncOutputs (w : Wk) : Wk :=
  let w := w.up (·.syncDen)
  let hold := w.d.safe || w.d.outputsHeld
  if hold then w.up fun d => (d.wr F.EDG_STAT_SAFE 1).pinsSafe
  else if w.d.rdB F.EDG_STAT_SAFE then
    let w := w.up fun d => (List.range 16).foldl (fun d k => d.forcePair k false false) (d.wr F.EDG_STAT_SAFE 0)
    w.each (List.range 16) fun k w => (w.drivePair k w.d.time.rt).aim k
  else w

/-! ## Trips (R153 to R157) -/

/-- Whether TRIPk, asserted when last seen, still is: no command need tell of its release, so that is open (entry 9). [Log: DESIGN CHOICE 9] -/
def Wk.tripHeld (w : Wk) (k : Nat) : Wk × Bool :=
  if !w.d.rdB (F.EDG_TRIP_LEVEL k) then (w, false) else
  let b := Config.tripHolds k w.d.free
  (w.up fun d => if b then d.fresh else d.fresh.wr (F.EDG_TRIP_LEVEL k) 0, b)

/-- Whether the blanking of a channel has passed (R153). [Log: DEDUCED 43] -/
def Dev.unblanked (d : Dev) (c : Nat) : Bool :=
  match (d.ch c).lastTr with
  | some t => decide (d.rd (F.CH_TRIP_BLANK c) * 163840 ≤ (d.time.now - t).toNat)
  | none => true

/-- A trip counts against the running period of channel `c` (R155), and the channel latches when CNT reaches N. [Log: DEDUCED 85] -/
def Wk.countTrip (w : Wk) (c : Nat) : Wk :=
  if (w.d.ch c).ended then w else
  let w := w.up fun d => (((d.setCh c { d.ch c with ended := true }).inc (F.CH_TCNT_CNT c)).inc (F.CH_TCNT_TOTAL c)).wr (F.CH_TCNT_CLEAN c) 0
  if w.d.rd (F.CH_TRIP_N c) ≤ w.d.rd (F.CH_TCNT_CNT c) ∧ !w.d.rdB (F.CH_STAT_LATCHED c) then
    let w := w.up fun d => (d.setCh c { d.ch c with out := 2 }).wr (F.CH_STAT_LATCHED c) 1
    w.raise 12 0 c
  else w

/-- An unblanked assertion at LEVEL 1 ends the pulse (R154). -/
def Wk.endPulse (w : Wk) (c : Nat) : Wk :=
  let lvl := if w.d.rdB (F.CH_CTRL_TRIP_ACT c) then 2 else 0
  let w := w.up fun d => d.setCh c { d.ch c with out := lvl, lastTr := some d.time.now }
  let w := w.countTrip c
  (w.drivePair (w.d.rd (F.CH_ROUTE_PAIR c)) w.d.time.rt).aim (w.d.rd (F.CH_ROUTE_PAIR c))

/-- The running local channels that watch a TRIP input. -/
def Dev.watchers (d : Dev) (k : Nat) : List Nat :=
  (List.range 256).filter fun c => d.rd (F.CH_ROUTE_KIND c) = 1 ∧ d.rdB (F.CH_TRIP_TEN c) ∧ d.rd (F.CH_TRIP_TIN c) = k ∧ (d.ch c).run

/-- The assertion of TRIPk acts on every channel at LEVEL 1 whose blanking has passed; what it may suppress is no longer planned. -/
def Wk.tripAct (w : Wk) (k : Nat) : Wk :=
  w.each (w.d.watchers k) fun c w => if (w.d.ch c).out = 1 && w.d.unblanked c then w.endPulse c else w.aim (w.d.rd (F.CH_ROUTE_PAIR c))

/-- Assertions that outlast a blanking act when it ends (R153): looked at whenever device time has moved. -/
def Wk.tripScan (w : Wk) : Wk :=
  w.each (List.range 16) fun k w =>
    if !w.d.rdB (F.EDG_TRIP_LEVEL k) then w else
    let (w, held) := w.tripHeld k
    w.on held (·.tripAct k)

/-- TRIP balls are seen at levels in one EDGE cycle (R153): one that has stood at its active level for FILT counts is asserted, one that
stands at the other level is not. The assertions latch every pair whose desaturation input they are (R180), all in this cycle (R182),
end the pulses of the channels that watch them (R154) and trigger sequences. [Log: DESIGN CHOICE 9; DEDUCED 43] -/
def Wk.tripInputs (w : Wk) (l : List TripIn) : Wk :=
  let l := l.filter fun x => x.k < 16
  let active (x : TripIn) : Bool := x.high != w.d.rdB (F.EDG_TRIP_POL x.k)
  let on := (l.filter fun x => active x && decide (w.d.rd (F.EDG_TRIP_FILT x.k) ≤ x.counts)).map (·.k)
  let w := w.up fun d => (l.filter fun x => !active x).foldl (fun d x => d.wr (F.EDG_TRIP_LEVEL x.k) 0) d
  let w := w.up fun d => on.foldl (fun d k => d.wr (F.EDG_TRIP_LEVEL k) 1) d
  let ps := (List.range 16).filter fun p => w.d.rdB (F.GSV_PAIR_DSAT_EN p) && on.contains (w.d.rd (F.GSV_PAIR_DSAT_TIN p))
  let w := w.each ps fun p w => (w.latchPair p).raise 9 0 p
  w.each on fun k w => (w.tripAct k).tripTriggers k

/-! ## Planned events (R130, R133 to R135, R141) -/

/-- The first planned event of a kind on a unit is taken from the plan. -/
def takeEv (sel : Ev → Bool) : List Ev → Option (Ev × List Ev)
  | [] => none
  | e :: r => if sel e then some (e, r) else (takeEv sel r).map fun x => (x.1, e :: x.2)

/-- Timebase `t` reloads (R130, R147). -/
def Wk.doTbReload (w : Wk) (e : Ev) : Wk :=
  let t := e.unit
  let w := w.up fun d => e.xfer.foldl (fun d x => d.transfer x.1 x.2) (d.setTb t { d.tb t with pos0 := -(e.off : Int) })
  w.on e.rej fun w => (w.up (·.wr (F.TB_STAT_PER_REJ t) 1)).raise 52 0 t

/-- The period of a local channel ends: trip-free periods count (R155). -/
def Dev.periodEnd (d : Dev) (c : Nat) : Dev :=
  let x := d.ch c
  if !x.inPer ∨ x.ended then d else
  let d := d.inc (F.CH_TCNT_CLEAN c)
  if d.rd (F.CH_TRIP_M c) ≠ 0 ∧ d.rd (F.CH_TRIP_M c) ≤ d.rd (F.CH_TCNT_CLEAN c) then d.wr (F.CH_TCNT_CNT c) 0 else d

/-- A planned reload or compare of a channel (R133, R134, R148, R154), whose instant is `t`; a local channel whose pair is held
at LEVEL 2 stays there (R155, R184). A period whose pulse a trip suppresses stands at LEVEL 2 with TRIP_ACT = 1, at LEVEL 0 else. [Log: DEDUCED 43] -/
def Wk.doChannel (w : Wk) (e : Ev) (t : BitVec 64) : Wk :=
  let c := e.unit
  let w := w.up fun d => e.xfer.foldl (fun d x => d.transfer x.1 x.2) d
  let w := w.on (decide (e.kind = .reload)) (·.up (·.wrB (F.CH_STAT_STEPPING c) e.step))
  if w.d.rd (F.CH_ROUTE_KIND c) ≠ 1 then w.up fun d => d.setCh c { d.ch c with out := e.level, inPer := (d.ch c).inPer || decide (e.kind = .reload) } else
  let k := w.d.rd (F.CH_ROUTE_PAIR c)
  let off := w.d.rdB (F.CH_STAT_LATCHED c) || w.d.pairHeldOff k
  if e.kind = .reload then
    let blankOver := w.d.unblanked c
    let w := w.up fun d => let d := d.periodEnd c; d.setCh c { d.ch c with inPer := true, ended := false }
    let (w, held) := if w.d.rdB (F.CH_TRIP_TEN c) && blankOver && e.level = 1 && !off then w.tripHeld (w.d.rd (F.CH_TRIP_TIN c)) else (w, false)
    let lvl := if off then 2 else if held then (if w.d.rdB (F.CH_CTRL_TRIP_ACT c) then 2 else 0) else e.level
    let moved := decide (lvl ≠ (w.d.ch c).out)
    let w := w.up fun d => d.setCh c { d.ch c with out := lvl, lastTr := if moved then some t else (d.ch c).lastTr }
    let w := w.on held (·.countTrip c)
    w.planned k (w.d.ch c).out (decide ((w.d.ch c).out = e.level)) t
  else if (w.d.ch c).ended ∨ off then w
  else
    let w := w.up fun d => d.setCh c { d.ch c with out := e.level, lastTr := some t }
    w.planned k e.level true t

/-- The pulse of the precharge pattern on a local pair (R175): units from 256 on. -/
def Wk.doPre (w : Wk) (e : Ev) (t : BitVec 64) : Wk := w.planned (e.unit - 256) e.level true t

/-- CMPXm of a timebase fires with its routes (R141, Table 5-3). -/
def Wk.doCmpx (w : Wk) (t m : Nat) : Wk :=
  let rt := w.d.rd (match m with | 0 => F.TB_CMPX_RT_RT0 t | 1 => F.TB_CMPX_RT_RT1 t | 2 => F.TB_CMPX_RT_RT2 t | _ => F.TB_CMPX_RT_RT3 t)
  w.cmpxTriggers t m (bitOf rt 0) (bitOf rt 1)

/-- A planned event happens, whose instant is `t`. -/
def Wk.doEvent (w : Wk) (e : Ev) (t : BitVec 64) : Wk :=
  match e.kind with
  | .tbReload => w.doTbReload e
  | .cmpx m => w.doCmpx e.unit m
  | _ => if 256 ≤ e.unit then w.doPre e t else w.doChannel e t

/-- The instants up to `t` at which the blanking of a channel at LEVEL 1 ends whose trip input was asserted when last seen (R153). -/
def Dev.blankEnds (d : Dev) (t : BitVec 64) : List (BitVec 64) :=
  let ks := (List.range 16).filter fun k => d.rdB (F.EDG_TRIP_LEVEL k)
  let l := ks.flatMap fun k => (d.watchers k).filterMap fun c =>
    match (d.ch c).out, (d.ch c).lastTr with
    | 1, some u => some (u + BitVec.ofNat 64 (d.rd (F.CH_TRIP_BLANK c) * 163840))
    | _, _ => none
  (l.filter fun e => 0 < (e - d.time.now).toInt && 0 ≤ (t - e).toInt).mergeSort fun a b => 0 ≤ (b - a).toInt

/-- Device time reaches the instant `t` of a planned event; a trip that outlasts a blanking acts where the blanking ends (R153, R154). -/
def Wk.reachEvent (w : Wk) (t : BitVec 64) : Wk := (w.each (w.d.blankEnds t) fun e w => (w.advanceTo e).tripScan).advanceTo t

/-- A planned event comes at its instant. -/
def Wk.comeEvent (w : Wk) (e : Ev) : Wk :=
  let t := w.d.boundaryNow + BitVec.ofNat 64 (e.off * 5120)
  ((w.reachEvent t).doEvent e t).tripScan

/-- The first planned event that fits happens at its instant. -/
def Wk.fire (w : Wk) (sel : Ev → Bool) : Wk :=
  match takeEv sel w.d.edge.plan with
  | none => w
  | some (e, r) => (w.up fun d => { d with edge := { d.edge with plan := r } }).comeEvent e

/-! ## The plan (R128, R145) and the boundary (R132, R149) -/

/-- The plan of one timebase and of its channels, with their states: what the plan leaves alone is what runs now. -/
def Dev.takePlan (d : Dev) (t : Nat) (x : TbSt × List Ev × List (Nat × ChRun)) : Dev :=
  x.2.2.foldl (fun d y => d.setCh y.1 { y.2.s with run := (d.ch y.1).run, out := (d.ch y.1).out, inPer := (d.ch y.1).inPer, ended := (d.ch y.1).ended, lastTr := (d.ch y.1).lastTr })
    (d.setTb t { x.1 with pos0 := (d.tb t).pos0 })

/-- What a plan reports of its channels: PHS_WRAP (R133) and the clamps (R134). -/
def Wk.planReports (w : Wk) (runs : List (Nat × ChRun)) : Wk :=
  let w := w.up fun d => runs.foldl (fun d y => if y.2.wrap then d.wr (F.CH_STAT_PHS_WRAP y.1) 1 else d) d
  w.each (runs.filter fun y => y.2.clamped) fun y w => (w.up (·.wr (F.CH_STAT_DUTY_CLAMP y.1) 1)).raise 89 0 y.1

/-- The events of a plan. -/
def planEvs (x : TbSt × List Ev × List (Nat × ChRun)) : List Ev := x.2.1 ++ x.2.2.flatMap fun y => y.2.evs

/-- The plan of frame n+1 at the plan instant of frame n: the events of every timebase and channel, fixed against the
values of boundary n+1; clamps are reported here (R134), PHS_WRAP by R133. -/
def Wk.edgePlan (w : Wk) : Wk :=
  let pv := w.d.preview
  let todo := (List.range 64).filter fun t => pv.rdB (F.TB_CTRL_EN t) || (pv.tb t).run
  let res := todo.map fun t => (t, planTb pv t)
  let w := w.up fun d => res.foldl (fun d x => d.takePlan x.1 x.2) d
  let w := w.up fun d => { d with edge := { d.edge with next := sortEvs (res.flatMap fun x => planEvs x.2) } }
  (w.up (·.syncArmed)).planReports (res.flatMap fun x => x.2.2.2)

/-- Events of the frame that ends take effect by its end, each at its instant. [Log: DEDUCED 45] -/
def Wk.flushPlan (w : Wk) : Wk :=
  let l := w.d.edge.plan
  w.each l fun e w => (w.up fun d => { d with edge := { d.edge with plan := d.edge.plan.drop 1 } }).comeEvent e

/-- A timebase whose EN applies at a boundary although the plan did not start it (a safe state cleared it in between) starts there all the
same, with the plan of the frame that begins (R132, R465). -/
def Wk.lateStart (w : Wk) (t : Nat) : Wk :=
  let x := planTb w.d t
  let mine (e : Ev) : Bool := match e.kind with | .tbReload => e.unit = t | .cmpx _ => e.unit = t | _ => decide (e.unit < 256) && decide (w.d.rd (F.CH_CTRL_TB e.unit) = t)
  (w.up fun d => let d := d.takePlan t x; { d with edge := { d.edge with plan := sortEvs (d.edge.plan.filter (fun e => !mine e) ++ planEvs x) } }).planReports x.2.2

/-- A timebase that starts takes the shadows of its own and of its channels (R465), but no period that R147 refuses. [Log: DEDUCED 20, 21] -/
def Dev.tbStart (d : Dev) (t : Nat) : Dev :=
  let x := d.tb t
  let d := d.transfer (F.TB_PER t).key x.per
  let d := (List.range 4).foldl (fun d m => d.transfer (F.TB_CMPX t m).key (x.cmpx.getD m 0)) d
  (List.range 256).foldl (fun d c =>
    if d.rd (F.CH_CTRL_TB c) ≠ t then d
    else if (d.ch c).on then (d.transfer (F.CH_CMP c).key (d.ch c).cmp).transfer (F.CH_PHS c).key (d.ch c).tgt
    else ((d.transfer (F.CH_CMP c).key (d.carVal (F.CH_CMP c))).transfer (F.CH_PHS c).key (d.carVal (F.CH_PHS c))).setCh c { d.ch c with armed := false, byGrp := false, tgt := d.carVal (F.CH_PHS c) }) d

/-- A boundary of the edge engine, once the values due apply: the plan of the frame that begins comes into force, timebases
start and stop, channels take LEVEL 0 or LEVEL 2 (R132, R149). A channel that reloads at this very boundary drops the low-side turn-on (R166).
Under a debug halt nothing starts: an EN that applies is cleared as those at its entry were (R158, R161). [Log: DEDUCED 20, 53, 79] -/
def Wk.edgeBoundary (w : Wk) : Wk :=
  let w := w.on (w.d.rdB F.EDG_STAT_HALT) (·.up (·.clearEnables))
  let at_ := w.d.boundaryNow
  let w := w.up fun d => { d with edge := { d.edge with plan := d.edge.next, next := [] } }
  let w := w.each (List.range 64) fun t w =>
    let en := w.d.rdB (F.TB_CTRL_EN t)
    let was := w.d.rdB (F.TB_STAT_RUN t)
    let w := w.on (en && !was && !(w.d.tb t).run) (·.lateStart t)
    let w := w.on (en && !was && (w.d.tb t).run) fun w =>
      let w := w.up (·.tbStart t)
      w.on (w.d.tb t).rej fun w => (w.up (·.wr (F.TB_STAT_PER_REJ t) 1)).raise 52 0 t
    let w := w.on (en != was) (·.up (·.wrB (F.TB_STAT_RUN t) en))
    w.on en (·.up fun d => d.setTb t { d.tb t with pos0 := (d.tb t).pos1 })
  let w := w.each (List.range 256) fun c w =>
    let run := w.d.rdB (F.CH_CTRL_EN c) && w.d.rdB (F.TB_STAT_RUN (w.d.rd (F.CH_CTRL_TB c)))
    let old : Bool := match (w.d.ch c).lastTr with | some t => decide (131072000 < (w.d.time.now - t).toNat) | none => false
    let w := w.on old (·.up fun d => d.setCh c { d.ch c with lastTr := none })
    if run = (w.d.ch c).run then w else
    let lvl := if run then 0 else 2
    let w := w.up fun d => d.setCh c { d.ch c with run := run, out := lvl, inPer := false, ended := false, lastTr := some at_ }
    let atOnce := run && w.d.edge.plan.any fun e => e.off = 0 && decide (e.kind = .reload) && e.unit = c && e.level = 1
    w.on (w.d.rd (F.CH_ROUTE_KIND c) = 1 && !atOnce) (·.planned (w.d.rd (F.CH_ROUTE_PAIR c)) lvl true at_)
  w.up fun d => (d.aimAll none).syncArmed

/-- The position of a timebase now (Table 5-3). -/
def Dev.tbPos (d : Dev) (t : Nat) : Nat :=
  if !d.rdB (F.TB_STAT_RUN t) then d.rd (F.TB_POS t) else
  let per := d.rd (F.TB_PER t) * 32
  let el := (d.time.now - d.boundaryNow).toInt / 5120
  if per = 0 then 0 else (((d.tb t).pos0 + el) % (per : Int)).toNat

/-- Positions are kept where they stand, for inspection (R161). -/
def Dev.freezePos (d : Dev) : Dev :=
  (List.range 64).foldl (fun d t => if d.rdB (F.TB_STAT_RUN t) then d.wr (F.TB_POS t) (d.tbPos t) else d) d

/-! ## DEN toggles (R184) -/

/-- A write of 1 to TOGGLE bits; a bit that already toggles is left alone. [Log: DEDUCED 44] -/
def Dev.denToggle (d : Dev) (mask : Nat) : Dev :=
  (List.range 8).foldl (fun d m =>
    if bitOf mask m ∧ (tget none d.edge.den m).isNone then
      { d with edge := { d.edge with den := tput none d.edge.den m (some 0) } }.setBit F.GSV_DEN_TOGGLE m
    else d) d

/-- The toggles at a boundary: a new one makes its DEN inactive, a running one has lasted one frame more. -/
def Wk.denBoundary (w : Wk) : Wk :=
  let w := w.each (List.range 8) fun m w =>
    match tget none w.d.edge.den m with
    | none => w
    | some n =>
      let w := w.up fun d => { d with edge := { d.edge with den := tput none d.edge.den m (some (n + 1)) } }
      w.on (n = 0) fun w => w.each ((List.range 16).filter fun k => w.d.rd (F.GSV_PAIR_DEN k) = m) fun k w => w.pairOff k
  w.up (·.syncDen)

/-- Whether a pair that a gate latch or a trip latch holds stays latched at the end of a toggle (R184): its monitor reads below threshold, or
its desaturation input is asserted, and the source is raised again. [Log: DEDUCED 43] -/
def Wk.relatch (w : Wk) (k : Nat) : Wk × Bool :=
  let mons := (List.range 16).filter fun m => bitOf (w.d.rd F.GSV_GSM_STAT_BELOW) m ∧ (w.d.rd (F.GSV_GSM_KIND m) = 1 ∨ w.d.rd (F.GSV_GSM_KIND m) = 2) ∧ w.d.rd (F.GSV_GSM_PAIR m) = k
  let (w, held) := if w.d.rdB (F.GSV_PAIR_DSAT_EN k) then w.tripHeld (w.d.rd (F.GSV_PAIR_DSAT_TIN k)) else (w, false)
  let was := bitOf (w.d.rd F.GSV_STAT_LATCHED) k || (List.range 256).any fun c => decide (w.d.rd (F.CH_ROUTE_KIND c) = 1) && decide (w.d.rd (F.CH_ROUTE_PAIR c) = k) && w.d.rdB (F.CH_STAT_LATCHED c)
  let w := w.on was (·.each mons fun m w => w.raise 10 0 m)
  let w := w.on (was && held) (·.raise 9 0 k)
  (w, was && (!mons.isEmpty || held))

/-- A toggle ends at a boundary: DENm goes active again and its pairs' latches clear, unless their cause persists; each channel then follows
R149, its level from LEVEL 2 being a transition. [Log: DEDUCED 44] -/
def Wk.denEnd (w : Wk) (m : Nat) : Wk :=
  let w := w.up fun d => ({ d with edge := { d.edge with den := tput none d.edge.den m none } }.clrBit F.GSV_DEN_TOGGLE m).syncDen
  w.each ((List.range 16).filter fun k => w.d.rd (F.GSV_PAIR_DEN k) = m) fun k w =>
    let (w, bad) := w.relatch k
    if bad then w else
    let w := w.up (·.clrBit F.GSV_STAT_LATCHED k)
    let cs := (List.range 256).filter fun c => w.d.rd (F.CH_ROUTE_KIND c) = 1 ∧ w.d.rd (F.CH_ROUTE_PAIR c) = k
    let w := w.up fun d => cs.foldl (fun d c => ((d.wr (F.CH_STAT_LATCHED c) 0).wr (F.CH_TCNT_CNT c) 0).setCh c { d.ch c with out := if (d.ch c).run then 0 else 2, inPer := false, ended := false, lastTr := if (d.ch c).run && (d.ch c).out ≠ 0 then some d.boundaryNow else (d.ch c).lastTr }) d
    (w.drivePair k (w.d.time.rt - w.d.since w.d.boundaryNow)).aim k

/-! ## Rows -/

/-- TIMEBASE_RELOAD. -/
def execTimebaseReload (t : Nat) (s : State) : Host.Outcome State Fault Refusal :=
  s.run (·.fire fun e => decide (e.kind = .tbReload) && e.unit = t)

/-- CHANNEL_TRANSITION: of channel `c`; from 256 on the precharge pulse of local pair c − 256. -/
def execChannelTransition (c : Nat) (s : State) : Host.Outcome State Fault Refusal :=
  s.run (·.fire fun e => (decide (e.kind = .reload) || decide (e.kind = .compare)) && e.unit = c)

/-- CMPX_FIRE. -/
def execCmpxFire (t m : Nat) (s : State) : Host.Outcome State Fault Refusal :=
  s.run (·.fire fun e => decide (e.kind = .cmpx m) && e.unit = t)

/-- TRIP_INPUT_ASSERT (R153 to R155, Table 7-1). -/
def execTripInputAssert (x : TripIn) (s : State) : Host.Outcome State Fault Refusal := s.run (·.tripInputs [x])

/-- GATE_DESAT (R180, R182): desaturation inputs that assert in one EDGE cycle. [Log: DEDUCED 43] -/
def execGateDesat (l : List TripIn) (s : State) : Host.Outcome State Fault Refusal := s.run (·.tripInputs l)

/-- DFB_OFF_LEVEL (R164): DFB goes to a level; one that has left its off level is not stuck. At its off level, as DFB_POL has it, the turn-on
that the handshake holds goes ahead 5 ns later at the earliest, and the time of R168 runs anew. [Log: DEDUCED 85] -/
def Wk.dfbLevel (w : Wk) (k : Nat) (high : Bool) : Wk :=
  let x := w.d.pair k
  if 16 ≤ k then w else
  let off := high != w.d.rdB (F.GSV_PAIR_DFB_POL k)
  let due := if w.d.rdB (F.GSV_PAIR_HS_EN k) && x.want.isSome then max x.due (w.d.time.rt + 320) else x.due
  if !off then w.up fun d => d.setPair k { x with dfb := high, stuck := false, moved := true }
  else if x.dfb = high ∧ !x.stuck ∧ !x.moved then w
  else (w.up fun d => d.setPair k { x with dfb := high, dfbAt := d.time.rt, stuck := false, moved := false, offAt := none, due := due }).releasePin k

/-- DFB_OFF_LEVEL. [Log: DEDUCED 85] -/
def execDfbOffLevel (x : DfbIn) (s : State) : Host.Outcome State Fault Refusal := s.run (·.dfbLevel x.k x.high)

/-- GATE_HS_TIMEOUT (R167): HS_TO ns after the outgoing pin went off, DFB has not reached its off level. -/
def execGateHsTimeout (k : Nat) (s : State) : Host.Outcome State Fault Refusal :=
  s.run fun w =>
    match (w.d.pair k).offAt with
    | none => w
    | some t =>
      if 16 ≤ k ∨ !w.d.rdB (F.GSV_PAIR_HS_EN k) ∨ w.d.dfbOff k then w else
      let w := w.advanceRt (t + 64 * w.d.rd (F.GSV_PAIR_HS_TO k))
      let w := (w.latchPair k).up fun d => d.setPair k { d.pair k with offAt := none }
      (w.up (·.inc F.GSV_CNT_HST)).raise 11 0 k

/-- DFB_STUCK (R168): DFB has stood at its off level for HS_TO ns while a pin was active, since the pin went on or since DFB came back; it has
not been seen away from it since. The handshake goes on using the input, which stands there until it moves. [Log: DEDUCED 85] -/
def execDfbStuck (k : Nat) (s : State) : Host.Outcome State Fault Refusal :=
  s.run fun w =>
    let x := w.d.pair k
    if 16 ≤ k ∨ !(x.a || x.b) ∨ x.moved then w else
    let w := w.advanceRt (max (if x.a then x.aAt else x.bAt) x.dfbAt + 64 * w.d.rd (F.GSV_PAIR_HS_TO k))
    (w.up fun d => d.setPair k { d.pair k with dfb := !d.rdB (F.GSV_PAIR_DFB_POL k), stuck := true }).raise 53 0 k

/-- GSMON_FALL (R170, R171): the ball at `dmv` tenths of a mV for `us` µs; accepted below TH × 1.2 mV, after FILT. [Log: DEDUCED 43] -/
def Wk.gsmonFall (w : Wk) (m dmv us : Nat) : Wk :=
  let kind := w.d.rd (F.GSV_GSM_KIND m)
  if 16 ≤ m ∨ (kind ≠ 1 ∧ kind ≠ 2) ∨ 12 * w.d.rd (F.GSV_GSM_TH m) ≤ dmv ∨ us < w.d.rd (F.GSV_GSM_FILT m) then w else
  let k := w.d.rd (F.GSV_GSM_PAIR m)
  let w := w.up fun d => (d.setBit F.GSV_GSM_STAT_UVLO_SEEN m).setBit F.GSV_GSM_STAT_BELOW m
  let w := w.on (kind = 2) (·.up (·.clrBit F.GSV_STAT_HELD k))
  let pre := match w.d.edge.pc with | some p => p.pairs.contains k && !p.doneP.contains k && !p.failP.contains k | none => false
  w.on ((w.d.pairCh k).isSome || pre) fun w => (w.latchPair k).raise 10 0 m

/-- GSMON_FALL. [Log: DEDUCED 43] -/
def execGsmonFall (x : GsmIn) (s : State) : Host.Outcome State Fault Refusal := s.run (·.gsmonFall x.m x.dmv x.us)

/-- GSMON_RISE (R170, R171): accepted above (TH + HYST) × 1.2 mV, after FILT. [Log: DEDUCED 43] -/
def Wk.gsmonRise (w : Wk) (m dmv us : Nat) : Wk :=
  let kind := w.d.rd (F.GSV_GSM_KIND m)
  if 16 ≤ m ∨ (kind ≠ 1 ∧ kind ≠ 2) ∨ dmv ≤ 12 * (w.d.rd (F.GSV_GSM_TH m) + w.d.rd (F.GSV_GSM_HYST m)) ∨ us < w.d.rd (F.GSV_GSM_FILT m) then w else
  let w := w.up (·.clrBit F.GSV_GSM_STAT_BELOW m)
  w.on (kind = 2) (·.up fun d => d.setBit F.GSV_STAT_HELD (d.rd (F.GSV_GSM_PAIR m)))

/-- GSMON_RISE. [Log: DEDUCED 43] -/
def execGsmonRise (x : GsmIn) (s : State) : Host.Outcome State Fault Refusal := s.run (·.gsmonRise x.m x.dmv x.us)

/-- EDGE_CLK_LOST (R158, R159). -/
def execEdgeClkLost (s : State) : Host.Outcome State Fault Refusal :=
  s.run fun w => (w.up fun d => ((d.enterSafe 3).wr F.EDG_STAT_CLK_LOST 1).setRun d.run.halted).raise 3 0 0

/-- DEBUG_HALT (R158, R161): only while debug is open (R504); every position freezes, and every applied EN clears, also one that has
applied in the safe state. [Log: DEDUCED 24, 53] -/
def execDebugHalt (s : State) : Host.Outcome State Fault Refusal :=
  s.run (·.up fun d => if !d.rdB F.SEC_DBG_DEBUG then d else ((d.freezePos.enterSafe 6).clearEnables.wr F.EDG_STAT_HALT 1).setRun d.run.halted)

/-- DEBUG_HALT_RELEASE (R161): the engine stays in the safe state. -/
def execDebugHaltRelease (s : State) : Host.Outcome State Fault Refusal := s.run (·.up (·.wr F.EDG_STAT_HALT 0))

/-- DEN_TOGGLE_END (R184): LOW_FR frames have passed since DENm went inactive. -/
def execDenToggleEnd (m : Nat) (s : State) : Host.Outcome State Fault Refusal :=
  s.run fun w =>
    match tget none w.d.edge.den m with
    | some n => w.on (decide (max 2 (w.d.rd F.GSV_DEN_LOW_FR) < n)) (·.denEnd m)
    | none => w

end Sys2Proof.Machine
end

