-- ==== Sys2Proof/Machine/Twin.lean ====
section
/-! DEFINITION. The twin pair (12_redundancy.md, R333 to R356) and the management cores (R327 to R330). -/
namespace Sys2Proof.Machine

/-- Change the twin state. -/
def Dev.upTwn (d : Dev) (f : TwnSt → TwnSt) : Dev := { d with twn := f d.twn }

/-- This unit's number. -/
def Dev.unit (d : Dev) : Nat := d.rd F.TWN_STAT_UNIT
/-- Whether this unit is the preferred one. -/
def Dev.preferred (d : Dev) : Bool := d.rd F.TWN_CTRL_PREF = d.unit
/-- Whether the unit computes its program (Table 12-2). -/
def Dev.computes (d : Dev) : Bool := d.twin ≠ 1 && d.twin ≠ 5

/-- TX_LEAD of a frame started at CMP_END (R96): the device latency of 100 ns and the start delimiter lie before departure. -/
def Dev.txLead (d : Dev) (n : Nat) : Nat := (d.rd F.SYS_FRM_LEN - d.cmpEnd) * 640 - 25600 - 16384 / d.payload n

/-- A number in tu for a delay in ps. -/
def psTu (ps : Nat) : Nat := ps * 65536 / 1000

/-- The index nearest to `k` whose sequence number is `seq` (R17). [Log: DEDUCED 46] -/
def nearIndex (k : BitVec 32) (seq : Nat) : BitVec 32 := k + BitVec.ofInt 32 (sext 16 ((seq + 65536 - seqOf k) % 65536))

/-- The frames of a follower align with the unit it follows (R339, R363): the next boundary has sequence number `seq`, is the one
nearest to index `k1` that has it, and lies at `tgt`; FRM_BASE, the index at which LEN last changed, stays (R16); SYS_FRM_STAT.SEQ names
the frame that is now present (R17). [Log: DEDUCED 46] -/
def Dev.alignFrames (d : Dev) (k1 : BitVec 32) (seq : Nat) (tgt : BitVec 64) : Dev :=
  if d.frame.k + 1 = nearIndex k1 seq ∧ d.boundaryAt (d.frame.k + 1) = tgt then d else
  let k := nearIndex k1 seq - 1
  { d with frame := { d.frame with k := k, origin := tgt - BitVec.ofNat 64 ((k + 1 - d.frame.base).toNat * d.frameTu) } }.wr F.SYS_FRM_STAT_SEQ (seqOf k)

/-- A header of the unit followed, by which the device's clock stands `off` ahead (R56, R32): the next boundary, near index `k1`, lies at
`tgt` of the upstream clock, which a clock that is to step reads as `tgt + off` until its step. -/
def Wk.follow (w : Wk) (k1 : BitVec 32) (seq : Nat) (tgt : BitVec 64) (off : Int) : Wk :=
  (w.discipline off).up (·.alignFrames k1 seq (if off.natAbs > 65536 * 1000 then tgt + BitVec.ofInt 64 off else tgt))

/-! ## State changes -/

/-- A unit becomes ACTIVE (R348): the next epoch, stored before its first downlink. -/
def Dev.becomeActive (d : Dev) : Dev :=
  let e := max (d.rd F.TWN_EPOCH) d.twn.hi + 1
  let d := ((d.wr F.TWN_EPOCH e).setTwin 4).retime
  d.upTwn fun t => { t with hi := e, deaf := 0, hbk := none, hbkAsk := false, hbkOwn := false, hbkAcc := false, yieldSeen := false, demote := false, lostAll := false, lostSb := false, aligned := false }

/-- A unit enters SYNC: it follows its partner's time (R339). -/
def Dev.enterSync (d : Dev) : Dev :=
  (d.setTwin 2).retime.upTwn fun t => { t with okRun := 0, aligned := false, demote := false, yieldSeen := false, hbk := none, hbkAsk := false, hbkOwn := false, hbkAcc := false }

/-- Whether the switch of a handback has been made (R353): its reply is due at the named boundary. -/
def Dev.handbackDone (d : Dev) : Bool := d.twn.hbk.isSome && (if d.twn.hbkOwn then d.twin ≠ 4 else d.twin = 4)

/-- A handback is abandoned (R353): the hold starts again, and a TWIN_HANDBACK that waits replies ABANDONED. -/
def Dev.abandonHandback (d : Dev) : Dev :=
  if (d.twn.hbk.isNone ∧ !d.twn.hbkAsk) ∨ d.handbackDone then d else
  let d := (d.upTwn fun t => { t with hbk := none, hbkAsk := false, hbkOwn := false, hbkAcc := false, since := none }).wr F.TWN_STAT_HBK_PEND 0
  (d.wr F.TWN_HBK_HBK_SEQ 0).abandon [.handback] 4

/-- A shadow that abandons an offered handback does not accept the same offer again (R353). [Log: DEDUCED 46] -/
def Dev.declineHandback (d : Dev) : Dev :=
  if d.twn.hbk.isNone ∨ d.twn.hbkOwn ∨ d.handbackDone then d.abandonHandback else
  let seq := d.rd F.TWN_HBK_HBK_SEQ
  d.abandonHandback.upTwn fun t => { t with hbkNo := some seq }

/-- An active unit yields (R350): it enters YIELDED, its outputs go safe at once. [Log: DEDUCED 46] -/
def Wk.yieldNow (w : Wk) : Wk :=
  let ok := w.d.twin = 4 && w.d.twn.pState = some 3 && w.d.rdB F.TWN_CTRL_YIELD_EN && (w.d.yieldDue || decide (3 ≤ w.d.twn.deaf))
  w.on ok fun w =>
    (w.up fun d => ({ ((d.abandonHandback.setTwin 5).inc F.TWN_CNT_YIELDS) with yieldDue := false }).upTwn fun t => { t with live := false, deaf := 0 }).syncOutputs

/-- At a plan instant a yield that is owed and can no longer be made, since its conditions have gone, is dropped: the /QS/ that it
would have replaced goes out (R350, R160). [Log: DEDUCED 46] -/
def Dev.dropYield (d : Dev) : Dev :=
  if !d.yieldDue then d else let d := { d with yieldDue := false }; if d.safe then d.sendQs else d

/-- The beads whose valid record of this frame the unit holds. -/
def Dev.heardBeads (d : Dev) : List Nat := (List.range 96).filter fun b => (d.bead b).got

/-- The HEARD byte of a unit in a bead's last record, and its EPOCH (Table 4-7). -/
def Dev.heardByte (d : Dev) (b u : Nat) : Nat := le (d.bead b).last (8 + u) 1
/-- See `Dev.heardByte`. -/
def Dev.beadEpoch (d : Dev) (b : Nat) : Nat := le (d.bead b).last 4 4

/-- What uplink records tell a unit of the twin: the highest epoch (R335), and that it is superseded (R349). -/
def Wk.twinUplink (w : Wk) : Wk :=
  if !w.d.rdB F.TWN_CTRL_EN then w else
  let bs := w.d.heardBeads
  let w := w.up (·.upTwn fun t => { t with hi := bs.foldl (fun m b => max m (w.d.beadEpoch b)) t.hi })
  let own := w.d.rd F.TWN_EPOCH
  let p := 1 - w.d.unit
  let sup := bs.any fun b => decide (own < w.d.beadEpoch b) || (w.d.beadEpoch b = own && !w.d.preferred && bitOf (w.d.heardByte b p) 0)
  w.on (w.d.twin = 4 && sup && !w.d.twn.demote) fun w => (w.up fun d => (d.upTwn fun t => { t with demote := true }).inc F.TWN_CNT_DEMOTIONS).raise 70 0 w.d.unit

/-- The witness at UPL_END (R350, R351, R355): silence of the active unit, the own one's or the partner's; a take-over. [Log: DEDUCED 15, 46] -/
def Wk.twinUplEnd (w : Wk) : Wk :=
  if !w.d.rdB F.TWN_CTRL_EN ∨ w.d.twin = 0 then w else
  let bs := w.d.heardBeads
  let enough := decide (w.d.rd F.TWN_CTRL_WIT_MIN ≤ bs.length)
  let act := if w.d.twin = 4 then w.d.unit else 1 - w.d.unit
  let silent := enough && bs.all fun b => w.d.heardByte b act % 8 = 0
  let w := w.up fun d => (d.wrB F.TWN_STAT_WIT_SILENT silent).upTwn fun t => { t with
    heard := bs.any fun b => decide (d.heardByte b 0 ≠ 0) || decide (d.heardByte b 1 ≠ 0)
    deaf := if enough && bs.all (fun b => !bitOf (d.heardByte b d.unit) 0) then t.deaf + 1 else 0 }
  let both := decide (2 ≤ w.d.rd F.TWN_STAT_H1_MISS) && decide (2 ≤ w.d.rd F.TWN_STAT_H2_MISS)
  let w := w.on (w.d.twin = 3 && both && enough && !silent && !w.d.twn.lostAll) fun w => (w.up (·.upTwn fun t => { t with lostAll := true })).raise 38 0 0
  let w := w.on (w.d.twin = 4 && both && !w.d.twn.lostSb && w.d.twn.pState.isSome) fun w =>
    (w.up (·.upTwn fun t => { t with lostSb := true })).raise 41 0 (1 - w.d.unit)
  w.on (w.d.twin = 3 && both && silent && !w.d.twn.clash) fun w =>
    (w.up fun d => (d.becomeActive.inc F.TWN_CNT_TAKEOVERS).upTwn fun t => { t with denDue := some t.pDen }).raise 39 0 w.d.unit

/-- The plan instant of a unit of the twin: yields and demotions that are due, a take-over from a unit seen to yield, the
steps of a handback (R349, R350, R353). [Log: DEDUCED 46] -/
def Wk.twinPlan (w : Wk) : Wk :=
  if !w.d.rdB F.TWN_CTRL_EN then w else
  let w := w.yieldNow.up (·.dropYield)
  let w := w.on (w.d.twin = 4 && w.d.twn.demote) fun w => (w.up fun d => d.abandonHandback.enterSync.upTwn fun t => { t with live := false }).syncOutputs
  let w := w.on (w.d.twin = 3 && w.d.twn.yieldSeen && !w.d.twn.clash) fun w => (w.up fun d => d.becomeActive.upTwn fun t => { t with denDue := some t.pDen }).raise 40 0 (1 - w.d.unit)
  let w := w.on (w.d.twin = 4 && w.d.twn.hbkAsk && w.d.twn.hbk.isNone) fun w => w.up fun d =>
    let k := d.frame.k + 8
    ((d.upTwn fun t => { t with hbk := some k, hbkOwn := true, hbkAcc := false, hbkAsk := false }).wr F.TWN_STAT_HBK_PEND 1).wr F.TWN_HBK_HBK_SEQ (seqOf k)
  match w.d.twn.hbk with
  | none => w
  | some k =>
    let w := w.on (w.d.twn.hbkOwn && w.d.frame.k + 2 = k && !w.d.twn.hbkAcc) (·.up (·.abandonHandback))
    if w.d.twn.hbk.isNone ∨ w.d.frame.k + 1 ≠ k then w
    else if w.d.twn.hbkOwn then
      (w.up fun d => ((d.inc F.TWN_CNT_HANDBACKS).setTwin 2).retime.upTwn fun t => { t with okRun := 0, aligned := true, yieldSeen := false }).raise 69 0 w.d.unit
    else if w.d.twn.clash then w.up (·.declineHandback)
    else (w.up fun d => d.becomeActive.upTwn fun t => { t with hbk := some k }).raise 69 0 w.d.unit

/-- A unit of a twin enters LISTEN with nothing heard (R335). -/
def Dev.enterListen (d : Dev) : Dev := (d.setTwin 1).retime.upTwn fun _ => {}

/-- A boundary of the twin: LISTEN is entered when the frames run, R343 is judged, the state of the active unit overwrites
the shadow's, outputs change hands, a handback's reply is due. [Log: DEDUCED 46] -/
def Wk.twinBoundary (w : Wk) : Wk :=
  let en := w.d.rdB F.TWN_CTRL_EN
  if !en then w.on (w.d.twin ≠ 0) (fun w => (w.up fun d => (d.setTwin 0).retime.upTwn fun _ => {}).syncOutputs)
  else if w.d.twin = 0 then (w.up (·.enterListen)).syncOutputs
  else
    let w := w.up fun d => d.upTwn fun t => { t with listen := if d.twin = 1 then t.listen + 1 else 0, h2Got := false, h2Done := false, hbBlk := t.hbDown }
    let meets := w.d.rdB F.TIM_STAT_LOCK && w.d.twn.same && w.d.rdB F.LPE_STAT_VERIFIED && w.d.twn.body && decide (w.d.rd F.FLT_STAT_CLASSMAX < 3)
    let w := w.up fun d => d.upTwn fun t => { t with okRun := if d.twin = 2 && meets then t.okRun + 1 else 0 }
    let w := w.on (w.d.twin = 3 && decide (3 ≤ w.d.rd F.FLT_STAT_CLASSMAX)) (·.up (·.enterSync))
    let w := match w.d.twn.vals with
      | some (f, vs) => w.on (w.d.twin = 2 || w.d.twin = 3) (fun w => w.up fun d => ((d.stateWords (some f)).zip vs).foldl (fun (d : Dev) (x : Nat × Nat) => d.putS x.1 x.2) d)
      | none => w
    let w := w.up fun d => (d.wrB F.TWN_STAT_SYNCED d.twn.body).upTwn fun t => { t with vals := none, body := false }
    let w := w.up fun d => d.upTwn fun t => { t with since := if d.twin = 4 && t.pState = some 3 && d.rdB F.TWN_STAT_SYNCED then some (t.since.getD d.time.rt) else none }
    let w := w.on (match w.d.twn.hbk with | some k => decide ((w.d.frame.k - k).toNat < 2 ^ 31) | none => false) (fun w => w.up fun d =>
      let seq := d.rd F.TWN_HBK_HBK_SEQ
      let d := ((d.upTwn fun t => { t with hbk := none, hbkOwn := false, hbkAcc := false }).wr F.TWN_STAT_HBK_PEND 0).wr F.TWN_HBK_HBK_SEQ 0
      d.settle (fun x => decide (x.kind = WaitKind.handback)) fun _ => (Status.ok, 0, [seq]))
    let w := match w.d.twn.denDue with
      | some v => w.up fun d => (if d.twin = 4 && !w.v.lockout then d.wr F.GSV_DEN_EN v else d).upTwn fun t => { t with denDue := none }
      | none => w
    (w.up fun d => d.upTwn fun t => { t with live := d.twin = 4 }).syncOutputs

/-! ## Mirroring (R342, R343) -/

/-- The active unit mirrors something. [Log: DEDUCED 47] -/
def Dev.mirror (d : Dev) (m : Mgt) : Dev :=
  if d.twin = 4 then d.upTwn fun t => { t with out := t.out ++ [Config.mgtBytes m], nOut := t.nOut + 1 } else d

/-- What of the waiting messages goes into `room` bytes, and what is left for later frames. -/
def mgtTake : Nat → List (List Byte) → List Byte × List (List Byte)
  | _, [] => ([], [])
  | room, m :: r =>
    if m.length ≤ room then ((m ++ (mgtTake (room - m.length) r).1), (mgtTake (room - m.length) r).2) else (m.take room, m.drop room :: r)

/-- Bytes filled up to whole messages of 16. -/
def mgtPad (b : List Byte) : List Byte := padTo ((b.length + 15) / 16 * 16) b

/-- Digests of the coefficient banks and of the applied STG fields. -/
def Dev.coefDigest (d : Dev) : Nat :=
  crc32c ((d.lpe.mem.filter fun e => decide (131072 ≤ e.1)).flatMap fun e => leBytes 4 e.1 ++ leBytes 4 e.2)
/-- See `Dev.coefDigest`. -/
def Dev.cfgDigest (d : Dev) : Nat :=
  crc32c ((stgRegs d.regs).flatMap fun e => leBytes 4 e.1 ++ leBytes 4 e.2)

/-- What one management message does at the partner: a STG value enters the pending copy; a command is scheduled for its
boundary, a STAGE_APPLY as the set's applying boundary. [Log: DESIGN CHOICE 10; DEDUCED 47] -/
def Dev.takeMgt (d : Dev) (m : Mgt) : Dev :=
  match m with
  | .stg addr v =>
    let d := d.upTwn fun t => { t with nIn := t.nIn + 1 }
    let stg := (fieldsAt addr).foldl (fun s f => if f.app = .stg then tput none s f.key (some (v / 2 ^ f.lo % 2 ^ f.width)) else s) d.stg
    { d with stg := stg, stage := some (d.stage.getD ⟨2, none⟩) }
  | .cmd op ps due =>
    let d := d.upTwn fun t => { t with nIn := t.nIn + 1 }
    if op = Config.opStageApply then { d with stage := some ⟨2, some due⟩ }
    else if op = Config.opStageAbort then d.closeSet
    else d.upTwn fun t => { t with sched := t.sched ++ [(due, op, ps)] }
  | .status img coef cfg run den miss sent =>
    let missed := decide (d.twn.nIn ≠ sent) && d.twin = 3
    let same := decide (img = d.lpe.imgCrc) && decide (coef = d.coefDigest) && decide (cfg = d.cfgDigest)
    let d := (d.upTwn fun t => { t with pRun := run, pDen := den, pMiss := miss, nIn := sent, same := same }).noteRun d
    if missed then d.enterSync else d

/-! ## The TWIN frame (R336 to R340, R345) -/

/-- The header of a TWIN frame (Table 12-3). -/
def Dev.twinHeader (d : Dev) (n nrel nst nmgt : Nat) : List Byte :=
  let hb := d.twn.hbk.isSome && (d.twn.hbkOwn || d.twn.hbkAcc)
  let b := [BitVec.ofNat 8 0x31, BitVec.ofNat 8 (d.unit + 2 * d.rd F.TWN_CTRL_PREF + 4 * d.twin + 32 * b2n (d.twin = 5) + 64 * b2n hb)]
    ++ leBytes 2 (seqOf d.frame.k) ++ leBytes 4 (d.rd F.TWN_EPOCH) ++ leBytes 8 (d.boundaryAt (d.frame.k + 1)).toNat
    ++ leBytes 4 (d.rd F.LPE_FCNT) ++ leBytes 4 (d.txLead n) ++ leBytes 2 nrel
    ++ leBytes 2 (if hb then (match d.twn.hbk with | some k => seqOf k | none => 0) else 0) ++ leBytes 2 nst ++ leBytes 1 nmgt
  b ++ [BitVec.ofNat 8 (crc8 b)]

/-- A unit in LISTEN or later sends one TWIN frame on each TWIN lane: `relay` the relay blocks with their record count. Messages that
find no room in its 512 bytes wait for the next frame (R336, R342). -/
def Dev.sendTwin (d : Dev) (relay : List Byte) (nrel : Nat) : Dev :=
  if d.twin = 0 then d else
  let act : Bool := d.twin = 4
  let vals := if act then (d.stateWords (some (d.rd F.LPE_FCNT))).map d.smem else []
  let st (n : Nat) : List Byte := (mgtPad (Config.mgtBytes (.status d.lpe.imgCrc d.coefDigest d.cfgDigest d.run.code (d.rd F.GSV_DEN_EN) (d.rd F.STK_STAT_MISS) n))).take 512
  let (put, left) := mgtTake ((512 - (st 0).length) / 16 * 16) (d.twn.out.map mgtPad)
  let m := (put ++ st (d.twn.nOut - left.length)).take 512
  let rel := if act then relay else []
  let body := rel ++ vals.flatMap (leBytes 4 ·) ++ m
  let body := body ++ leBytes 4 (crc32c body)
  let d := (d.lanesOf 2).foldl (fun d n => d.sendPlanned n (d.twinHeader n (if act then nrel else 0) vals.length (m.length / 16) ++ body)) d
  d.upTwn fun t => { t with out := left }

/-- The relay blocks of a body: the byte of the frame behind the descriptor, strand and records, and the bytes behind the blocks. -/
def relayBlocks : Nat → Nat → Nat → List Byte → List (Nat × Nat × List Byte) × List Byte
  | 0, _, _, b => ([], b)
  | fuel + 1, left, o, b =>
    if left = 0 then ([], b) else
    let n := le b 1 1 % 16
    let (r, rest) := relayBlocks fuel (left - max n 1) (o + 4 + 192 * n) (b.drop (4 + 192 * n))
    ((o + 4, le b 0 1 % 16, slice b 4 (192 * n)) :: r, rest)

/-- When byte 0 of a partner's frame arrived, by this unit's clock once it follows the partner's: its departure and the link (R96, R126). -/
def Dev.twinArrival (d : Dev) (lane : Nat) (hdr : List Byte) : BitVec 64 :=
  BitVec.ofNat 64 (le hdr 8 8) - BitVec.ofNat 64 (le hdr 20 4 * 256) + BitVec.ofNat 64 (psTu (d.rd (F.LANE_DLY lane)))

/-- A relayed downlink (R96, R345): the active unit's SEQ, EPOCH, UNIT, PREF, LEN of the target frame and records from this unit's own
end, on a lane that is up. It leaves the device latency and a start delimiter after its descriptor, which ends at byte `o` of the
TWIN frame that came by `lane`. QUIESCE, STEPPED and COARSE, which no TWIN frame carries, are this unit's. [Log: DEDUCED 46] -/
def Dev.sendRelay (d : Dev) (lane : Nat) (hdr : List Byte) (o s : Nat) (recs : List Byte) : Dev :=
  match (List.range 24).find? fun n => d.role n = 1 ∧ d.rd (F.LANE_CTRL_STR n) = s ∧ d.rd (F.LANE_STAT_PHASE n) = 2 with
  | none => d
  | some n =>
    let u := le hdr 1 1
    let start := d.twinArrival lane hdr + BitVec.ofNat 64 (d.bitsTu lane (8 * o)) + 6553600
    let lead := ((d.boundaryAt (d.frame.k + 1) - (start + BitVec.ofNat 64 (d.bitsTu n 64))).toNat / 256) % 2 ^ 32
    let f := d.preview.rd F.SYS_FRM_LEN + recs.length / 192 * 2 ^ 17 + d.rd F.STK_ID * 2 ^ 21 + b2n d.safe * 2 ^ 24 + d.rd F.TIM_STAT_STEPPED * 2 ^ 25 + d.rd F.TIM_STAT_COARSE * 2 ^ 26
    let b := [BitVec.ofNat 8 0x11, BitVec.ofNat 8 (s + 16 * d.rd (F.LANE_CTRL_END n) + 32 * (u % 2) + 64 * b2n (u / 2 % 2 = u % 2) + 128)]
      ++ leBytes 2 ((le hdr 2 2 + 1) % 65536) ++ slice hdr 4 4 ++ leBytes 8 (d.boundaryAt (d.frame.k + 1)).toNat ++ leBytes 4 f ++ leBytes 4 lead ++ leBytes 4 0
    d.sendFrame n start (b ++ leBytes 4 (crc32c b) ++ recs)

/-- The body of a partner's frame (R337, R339, R345): used only when its CRC holds. Its messages are taken before its relay blocks go out:
they tell the LEN of the target frame. [Log: DESIGN CHOICE 10] -/
def Dev.twinBody (d : Dev) (lane : Nat) (b : List Byte) : Dev :=
  let hdr := b.take 32
  let body := b.drop 32
  let n := body.length - 4
  if body.length < 4 ∨ crc32c (body.take n) ≠ le body n 4 then d else
  let (rel, rest) := relayBlocks 13 (le hdr 24 2) 32 (body.take n)
  let nst := le hdr 28 2
  let vals := (List.range nst).map fun i => le rest (4 * i) 4
  let (ms, part) := Config.mgtRead (d.twn.part ++ slice rest (4 * nst) (16 * le hdr 30 1))
  let shadow := d.twin = 2 || d.twin = 3
  let act : Bool := le hdr 1 1 / 4 % 8 = 4
  let d := (d.upTwn fun t => { t with body := true }).wr F.TWN_STAT_SYNCED 1
  let d := if d.twin = 1 then d else ms.foldl (fun d m => if shadow || (match m with | .status .. => true | _ => false) then d.takeMgt m else d) (d.upTwn fun t => { t with part := part })
  if shadow && act then
    let d := d.upTwn fun t => { t with vals := some (le hdr 16 4, vals) }
    rel.foldl (fun d x => d.sendRelay lane hdr x.1 x.2.1 x.2.2) d
  else d

/-- What every valid header tells (R334, R335, R348, R350): the partner's state and epoch, the highest epoch, PREF of unit 0, YIELD as long
as it shows it. -/
def Dev.hearTwin (d : Dev) (b : List Byte) : Dev :=
  let u := le b 1 1
  let st := u / 4 % 8
  let d := d.upTwn fun t => { t with pState := some st, pEpoch := le b 4 4, hi := max t.hi (le b 4 4), lostSb := if st = 3 then false else t.lostSb, yieldSeen := bitOf u 5, since := if st = 3 then t.since else none }
  if u % 2 = 0 ∧ d.unit = 1 then d.wr F.TWN_CTRL_PREF (u / 2 % 2) else d

/-- A handback in the header (R353): the acceptance of the one asked for, or a named one to accept; an acceptance that is withdrawn ends it,
and so does an offer no longer named. -/
def Dev.hearHandback (d : Dev) (b : List Byte) : Dev :=
  let u := le b 1 1
  if bitOf u 6 then
    if d.twn.hbkOwn then d.upTwn fun t => { t with hbkAcc := true }
    else if d.twin = 3 ∧ u / 4 % 8 = 4 ∧ d.twn.hbk.isNone ∧ d.twn.hbkNo ≠ some (le b 26 2) then
      let k := d.frame.k + BitVec.ofNat 32 ((le b 26 2 + 65536 - seqOf d.frame.k) % 65536)
      ((d.upTwn fun t => { t with hbk := some k, hbkAcc := true }).wr F.TWN_STAT_HBK_PEND 1).wr F.TWN_HBK_HBK_SEQ (le b 26 2)
    else d
  else
    let d := d.upTwn fun t => { t with hbkNo := none }
    if d.twn.hbk.isSome && (if d.twn.hbkOwn then d.twn.hbkAcc else d.twin = 3) then d.abandonHandback else d

/-- Whether a header is of the present frame, and so this frame's H1 (R337): its SEQ is this unit's, or that of the ACTIVE unit which
a shadow takes its frames from (R339), but for a header of the frame before that comes late; a unit in LISTEN shares no numbers
with its partner yet (R335). After H1 has been judged missed none counts. [Log: DEDUCED 46] -/
def Dev.h1Now (d : Dev) (b : List Byte) : Bool :=
  let seq := le b 2 2
  let follow : Bool := le b 1 1 / 4 % 8 = 4 && (d.twin = 2 || d.twin = 3)
  decide (d.twn.h1Done ≠ some d.frame.k) &&
    (d.twin = 1 || decide (seq = seqOf d.frame.k) || (follow && !(d.twn.aligned && decide (seq = seqOf (d.frame.k - 1)))))

/-- A TWIN frame from the partner (R334, R337, R339, R350, R353): the first copy of a frame's header, and the first body whose CRC
holds. A header with this unit's own number is remembered and obeyed in nothing: such a unit leaves LISTEN no more and never
becomes ACTIVE (R561). [Log: DEDUCED 15, 46] -/
def Wk.twinReceive (w : Wk) (lane : Nat) (b : List Byte) : Wk :=
  let u := le b 1 1
  if b.length < 32 ∨ le b 0 1 ≠ 0x31 ∨ crc8 (b.take 31) ≠ le b 31 1 ∨ w.d.role lane ≠ 2 ∨ w.d.twin = 0 then w
  else if u % 2 = w.d.unit then w.up (·.upTwn fun t => { t with clash := true }) else
  let w := w.up (·.hearTwin b)
  if !w.d.h1Now b then w else
  let again := decide (w.d.twn.h1Got = some w.d.frame.k) && (w.d.twin = 1 || decide (le b 2 2 = seqOf w.d.frame.k))
  let w := w.on (!again) fun w =>
    let follow : Bool := u / 4 % 8 = 4 && (w.d.twin = 2 || w.d.twin = 3)
    let w := w.on follow fun w =>
      let off : Int := (w.d.time.now - w.d.twinArrival lane b).toInt
      (w.follow (BitVec.ofNat 32 (le b 16 4) + 1) ((le b 2 2 + 1) % 65536) (BitVec.ofNat 64 (le b 8 8)) off).up fun d => (d.wr F.LPE_FCNT (le b 16 4)).upTwn fun t => { t with aligned := true }
    w.up fun d =>
      (((d.wr F.TWN_STAT_H1_MISS 0).wr F.TWN_STAT_H1_UP 1).upTwn fun t => { t with h1Got := some d.frame.k, lost1 := false, lostAll := false }).hearHandback b
  if again && w.d.twn.body then w else w.up (·.twinBody lane b)

/-! ## Heartbeats (R337, R346, R347, R355) -/

/-- H1 is missed for a frame: SYNCED falls, a handback ends, the path is reported once it is lost while H2 lives. -/
def Wk.h1Miss (w : Wk) : Wk :=
  let w := w.up fun d => ((d.inc F.TWN_STAT_H1_MISS).wr F.TWN_STAT_H1_UP 0).wr F.TWN_STAT_SYNCED 0
  let w := w.up fun d => d.declineHandback.upTwn fun t => { t with okRun := 0, since := none }
  w.on (!w.d.twn.lost1 && w.d.rdB F.TWN_STAT_H2_UP) fun w => (w.up (·.upTwn fun t => { t with lost1 := true })).raise 68 0 1

/-- H2 is missed for a frame. -/
def Wk.h2Miss (w : Wk) : Wk :=
  let w := w.up fun d => (d.inc F.TWN_STAT_H2_MISS).wr F.TWN_STAT_H2_UP 0
  w.on (!w.d.twn.lost2 && w.d.rdB F.TWN_STAT_H1_UP) fun w => (w.up (·.upTwn fun t => { t with lost2 := true })).raise 68 0 2

/-- Whether a byte has odd parity. -/
def oddParity (v : Nat) : Bool := (maskBits 8 v).length % 2 = 1

/-- The half bits of a Manchester-coded word, bit 7 first: a 1 rises at the bit centre, a 0 falls (R346). -/
def manchester (v : Byte) : List Bool := (List.range 8).flatMap fun i => if bitOf v.toNat (7 - i) then [false, true] else [true, false]

/-- The level of HB_OUT (R346, 500 ns a half bit): the word, and 0 bits behind it; before the first word the ball stands low. [Log: DEDUCED 46] -/
def Dev.hbPin (d : Dev) : Bool :=
  match d.twn.hbAt with
  | none => false
  | some t =>
    let h := (d.time.now - t).toNat / 32768000
    (manchester d.twn.hbOut).getD h (h % 2 = 0)

/-- The H2 word of this unit (Table 12-4). -/
def Dev.h2Word (d : Dev) : Byte :=
  let st := match d.twin with | 3 => 1 | 4 => 2 | 5 => 3 | _ => 0
  let v := 5 * 32 + d.unit * 16 + st * 4
  BitVec.ofNat 8 (v + b2n (!oddParity v))

/-! ## Management cores (R327 to R330) -/

/-- Role of a management core. -/
def Dev.mcore (d : Dev) (c : Nat) : Nat := d.rd F.SYS_MCORE_ROLE / 4 ^ c % 4
/-- Set a core's role. -/
def Dev.setMcore (d : Dev) (c r : Nat) : Dev := d.wr F.SYS_MCORE_ROLE (setBits (d.rd F.SYS_MCORE_ROLE) (2 * c) 2 r)

/-- The outcome of the self-test of the pair (R328): `p0`, `p1` of the lower and higher core in lockstep. -/
def Wk.mcoreResult (w : Wk) (p0 p1 : Bool) : Wk :=
  let pair := (List.range 3).filter fun c => w.d.mcore c = 0
  let spare := (List.range 3).find? fun c => w.d.mcore c = 1
  match pair with
  | [a, b] =>
    if p0 && p1 then w.up (·.inc F.SYS_MCORE_MISMATCH) else
    let bad := (if p0 then [] else [a]) ++ (if p1 then [] else [b])
    let w := w.up fun d => bad.foldl (fun d c => d.setMcore c 2) d
    let w := match spare with | some c => w.up (·.setMcore c 0) | none => w
    let left := (List.range 3).filter fun c => w.d.mcore c = 0
    let w := w.on (decide (left.length < 2)) (·.up (·.wr F.SYS_MCORE_SINGLE 1))
    let w := w.olgSync
    let w := w.each bad fun c w => w.raise 33 0 c
    w.on (decide (left.length < 2)) (·.raise 34 0 0)
  | _ => w

/-! ## Rows -/

/-- A received frame that nothing has interrupted is looked at; an interrupted one is discarded (R124). -/
def Wk.onRx (w : Wk) (x : Rx) (f : List Byte → Wk → Wk) : Wk := if x.cut then w else f x.bytes w

/-- UPLINK_RECORD_RECEIVE (R119, R24, R124, R349). -/
def execUplinkRecordReceive (x : Rx) (strand : Nat) (_fromB : Bool) (s : State) : Host.Outcome State Fault Refusal :=
  s.run (·.onRx x fun b w => (w.uplinkFrame strand b).twinUplink)

/-- TWIN_LISTEN_END (R335); a unit that has heard its own number stays in LISTEN (R561). [Log: DEDUCED 15] -/
def execTwinListenEnd (s : State) : Host.Outcome State Fault Refusal :=
  s.run (·.up fun d =>
    if d.twin ≠ 1 ∨ d.twn.listen < 64 ∨ d.twn.clash then d
    else if d.twn.pState = some 4 then d.enterSync
    else if d.preferred || (!d.rdB F.TWN_STAT_H1_UP && !d.rdB F.TWN_STAT_H2_UP && !d.twn.heard) then d.becomeActive
    else d)

/-- TWIN_FRAME_RECEIVE. -/
def execTwinFrameReceive (lane : Nat) (x : Rx) (s : State) : Host.Outcome State Fault Refusal :=
  s.run (·.onRx x fun b w => w.twinReceive lane b)

/-- H1_DEADLINE (R337): judged for the frame that ends, or for the one before when the boundary has passed. -/
def execH1Deadline (s : State) : Host.Outcome State Fault Refusal :=
  s.run fun w =>
    let n : BitVec 32 := if w.d.frame.planned then w.d.frame.k else w.d.frame.k - 1
    if w.d.twin = 0 ∨ w.d.twn.h1Got = some n ∨ w.d.twn.h1Done = some n then w
    else (w.up (·.upTwn fun t => { t with h1Done := some n })).h1Miss

/-- TWIN_SYNC_COMPLETE (R343). -/
def execTwinSyncComplete (s : State) : Host.Outcome State Fault Refusal :=
  s.run (·.up fun d => if d.twin = 2 ∧ 64 ≤ d.twn.okRun then d.wr F.TWN_STAT_STATE 3 else d)

/-- H2_WORD_SEND (R346): the word of the present frame begins 500 ns after its boundary; a frame whose word has begun has no other.
[Log: DEDUCED 46] -/
def execH2WordSend (s : State) : Host.Outcome State Fault Refusal :=
  s.run fun w =>
    let at_ := w.d.boundaryNow + 32768000
    if w.d.twin = 0 ∨ w.d.twn.hbAt = some at_ then w
    else (w.on w.d.running (·.advanceTo at_)).up fun d => d.upTwn fun t => { t with hbOut := d.h2Word, hbAt := some at_ }

/-- H2_WORD_RECEIVE (R347): a word that completes after 9.5 µs, or when H2 has been judged missed, is not of this frame. -/
def execH2WordReceive (v : Byte) (s : State) : Host.Outcome State Fault Refusal :=
  s.run (·.up fun d =>
    let v := v.toNat
    let d := d.upTwn fun t => { t with hbDown := false }
    if d.twin = 0 ∨ v / 32 ≠ 5 ∨ !oddParity v ∨ v / 16 % 2 = d.unit ∨ d.twn.hbBlk ∨ d.twn.h2Done ∨ (622592000 : Int) < d.behind (d.boundaryNow) then d else
    ((d.wr F.TWN_STAT_H2_MISS 0).wr F.TWN_STAT_H2_UP 1).upTwn fun t => { t with h2Got := true, lost2 := false, lostAll := false, yieldSeen := v / 4 % 4 = 3 })

/-- H2_DEADLINE (R347). -/
def execH2Deadline (s : State) : Host.Outcome State Fault Refusal :=
  s.run fun w => if w.d.twin = 0 ∨ w.d.twn.h2Got ∨ w.d.twn.h2Done then w else (w.up (·.upTwn fun t => { t with h2Done := true })).h2Miss

/-- HB_IN_DOWN (R347). -/
def execHbInDown (s : State) : Host.Outcome State Fault Refusal := s.run (·.up (·.upTwn fun t => { t with hbDown := true }))

/-- TWIN_YIELD (R350). -/
def execTwinYield (s : State) : Host.Outcome State Fault Refusal := s.run (·.yieldNow)

/-- TWIN_HOLD_EXPIRE (R353). [Log: DEDUCED 84] -/
def execTwinHoldExpire (s : State) : Host.Outcome State Fault Refusal :=
  s.run (·.up fun d =>
    match d.twn.since with
    | some t => if d.twin = 4 ∧ d.rdB F.TWN_CTRL_REVERT ∧ !d.preferred ∧ d.rd F.TWN_HOLD * 64000000 ≤ d.time.rt - t ∧ d.twn.hbk.isNone then d.upTwn fun t => { t with hbkAsk := true } else d
    | none => d)

/-- MGMT_LOCKSTEP (R328): the pair halts, the spare wakes; while the plane is dark the lapse timers stand and no packet is
served; what the firmware was doing is done again (R329). A core that runs alone is not compared (R330). -/
def execMgmtLockstep (s : State) : Host.Outcome State Fault Refusal :=
  s.run fun w => w.on (!w.d.rdB F.SYS_MCORE_SINGLE) fun w => (w.up (·.kaFreeze)).raise 67 0 0

/-- MGMT_SELFTEST_DONE (R328): the plane is lit again. -/
def execMgmtSelftestDone (p0 p1 : Bool) (s : State) : Host.Outcome State Fault Refusal :=
  s.run fun w => (w.mcoreResult p0 p1).up fun d => if d.rd F.CLK_STAT_PSTATE = 2 then d else d.kaThaw

/-- DOWNLINK_HEADER_RECEIVE (R344): a unit that is not active follows the quiesce of the active one. -/
def execDownlinkHeaderReceive (lane : Nat) (x : Rx) (s : State) : Host.Outcome State Fault Refusal :=
  s.run (·.onRx x fun bytes w =>
    let d := w.d
    if w.v.lockout ∨ !hdrOk 1 bytes ∨ d.role lane ≠ 1 ∨ d.twin = 0 ∨ d.twin = 4 ∨ le bytes 4 4 ≠ d.twn.pEpoch ∨ d.twn.pState ≠ some 4 then w
    else if bitOf (le bytes 16 4) 24 then w.up (·.enterSafe 6)
    else (w.up (·.wr F.EDG_STAT_QUIESCED 0)).syncOutputs)

end Sys2Proof.Machine
end

