-- ==== Sys2Proof/Machine/Stack.lean ====
section
/-! DEFINITION. Stacking (13_stacking.md, R358 to R377). -/
namespace Sys2Proof.Machine

/-- Change the stack state. -/
def Dev.upStk (d : Dev) (f : StkSt → StkSt) : Dev := { d with stk := f d.stk }

/-- The role of Table 13-1. -/
def Dev.stkRole (d : Dev) : Nat := d.rd F.STK_STAT_ROLE
/-- Whether the device sends downward frames: MASTER or ACTING. -/
def Dev.stkHead (d : Dev) : Bool := d.stkRole = 1 || d.stkRole = 4

/-- A change of role; TIM_STAT.TSRC follows, except in a unit that follows its twin. A device that heads the stack no more holds no reports
of upward frames (R367), and has told of no lost member. -/
def Dev.setStkRole (d : Dev) (r : Nat) : Dev :=
  let d := (d.wr F.STK_STAT_ROLE r).retime
  if r = 1 ∨ r = 4 then d else d.upStk fun t => { t with up := [], gone := [] }

/-- A device becomes MASTER or ACTING with the next epoch (R372, R373); the loss of the master before it is no loss of a member (Table 13-3). -/
def Dev.stkHeadOn (d : Dev) (r : Nat) : Dev :=
  let e := max (d.rd F.STK_EPOCH) d.stk.hi + 1
  let d0 := d.rd F.STK_STAT_MASTER_ID
  let d := ((((d.setStkRole r).wr F.STK_EPOCH e).wr F.STK_STAT_MASTER_ID (d.rd F.STK_ID)).wr F.STK_STAT_MISS 0).wr F.STK_STAT_SP_STALE 0
  d.upStk fun t => { t with hi := e, rcl := none, alone := 0, gone := [d0] }

/-! ## Records (R362) -/

/-- A record: its bytes and their CRC. -/
def withCrc (b : List Byte) : List Byte := b ++ leBytes 4 (crc32c b)

/-- This device's report of its committed words (R367, R371, R373). -/
def Dev.stkReport (d : Dev) : List Byte :=
  let (s, q) := d.stk.ack.getD (0, 0)
  withCrc (leBytes 4 (d.rd F.STK_ID + 8 * b2n d.stk.ready + 16 * s + 128 * q) ++ (List.range 15).flatMap fun j => leBytes 4 (d.smem (d.rd F.STK_RSRC + j)))

/-- This device's mail, while GO is 1 (R371). -/
def Dev.stkMail (d : Dev) : List (List Byte) :=
  if !d.rdB F.STK_MTX_CTRL_GO then [] else
  [withCrc (leBytes 4 (d.rd F.STK_ID + 8 * d.rd F.STK_MTX_CTRL_DST + 64 * d.rd F.STK_MTX_CTRL_LEN + 2048 * d.rd F.STK_MTX_CTRL_MSEQ)
    ++ (List.range 16).flatMap fun w => leBytes 4 (d.rd (F.STK_MTX w)))]

/-- The set-point block of device `s` (R366). -/
def Dev.stkBlock (d : Dev) (s : Nat) : List Byte :=
  leBytes 4 s ++ (List.range 64).flatMap fun j => leBytes 4 (d.smem (d.rd F.STK_SBASE + 64 * s + j))

/-- The parts of a body as the counts of the header lay them out, set-point blocks, reports and mails, and whether its CRC holds; none where
it is cut short. -/
def cascadeParts (b : List Byte) : Option (List (List Byte) × List (List Byte) × List (List Byte) × Bool) :=
  let f := le b 16 4
  let nb := bits f 17 3
  let nr := bits f 20 4
  let nm := bits f 24 4
  let n := 260 * nb + 68 * nr + 72 * nm
  let body := b.drop 32
  if body.length < n + 4 then none else
  some ((List.range nb).map fun i => slice body (260 * i) 260, (List.range nr).map fun i => slice body (260 * nb + 68 * i) 68,
    (List.range nm).map fun i => slice body (260 * nb + 68 * nr + 72 * i) 72, decide (crc32c (body.take n) = le body n 4))

/-- The parts of a body whose CRC holds. -/
def cascadeBody (b : List Byte) : Option (List (List Byte) × List (List Byte) × List (List Byte)) :=
  match cascadeParts b with
  | some (bs, rs, ms, true) => some (bs, rs, ms)
  | _ => none

/-- Whether a record's own CRC holds. -/
def recOk (r : List Byte) : Bool := crc32c (r.take (r.length - 4)) = le r (r.length - 4) 4

/-- Replace the counts and PATH_DLY of a cascade header, with its CRC. -/
def cascadeHdr (h : List Byte) (nr nm path : Nat) : List Byte :=
  withCrc (h.take 16 ++ leBytes 4 (setBits (setBits (le h 16 4) 20 4 nr) 24 4 nm) ++ slice h 20 4 ++ leBytes 4 path)

/-- Put a cascade frame together; one passed on whose body came with a wrong CRC gets the inverse of the right one. [Log: DEDUCED 48] -/
def cascadeFrame (h : List Byte) (path : Nat) (bs rs ms : List (List Byte)) (ok : Bool := true) : List Byte :=
  let ms := ms.take 8
  let body := bs.flatten ++ rs.flatten ++ ms.flatten
  cascadeHdr h rs.length ms.length path ++ body ++ leBytes 4 (if ok then crc32c body else 2 ^ 32 - 1 - crc32c body)

/-- The CASCADE lane at an end: 0 toward the master, 1 away (R360). -/
def Dev.cascadeLane (d : Dev) (e : Nat) : Option Nat := (d.lanesOf 3).find? fun n => d.rd (F.LANE_CTRL_END n) = e

/-- The path delay of a frame passed on: plus the link it came by and 150 ns of forwarding, 2^-8 ns units (R361, R126). -/
def Dev.pathOn (d : Dev) (lane : Nat) (b : List Byte) : Nat := (le b 24 4 + d.rd (F.LANE_DLY lane) * 256 / 1000 + 38400) % 2 ^ 32

/-- The other CASCADE lane, by which a frame that came by `lane` goes on (R361). -/
def Dev.lanePast (d : Dev) (lane : Nat) : Option Nat := (d.lanesOf 3).find? (· ≠ lane)

/-- A frame passed on cut-through (R361): its start delimiter leaves 150 ns after that of the frame that came by `lane`, whose byte 0
arrives now. -/
def Dev.passOn (d : Dev) (lane : Nat) (b : List Byte) : Dev :=
  match d.lanePast lane with
  | some n => d.sendFrame n (d.time.now - BitVec.ofNat 64 (d.bitsTu lane 64) + 9830400) b
  | none => d

/-- A frame passed on as it came but for PATH_DLY; an invalid header gets the inverse of its recomputed CRC (R361, R126). [Log: DEDUCED 48] -/
def Dev.passAsIs (d : Dev) (lane : Nat) (b : List Byte) : Dev :=
  let h := b.take 24 ++ leBytes 4 (d.pathOn lane b)
  let c := crc32c h
  d.passOn lane (h ++ leBytes 4 (if hdrOk 4 b || hdrOk 5 b then c else 2 ^ 32 - 1 - c) ++ b.drop 32)

/-- The summed link delay of the last frame that came by a lane (R365): its path without `fwd` forwardings of 150 ns. STK_D_MAX is the
largest of them. [Log: DEDUCED 48] -/
def Dev.noteDelay (d : Dev) (lane fwd : Nat) (b : List Byte) : Dev :=
  let v := le b 24 4 * 1000 / 256 + d.rd (F.LANE_DLY lane) - 150000 * fwd
  let d := d.upStk fun t => { t with dly := tput none t.dly lane (some v) }
  d.wr F.STK_D_MAX (d.stk.dly.foldl (fun m e => max m (e.2.getD 0)) 0)

/-- A lane that is down has no measured delay. -/
def Dev.dropDelays (d : Dev) : Dev :=
  let d := d.upStk fun t => { t with dly := t.dly.filter fun e => d.rd (F.LANE_STAT_PHASE e.1) = 2 }
  d.wr F.STK_D_MAX (d.stk.dly.foldl (fun m e => max m (e.2.getD 0)) 0)

/-- What the device holds for the snapshot of the frame with SEQ `seq`. -/
def Dev.stkIn (d : Dev) (seq : Nat) : StkIn := (d.stk.inbox.find? fun x => x.seq = seq).getD { seq := seq }
/-- Change it. -/
def Dev.setStkIn (d : Dev) (x : StkIn) : Dev := d.upStk fun t => { t with inbox := t.inbox.filter (fun y => y.seq ≠ x.seq) ++ [x] }

/-! ## Mail and reports (R367, R371) -/

/-- A mail record for this device: stored once, acknowledged each time. -/
def Wk.takeMail (w : Wk) (m : List Byte) : Wk :=
  let h := le m 0 4
  let src := bits h 0 3
  let q := bits h 11 4
  if !recOk m then w.up (·.inc F.STK_CNT_CRC_ERR)
  else if bits h 3 3 ≠ w.d.rd F.STK_ID ∨ src = w.d.rd F.STK_ID then w
  else if tget none w.d.stk.lastMail src = some q then w.up (·.upStk fun t => { t with ack := some (src, q) })
  else if w.d.rdB F.STK_MRX_STAT_FULL then w
  else
    let w := w.up fun d =>
      let d := (List.range 16).foldl (fun d i => d.wr (F.STK_MRX i) (le m (4 + 4 * i) 4)) d
      let d := ((d.wr F.STK_MRX_STAT_LEN (bits h 6 5)).wr F.STK_MRX_STAT_SRC src).wr F.STK_MRX_STAT_FULL 1
      d.upStk fun t => { t with ack := some (src, q), lastMail := tput none t.lastMail src (some q) }
    w.raise 98 0 src

/-- A report with a good CRC: an acknowledgement of this device's mail ends its sending; device 0's READY is noted. -/
def Dev.noteReport (d : Dev) (r : List Byte) : Dev :=
  let h := le r 0 4
  let d := if d.rdB F.STK_MTX_CTRL_GO && bits h 0 3 = d.rd F.STK_MTX_CTRL_DST && bits h 4 3 = d.rd F.STK_ID && bits h 7 4 = d.rd F.STK_MTX_CTRL_MSEQ
    then d.wr F.STK_MTX_CTRL_GO 0 else d
  if bits h 0 3 = 0 then d.upStk fun t => { t with ready0 := bitOf h 3 } else d

/-- The 15 words of a report. -/
def reportWords (r : List Byte) : List Nat := (List.range 15).map fun j => le r (4 + 4 * j) 4

/-- The reports of a body that count: a bad record is counted and left; `f` takes a good one of device `s`. -/
def Wk.takeReports (w : Wk) (rs : List (List Byte)) (f : Nat → List Byte → Dev → Dev) : Wk :=
  w.each rs fun r w => w.up fun d => if recOk r then f (le r 0 4 % 8) r (d.noteReport r) else d.inc F.STK_CNT_CRC_ERR

/-! ## Downward frames (R363, R366, R369, R370) -/

/-- The epoch rule (R363, R121): a header above the highest accepted epoch, or of that epoch from the unit obeyed; a cascade header has
no PREF. [Log: DEDUCED 48] -/
def Dev.stkObeys (d : Dev) (b : List Byte) : Bool :=
  decide (d.rd F.STK_EPOCH < le b 4 4) || (decide (le b 4 4 = d.rd F.STK_EPOCH) && decide (d.stk.unit = some (bits (le b 1 1) 4 1)))

/-- The links a downward frame from device `m` has passed before the one it comes by. -/
def Dev.hopsFrom (d : Dev) (lane m : Nat) : Nat :=
  let n := d.rd F.STK_CTRL_NDEV
  let id := d.rd F.STK_ID
  (if !d.rdB F.STK_CTRL_RING then ((id : Int) - (m : Int)).natAbs else if d.rd (F.LANE_CTRL_END lane) = 0 then (id + n - m) % n else (m + n - id) % n) - 1

/-- An obeyed header: epoch, master, time, boundaries, LEN, quiesce (R363, R56, R32, R370). [Log: DEDUCED 48] -/
def Wk.obeyHeader (w : Wk) (lane : Nat) (b : List Byte) : Wk :=
  let u := le b 1 1
  let seq := le b 2 2
  let tgt := BitVec.ofNat 64 (le b 8 8)
  let exp : BitVec 64 := tgt - BitVec.ofNat 64 (le b 20 4 * 256) + BitVec.ofNat 64 (le b 24 4 * 256) + BitVec.ofNat 64 (psTu (w.d.rd (F.LANE_DLY lane)))
  let off : Int := (w.d.time.now - exp).toInt
  let w := w.up fun d => (((d.wr F.STK_EPOCH (le b 4 4)).wr F.STK_STAT_MASTER_ID (u % 8)).wr F.STK_STAT_MISS 0).upStk fun t => { t with unit := some (u / 16 % 2), got := some seq, bodyGot := if d.rd F.STK_EPOCH < le b 4 4 then none else t.bodyGot, alone := 0, rcl := if bits (le b 16 4) 29 3 = 0 then none else some ((seq + bits (le b 16 4) 29 3) % 65536) }
  let w := w.up fun d => if d.stkRole = 6 then d.setStkRole 3 else d
  let w := w.on (w.d.rd F.TIM_STAT_TSRC = 1) fun w => w.follow (w.d.frame.k + 1) seq tgt off
  let w := w.up fun d => d.noteDelay lane (d.hopsFrom lane (u % 8)) b
  let w := w.up fun d => if bits (le b 16 4) 0 17 = d.rd F.SYS_FRM_LEN then d else d.frmNext F.SYS_FRM_LEN (bits (le b 16 4) 0 17)
  w.on (bitOf u 3) (·.up fun d => if d.safe then d else let r := d.run.halted; (d.enterSafe 6).setRun r)

/-- A body of a downward frame (R366, R367, R371): its set-points and reports for the snapshot of the frame with its SEQ, and mail. -/
def Wk.downBody (w : Wk) (seq : Nat) (bs rs ms : List (List Byte)) : Wk :=
  let w := w.up fun d => d.upStk fun t => { t with bodyGot := some seq }
  let w := w.up fun d => match bs.find? fun x => le x 0 4 % 8 = d.rd F.STK_ID with
    | some x => d.setStkIn { d.stkIn seq with sp := some ((List.range 64).map fun j => le x (4 + 4 * j) 4) }
    | none => d
  let w := w.takeReports rs fun s r d => let x := d.stkIn seq; d.setStkIn { x with reps := tput [] x.reps s (reportWords r) }
  w.each ms fun m w => w.takeMail m

/-- A downward frame from another device changes who heads the stack (R372, R373): a MASTER that hears one of an epoch not below its own
becomes RETURNED and obeys that unit; an ACTING device that hears a higher one becomes DEPUTY. [Log: DEDUCED 48] -/
def Dev.hearHead (d : Dev) (b : List Byte) : Dev :=
  let e := le b 4 4
  let d := if d.stkRole = 1 ∧ d.rd F.STK_EPOCH ≤ e then (d.setStkRole 5).upStk fun t => { t with ready := false, lockRun := 0, unit := some (bits (le b 1 1) 4 1), got := none }
    else if d.stkRole = 4 ∧ d.rd F.STK_EPOCH < e then d.setStkRole 2 else d
  d.upStk fun t => { t with hi := max t.hi e }

/-- A downward frame from another device: the first valid header of each SEQ and the first body whose CRC holds are used; every copy is
passed on, with this device's mail (R361, R371). [Log: DEDUCED 48] -/
def Wk.downwardIn (w : Wk) (lane : Nat) (b : List Byte) : Wk :=
  let seq := le b 2 2
  let w := w.up (·.hearHead b)
  let obeyed := !w.d.stkHead && w.d.stkObeys b
  let fresh := decide (w.d.stk.got ≠ some seq) || decide (w.d.rd F.STK_EPOCH < le b 4 4)
  let w := w.on (obeyed && fresh) (·.obeyHeader lane b)
  let own := w.d.stkMail
  match cascadeParts b with
  | none => (w.up (·.inc F.STK_CNT_CRC_ERR)).up (·.passAsIs lane b)
  | some (bs, rs, ms, ok) =>
    let w := w.on (!ok) (·.up (·.inc F.STK_CNT_CRC_ERR))
    let w := w.on (ok && obeyed && decide (w.d.stk.got = some seq) && decide (w.d.stk.bodyGot ≠ some seq)) (·.downBody seq bs rs ms)
    w.up fun d => d.passOn lane (cascadeFrame b (d.pathOn lane b) bs rs (ms ++ own) ok)

/-! ## Upward frames (R364) -/

/-- Originate the upward frame of the frame that has ended: its first symbol leaves `late` after the boundary and the device latency.
[Log: DEDUCED 48] -/
def Dev.upwardSend (d : Dev) (e : Nat) (late : BitVec 64) : Dev :=
  match d.cascadeLane e with
  | none => d
  | some n =>
    let h := [BitVec.ofNat 8 0x51, BitVec.ofNat 8 (d.rd F.STK_ID + 16 * d.unit + 32 * d.rd F.TIM_STAT_COARSE)] ++ leBytes 2 (seqOf (d.frame.k - 1))
      ++ leBytes 4 (d.rd F.STK_EPOCH) ++ leBytes 8 0 ++ leBytes 4 (d.rd F.SYS_FRM_LEN) ++ leBytes 4 0 ++ leBytes 8 0
    (d.sendFrame n (d.boundaryNow + 6553600 + late) (cascadeFrame h 0 [] [d.stkReport] d.stkMail)).upStk fun t => { t with upOut := n :: t.upOut }

/-- Whether upward frames leave by the lane of end `e`: the head lies that way (R364). -/
def Dev.upwardBy (d : Dev) (e : Nat) : Bool :=
  let i := d.rd F.STK_ID
  let m := d.rd F.STK_STAT_MASTER_ID
  !d.stkHead && (d.rdB F.STK_CTRL_RING || (if e = 0 then decide (m < i) else decide (i < m)))

/-- A device that no upward frame has reached by 1,200 ns after the boundary originates one in its place (R364, R94). [Log: DEDUCED 48] -/
def Dev.upwardLate (d : Dev) : Dev :=
  [0, 1].foldl (fun d e =>
    match d.cascadeLane e with
    | some n => if d.upwardBy e && !d.stk.upOut.contains n then d.upwardSend e 78643200 else d
    | none => d) d

/-- Whether the start delimiter of a frame whose byte 0 arrives now by a lane came later than 1,200 ns after the boundary (R94). [Log: DEDUCED 48] -/
def Dev.pastDeadline (d : Dev) (lane : Nat) : Bool := decide (78643200 < (d.time.now - BitVec.ofNat 64 (d.bitsTu lane 64) - d.boundaryNow).toInt)

/-- An upward frame: the master or acting device takes its reports and mail; any other adds its own to every one that it passes on, unless
it has originated one in its place (R94). [Log: DEDUCED 48] -/
def Wk.upwardIn (w : Wk) (lane : Nat) (b : List Byte) : Wk :=
  let w := w.up (·.upStk fun t => { t with hi := max t.hi (le b 4 4) })
  let now := decide (le b 2 2 = seqOf (w.d.frame.k - 1))
  let w := w.on (now && !w.d.stkHead && w.d.pastDeadline lane) (·.up (·.upwardLate))
  let out := w.d.lanePast lane
  let free := !now || (match out with | some n => !w.d.stk.upOut.contains n | none => false)
  let w := w.on (!w.d.stkHead && now) (·.up (·.upStk fun t => { t with upOut := out.toList ++ t.upOut }))
  match cascadeParts b with
  | none => w.up fun d => let d := d.inc F.STK_CNT_CRC_ERR; if d.stkHead || !free then d else d.passAsIs lane b
  | some (bs, rs, ms, ok) =>
    let w := w.on (!ok) (·.up (·.inc F.STK_CNT_CRC_ERR))
    if rs.any fun r => recOk r && le r 0 4 % 8 = w.d.rd F.STK_ID then w.raise 1 0 (w.d.rd F.STK_ID)
    else if w.d.stkHead then
      if !now || !ok then w else
      let w := w.takeReports rs fun s r d => d.upStk fun t => { t with up := tput [] t.up s r }
      let w := w.each ms fun m w => w.takeMail m
      let w := w.up fun d => d.upStk fun t => { t with mailq := t.mailq ++ (ms.filter fun m => recOk m && bits (le m 0 4) 3 3 ≠ d.rd F.STK_ID && !t.mailq.contains m) }
      w.up fun d => d.noteDelay lane (rs.length - 1) b
    else
      let own := w.d.stkMail
      let w := w.on (now && ok) fun w => (w.each ms fun m w => w.takeMail m).takeReports rs fun _ _ d => d
      w.on free (·.up fun d => d.passOn lane (cascadeFrame b (d.pathOn lane b) bs (rs ++ [d.stkReport]) (ms ++ own) ok))

/-- Whether a downward frame is the one this device sent last, come back (R361): only its PATH_DLY, TX_LEAD and the mails added behind
its own may differ. -/
def Dev.ownCopy (d : Dev) (b : List Byte) : Bool :=
  let s := d.stk.sent
  match cascadeBody s, cascadeBody b with
  | some (bs, rs, ms), some (bs', rs', ms') => decide (b.take 16 = s.take 16) && bs' == bs && rs' == rs && ms'.take ms.length == ms
  | _, none => decide (b.take 16 = s.take 16)
  | none, _ => false

/-- A cascade frame arrives (R91, R359, R361): a device absorbs its own, and the head of the stack every frame it cannot read. Only the
partner of a twin bears the same STACK_ID. [Log: DEDUCED 48] -/
def Wk.cascadeReceive (w : Wk) (lane : Nat) (b : List Byte) : Wk :=
  if w.d.role lane ≠ 3 ∨ !w.d.rdB F.STK_CTRL_EN then w
  else if !hdrOk 4 b && !hdrOk 5 b then w.up fun d => let d := d.inc F.STK_CNT_CRC_ERR; if d.stkHead then d else d.passAsIs lane b
  else
    let u := le b 1 1
    if u % 8 = w.d.rd F.STK_ID ∧ (u / 16 % 2 = w.d.unit ∨ !w.d.rdB F.TWN_CTRL_EN) then w.on (!(hdrOk 4 b && w.d.ownCopy b)) (·.raise 1 0 (w.d.rd F.STK_ID))
    else if hdrOk 4 b then w.downwardIn lane b
    else w.upwardIn lane b

/-! ## The boundary, UPL_END and the plan instant -/

/-- Whether this device originates the upward frame that leaves by its lane of end `e` (R364, R94): the head lies that way,
and no device lies beyond it, or the lane beyond it is down. -/
def Dev.originates (d : Dev) (e : Nat) : Bool :=
  let n := d.rd F.STK_CTRL_NDEV
  let i := d.rd F.STK_ID
  let m := d.rd F.STK_STAT_MASTER_ID
  let beyondUp : Bool := match d.cascadeLane (1 - e) with | some l => d.rd (F.LANE_STAT_PHASE l) = 2 | none => false
  if d.rdB F.STK_CTRL_RING then !beyondUp || decide (i = (if e = 0 then (m + n - 1) % n else (m + 1) % n))
  else if e = 0 then decide (m < i) && (decide (i + 1 = n) || !beyondUp)
  else decide (i < m) && (decide (i = 0) || !beyondUp)

/-- A boundary: the role a device takes when EN applies, the lock that READY counts, a ring's broken link, the upward frame. [Log: DEDUCED 48] -/
def Wk.stkBoundary (w : Wk) : Wk :=
  if !w.d.rdB F.STK_CTRL_EN then
    w.on (w.d.stkRole ≠ 0) (·.up fun d => (((d.setStkRole 0).wr F.STK_STAT_MISS 0).wr F.STK_STAT_SP_STALE 0).upStk fun t => { unit := t.unit })
  else
    let w := w.on (w.d.stkRole = 0) (·.up fun d =>
      match d.rd F.STK_ID with
      | 0 => d.stkHeadOn 1
      | 1 => d.setStkRole 2
      | _ => d.setStkRole 3)
    let w := w.up fun d => d.upStk fun t =>
      let lock := d.rdB F.TIM_STAT_LOCK
      { t with lockRun := if lock then t.lockRun + 1 else 0, ready := t.ready && lock && d.stkRole = 5, upOut := [] }
    let w := w.up (·.dropDelays)
    let down := (w.d.lanesOf 3).filter fun n => w.d.rd (F.LANE_STAT_PHASE n) ≠ 2
    let down := if w.d.rdB F.STK_CTRL_RING then down else []
    let w := w.each (down.filter fun n => !w.d.stk.lost.contains n) fun n w => w.raise 72 0 n
    w.up fun d =>
      let d := (d.wrB F.STK_STAT_BROKEN (!down.isEmpty)).upStk fun t => { t with lost := down }
      if d.stkHead then d else
      let d := if d.originates 0 then d.upwardSend 0 0 else d
      if d.originates 1 then d.upwardSend 1 0 else d

/-- The snapshot instant (R367, R369): the report region, PRESENT and RSTALE, a member whose reports fail three times; the
set-points of this frame. -/
def Wk.stkUplEnd (w : Wk) : Wk :=
  if w.d.stkRole = 0 then w else
  let n := w.d.rd F.STK_CTRL_NDEV
  let seq := seqOf w.d.frame.k
  let x := w.d.stkIn seq
  let w := w.up (·.upwardLate)
  let w := (w.up fun d => (d.wr F.STK_STAT_PRESENT 0).wr F.STK_STAT_RSTALE 0).each (List.range (min 8 n)) fun s w =>
    let d := w.d
    let a := if d.stkHead then tget [] d.stk.up s else []
    let ws := if a = [] then tget [] x.reps s else reportWords a
    let base := d.rd F.STK_RBASE + 16 * s
    if ws = [] then
      let m := tget 0 d.stk.miss s + 1
      let w := w.up fun d => ((d.putS (base + 15) fOne).setBit F.STK_STAT_RSTALE s).upStk fun t => { t with miss := tput 0 t.miss s m, runs := tput 0 t.runs s 0 }
      w.on (decide (3 ≤ m) && d.stkHead && decide (s ≠ d.rd F.STK_ID) && !d.stk.gone.contains s) fun w => (w.up (·.upStk fun t => { t with gone := s :: t.gone })).raise 43 0 s
    else w.up fun d =>
      let d := (List.range 15).foldl (fun d j => d.putS (base + j) (ws.getD j 0)) d
      ((d.putS (base + 15) 0).setBit F.STK_STAT_PRESENT s).upStk fun t => { t with miss := tput 0 t.miss s 0, gone := t.gone.filter (· ≠ s), runs := tput 0 t.runs s (tget 0 t.runs s + 1) }
  w.up fun d =>
    let d := match x.sp with
      | some l =>
        let d := d.upLpe fun x => { x with snap := (List.range 64).foldl (fun t j => if fisNan (l.getD j 0) then t else tput 0 t (4 * 2 ^ 21 + 512 + j) (l.getD j 0)) x.snap }
        d.wr F.STK_STAT_SP_STALE 0
      | none => d.wrB F.STK_STAT_SP_STALE (!d.stkHead)
    d.upStk fun t => { t with inbox := t.inbox.filter fun y => decide (0 < (y.seq + 65536 - seq) % 65536) && decide ((y.seq + 65536 - seq) % 65536 < 32768) }

/-- The downward frame for the next frame (R366, R361, R370). -/
def Dev.downwardSend (d : Dev) : Dev :=
  let n := d.rd F.STK_CTRL_NDEV
  let id := d.rd F.STK_ID
  let seq := seqOf (d.frame.k + 1)
  let rcl := match d.stk.rcl with | some x => (x + 65536 - seq) % 65536 % 8 | none => 0
  let bs := (List.range (min 8 n)).drop 1 |>.map d.stkBlock
  let old := (List.range (min 8 n)).filterMap fun s => if s = id || tget [] d.stk.up s = [] then none else some (tget [] d.stk.up s)
  let rs := d.stkReport :: old
  let ms := (d.stkMail ++ d.stk.mailq).take 8
  let hdr (l : Nat) : List Byte :=
    [BitVec.ofNat 8 0x41, BitVec.ofNat 8 (id + 8 * b2n (d.rdB F.STK_CTRL_QPROP && d.safe) + 16 * d.unit + 32 * d.rd F.TIM_STAT_COARSE)]
      ++ leBytes 2 seq ++ leBytes 4 (d.rd F.STK_EPOCH) ++ leBytes 8 (d.boundaryAt (d.frame.k + 1)).toNat
      ++ leBytes 4 (d.preview.rd F.SYS_FRM_LEN + bs.length * 2 ^ 17 + rcl * 2 ^ 29) ++ leBytes 4 (d.txLead l)
  let frame (l : Nat) : List Byte := cascadeFrame (hdr l) 0 bs rs ms
  let d := (d.lanesOf 3).foldl (fun d l => d.sendPlanned l (frame l)) d
  let sent := match d.lanesOf 3 with | l :: _ => tget [] d.tx l | [] => []
  let d := d.setStkIn { seq := seq, sp := some ((List.range 64).map fun j => d.smem (d.rd F.STK_SBASE + j)), reps := tput [] [] id (reportWords d.stkReport) }
  d.upStk fun t => { t with sent := sent, mailq := [], up := [] }

/-- The plan instant: a reclaim's countdown and switch (R373), then the downward frame of a head. -/
def Wk.stkPlan (w : Wk) : Wk :=
  let seq := seqOf (w.d.frame.k + 1)
  let drop (d : Dev) : Dev := (d.upStk fun t => { t with rcl := none }).abandon [.reclaim] 5
  let w := w.on (w.d.stkRole = 4 && w.d.stk.rcl.isSome && !w.d.stk.ready0) (·.up drop)
  let w := w.on (w.d.stkRole = 5 && !w.d.stk.ready) (·.up (·.upStk fun t => { t with rcl := none }))
  if w.d.stkRole = 4 ∧ w.d.stk.rcl = some seq then
    (w.up fun d => ((d.setStkRole 2).upStk fun t => { t with rcl := none }).settle (fun x => decide (x.kind = WaitKind.reclaim)) fun _ => (Status.ok, 0, [seq])).raise 73 0 (w.d.rd F.STK_ID)
  else
    let w := w.on (w.d.stkRole = 5 && w.d.stk.rcl = some seq) fun w => (w.up (·.stkHeadOn 1)).raise 73 0 (w.d.rd F.STK_ID)
    w.on w.d.stkHead (·.up (·.downwardSend))

/-- GO written as 1 (R371): the message is sent with a new MSEQ. -/
def Dev.mailGo (d : Dev) : Dev := (d.wr F.STK_MTX_CTRL_MSEQ (d.rd F.STK_MTX_CTRL_MSEQ + 1)).wr F.STK_MTX_CTRL_GO 1

/-- A read of received mail word `i` (R371). -/
def Dev.mrxRead (d : Dev) (i : Nat) : Dev :=
  if d.rdB F.STK_MRX_STAT_FULL && i + 1 = d.rd F.STK_MRX_STAT_LEN then d.wr F.STK_MRX_STAT_FULL 0 else d

/-! ## Rows -/

/-- CASCADE_FRAME_RECEIVE (R363). -/
def execCascadeFrameReceive (lane : Nat) (x : Rx) (s : State) : Host.Outcome State Fault Refusal :=
  s.run (·.onRx x fun b w => w.cascadeReceive lane b)

/-- STK_MASTER_MISS (R372): judged for the boundary that comes, or for the one just passed while the frame is not planned; an
ACTIVE member unit whose partner hears the master owes a yield (R375). -/
def execStkMasterMiss (s : State) : Host.Outcome State Fault Refusal :=
  s.run fun w =>
    let j : BitVec 32 := if w.d.frame.planned then w.d.frame.k + 1 else w.d.frame.k
    if w.d.stkRole = 0 ∨ w.d.stkHead ∨ w.d.stk.got = some (seqOf j) ∨ w.d.stk.judged = some j then w else
    w.up fun d =>
      let d := ((d.inc F.STK_STAT_MISS).inc F.STK_CNT_MISS_CNT).upStk fun t => { t with judged := some j, alone := t.alone + 1 }
      if d.twin = 4 ∧ 2 ≤ d.rd F.STK_STAT_MISS ∧ d.twn.pMiss = 0 then { d with yieldDue := true } else d

/-- STK_TAKEOVER (R372, R375). [Log: DEDUCED 48] -/
def execStkTakeover (s : State) : Host.Outcome State Fault Refusal :=
  s.run fun w =>
    let ok := w.d.stkRole = 2 && w.d.rdB F.STK_CTRL_DEP_EN && decide (4 ≤ w.d.rd F.STK_STAT_MISS) && (w.d.twin = 0 || decide (4 ≤ w.d.twn.pMiss))
    w.on ok fun w => (w.up (·.stkHeadOn 4)).raise 42 0 (w.d.rd F.STK_ID)

/-- STK_ORPHAN (R372). -/
def execStkOrphan (s : State) : Host.Outcome State Fault Refusal :=
  s.run fun w => w.on (w.d.stkRole = 3 && decide (w.d.rd F.STK_CTRL_ORPHAN ≤ w.d.stk.alone)) fun w => (w.up (·.setStkRole 6)).raise 15 0 (w.d.rd F.STK_ID)

/-- STK_RETURNED_READY (R373). -/
def execStkReturnedReady (s : State) : Host.Outcome State Fault Refusal :=
  s.run (·.up fun d => if d.stkRole = 5 ∧ 64 ≤ d.stk.lockRun ∧ d.rdB F.TIM_STAT_LOCK then d.upStk fun t => { t with ready := true } else d)

/-- STK_MAIL_SEND (R371). -/
def execStkMailSend (s : State) : Host.Outcome State Fault Refusal := s.run (·.up (·.mailGo))

/-- STK_MRX_READ (R371). -/
def execStkMrxRead (w : Nat) (s : State) : Host.Outcome State Fault Refusal := s.run fun x => x.on x.d.hosted (·.up (·.mrxRead w))

end Sys2Proof.Machine
end

