-- ==== Sys2Proof/Machine/Service.lean ====
section
/-! DEFINITION. Bead service (11_bead_service.md, R299 to R322) and the precharge pattern (R175 to R179, R444). -/
namespace Sys2Proof.Machine

/-! ## What bead service looks at -/

/-- The state of a bead at the next boundary (R301). -/
def Dev.nextState (d : Dev) (b : Nat) : Nat := (d.bead b).nxt.getD (d.rd (F.BDT_STATE b))
/-- A state decided for the next boundary. -/
def Dev.setNext (d : Dev) (b st : Nat) : Dev := d.setBead b { d.bead b with nxt := some st }
/-- The string of a bead; none for STRING 6 or 7. -/
def Dev.stringOf (d : Dev) (b : Nat) : Option Nat := if d.rd (F.BDT_STATE_STRING b) < 6 then some (d.rd (F.BDT_STATE_STRING b)) else none
/-- Whether bead service manages the string of a bead. -/
def Dev.svcBead (d : Dev) (b : Nat) : Bool := match d.stringOf b with | some g => d.rdB (F.BSV_CTRL_EN g) | none => false
/-- The beads of a string. -/
def Dev.beadsOf (d : Dev) (g : Nat) : List Nat := (List.range 96).filter fun b => d.rd (F.BDT_STATE_STRING b) = g
/-- The beads that hold a slot of a string, in slot order. -/
def Dev.slotted (d : Dev) (g : Nat) : List Nat :=
  let l := (d.beadsOf g).filter fun b => d.rd (F.BDT_STATE_SLOT b) ≠ 127
  (List.range 127).flatMap fun s => l.filter fun b => d.rd (F.BDT_STATE_SLOT b) = s
/-- Slots whose holder has left service. -/
def Dev.freeSlots (d : Dev) (g : Nat) : List Nat := (d.slotted g).filter fun b => [0, 5, 6].contains (d.nextState b)
/-- Slots whose holder is not in service, the ones on their way out included (R311). -/
def Dev.gaps (d : Dev) (g : Nat) : List Nat := (d.slotted g).filter fun b => d.nextState b ≠ 3
/-- All six held bits. -/
def Dev.heldAll (d : Dev) (b : Nat) : Bool := d.rd (F.GSV_BEAD_HELD b) = 63
/-- Whether channels of beads in service are enabled in this run state (R443, R445). -/
def Dev.svcRuns (d : Dev) : Bool := d.run = .softStarting || d.run = .run

/-- The applied EN of a bead's front-end channels at the next boundary. -/
def Dev.legsOn (d : Dev) (b : Nat) (on : Bool) : Dev :=
  (d.legChannels b 0 ++ d.legChannels b 1).foldl (fun d c => d.frmNext (F.CH_CTRL_EN c) (b2n on)) d

/-- The phases of a slot (R303). -/
def Dev.phaseSlot (d : Dev) (g b slot n : Nat) : Dev :=
  let per := d.rd (F.TB_PER (d.rd (F.BSV_TB g))) * 32
  let p := if n = 0 then 0 else rneDiv (slot * per) n
  let q := if per = 0 then 0 else (p + per / 2) % per
  let d := (d.legChannels b 0).foldl (fun d c => d.setShadow (F.CH_PHS c) p) d
  (d.legChannels b 1).foldl (fun d c => d.setShadow (F.CH_PHS c) q) d

/-- Bead service arms the group of a string's timebase (R305). -/
def Dev.armString (d : Dev) (g : Nat) : Dev := d.armGroups (1 <<< d.rd (F.TB_CTRL_GRP (d.rd (F.BSV_TB g))))

/-- Every slot of a string is given afresh to a list of beads, with its phases (R303). [Log: DEDUCED 82] -/
def Dev.giveSlots (d : Dev) (g : Nat) (l : List Nat) : Dev :=
  let d := (List.range l.length).foldl (fun d i =>
    let b := l.getD i 0
    (d.wr (F.BDT_STATE_SLOT b) i).phaseSlot g b i l.length) d
  (d.wr (F.BSV_STAT_NSLOT g) l.length).armString g

/-! ## Charge and readiness (R307, R309) -/

/-- Whether a bead's last valid record meets the conditions of R309. -/
def Dev.recordReady (d : Dev) (b g : Nat) : Bool :=
  let x := d.bead b
  le x.last 2 1 = 5 && d.heldAll b && le x.last 71 1 = 0
    && fLe (fabs (fsub (x.meas.getD 6 0) (d.rd (F.BSV_CHG_VT g))).v) (d.rd (F.BSV_RDY_BAND g))
    && (List.range 8).all fun s => !(d.sens (8 * b + s)).ovr

/-- The charge phase of R307 from the last valid record, when one came this frame. -/
def Dev.chargePhase (d : Dev) (b g : Nat) : Int :=
  let x := d.bead b
  if !x.got then x.chg else
  let v := x.meas.getD 6 0
  if fLt v (fsub (d.rd (F.BSV_CHG_VT g)) (d.rd (F.BSV_CHG_BAND g))).v then -(d.rd (F.BSV_CHG_PHI g) : Int)
  else if fLt (d.rd (F.BSV_CHG_VT g)) v then 0 else x.chg

/-- The beads of a string with READY. -/
def Dev.readyBeads (d : Dev) (g : Nat) : List Nat := (d.beadsOf g).filter fun b => d.rdB (F.BDT_STATE_READY b)

/-- Whether a channel of a string is stepping. -/
def Dev.stringSteps (d : Dev) (g : Nat) : Bool :=
  (d.beadsOf g).any fun b => (d.legChannels b 0 ++ d.legChannels b 1).any fun c => d.rdB (F.CH_STAT_STEPPING c)

/-- The string registers as they read: DEGRADED, STEPPING and READY_SP follow what they tell of (Table 11-8). -/
def Dev.viewString (d : Dev) (g : Nat) (f : Fld) : Nat :=
  if f = F.BSV_STAT_DEGRADED g then b2n (decide (d.rd (F.BSV_STAT_NSLOT g) < d.rd (F.BSV_CTRL_NTGT g)))
  else if f = F.BSV_STAT_STEPPING g then b2n (d.stringSteps g)
  else if f = F.BSV_STAT_READY_SP g then (d.readyBeads g).length
  else d.rd f

/-- READY and the charge phases at a plan instant (R307, R309). -/
def Dev.judgeSpares (d : Dev) : Dev :=
  (List.range 96).foldl (fun d b =>
    let spare : Bool := d.rd (F.BDT_STATE b) = 2
    match d.stringOf b with
    | some g =>
      let d := if spare then d.setBead b { d.bead b with chg := d.chargePhase b g } else d
      let r := spare && (d.bead b).got && d.recordReady b g
      if d.rdB (F.BDT_STATE_READY b) = r then d else d.wrB (F.BDT_STATE_READY b) r
    | none => d) d

/-- The ready spares of a string that nothing else has taken. -/
def Dev.readySpares (d : Dev) (g : Nat) : List Nat := (d.readyBeads g).filter fun b => d.nextState b = 2

/-! ## Bypass (R310 to R317) -/

/-- A bead leaves service for BYPASSING (R311). -/
def Dev.startBypass (d : Dev) (b : Nat) : Dev :=
  ((d.setNext b 4).legsOn b false).setBead b { d.bead b with nxt := some 4, fail := false, kb := some (d.frame.k + 1), waited := false }

/-- A bypass is over: BYPASSED, or RETIRED after a forced BEAD_RETIRE (R316, R321). -/
def Dev.bypassDone (d : Dev) (b : Nat) : Dev :=
  let x := d.bead b
  (((d.legsOn b false).inc (F.BDT_CNT_BYPASSES b)).setBead b { x with nxt := some (if x.retire then 6 else 5), kb := none, retire := false, fail := false, waited := false }).wr (F.BDT_STATE_FAILED b) 0

/-- The frames that have sampled since the first record with BYPASS = 1 took effect, this one included, and BYP_TO (R316). -/
def Dev.bypassAge (d : Dev) (b : Nat) : Nat × Nat :=
  let age := match (d.bead b).kb with
    | some kb => if (d.frame.k - kb).toNat < 2 ^ 31 then (d.frame.k - kb).toNat + 1 else 0
    | none => 0
  (age, max 1 (match d.stringOf b with | some g => d.rd (F.BSV_CTRL_BYP_TO g) | none => 32))

/-- Whether the record of this frame confirms a bypass: it shows STATE 5 and is one of the BYP_TO records that may (R316). -/
def Dev.bypassSeen (d : Dev) (b : Nat) : Bool :=
  (d.bead b).got && le (d.bead b).last 2 1 = 5 && decide ((d.bypassAge b).1 ≤ (d.bypassAge b).2)

/-- Whether the last record that may confirm a bypass has passed unconfirmed (R316). -/
def Dev.bypassLate (d : Dev) (b : Nat) : Bool := !d.bypassSeen b && decide ((d.bypassAge b).2 ≤ (d.bypassAge b).1)

/-- A bypass taken on timeout (R316): BEAD_BYPASS_FAIL. -/
def Wk.bypassFail (w : Wk) (b : Nat) : Wk := (w.up fun d => (d.bypassDone b).wr (F.BDT_STATE_UNCONF b) 1).raise 25 0 b

/-- Confirmations, timeouts, unrequested bypasses and failures found by a plan instant (R316, R317, R310, R311). [Log: DEDUCED 49] -/
def Wk.bypassPlan (w : Wk) : Wk :=
  w.each (List.range 96) fun b w =>
    let d := w.d
    let x := d.bead b
    let st := d.rd (F.BDT_STATE b)
    let five := x.got && le x.last 2 1 = 5
    if x.nxt.isSome then w
    else if st = 4 then (if d.bypassSeen b then w.up (·.bypassDone b) else w.on (d.bypassLate b) (·.bypassFail b))
    else if !d.svcBead b then w
    else if st = 3 ∧ five then (w.up (·.bypassDone b)).raise 24 0 b
    else if st = 3 ∧ x.fail then w.up (·.startBypass b)
    else if st = 2 ∧ x.fail then w.up fun d => d.setBead b { d.bead b with nxt := some 5, fail := false }
    else w

/-! ## Slots (R318 to R320) -/

/-- Whether a SOFT_START applies at the next boundary. -/
def Dev.softDue (d : Dev) : Bool := match d.waiting .softStart with | some x => x.due = some (d.frame.k + 1) | none => false

/-- A bead enters service in a slot (R318, R319); its channels are enabled where those of the beads in service are, from the next
boundary on. [Log: DEDUCED 49] -/
def Wk.insertBead (w : Wk) (g b slot : Nat) : Wk :=
  let w := w.up fun d =>
    let n := d.rd (F.BSV_STAT_NSLOT g)
    let d := ((d.setNext b 3).wr (F.BDT_STATE_SLOT b) slot).inc (F.BDT_CNT_INSERTS b)
    let d := (d.phaseSlot g b slot n).armString g
    if d.svcRuns || d.softDue then d.legsOn b true else d
  w.raise 64 0 b

/-- The empty slot of bead `o` is filled by bead `b`: SPARES_EXHAUSTED when that was the last ready spare (R320). -/
def Wk.fillSlot (w : Wk) (g o b : Nat) : Wk :=
  let slot := w.d.rd (F.BDT_STATE_SLOT o)
  let w := (w.up fun d => (d.wr (F.BDT_STATE_SLOT o) 127).setBead o { d.bead o with waited := false }).insertBead g b slot
  w.on (w.d.rd (F.BDT_STATE b) = 2 && (w.d.readySpares g).isEmpty) (·.raise 65 0 g)

/-- A bead is appended in a slot of its own; every channel is re-phased (R319). -/
def Wk.appendBead (w : Wk) (g b : Nat) : Wk :=
  let n := w.d.rd (F.BSV_STAT_NSLOT g)
  ((w.up (·.wr (F.BSV_STAT_NSLOT g) (n + 1))).insertBead g b n).up fun d => d.giveSlots g (d.slotted g)

/-- A SPARE bead whose record is missing while its last valid one met the conditions of R309 (R318). -/
def Dev.spareComing (d : Dev) (g : Nat) : Bool :=
  (d.beadsOf g).any fun b => d.nextState b = 2 && !(d.bead b).got && !(d.bead b).last.isEmpty && d.recordReady b g

/-- The empty slots of a string (R318): takeover, a wait of one frame, or compaction. -/
def Wk.dealSlots (w : Wk) (g : Nat) : Wk :=
  let w := w.each (w.d.freeSlots g) fun o w =>
    match w.d.readySpares g with
    | b :: _ => w.fillSlot g o b
    | [] => w
  let left := w.d.freeSlots g
  if left.isEmpty then w.up fun d => if d.rdB (F.BSV_STAT_SHORT g) then d.wr (F.BSV_STAT_SHORT g) 0 else d else
  let coming := w.d.spareComing g
  let out := left.filter fun b => !coming || (w.d.bead b).waited
  let w := w.up fun d => left.foldl (fun d b => d.setBead b { d.bead b with waited := true }) d
  if out.isEmpty then w
  else if w.d.rd (F.BSV_CTRL_NMIN g) + out.length ≤ w.d.rd (F.BSV_STAT_NSLOT g) then
    w.up fun d =>
      let d := out.foldl (fun d b => (d.wr (F.BDT_STATE_SLOT b) 127).setBead b { d.bead b with waited := false }) d
      (d.giveSlots g (d.slotted g)).wr (F.BSV_STAT_SHORT g) 0
  else if w.d.rdB (F.BSV_STAT_SHORT g) then w
  else (w.up (·.wr (F.BSV_STAT_SHORT g) 1)).raise 14 0 g

/-- Automatic appending (R319). [Log: DEDUCED 49] -/
def Wk.autoInsert (w : Wk) (g : Nat) : Wk :=
  if !w.d.rdB (F.BSV_CTRL_AUTO_INS g) ∨ w.d.rd (F.BSV_CTRL_NTGT g) ≤ w.d.rd (F.BSV_STAT_NSLOT g) ∨ !(w.d.gaps g).isEmpty then w else
  match w.d.readySpares g with
  | b :: _ => w.appendBead g b
  | [] => w

/-! ## Commands (R321) -/

/-- Whether BEAD_INSERT takes a bead. -/
def Dev.insertOk (d : Dev) (b : Nat) : Bool :=
  d.svcBead b && (d.bead b).nxt.isNone && d.heldAll b
    && ((d.rd (F.BDT_STATE b) = 2 && d.rdB (F.BDT_STATE_READY b)) || (d.rd (F.BDT_STATE b) = 5 && (d.bead b).toggled))

/-- The bead a waiting bead-service command names. -/
def Wait.bead (x : Wait) : Nat := x.arg.getD 0 0

/-- One bead-service command acts; the reply follows. -/
def Wk.beadCommand (w : Wk) (x : Wait) : Wk :=
  let b := x.bead
  let st := w.d.rd (F.BDT_STATE b)
  let free := (w.d.bead b).nxt.isNone
  let drop (d : Dev) : Dev := { d with waits := d.waits.filter fun y => y ≠ x }
  let bad (w : Wk) : Wk := w.up fun d => (drop d).reply x.hdr x.op .stateInvalid w.status0 []
  match x.kind with
  | .bypass => if free ∧ st = 3 then w.up fun d => (drop (d.startBypass b)).replyOk x.hdr x.op [4] else bad w
  | .retire =>
    if free ∧ (st = 1 ∨ st = 2 ∨ st = 5) then w.up fun d => (drop (d.setNext b 6)).replyOk x.hdr x.op [6]
    else if free ∧ st = 3 ∧ x.arg.getD 1 0 = 1 then
      w.up fun d => let d := d.startBypass b; (drop (d.setBead b { d.bead b with retire := true })).replyOk x.hdr x.op [4]
    else bad w
  | .insert =>
    if !w.d.insertOk b then bad w else
    match w.d.stringOf b with
    | none => bad w
    | some g =>
      let w := match w.d.gaps g with
        | o :: _ => w.fillSlot g o b
        | [] => w.appendBead g b
      w.up fun d => (drop d).replyOk x.hdr x.op [3, d.rd (F.BDT_STATE_SLOT b)]
  | _ => w

/-- The commands that wait act at a plan instant; an insertion waits while the safe state holds. -/
def Wk.beadCommands (w : Wk) : Wk :=
  w.each (w.d.waits.filter fun x => x.kind = .bypass || x.kind = .retire || (x.kind = .insert && !w.d.safe)) fun x w => w.beadCommand x

/-! ## COLD beads (Table 11-2) -/

/-- A COLD bead that has all its supplies becomes SPARE, if it may. -/
def Dev.coldReady (d : Dev) (b : Nat) : Dev :=
  if d.nextState b = 1 ∧ d.rd (F.BDT_STATE b) = 1 ∧ d.rdB (F.BDT_STATE_ROLE b) ∧ (d.stringOf b).isSome then d.setNext b 2 else d

/-- A bead whose NODE_ID has been read becomes COLD, and a COLD one whose discovery, once all of R564 has been answered, finds the six
held bits becomes SPARE (Table 11-2). [Log: DEDUCED 49] -/
def Dev.coldPlan (d : Dev) : Dev :=
  (List.range 96).foldl (fun d b =>
    let st := d.rd (F.BDT_STATE b)
    let x := d.bead b
    if x.nxt.isSome then d
    else if st = 0 ∧ x.nodeId.isSome ∧ (d.placeOf b).isSome then d.setNext b 1
    else if st = 1 ∧ x.disc ∧ x.cfg.isEmpty then
      let d := d.setBead b { x with disc := false }
      if d.heldAll b then d.coldReady b else d
    else d) d

/-! ## The precharge pattern (R175 to R178, R444) -/

/-- A local pair with a KIND 2 monitor. -/
def Dev.bootMonitor (d : Dev) (k : Nat) : Bool := (List.range 16).any fun m => d.rd (F.GSV_GSM_KIND m) = 2 && d.rd (F.GSV_GSM_PAIR m) = k

/-- Whether the charge of a named bead is complete (R444). -/
def Dev.charged (d : Dev) (p : PcRun) (b : Nat) : Bool :=
  !p.dcl || (match d.stringOf b with
    | some g => fLe (fabs (fsub ((d.bead b).meas.getD 6 0) (d.rd (F.BSV_CHG_VT g))).v) (d.rd (F.BSV_RDY_BAND g))
    | none => true)

/-- Whether a bead of the run has completed or failed; completed is what the plan instant that saw it keeps. [Log: DEDUCED 77] -/
def Dev.beadThrough (d : Dev) (p : PcRun) (b : Nat) : Bool := p.failB.contains b || p.doneB.contains b || (d.rdB (F.GSV_BEAD_PC_DONE b) && d.charged p b)
/-- Whether a pair of the run has completed or failed: a monitored one by its HELD bit, another when all its pulses have been sent. -/
def Dev.pairThrough (d : Dev) (p : PcRun) (k : Nat) : Bool := p.failP.contains k || p.doneP.contains k || (d.bootMonitor k && bitOf (d.rd F.GSV_STAT_HELD) k)

/-- A plan instant of a running precharge: PC_DONE, which makes a COLD bead SPARE if it may be (R300), pairs taken as held once their last
pulse lies behind, the charge limit, the charge phases (R307), the bead that must toggle, the pulses of the local pairs in the frame
that comes. [Log: DEDUCED 77] -/
def Wk.prechargePlan (w : Wk) : Wk :=
  match w.d.edge.pc with
  | none => w
  | some p =>
    if w.d.safe then w else
    let w := w.up fun d => (p.beads.filter fun b => !p.failB.contains b && !d.rdB (F.GSV_BEAD_PC_DONE b) && d.heldAll b).foldl (fun d b => (d.wr (F.GSV_BEAD_PC_DONE b) 1).coldReady b) d
    let maxp := w.d.rd F.GSV_PC_MAXP
    let early := decide (w.d.rd F.GSV_PC_OFS + w.d.rd F.GSV_PC_WIDTH ≤ w.d.cmpEnd)
    let done := p.pairs.filter fun k => !w.d.bootMonitor k && decide (maxp ≤ (w.d.pair k).pulses) && (early || !(w.d.pair k).pulsing) && !p.doneP.contains k
    let w := w.up fun d => done.foldl (fun d k => d.setBit F.GSV_STAT_HELD k) d
    let late := if p.dcl && decide (p.limit ≤ p.frames) then p.beads.filter fun b => !w.d.beadThrough p b else []
    let full := p.beads.filter fun b => !p.failB.contains b && !p.doneB.contains b && w.d.beadThrough p b
    let p := { p with doneP := p.doneP ++ done, failB := p.failB ++ late, doneB := p.doneB ++ full, frames := p.frames + 1 }
    let quiet := p.beads.filter fun b => !w.d.beadThrough p b && (w.d.bead b).got && le (w.d.bead b).last 2 1 = 4 && (w.d.bead b).toggle.isNone
    let w := w.up fun d => (p.beads.filter fun b => p.dcl && d.rdB (F.GSV_BEAD_PC_DONE b) && !d.beadThrough p b).foldl (fun d b =>
      match d.stringOf b with | some g => d.setBead b { d.bead b with chg := d.chargePhase b g } | none => d) d
    let w := w.up fun d => quiet.foldl (fun d b => (d.setBead b { d.bead b with toggle := some 0, seen0 := [] }).wr (F.GSV_BEAD_TOGGLING b) 1) d
    let now := p.pairs.filter fun k => !w.d.pairThrough p k && decide ((w.d.pair k).pulses < maxp)
    let a := w.d.rd F.GSV_PC_OFS * 32
    let z := (w.d.rd F.GSV_PC_OFS + w.d.rd F.GSV_PC_WIDTH) * 32
    let evs := now.flatMap fun k => [({ off := a, kind := .compare, unit := 256 + k, level := 0 } : Ev), { off := z, kind := .compare, unit := 256 + k, level := 2 }]
    w.up fun d =>
      let d := p.pairs.foldl (fun d k => d.setPair k { d.pair k with pulses := (d.pair k).pulses + (if now.contains k then 1 else 0), pulsing := now.contains k }) d
      { d with edge := { d.edge with pc := some p, next := sortEvs (d.edge.next ++ evs) } }

/-! ## The plan instant and the boundary -/

/-- Whether SOFT_START takes a bead (Table 11-2): one that is COLD or SPARE and stays so, with ROLE 0 and all six held bits. -/
def Dev.softTakes (d : Dev) (b : Nat) : Bool :=
  [1, 2].contains (d.rd (F.BDT_STATE b)) && [1, 2].contains (d.nextState b) && !d.rdB (F.BDT_STATE_ROLE b) && d.heldAll b

/-- The beads that SOFT_START brings into service, in ascending order, with those in service already (R303, R445). -/
def Dev.softBeads (d : Dev) (g : Nat) : List Nat :=
  (d.beadsOf g).filter fun b => d.nextState b = 3 || d.softTakes b

/-- The plan of a SOFT_START that applies at the next boundary (R445): beads, slots, phases, channel enables. [Log: DEDUCED 25, 49] -/
def Dev.softPlan (d : Dev) : Dev :=
  let d := (List.range 96).foldl (fun d b =>
    if d.softTakes b then d.setNext b 3 else d) d
  let d := (List.range 6).foldl (fun d g =>
    if !d.rdB (F.BSV_CTRL_EN g) then d else
    let l := (d.beadsOf g).filter fun b => d.nextState b = 3
    let d := (d.slotted g).foldl (fun d b => if l.contains b then d else d.wr (F.BDT_STATE_SLOT b) 127) d
    let d := l.foldl (fun d b => d.legsOn b true) d
    (d.giveSlots g l).wr (F.BSV_STAT_SHORT g) 0) d
  (List.range 256).foldl (fun d c => if d.managed c then d else
    match tfind d.edge.hostEn c with
    | some v => d.frmNext (F.CH_CTRL_EN c) v
    | none => d) d

/-- What bead service does of itself at a plan instant (R305): in the order of R316, R310, R318 and R319. [Log: DEDUCED 49] -/
def Wk.beadAuto (w : Wk) : Wk :=
  let w := w.up fun d => { d.judgeSpares.coldPlan with frame := { d.frame with acted := true } }
  let w := w.on w.d.softDue (·.up (·.softPlan))
  let w := w.bypassPlan
  w.on (!w.d.safe) fun w => w.each ((List.range 6).filter fun g => w.d.rdB (F.BSV_CTRL_EN g)) fun g w => (w.dealSlots g).autoInsert g

/-- The plan instant of bead service, once in a frame: what it does of itself, then the commands (R321, Table 11-4). [Log: DEDUCED 49] -/
def Wk.beadPlan (w : Wk) : Wk := w.beadAuto.beadCommands

/-- Whether bead service has this frame's plan instant before it: the records are in (R21). -/
def Dev.planAhead (d : Dev) : Bool := d.running && d.rd F.SYS_FRM_STAT_WINDOW = 1 && !d.frame.acted

/-- Whether a string is complete (R320). -/
def Dev.stringWhole (d : Dev) (g : Nat) : Bool :=
  let n := d.rd (F.BSV_STAT_NSLOT g)
  let l := d.slotted g
  decide (n = d.rd (F.BSV_CTRL_NTGT g)) && decide (0 < n) && decide (l.length = n) && l.all fun b => decide (d.rd (F.BDT_STATE b) = 3)
    && (d.legChannels b 0 ++ d.legChannels b 1).all fun c => !d.rdB (F.CH_STAT_STEPPING c) && (!d.rdB (F.CH_CTRL_EN c) || (d.ch c).inPer)

/-- A boundary of bead service: the states decided apply with TCHG (R301), STRING_DEGRADED and
STRING_RESTORED (R320). [Log: DEDUCED 80, 82] -/
def Wk.svcBoundary (w : Wk) : Wk :=
  let w := w.up fun d => (List.range 96).foldl (fun d b =>
    match (d.bead b).nxt with
    | none => d
    | some st =>
      let d := if d.rd (F.BDT_STATE b) = 3 then d.wr (F.BDT_STATE_FAILED b) 0 else d
      let d := if st = 2 then d else d.wr (F.BDT_STATE_READY b) 0
      ((d.wr (F.BDT_STATE b) st).wr (F.BDT_TCHG b) d.ns).setBead b { d.bead b with nxt := none, fail := (d.bead b).fail && (st = 2 || st = 3), svcN := if st = 3 then d.frame.n else (d.bead b).svcN }) d
  w.each (List.range 6) fun g w =>
    if !w.d.rdB (F.BSV_CTRL_EN g) then w else
    let old := tget {} w.d.strings g
    let n := w.d.rd (F.BSV_STAT_NSLOT g)
    let t := w.d.rd (F.BSV_CTRL_NTGT g)
    let whole := w.d.stringWhole g
    let w := w.up fun d => { d with strings := tput {} d.strings g ⟨whole, n⟩ }
    let w := w.on (decide (t ≤ old.nslot) && decide (n < t) && decide (n < old.nslot)) (·.raise 26 0 g)
    w.on (whole && !old.whole) (·.raise 66 0 g)

/-! ## Rows -/

/-- BYPASS_TIMEOUT (R316): at the plan instant of the last frame that may confirm, which the record of that frame does not. -/
def execBypassTimeout (b : Nat) (s : State) : Host.Outcome State Fault Refusal :=
  s.run fun w => w.on (w.d.planAhead && w.d.rd (F.BDT_STATE b) = 4 && (w.d.bead b).nxt.isNone && w.d.bypassLate b) fun w =>
    (w.advanceTo (w.d.inFrame w.d.cmpEnd)).bypassFail b

/-- BEAD_COMMAND_ACT (R321): the plan instant of bead service has come, at which the accepted commands act. -/
def execBeadCommandAct (s : State) : Host.Outcome State Fault Refusal :=
  s.run fun w => w.on w.d.planAhead fun w => (w.advanceTo (w.d.inFrame w.d.cmpEnd)).beadPlan

/-- PRECHARGE_LIMIT (R177): GSV_PC_MAXP frames have passed without completion, at the plan instant that many frames after the first of
the pattern. [Log: DEDUCED 77] -/
def execPrechargeLimit (isPair : Bool) (i : Nat) (s : State) : Host.Outcome State Fault Refusal :=
  s.run fun w =>
    match w.d.edge.pc with
    | none => w
    | some p =>
      if p.frames ≤ w.d.rd F.GSV_PC_MAXP then w
      else if isPair then
        if !p.pairs.contains i ∨ w.d.pairThrough p i ∨ !w.d.bootMonitor i then w else
        (w.up fun d => { d with edge := { d.edge with pc := some { p with failP := p.failP ++ [i] } } }).raise 13 0 i
      else if !p.beads.contains i ∨ p.failB.contains i ∨ w.d.rdB (F.GSV_BEAD_PC_DONE i) then w
      else (w.up fun d => ({ d with edge := { d.edge with pc := some { p with failB := p.failB ++ [i] } } }).wr (F.GSV_BEAD_PC_FAIL i) 1).raise 21 0 i

/-- PRECHARGE_COMPLETE (R444): every named bead and pair has completed or failed. -/
def execPrechargeComplete (s : State) : Host.Outcome State Fault Refusal :=
  s.run (·.up fun d =>
    match d.edge.pc with
    | none => d
    | some p =>
      if !(p.beads.all (d.beadThrough p) && p.pairs.all (d.pairThrough p)) then d else
      let d := { d with edge := { d.edge with pc := none } }.setRun .armed
      let m (i : Nat) : Nat := ofBits ((p.failB.filter fun b => b / 32 = i).map (· % 32))
      d.settle (fun x => decide (x.kind = WaitKind.precharge)) fun _ => (Status.ok, 0, [m 0, m 1, m 2, ofBits p.failP]))

end Sys2Proof.Machine
end

