-- ==== Sys2Proof/Machine/Downlink.lean ====
section
/-! DEFINITION. The record builder: what each bead is sent for the next frame, and the downlink frames of the strands
(R92 to R102, R138 to R141, R175, R299, R302, R345, R564). -/
namespace Sys2Proof.Machine

/-- CMD, LEG_EN and DAB_MODE of a record. -/
structure Contents where
  enable : Bool
  bypass : Bool
  pump : Bool
  legs : Nat
  dab : Nat
deriving DecidableEq, Repr

/-- Table 11-1. -/
def contentsOf (st : Nat) (spare : Bool) : Contents :=
  match st with
  | 2 => ⟨true, true, true, 0x3C, 2⟩
  | 3 => ⟨true, false, true, 0x3F, 1⟩
  | 4 => ⟨true, true, true, 0x03, 0⟩
  | 5 => ⟨false, true, spare, 0, 0⟩
  | 6 => ⟨false, true, false, 0, 0⟩
  | _ => ⟨false, true, spare, 0, 0⟩

/-- What a plan knows: the device before it, the device as it stands, the device at the next boundary, and whether the records
of the next frame are records of the safe state (R160, R443). -/
structure Plan where
  pre : Dev
  d : Dev
  pv : Dev
  safe : Bool

/-- A channel in force at the target boundary. -/
def Plan.chOn (p : Plan) (c : Nat) : Bool := p.pv.rdB (F.CH_CTRL_EN c) && p.pv.rdB (F.TB_CTRL_EN (p.pv.rd (F.CH_CTRL_TB c))) && !p.safe

/-- The level a leg's channel holds at the target boundary before any transition there (R139). -/
def Plan.startLevel (p : Plan) (c : Option Nat) : Nat :=
  match c with
  | none => 2
  | some c =>
    if !p.chOn c then 2
    else if (p.pre.ch c).on && (p.pre.tb (p.pv.rd (F.CH_CTRL_TB c))).run then (p.pre.ch c).level else 0

/-- CPER and CPHASE of a channel (R139). [Log: DEDUCED 18] -/
def Plan.carrier (p : Plan) (c : Option Nat) : Nat × Nat :=
  match c with
  | none => (0, 0)
  | some c =>
    if !p.chOn c then (0, 0) else
    let t := p.pv.rd (F.CH_CTRL_TB c)
    let x := p.pre.ch c
    let first := p.d.edge.next.find? fun e => decide (e.kind = .reload) && e.unit = c && e.off = 0
    let at0 := first.isSome
    let per := if at0 then (first.map (·.len)).getD 0 else if x.on && x.live then x.per else (p.d.tb t).per1 * 32
    if per = 0 then (0, 0)
    else if at0 then (per, 0)
    else if x.on && x.live then (per, x.since % per)
    else (per, ((p.d.tb t).pos1 + per - (p.d.ch c).phs % per) % per)

/-- COAST_OK (R139). [Log: DEDUCED 18] -/
def Plan.coastOk (p : Plan) (c0 c1 : Option Nat) (cper : Nat) : Bool :=
  match c0, c1 with
  | some a, some b => decide (0 < cper) && p.chOn a && p.chOn b && decide (cper ≤ (p.d.ch a).irr) && decide (cper ≤ (p.d.ch b).irr)
  | some a, none => decide (0 < cper) && p.chOn a && decide (cper ≤ (p.d.ch a).irr)
  | none, _ => false

/-- A descriptor as planned: offset, SW, level, PRE, and the channel it comes from. -/
structure Desc where
  off : Nat
  sw : Nat
  level : Nat
  pre : Bool := false
  ch : Option Nat := none
deriving DecidableEq, Repr

/-- Insert by offset, at equal offsets by SW (R138). -/
def Desc.ins (e : Desc) : List Desc → List Desc
  | [] => [e]
  | x :: r => if e.off < x.off ∨ (e.off = x.off ∧ e.sw < x.sw) then e :: x :: r else x :: Desc.ins e r

/-- The descriptor's 64 bits (Table 4-3). -/
def Desc.word (e : Desc) (seq : Nat) : Nat := seq * 2 ^ 48 + e.off * 2 ^ 24 + e.sw * 2 ^ 20 + e.level * 2 ^ 18 + b2n e.pre * 2 ^ 16
/-- The descriptor as it is sent. -/
def Desc.bytes (e : Desc) (seq : Nat) : List Byte := leBytes 8 (e.word seq)

/-- Of events at one offset only the last (R100). -/
def lastAtEach : List Ev → List Ev
  | [] => []
  | e :: r => if r.any fun x => x.off = e.off then lastAtEach r else e :: lastAtEach r

/-- The transitions of a bead's legs in the next frame, and its sample triggers, at most 4 (R138, R141), no two for one SW at one offset
(R100). A sample trigger counts to the SW0 channel it is sent for. -/
def Plan.descs (p : Plan) (b : Nat) : List Desc :=
  let evs := p.d.edge.next
  let leg (sw : Nat) : List Desc := match p.pv.legChannel b sw with
    | none => []
    | some c =>
      let l := lastAtEach (evs.filter fun e => (e.kind = .reload || e.kind = .compare) && e.unit = c)
      (l.foldl (fun (a : List Desc × Nat) e => if e.level = a.2 then a else (a.1 ++ [{ off := e.off, sw := sw, level := e.level, ch := some c }], e.level)) ([], p.startLevel (some c))).1
  let smp := match p.pv.legChannel b 0 with
    | some c =>
      let t := p.pv.rd (F.CH_CTRL_TB c)
      let rt (m : Nat) : Nat := p.pv.rd (match m with | 0 => F.TB_CMPX_RT_RT0 t | 1 => F.TB_CMPX_RT_RT1 t | 2 => F.TB_CMPX_RT_RT2 t | _ => F.TB_CMPX_RT_RT3 t)
      if !p.chOn c then [] else
      let l := lastAtEach (evs.filter fun e => match e.kind with | .cmpx m => e.unit = t && bitOf (rt m) 2 | _ => false)
      (l.map fun e => ({ off := e.off, sw := 15, level := 0, ch := some c } : Desc)).take 4
    | none => []
  (leg 0 ++ leg 1 ++ smp).foldl (fun l e => Desc.ins e l) []

/-- The precharge pulses of the front-end legs that are not held (R175); of a pulse of width 0 only the later level is sent (R100). -/
def Plan.preDescs (p : Plan) (b : Nat) : List Desc :=
  let held := p.d.rd (F.GSV_BEAD_HELD b)
  let a := p.pv.rd F.GSV_PC_OFS * 32
  let z := (p.pv.rd F.GSV_PC_OFS + p.pv.rd F.GSV_PC_WIDTH) * 32
  let l := [0, 1].filter fun i => !bitOf held i
  (if z = a then [] else l).map (fun i => { off := a, sw := i, level := 0, pre := true }) ++ l.map fun i => { off := z, sw := i, level := 2, pre := true }

/-- What the record of one bead says, before it is laid out. -/
structure Rec where
  c : Contents
  start : Nat
  cper : Nat := 0
  cph : Nat := 0
  coast : Bool := false
  descs : List Desc := []
  phi : Nat := 0
  trimPh : Nat := 0
  trimDur : Nat := 0
  pulse : Bool := false
  test : Nat := 0

/-- A committed BDL field, else the value given. -/
def Plan.bdl (p : Plan) (b f dflt : Nat) : Nat := (tget none p.d.lpe.bdl (b * 16 + f)).getD dflt

/-- The record of a bead (Table 11-1, R160, R175, R299, R302); the pattern goes to every named bead but one that is on its way out or
retired, and its pulses are sent in at most GSV_PC_MAXP frames (R177). [Log: DEDUCED 76, 77] -/
def Plan.recOf (p : Plan) (b : Nat) : Rec :=
  let st := p.d.nextState b
  let spare := match p.pv.stringOf b with | some g => p.pv.rdB (F.BSV_CTRL_PUMP_SPARE g) | none => true
  let c := contentsOf st spare
  let x := p.d.bead b
  let low := p.safe || decide (x.toggle = some 0)
  let dabOk (m : Nat) : Nat := if p.d.rd (F.GSV_BEAD_HELD b) / 4 = 15 then m else 0
  let pat := match p.d.edge.pc with | some q => [1, 2, 3, 5].contains st && q.beads.contains b && !q.failB.contains b && !q.doneB.contains b && !p.safe | none => false
  if pat then
    let chg := match p.d.edge.pc with | some q => q.dcl && p.d.rdB (F.GSV_BEAD_PC_DONE b) && !p.d.charged q b | none => false
    let phi := match p.d.stringOf b with | some g => if chg then toField 32 (p.d.chargePhase b g) else 0 | none => 0
    let past := match p.d.edge.pc with | some q => decide (p.pv.rd F.GSV_PC_MAXP < q.frames) | none => false
    let ds := if p.d.rdB (F.GSV_BEAD_PC_DONE b) || past then [] else p.preDescs b
    { c := ⟨!low, c.bypass, true, 0x3F, if chg then dabOk 2 else 0⟩, start := 0xA, descs := ds, phi := phi, pulse := !ds.isEmpty && !low }
  else
    let c0 := p.pv.legChannel b 0
    let c1 := p.pv.legChannel b 1
    let (cper, cph) := p.carrier c0
    let serve := decide (st = 3)
    let mode := if serve then p.bdl b 7 1 else c.dab
    let trim (f : Nat) : Nat := if serve && tget false p.d.lpe.trims (b * 16 + f) then p.bdl b f 0 else 0
    { c := { c with enable := (c.enable || x.toggle.isSome) && !low, dab := dabOk mode }
      start := p.startLevel c0 + 4 * p.startLevel c1, cper := cper, cph := cph, coast := p.coastOk c0 c1 cper
      descs := if p.safe then [] else p.descs b
      phi := if serve then p.bdl b 1 0 else if st = 2 then toField 32 x.chg else 0
      trimPh := trim 5, trimDur := trim 6 }

/-- The 192 bytes of a record (Table 4-2). -/
def Plan.recBytes (p : Plan) (b pos : Nat) (r : Rec) : List Byte :=
  let seq := seqOf (p.d.frame.k + 1)
  let x := p.d.bead b
  let serve := p.d.nextState b = 3
  let v (f dflt : Nat) : Nat := if serve then p.bdl b f dflt else dflt
  let ds := r.descs.take 16
  let cfg := match x.cfg with | (a, op, w) :: _ => leBytes 1 (op + 16 * x.cfgTag) ++ leBytes 2 a ++ leBytes 4 w | [] => List.replicate 7 0
  let bytes := [BitVec.ofNat 8 pos, BitVec.ofNat 8 (if p.d.rd (F.BDT_STATE b) = 0 && !x.placed then 0 else b), BitVec.ofNat 8 ds.length, BitVec.ofNat 8 (b2n r.coast)]
    ++ leBytes 4 r.start ++ leBytes 4 r.cper ++ leBytes 4 r.cph ++ padTo 128 (ds.flatMap (·.bytes seq))
    ++ leBytes 4 (v 0 (p.pv.rd (F.BDT_HPER b))) ++ leBytes 4 r.phi ++ leBytes 4 (v 2 (p.pv.rd (F.BDT_T0 b)))
    ++ leBytes 2 (v 3 (p.pv.rd (F.BDT_DT_DAB_DT_P b))) ++ leBytes 2 (v 4 (p.pv.rd (F.BDT_DT_DAB_DT_S b)))
    ++ leBytes 2 r.trimPh ++ leBytes 2 r.trimDur ++ leBytes 1 r.c.dab ++ List.replicate 11 0
    ++ leBytes 1 (b2n r.c.enable + 4 * b2n r.c.bypass + 8 * b2n r.c.pump) ++ leBytes 1 r.c.legs ++ leBytes 1 (p.d.fastBits b) ++ leBytes 1 r.test
    ++ leBytes 1 x.rb ++ cfg
  withCrc bytes

/-- What a planned record leaves behind: the SEQs sent with ENABLE = 0, a toggle that is over (R185), the FAST bits sent (Table 10-4), the pulse
count (R177). -/
def Dev.recSent (d : Dev) (b seq : Nat) (r : Rec) : Dev :=
  let x := d.bead b
  let x := if r.c.enable then { x with sent0 := [], seen0 := [] } else { x with sent0 := (x.sent0 ++ [seq]).drop ((x.sent0.length + 1) - 8) }
  let d := (d.setBead b x).wr (F.BTH_STAT_FAST b) (d.fastBits b)
  if r.pulse then d.inc (F.GSV_BEAD_PCNT b) else d

/-- A toggle whose low time the bead has shown: the record now planned carries ENABLE = 1 and ends it (R185). -/
def Dev.toggleEnds (d : Dev) : Dev :=
  (List.range 96).foldl (fun d b =>
    let x := d.bead b
    if x.toggle = some 1 then d.setBead b { x with toggle := none }
    else if x.toggle.isSome && x.toggled then
      let d := (d.setBead b { x with toggle := some 1 }).wr (F.GSV_BEAD_TOGGLING b) 0
      d.settle (fun y => decide (y.kind = WaitKind.toggle) && y.bead = b) fun _ => (Status.ok, 0, [seqOf (d.frame.k + 1)])
    else d) d

/-- The beads of a strand that are sent records: bead and position. [Log: DEDUCED 78] -/
def Plan.served (p : Plan) (s : Nat) : List (Nat × Nat) :=
  p.pv.placed.filterMap fun x => if x.2.1 = s then some (x.1, x.2.2) else none

/-- The downlink header of the next frame (Table 4-1). [Log: DEDUCED 76, 78] -/
def Plan.header (p : Plan) (s lane nrec : Nat) : List Byte :=
  let d := p.d
  let f := p.pv.rd F.SYS_FRM_LEN + nrec * 2 ^ 17 + d.rd F.STK_ID * 2 ^ 21 + b2n p.safe * 2 ^ 24 + d.rd F.TIM_STAT_STEPPED * 2 ^ 25 + d.rd F.TIM_STAT_COARSE * 2 ^ 26
  withCrc ([BitVec.ofNat 8 0x11, BitVec.ofNat 8 (s + 16 * d.rd (F.LANE_CTRL_END lane) + 32 * d.unit + 64 * b2n d.preferred)]
    ++ leBytes 2 (seqOf (d.frame.k + 1)) ++ leBytes 4 (d.rd F.TWN_EPOCH) ++ leBytes 8 (d.boundaryAt (d.frame.k + 1)).toNat ++ leBytes 4 f ++ leBytes 4 (d.txLead lane) ++ leBytes 4 0)

/-- The first position served from the B end in this frame (R34): none while the strand is served whole. -/
def Dev.beyond (d : Dev) (s : Nat) : Option Nat := (tget {} d.strands s).beyond

/-- Whether a lane's end is a serving end (R34, R92): the B end of a whole strand is none where the A end is here too. [Log: DEDUCED 29] -/
def Dev.serving (d : Dev) (s lane : Nat) : Bool :=
  !d.rdB (F.STR_CTRL_BEND s) || (d.beyond s).isSome || !d.rdB (F.LANE_CTRL_END lane) || !((d.strandLane s false).isSome && (d.strandLane s true).isSome)

/-- Which positions a lane's end serves (R34, R345). -/
def Dev.endServes (d : Dev) (s lane pos : Nat) : Bool :=
  if !d.rdB (F.STR_CTRL_BEND s) then true else
  match d.beyond s with
  | none => d.serving s lane
  | some brk => if d.rdB (F.LANE_CTRL_END lane) then decide (brk ≤ pos) else decide (pos < brk)

/-- The downlink frames of the next frame (R92), with EDGE_DESC_OVF (R140), and the relay blocks of a twin (R345) with the
number of records in them. -/
def Wk.downlink (w : Wk) (p : Plan) : Wk × List Byte × Nat :=
  let d := p.d
  if !d.serves then (w, [], 0) else
  let strands := (List.range 16).filter fun s => p.pv.rdB (F.STR_CTRL_EN s)
  let recs (s : Nat) : List (Nat × Nat × Rec) := (p.served s).map fun x => (x.1, x.2, p.recOf x.1)
  let seq := seqOf (d.frame.k + 1)
  let go (a : Wk × List Byte × Nat) (s : Nat) : Wk × List Byte × Nat :=
    let (w, rel, n) := a
    let l := recs s
    let lanes := (List.range 24).filter fun ln => d.role ln = 1 ∧ d.rd (F.LANE_CTRL_STR ln) = s ∧ d.rd (F.LANE_STAT_PHASE ln) = 2 ∧ d.serving s ln
    let w := w.each lanes fun ln w => w.up fun d' =>
      let l := l.filter fun x => d.endServes s ln x.2.1
      d'.sendPlanned ln (p.header s ln l.length ++ l.flatMap fun x => p.recBytes x.1 x.2.1 x.2.2)
    let beyond := if d.twin = 4 then l.filter fun x => !lanes.any fun ln => d.endServes s ln x.2.1 else []
    let room := 12 - n
    let put := beyond.take room
    let rel := if put.isEmpty then rel else rel ++ [BitVec.ofNat 8 s, BitVec.ofNat 8 put.length, 0, 0] ++ put.flatMap fun x => p.recBytes x.1 x.2.1 x.2.2
    let w := w.on (decide (room < beyond.length)) (·.raise 71 0 s)
    let w := w.up fun d' => (l.foldl (fun d' x => d'.recSent x.1 seq x.2.2) d').loupeTake 1 (l.flatMap fun x => (x.2.2.descs.take 16).map fun e => BitVec.ofNat 64 (e.word seq))
    let lost := (l.flatMap fun x => (x.2.2.descs.drop 16).filterMap (·.ch)).eraseDups
    let w := w.each lost fun c w => (w.up (·.wr (F.CH_STAT_DESC_OVF c) 1)).raise 51 0 c
    (w, rel, n + put.length)
  let (w, rel, n) := strands.foldl go (w, [], 0)
  let tests := d.waits.filter fun x => x.kind = .loopTest && x.arg.getD 1 0 = 2 && d.role (x.arg.getD 0 0) = 1
  let w := w.each tests fun x w => w.up fun d' =>
    let ln := x.arg.getD 0 0
    let s := d.rd (F.LANE_CTRL_STR ln)
    let pos := x.arg.getD 3 0
    let b := d.rd (F.STR_POS_BEAD s pos)
    let r : Rec := { c := contentsOf 1 true, start := 0xA, test := 1 + 2 * x.arg.getD 2 0 }
    d'.sendPlanned ln (p.header s ln 1 ++ p.recBytes b pos r)
  (w, rel, n)

end Sys2Proof.Machine
end

