-- ==== Sys2Proof/Machine/Frame.lean ====
section
/-! DEFINITION. The life of a frame (R16 to R31): the boundary with everything that applies there (R440, R443, R445, R462,
R463), UPL_END, the plan instant, DNL_END, and the start of the frame generator (R18). -/
namespace Sys2Proof.Machine

/-! ## What applies at a boundary -/

/-- The reply of commands of a kind that are due at boundary `k`. -/
def Dev.replyDue (d : Dev) (kind : WaitKind) (k : BitVec 32) (ws : List Nat) : Dev :=
  d.settle (fun x => decide (x.kind = kind) && (match x.due with | some b => decide (b = k) || decide ((k - b).toNat < 2 ^ 31) | none => false)) fun _ => (Status.ok, 0, ws)

/-- A bead leaves the applied set (Table 11-2): ABSENT. [Log: DEDUCED 82] -/
def Dev.beadGone (d : Dev) (b : Nat) : Dev :=
  if d.rd (F.BDT_STATE b) = 0 then d.setBead b { hold := (d.bead b).hold, cfgTag := (d.bead b).cfgTag } else
  let d := (d.legsOn b false).setBead b { hold := (d.bead b).hold, cfgTag := (d.bead b).cfgTag }
  ((((d.wr (F.BDT_STATE b) 0).wr (F.BDT_STATE_READY b) 0).wr (F.BDT_STATE_FAILED b) 0).wr (F.BDT_STATE_UNCONF b) 0).wr (F.BDT_TCHG b) d.ns

/-- What follows from a set that has applied (R287, R298, R300, R564): beads that come and go, sensors whose limits or enables change.
[Log: DEDUCED 49] -/
def Dev.afterSet (d old : Dev) : Dev :=
  let was := old.placed
  let now := d.placed
  let d := (old.standing.filter fun x => !d.standing.contains x).foldl (fun d x => d.beadGone x.1) d
  let d := now.foldl (fun d x => if d.rd (F.BDT_STATE x.1) = 0 && !was.contains x then d.startDiscovery x.1 x.2.1 else d) d
  old.thm.sens.foldl (fun d e =>
    let i := e.1
    let hsg (d : Dev) : Nat := if isDie i then 0 else d.rd (F.BTH_CFG_HSG (i / 8))
    if d.lset i ≠ old.lset i ∨ hsg d ≠ hsg old then d.resetSens i else d) (d.afterEnable old)

/-- The accepted staged set applies at boundary `k` (R440): values, reply, notification 0x04. -/
def Wk.stageNow (w : Wk) (k : BitVec 32) : Wk :=
  (w.up fun d =>
    let d' := (d.stageValues.afterSet d).replyDue .stageApply k [seqOf k]
    d'.notify 4 [0, seqOf k]).syncOutputs

/-- A LEN that changes keeps the index of its boundary (R31). -/
def Dev.rebase (d : Dev) (len : Nat) (at_ : BitVec 64) (k : BitVec 32) : Dev :=
  if d.rd F.SYS_FRM_LEN = len then d else { d with frame := { d.frame with base := k, origin := at_ } }

/-- What a boundary needs of the values in force before it. -/
def Dev.prior (d : Dev) : Prior := { gains := (List.range 128).map fun a => (d.rd (F.ACC_GAIN a), d.rd (F.ACC_OFS a)), alts := d.altPairs }

/-- Values take effect at the boundary that comes: a LEN that changes makes it FRM_ORIGIN (R31), and what it needs of those
before is kept (R193, R202). -/
def Wk.takeEffect (w : Wk) (f : Wk → Wk) : Wk :=
  let k := w.d.frame.k + 1
  let t := w.d.boundaryAt k
  let len := w.d.rd F.SYS_FRM_LEN
  let w := w.up fun d => if d.running && d.frame.prior.isNone then { d with frame := { d.frame with prior := some d.prior } } else d
  (f w).up (·.rebase len t k)

/-- Every value due by the next boundary takes effect: the staged set, then FRM values (R462, R463). -/
def Wk.valuesNow (w : Wk) : Wk :=
  w.takeEffect fun w => (w.on w.d.stageDue (·.stageNow (w.d.frame.k + 1))).up (·.frmApply)

/-- Whether an ARM that waits applies at boundary `k` (R443): it was accepted in time for `k`, and the records of the target frames
k−2 and k−1, and so those of k, were planned in the safe state; one that the partner mirrors applies at the boundary it names
(R342). [Log: DEDUCED 76] -/
def Dev.armDue (d : Dev) (k : BitVec 32) : Bool :=
  match d.waiting .arm with
  | some x => (match x.due with | some b => decide ((k - b).toNat < 2 ^ 31) | none => false) && (decide (2 ≤ x.hdr.port) || (d.safe && decide (3 ≤ d.frame.safeRecs)))
  | none => false

/-- ARM applies at boundary `k` (R443): the safe state is left. [Log: DEDUCED 76] -/
def Wk.armNow (w : Wk) (k : BitVec 32) : Wk :=
  w.on (w.d.armDue k && !w.v.lockout) fun w =>
    (w.up fun d =>
      let d := ((d.wr F.EDG_STAT_QUIESCED 0).wr F.LPE_CTRL_RUN 1).setRun .armed
      { d with frame := { d.frame with safeRecs := 0 } }.replyDue .arm k [seqOf k]).syncOutputs

/-- SOFT_START applies at boundary `k` (R445, R266). -/
def Wk.softNow (w : Wk) (k : BitVec 32) : Wk :=
  match w.d.waiting .softStart with
  | some x => w.on (x.due = some k) (·.up fun d =>
      (({ d with frame := { d.frame with autorun := x.arg.getD 0 0 = 1 } }.upLpe fun l => { l with rampDue := true }).setRun .softStarting).replyDue .softStart k [seqOf k])
  | none => w

/-- The coefficient swap that is pending (R242). -/
def Dev.swapNow (d : Dev) (k : BitVec 32) : Dev :=
  if !d.rdB F.LPE_COEF_SWAP_PEND then d else
  (((d.wr F.LPE_COEF_BANK (1 - d.rd F.LPE_COEF_BANK)).wr F.LPE_COEF_SWAP_PEND 0).upLpe fun l => { l with swapped := true }).settle
    (fun x => decide (x.kind = WaitKind.coefSwap)) fun _ => (Status.ok, 0, [seqOf k, 1 - d.rd F.LPE_COEF_BANK])

/-- STOP's RUN = 0 (R446). -/
def Dev.stopNow (d : Dev) (k : BitVec 32) : Dev := d.replyDue .stop k []

/-- LPE_STAT.RUNNING: whether the frame that begins computes (R236, Table 12-2). [Log: DEDUCED 83] -/
def Dev.runningNow (d : Dev) : Dev := d.wrB F.LPE_STAT_RUNNING (d.rdB F.LPE_CTRL_RUN && d.computes)

/-- What every boundary does, boundary 0 included, once the values of its frame are in force (R22, R194, R232): `p` holds
what it needs of those before. -/
def Wk.boundaryWork (w : Wk) (p : Prior) (first : Bool) : Wk :=
  let w := (w.up fun d => ({ d with lines := [] }.lpeBoundary d.frame.k.toNat).runningNow).remapBoundary.svcBoundary
  w.acqBoundary p first

/-- The rest of what every boundary does: toggles, served ends, discipline, the twin, the stack, the service maps. -/
def Wk.boundaryEnd (w : Wk) : Wk :=
  let w := w.denBoundary
  let w := w.up fun d => (List.range 96).foldl (fun d b => if (d.bead b).got then d.setBead b { d.bead b with got := false } else d) d.rejoinBoundary
  let w := w.disciplineBoundary.twinBoundary.stkBoundary
  w.olgSync.up fun d => (d.wr F.SYS_FRM_STAT_SEQ (seqOf d.frame.k)).wr F.SYS_FRM_STAT_WINDOW 0

/-- A frame ends at device time `t` and real time `rt`: the next one's date. -/
def FrameSt.next (f : FrameSt) (t : BitVec 64) (rt : Nat) : FrameSt :=
  { f with at_ := t, rt := rt, date := f.date + (t - f.at_).toNat, n := f.n + 1, planned := false, acted := false, prior := none, quiesce := f.qNext, qNext := true }

/-- Whether every RAMP instance of the program is in phase 2 (R266). -/
def Dev.rampsDone (d : Dev) : Bool :=
  (List.range d.lpe.nent).all fun no =>
    let e := d.entry no
    e.op ≠ 0x0D || (List.range e.n).all fun i => d.smem (e.st + i * 2 + 1) = 0x40000000

/-- AUTORUN (R445): at the first boundary at which every RAMP instance is in phase 2 the state becomes RUN. Those that still have to
start with this boundary's frame (R266) are not. [Log: DEDUCED 80] -/
def Dev.autorunNow (d : Dev) : Dev :=
  if d.run = .softStarting ∧ d.frame.autorun ∧ !d.lpe.rampDue ∧ d.rampsDone then d.setRun .run else d

/-- Whether a row of the coming boundary may come: in the guard window, or at once while no frames run (R21, R464). [Log: DESIGN CHOICE 35] -/
def Dev.boundaryNext (d : Dev) : Bool := !d.running || d.rd F.SYS_FRM_STAT_WINDOW = 3

/-- FRAME_BOUNDARY (R16, R21, R22, R463): device time reaches the next boundary, in the guard window. [Log: DEDUCED 45] -/
def Wk.frameBoundary (w : Wk) : Wk :=
  if !w.d.running ∨ w.d.rd F.SYS_FRM_STAT_WINDOW ≠ 3 then w else
  let k := w.d.frame.k + 1
  let t := w.d.boundaryAt k
  let w := w.flushPlan.advanceTo t
  let w := w.valuesNow.up (·.swapNow k)
  let p := w.d.frame.prior.getD w.d.prior
  let w := w.up fun d => { d with frame := { d.frame.next d.time.now d.time.rt with k := k } }
  let w := (((w.armNow k).up (·.stopNow k)).up (·.autorunNow)).softNow k
  (w.boundaryWork p false).edgeBoundary.boundaryEnd.tripScan

/-! ## UPL_END (R23, R24, R120, R237) -/

/-- The records that did not come (R120). [Log: DEDUCED 49] -/
def Wk.missing (w : Wk) : Wk :=
  let w := w.up fun d => (List.range 16).foldl (fun d s =>
    let n := (d.placed.filter fun x => x.2.1 = s && (d.bead x.1).got).length
    if d.rd (F.STR_STAT_HEARD s) = min 15 n then d else d.wr (F.STR_STAT_HEARD s) (min 15 n)) d
  w.each (w.d.placed.filter fun x => w.d.rdB (F.STR_CTRL_EN x.2.1) && !(w.d.bead x.1).got) fun x w =>
    let b := x.1
    let m := (w.d.bead b).missRun + 1
    let w := (w.up fun d => (d.setBead b { d.bead b with missRun := m, nan := false }).inc (F.STR_MISS x.2.1)).raise 88 0 b
    w.on (m = 3) (·.raise 22 0 b)

/-- BEAD field 18 (Table 11-1). -/
def fieldState (st : Nat) : Nat := match st with | 0 | 6 => 3 | 1 | 2 => 1 | 3 => 0 | _ => 2

/-- The fields 0 to 20 of a bead (Table 8-3); fields 9 to 16 are each sensor's T as it stands (R285, R287). -/
def Dev.beadFields (d : Dev) (b : Nat) : List Nat :=
  let x := d.bead b
  ((List.range 9).map fun i => x.meas.getD i 0) ++ ((List.range 8).map fun s => (d.sens (8 * b + s)).t)
    ++ [if x.got && !x.nan then 0 else fOne, fInt (fieldState (d.rd (F.BDT_STATE b)) : Nat), if d.heldAll b then fOne else 0, d.excess b]

/-- The snapshot (R237): accumulators, beads, SYS. The stack set-points hold (R369), and so does a set-point that is a NaN. -/
def Dev.takeSnapshot (d : Dev) : Dev :=
  let old (ref : Nat) : Nat := tget 0 d.lpe.snap ref
  let acc := (List.range 128).flatMap fun a => (List.range 4).map fun f => (2 * 2 ^ 21 + a * 4 + f, (d.accOut a).getD f 0)
  let bead := (List.range 96).flatMap fun b =>
    let l := d.beadFields b
    (List.range 21).map fun f => (3 * 2 ^ 21 + b * 32 + f, l.getD f 0)
  let s := 4 * 2 ^ 21
  let len := d.rd F.SYS_FRM_LEN
  let sys := [(s, fRat len 400000000), (s + 1, fRat 400000000 len), (s + 2, if d.rdB F.LPE_STAT_SWAPPED then fOne else 0)]
    ++ ((List.range 6).map fun g => (s + 8 + g, fInt (((d.beadsOf g).filter fun b => d.rd (F.BDT_STATE b) = 3).length : Nat)))
    ++ ((List.range 256).map fun i => let v := d.rd (F.LPE_SETP i); (s + 256 + i, if fisNan v then old (s + 256 + i) else v))
    ++ ((List.range 64).map fun j => (s + 512 + j, old (s + 512 + j)))
  d.upLpe fun l => { l with snap := (acc ++ bead ++ sys).filter fun e => e.2 ≠ 0 }

/-- UPL_END, in the uplink window (R21). [Log: DEDUCED 83] -/
def Wk.uplEndNow (w : Wk) : Wk :=
  if !w.d.running ∨ w.d.rd F.SYS_FRM_STAT_WINDOW ≠ 0 then w else
  let w := w.advanceTo (w.d.inFrame w.d.uplEnd)
  let w := w.missing.silentSubstitutes (seqOf w.d.frame.k) (w.d.placed.map (·.1))
  let w := w.stkUplEnd.up (·.takeSnapshot)
  let w := w.twinUplEnd
  let go := w.d.rdB F.LPE_CTRL_RUN && w.d.computes
  (w.up fun d => (((if go then d else d.quietReset).upLpe fun l => { l with active := go }).wrB F.LPE_STAT_RUNNING go).wr F.SYS_FRM_STAT_WINDOW 1).tripScan

/-! ## The plan instant (R128, R238, R305, R92) -/

/-- How many frames in a row have been planned in the safe state once this one is (R443). -/
def Dev.countSafe (d : Dev) : Dev := { d with frame := { d.frame with safeRecs := if d.safe then min 3 (d.frame.safeRecs + 1) else 0, qNext := d.safe } }

/-- The plan of the next frame is fixed (R128): the downlink window begins (R21). -/
def Dev.planned (d : Dev) : Dev := { d with frame := { d.frame with planned := true } }.wr F.SYS_FRM_STAT_WINDOW 2

/-- PLAN_INSTANT, in the compute window (R21). Records planned in the safe state are records of it (R160). [Log: DEDUCED 76] -/
def Wk.planNow (w : Wk) : Wk :=
  if !w.d.running ∨ w.d.rd F.SYS_FRM_STAT_WINDOW ≠ 1 then w else
  let w := w.advanceTo (w.d.inFrame w.d.cmpEnd)
  let (w, evs) := w.lpeCommit
  let w := w.each evs fun e w => (w.raise e.1 0 e.2).on (e.1 = 58) (·.up (·.ainSwitch e.2))
  let w := (w.on (!w.d.frame.acted) (·.beadPlan)).up (·.countSafe)
  let pre := w.d
  let w := w.edgePlan.prechargePlan
  let w := w.up fun d => (d.placed.foldl (fun d x => d.refreshCfg x.1) d).toggleEnds
  let w := w.twinPlan
  let (w, rel, n) := w.downlink ⟨pre, w.d, w.d.preview, w.d.safe⟩
  let w := (w.up (·.sendTwin rel n)).stkPlan
  (w.up fun d => (d.aimAll (some d.preview)).planned).tripScan

/-! ## The frame generator (R18) -/

/-- Whether every configured link of the strands, the twin and the stack is up: of a strand its A end, since a B-end lane may have no
OFFER to turn round (R72). A unit that holds B ends only does not wait for its strands. [Log: DEDUCED 90] -/
def Dev.linksUp (d : Dev) : Bool :=
  (List.range 24).all fun n =>
    let need : Bool := match d.role n with
      | 1 => d.rdB (F.STR_CTRL_EN (d.rd (F.LANE_CTRL_STR n))) && !d.rdB (F.LANE_CTRL_END n)
      | 2 => d.rdB F.TWN_CTRL_EN
      | 3 => d.rdB F.STK_CTRL_EN
      | _ => false
    !need || decide (d.rd (F.LANE_STAT_PHASE n) = 2)

/-- The frame generator starts at device time `t` and real time `rt`; the date goes on by the real time that has passed. -/
def FrameSt.restart (f : FrameSt) (t : BitVec 64) (rt : Nat) : FrameSt :=
  { origin := t, at_ := t, rt := rt, date := f.date + (rt - f.rt) * 1024, n := f.n + 1 }

/-- Frame 0 begins now: boundary 0 is a boundary like every other (R22, R194, R242), but that no plan has been made for its frame. A
unit of a twin enters LISTEN, whatever state it was in (R335). -/
def Wk.startFrames (w : Wk) : Wk :=
  let p := w.d.prior
  let w := w.up fun d =>
    let d := ({ d with frame := d.frame.restart d.time.now d.time.rt }.upTwn fun t => { t with h1Got := none, h1Done := none, aligned := false }).wr F.SYS_FRM_CTRL_RUNNING 1
    (if d.rdB F.TWN_CTRL_EN then d.enterListen else d).swapNow 0
  ((w.boundaryWork p true).boundaryEnd).up (·.upTwn fun t => { t with listen := 0 })

/-! ## Rows -/

/-- UPL_END. -/
def execUplEnd (s : State) : Host.Outcome State Fault Refusal := s.run (·.uplEndNow)

/-- PLAN_INSTANT. -/
def execPlanInstant (s : State) : Host.Outcome State Fault Refusal := s.run (·.planNow)

/-- DNL_END (R21): the guard window begins. -/
def execDnlEnd (s : State) : Host.Outcome State Fault Refusal :=
  s.run fun w => if !w.d.running ∨ w.d.rd F.SYS_FRM_STAT_WINDOW ≠ 2 then w else
    ((w.advanceTo (w.d.inFrame w.d.dnlEnd)).up (·.wr F.SYS_FRM_STAT_WINDOW 3)).tripScan

/-- FRAME_GENERATOR_START (R18): step 6 of start-up ends when every configured link is up. -/
def execFrameGeneratorStart (s : State) : Host.Outcome State Fault Refusal :=
  s.run fun w => w.on (!w.d.running && w.d.rd F.CLK_START_STEP = 6 && w.d.linksUp) fun w => w.startFrames.up (·.wr F.CLK_START_STEP 7)

/-- STAGED_SET_APPLY (R440): the accepted set applies at its boundary, which the other rows of that boundary follow. -/
def execStagedSetApply (s : State) : Host.Outcome State Fault Refusal :=
  s.run fun w =>
    if !w.d.stageDue || !w.d.boundaryNext then w else
    let k := w.d.frame.k + 1
    (w.on w.d.running (·.advanceTo (w.d.boundaryAt k))).takeEffect (·.stageNow k)

/-- FRM_APPLY (R462). -/
def execFrmApply (s : State) : Host.Outcome State Fault Refusal :=
  s.run fun w =>
    if !w.d.boundaryNext || w.d.frm.all (fun e => e.2.all fun x => !w.d.dueBy x.2) then w else
    let w := w.on w.d.running (·.advanceTo (w.d.boundaryAt (w.d.frame.k + 1)))
    w.takeEffect (·.up (·.frmApply))

/-- ARM_APPLY (R443): at the boundary that comes. -/
def execArmApply (s : State) : Host.Outcome State Fault Refusal :=
  s.run fun w =>
    let k := w.d.frame.k + 1
    w.on (w.d.running && w.d.boundaryNext && !w.v.lockout && w.d.armDue k) fun w => (w.advanceTo (w.d.boundaryAt k)).armNow k

/-- SOFT_START_APPLY (R445): the beads' new states and the ramps follow with FRAME_BOUNDARY. -/
def execSoftStartApply (s : State) : Host.Outcome State Fault Refusal :=
  s.run fun w =>
    let k := w.d.frame.k + 1
    match w.d.waiting .softStart with
    | some x => w.on (x.due = some k && w.d.running && w.d.boundaryNext) fun w => ((w.advanceTo (w.d.boundaryAt k)).softNow k).takeEffect (·.up (·.frmApply))
    | none => w

/-- COEF_SWAP_APPLY (R242). -/
def execCoefSwapApply (s : State) : Host.Outcome State Fault Refusal :=
  s.run fun w =>
    if !w.d.rdB F.LPE_COEF_SWAP_PEND || !w.d.running || !w.d.boundaryNext then w else
    let k := w.d.frame.k + 1
    (w.advanceTo (w.d.boundaryAt k)).up fun d => (d.swapNow k).wr F.LPE_STAT_SWAPPED 1

/-- AUTORUN_COMPLETE (R445): at the boundary that comes. [Log: DEDUCED 80] -/
def execAutorunComplete (s : State) : Host.Outcome State Fault Refusal :=
  s.run fun w =>
    w.on (w.d.running && w.d.boundaryNext && decide (w.d.autorunNow.run ≠ w.d.run)) fun w => (w.advanceTo (w.d.boundaryAt (w.d.frame.k + 1))).up (·.autorunNow)

end Sys2Proof.Machine
end

