-- ==== Sys2Proof/Machine/Crypto.lean ====
section
/-! DEFINITION. SHA-512 and ECDSA on P-521, which R495 names: FIPS 180-4 and FIPS 186-5 (entry 12, PRESUMED: taken from those
standards, which the manual cites and does not print). -/
namespace Sys2Proof.Machine

/-! ## SHA-512 -/

/-- The largest `r` with `f r ≤ n`, of at most `b` bits, for a rising `f`. -/
def iroot (f : Nat → Nat) (n : Nat) : Nat → Nat → Nat
  | 0, r => r
  | b + 1, r => iroot f n b (if f (r + 2 ^ b) ≤ n then r + 2 ^ b else r)

/-- The first `n` primes from `k` on. -/
def primesFrom : Nat → Nat → Nat → List Nat
  | 0, _, _ => []
  | _, 0, _ => []
  | fuel + 1, n + 1, k =>
    if (List.range (k - 2)).all fun i => k % (i + 2) ≠ 0 then k :: primesFrom fuel n (k + 1) else primesFrom fuel (n + 1) (k + 1)

/-- The first 80 primes. -/
def primes80 : List Nat := primesFrom 420 80 2

/-- The 80 round constants: 64 bits of the fractions of the cube roots of the first 80 primes. -/
def shaK : List Nat := primes80.map fun p => iroot (fun r => r * r * r) (p * 2 ^ 192) 68 0 % 2 ^ 64

/-- The initial hash: the same of the square roots of the first 8 primes. -/
def shaH : List Nat := (primes80.take 8).map fun p => iroot (fun r => r * r) (p * 2 ^ 128) 68 0 % 2 ^ 64

/-- Rotate a 64-bit word right. -/
def ror64 (x n : Nat) : Nat := (x >>> n) ||| ((x <<< (64 - n)) % 2 ^ 64)

/-- The message schedule: 16 words grown to 80, newest first. -/
def shaSched : Nat → List Nat → List Nat
  | 0, w => w
  | n + 1, w =>
    let a := w.getD 1 0
    let b := w.getD 14 0
    let s1 := ror64 a 19 ^^^ ror64 a 61 ^^^ (a >>> 6)
    let s0 := ror64 b 1 ^^^ ror64 b 8 ^^^ (b >>> 7)
    shaSched n ((w.getD 15 0 + s0 + w.getD 6 0 + s1) % 2 ^ 64 :: w)

/-- One round on the eight working words. -/
def shaRound (v : List Nat) (kw : Nat × Nat) : List Nat :=
  match v with
  | [a, b, c, d, e, f, g, h] =>
    let ch := (e &&& f) ^^^ ((2 ^ 64 - 1 - e) &&& g)
    let maj := (a &&& b) ^^^ (a &&& c) ^^^ (b &&& c)
    let t1 := h + (ror64 e 14 ^^^ ror64 e 18 ^^^ ror64 e 41) + ch + kw.1 + kw.2
    let t2 := (ror64 a 28 ^^^ ror64 a 34 ^^^ ror64 a 39) + maj
    [(t1 + t2) % 2 ^ 64, a, b, c, (d + t1) % 2 ^ 64, e, f, g]
  | v => v

/-- The big-endian number of a byte list. -/
def beNat (l : List Byte) : Nat := l.foldl (fun a b => a * 256 + b.toNat) 0

/-- The `n` big-endian bytes of a number. -/
def beBytes (n v : Nat) : List Byte := (leBytes n v).reverse

/-- One block of 128 bytes. -/
def shaBlock (h : List Nat) (b : List Byte) : List Nat :=
  let w := ((List.range 16).map fun i => beNat (slice b (8 * i) 8)).reverse
  let w := (shaSched 64 w).reverse
  let v := (shaK.zip w).foldl shaRound h
  (h.zip v).map fun x => (x.1 + x.2) % 2 ^ 64

/-- All blocks. -/
def shaBlocks : Nat → List Nat → List Byte → List Nat
  | 0, h, _ => h
  | n + 1, h, b => shaBlocks n (shaBlock h (b.take 128)) (b.drop 128)

/-- SHA-512: 64 bytes. -/
def sha512 (l : List Byte) : List Byte :=
  let p := l ++ [0x80] ++ List.replicate ((128 - (l.length + 17) % 128) % 128) 0 ++ beBytes 16 (8 * l.length)
  (shaBlocks (p.length / 128) shaH p).flatMap (beBytes 8)

/-! ## P-521 -/

/-- The field prime. -/
def pP : Nat := 2 ^ 521 - 1
/-- The group order. -/
def pN : Nat := 0x01FFFFFFFFFFFFFFFFFFFFFFFFFFFFFFFFFFFFFFFFFFFFFFFFFFFFFFFFFFFFFFFFFA51868783BF2F966B7FCC0148F709A5D03BB5C9B8899C47AEBB6FB71E91386409
/-- The curve constant b; a is −3. -/
def pB : Nat := 0x0051953EB9618E1C9A1F929A21A0B68540EEA2DA725B99B315F3B8B489918EF109E156193951EC7E937B1652C0BD3BB1BF073573DF883D2C34F1EF451FD46B503F00
/-- The base point. -/
def pG : Nat × Nat :=
  (0x00C6858E06B70404E9CD9E3ECB662395B4429C648139053FB521F828AF606B4D3DBAA14B5E77EFE75928FE1DC127A2FFA8DE3348B3C1856A429BF97E7E31C2E5BD66,
   0x011839296A789A3BC0045C8A5FB42C7D1BD998F54449579B446817AFBD17273E662C97EE72995EF42640C550B9013FAD0761353C7086A272C24088BE94769FD16650)

/-- `a ^ e mod m`, by the `n` low bits of `e` from the top. -/
def powMod (a e m : Nat) : Nat → Nat → Nat
  | 0, r => r
  | n + 1, r => powMod a e m n (let s := r * r % m; if e.testBit n then s * a % m else s)

/-- The inverse modulo a prime. -/
def invMod (a m : Nat) : Nat := powMod a (m - 2) m 521 1

/-- The sum of two points; `none` is the point at infinity. -/
def ecAdd : Option (Nat × Nat) → Option (Nat × Nat) → Option (Nat × Nat)
  | none, q => q
  | p, none => p
  | some (x1, y1), some (x2, y2) =>
    if x1 = x2 ∧ (y1 + y2) % pP = 0 then none else
    let l := if x1 = x2 then (3 * x1 * x1 + (pP - 3)) % pP * invMod (2 * y1 % pP) pP % pP
             else (y2 + pP - y1) % pP * invMod ((x2 + pP - x1) % pP) pP % pP
    let x := (l * l + 2 * pP - x1 - x2) % pP
    some (x, (l * ((x1 + pP - x) % pP) + pP - y1) % pP)

/-- A multiple of a point, by the `n` low bits of the scalar from the top. -/
def ecMul (k : Nat) (q : Option (Nat × Nat)) : Nat → Option (Nat × Nat) → Option (Nat × Nat)
  | 0, r => r
  | n + 1, r => ecMul k q n (let s := ecAdd r r; if k.testBit n then ecAdd s q else s)

/-- Whether a point lies on the curve. -/
def onCurve (x y : Nat) : Bool := decide (x < pP) && decide (y < pP) && y * y % pP = (x * x * x + (pP - 3) * x + pB) % pP

/-- The point of a SEC1 uncompressed key of 133 bytes (R495). -/
def keyPoint (k : List Byte) : Option (Nat × Nat) :=
  let x := beNat (slice k 1 66)
  let y := beNat (slice k 67 66)
  if decide (k.length = 133) && k.head? = some 4 && onCurve x y then some (x, y) else none

/-- The public key of a private scalar, as 133 bytes. -/
def pubKey (d : Nat) : List Byte :=
  match ecMul d (some pG) 521 none with
  | some (x, y) => 4 :: (beBytes 66 x ++ beBytes 66 y)
  | none => List.replicate 133 0

/-- ECDSA signature of a 64-byte digest with scalar `d` and per-signature value `k`: r, then s. -/
def ecdsaSign (d k : Nat) (digest : List Byte) : List Byte :=
  let r := match ecMul k (some pG) 521 none with | some (x, _) => x % pN | none => 0
  let s := invMod k pN * ((beNat digest + r * d) % pN) % pN
  beBytes 66 r ++ beBytes 66 s

/-- ECDSA verification. -/
def ecdsaVerify (key digest sig : List Byte) : Bool :=
  let r := beNat (slice sig 0 66)
  let s := beNat (slice sig 66 66)
  match keyPoint key with
  | none => false
  | some q =>
    if r = 0 ∨ s = 0 ∨ pN ≤ r ∨ pN ≤ s then false else
    let w := invMod s pN
    match ecAdd (ecMul (beNat digest * w % pN) (some pG) 521 none) (ecMul (r * w % pN) (some q) 521 none) with
    | some (x, _) => decide (x % pN = r)
    | none => false

end Sys2Proof.Machine
end

