-- ==== Sys2Proof/Machine/Olg.lean ====
section
/-! DEFINITION. The Olgen table (R479 to R485) and the OTP as the device reads it (R495). -/
namespace Sys2Proof.Machine

/-- An OTP word: word 0 is fixed, words 1 to 63 are the part's own (entry 2), the rest as written; reserved bits of word 1
are 0 (Table 18-3). [Log: DESIGN CHOICE 2] -/
def Vault.otpRd (v : Vault) (i : Nat) : Nat :=
  if i = 0 then 0x9096 else if i = 1 then (Config.otpFactory 1).toNat % 2
  else if 4 ≤ i ∧ i < 64 then (Config.otpFactory i).toNat else if i < 64 then 0 else (tget 0 v.otp i).toNat

/-- Whether an OTP word belongs to a private scalar: it reads 0 on every path. -/
def otpSecret (i : Nat) : Bool := decide (128 ≤ i) && decide (i < 384) && decide (1 ≤ (i - 128) % 64) && decide ((i - 128) % 64 ≤ 17)

/-- An OTP word through the view. -/
def Vault.otpView (v : Vault) (i : Nat) : Nat := if otpSecret i then 0 else v.otpRd i

/-- One record of Table 17-10: type, block, instances, base, stride, decode mask, feature words, service map. -/
structure OlgRec where
  type : Nat
  blk : Nat
  ninst : Nat
  base : Nat
  stride : Nat
  dmask : Nat
  feats : List Nat
  map : List Nat

/-- The words of a service map: two bits an instance. -/
def mapWords : Nat → List Nat → List Nat
  | 0, _ => []
  | n + 1, m =>
    if m = [] then [] else ((List.range 16).foldl (fun a i => a + m.getD i 0 % 4 * 4 ^ i) 0) :: mapWords n (m.drop 16)

/-- A record's bytes (Table 17-9); no block of this revision has a write-once field. -/
def OlgRec.bytes (r : OlgRec) : List Byte :=
  let m := mapWords 4096 (if r.map = [] then List.replicate r.ninst 0 else r.map)
  let len := 24 + 4 * r.feats.length + 4 * m.length
  [BitVec.ofNat 8 r.type, 1] ++ leBytes 2 len ++ leBytes 2 r.blk ++ leBytes 2 r.ninst ++ leBytes 4 r.base ++ leBytes 4 r.stride
    ++ leBytes 4 r.dmask ++ [BitVec.ofNat 8 r.feats.length, 0, 0, 0] ++ (r.feats ++ m).flatMap (leBytes 4)

/-- The 31 records of Table 17-10 over the service maps of the last generation. [Log: DEDUCED 52] -/
def Dev.olgRecs (d : Dev) (v : Vault) : List OlgRec :=
  let m (i : Nat) : List Nat := d.olg.maps.getD i []
  let sm := 0x3FC
  let tb := 0xFFC
  [⟨1, 0x0040, 1, 0x4000, 0, sm, [0x9096 + 0x42 * 2 ^ 16 + v.otpRd 1 * 2 ^ 24], []⟩,
   ⟨1, 0x0050, 1, 0x5000, 0, sm, [0xFF], []⟩,
   ⟨1, 0x0060, 1, 0x6000, 0, sm, [4 + 5 * 16], []⟩,
   ⟨1, 0x0070, 2, 0x7000, 0x100, sm, [16 + 32 * 256], []⟩,
   ⟨1, 0x0080, 2, 0x8000, 0x400, tb, [4 + 4 * 16], []⟩,
   ⟨1, 0x0090, 1, 0x9000, 0, tb, [128 + 5 * 256], []⟩,
   ⟨1, 0x00A0, 1, 0xA000, 0, sm, [], []⟩,
   ⟨1, 0x00B0, 28, 0xB000, 0, sm, [8], m 0⟩,
   ⟨1, 0x00C0, 1, 0xC000, 0, sm, [], []⟩,
   ⟨1, 0x00D0, 1, 0xD000, 0, sm, [8], []⟩,
   ⟨1, 0x00E0, 2, 0xE000, 0x100, sm, [], []⟩,
   ⟨1, 0x0200, 24, 0x20000, 0x1000, sm, [0xF + 12 * 256], m 1⟩,
   ⟨1, 0x0400, 16, 0x40000, 0x1000, sm, [12], []⟩,
   ⟨1, 0x0500, 96, 0x50000, 0x100, tb, [], m 2⟩,
   ⟨1, 0x05F0, 6, 0x5F000, 0x20, sm, [], []⟩] ++
  [⟨1, 0x0600, 64, 0x60000, 0x100, tb, [32], []⟩,
   ⟨1, 0x0640, 256, 0x64000, 0x40, tb, [], []⟩,
   ⟨1, 0x0680, 16, 0x68000, 0, sm, [16 + 8 * 256 + 16 * 2 ^ 16], []⟩,
   ⟨1, 0x0700, 1, 0x70000, 0, tb, [], []⟩,
   ⟨1, 0x0800, 5, 0x80000, 0x100, tb, [48], m 3⟩,
   ⟨1, 0x0840, 128, 0x84000, 0x20, tb, [], []⟩,
   ⟨1, 0x0900, 1, 0x90000, 0, tb, [6 + d.olg.spares * 256], []⟩,
   ⟨2, 0x2000, 1, 0x04000000, 0, 0x3FFFC, [262144], []⟩,
   ⟨2, 0x2001, 1, 0x04100000, 0, 0xFFFFC, [1048576], []⟩,
   ⟨2, 0x2002, 1, 0x04800000, 0, tb, [4096], []⟩,
   ⟨3, 0x3000, 6, 0, 0, 0, [], m 4⟩,
   ⟨3, 0x3001, 3, 0, 0, 0, [], m 5⟩,
   ⟨3, 0x3002, 48, 0, 0, 0, [], m 6⟩,
   ⟨3, 0x3003, 1088, 0, 0, 0, [], m 7⟩,
   ⟨3, 0x3004, 4, 0, 0, 0, [], m 8⟩,
   ⟨3, 0x3005, 2, 0, 0, 0, [], m 9⟩]

/-- The header of Table 17-8 with a CRC. -/
def Dev.olgHeader (d : Dev) (len crc : Nat) : List Byte :=
  leBytes 4 0x4F4C474E ++ leBytes 2 1 ++ leBytes 2 31 ++ leBytes 4 len ++ leBytes 4 d.olg.gen.toNat ++ List.replicate 12 0 ++ leBytes 4 crc

/-- The table as the host reads it: nothing before it is built (R479). [Log: DEDUCED 52] -/
def Dev.olgBytes (d : Dev) (v : Vault) : List Byte :=
  if !d.olg.built then [] else
  let body := (d.olgRecs v).flatMap OlgRec.bytes
  d.olgHeader (32 + body.length) d.olg.crc ++ body

/-- The CRC that the header should carry (R481). -/
def Dev.olgCrc (d : Dev) (v : Vault) : Nat :=
  let body := (d.olgRecs v).flatMap OlgRec.bytes
  crc32 (d.olgHeader (32 + body.length) 0 ++ body)

/-- The boot build (R479): GEN is 1. [Log: DEDUCED 52] -/
def Dev.olgBuild (d : Dev) (v : Vault) : Dev :=
  let d := { d with olg := { built := true, gen := 1, spares := d.rd F.LPE_ECC_SPARES_LEFT, maps := d.serviceMaps v } }
  { d with olg := { d.olg with crc := d.olgCrc v } }

/-- OLG_CRC_UPDATE (R484): the header CRC follows a change. -/
def execOlgCrcUpdate (s : State) : Host.Outcome State Fault Refusal :=
  s.run fun w => w.on w.d.olg.crcDue (·.up fun d => { d with olg := { d.olg with crcDue := false, crc := d.olgCrc w.v } })

end Sys2Proof.Machine
end

