-- ==== Sys2Proof/Machine/Trust.lean ====
section
/-! DEFINITION. Presence windows, the seal loop, debug access, firmware images, keys and the hallmark
(18_presence_and_trust.md): what the rows and the guarded commands do. -/
namespace Sys2Proof.Machine

/-- Whole seconds left until an instant. -/
def Dev.secLeft (d : Dev) (e : Option Nat) : Nat :=
  match e with
  | some t => (t - d.time.rt + (rtSec 1 - 1)) / rtSec 1
  | none => 0

/-! ## Presence windows (R487 to R491) -/

/-- The flag of an open window. -/
def presFlag (p : Nat) : Fld := if p = 0 then F.SEC_PRES_STAT_OPEN_A else F.SEC_PRES_STAT_OPEN_B

/-- A window opens for LEN seconds, or restarts at the full length; an opening raises PRES_WINDOW (FS81). [Log: DEDUCED 32, 84] -/
def Wk.presOpen (w : Wk) (p : Nat) : Wk :=
  let len := w.d.rd F.SEC_PRES_CTRL_LEN
  let was := w.d.p1 p
  let w := w.up fun d => (d.upPort p fun q => { q with presEnd := some (d.time.rt + rtSec len) }).wr (presFlag p) 1
  w.on (!was) fun w => (w.raise 81 0 0).up (·.notify 7 [1, len])

/-- An open window closes. -/
def Wk.presClose (w : Wk) (p : Nat) : Wk :=
  if !w.d.p1 p then w else
  let w := w.up fun d => (d.upPort p fun q => { q with presEnd := none }).wr (presFlag p) 0
  (w.raise 81 0 0).up fun d => d.notify 7 [2, d.rd F.SEC_PRES_CTRL_LEN]

/-! ## The seal history (R494) -/

/-- A record enters the history: the newest 8 stay. [Log: DEDUCED 32] -/
def Dev.sealRecord (d : Dev) (kind : Nat) : Dev :=
  let t := if d.timStopped then 0 else d.time.now.toNat
  let h := ((⟨d.aonTime, kind, t⟩ : SealRec) :: d.aon.hist).take 8
  { d with aon := { d.aon with hist := h } }.wr F.SEC_SEAL_NHIST h.length

/-- The 16 bytes of a record (Table 18-2). -/
def SealRec.bytes (r : SealRec) : List Byte := leBytes 6 r.aon ++ leBytes 1 r.kind ++ [0] ++ leBytes 8 r.time

/-- A sample of the seal loop (R493, R494): broken after 3 mismatches in a row, intact after 256 matches. In SLEEP there is no
collector to take SEAL_BROKEN (FS80); the wake source SEAL is recorded (Table 19-3). [Log: DESIGN CHOICE 13; DEDUCED 32] -/
def Wk.sealSample (w : Wk) (sample : Bool) : Wk :=
  let a := w.d.aon
  let hit : Bool := sample == Config.sealBit a.lfsr
  let bad := if hit then 0 else min 3 (a.bad + 1)
  let good := if hit then min 256 (a.good + 1) else 0
  let w := w.up fun d => { d with aon := { d.aon with lfsr := Config.sealNext a.lfsr, bad := bad, good := good } }
  if bad = 3 ∧ !a.broken then
    let w := w.up fun d => ((({ d with aon := { d.aon with broken := true, intact := false } }.sealRecord 1).inc F.SEC_SEAL_BREAKS).wr F.SEC_SEAL_INTACT 0).setBit F.CLK_WAKE_STAT_WAKE 4
    w.on (!w.d.aon.asleep) fun w => (w.raise 80 0 0).up (·.notify 7 [3])
  else if good = 256 ∧ !a.intact then
    w.up fun d => ({ d with aon := { d.aon with broken := false, intact := true } }.sealRecord 2).wr F.SEC_SEAL_INTACT 1
  else w

/-! ## Debug access (R505) -/

/-- Debug and loupe close; what the loupe has captured stays for the TAP to read. [Log: DESIGN CHOICE 73] -/
def Dev.debugClose (d : Dev) : Dev := ({ d with sec := { d.sec with dbgEnd := none } }.wr F.SEC_DBG_DEBUG 0).wr F.SEC_DBG_LOUPE 0

/-! ## The OTP and the keys (R495, R500 to R502, R332) -/

/-- `n` bytes of OTP from a word on. -/
def Vault.otpBytes (v : Vault) (word n : Nat) : List Byte := ((List.range ((n + 3) / 4)).flatMap fun i => leBytes 4 (v.otpRd (word + i))).take n

/-- OTP with words written from a byte list, zero-padded. -/
def otpPut (t : Tab Word) (word : Nat) (b : List Byte) : Tab Word :=
  (List.range ((b.length + 3) / 4)).foldl (fun t i => tput 0 t (word + i) (BitVec.ofNat 32 (le b (4 * i) 4))) t

/-- The SVN floor: the largest written word of 64 to 79. -/
def Vault.floor (v : Vault) : Nat := (List.range 16).foldl (fun a i => max a (v.otpRd (64 + i))) 0

/-- First OTP word of an identity slot. -/
def idWord (k : Nat) : Nat := 128 + 64 * k

/-- The identity slot in use. -/
def Vault.idSlot (v : Vault) : Option Nat := (List.range 4).find? fun k => v.otpRd (idWord k) = 0x5A5A0001
/-- The first unused identity slot. -/
def Vault.idFree (v : Vault) : Option Nat := (List.range 4).find? fun k => v.otpRd (idWord k) = 0
/-- The identity slots in a state. -/
def Vault.idMask (v : Vault) (sel : Nat → Bool) : Nat := ofBits ((List.range 4).filter fun k => sel (v.otpRd (idWord k)))
/-- The private scalar of a slot: its 66 bytes, big-endian. -/
def Vault.idScalar (v : Vault) (k : Nat) : Nat := beNat (v.otpBytes (idWord k + 1) 66)
/-- The public key of a slot. -/
def Vault.idKey (v : Vault) (k : Nat) : List Byte := v.otpBytes (idWord k + 18) 133

/-- The owner slots written. -/
def Vault.owners (v : Vault) : Nat := ((List.range 2).filter fun j => v.otpRd (384 + 40 * j) = 0x5A5A0002).length
/-- The owner key in force: the one written last. -/
def Vault.ownerKey (v : Vault) : Option (List Byte) := if v.owners = 0 then none else some (v.otpBytes (384 + 40 * (v.owners - 1) + 1) 133)

/-- The self-check of R501: the public key derived from the scalar is the stored one, and a fixed test digest signed with it
verifies. -/
def Vault.selfCheck (v : Vault) (k : Nat) : Bool :=
  let t := sha512 []
  v.idKey k = pubKey (v.idScalar k) && ecdsaVerify (v.idKey k) t (ecdsaSign (v.idScalar k) 1 t)

/-- The first part of the self-check: the public key derived from the stored scalar is the stored one. -/
def Vault.keyMatches (v : Vault) (k : Nat) : Bool := v.idKey k = pubKey (v.idScalar k)

/-- A slot whose self-check fails is retired for good (R332). -/
def Vault.failSlot (v : Vault) (k : Nat) : Vault := { v with otp := tput 0 v.otp (idWord k) 0x5A5A00FF }

/-! ## Firmware images (R496 to R499) -/

/-- The header of an image slot; the one of the image delivered with the part is not known (entry 11). [Log: DESIGN CHOICE 11] -/
def FwSlot.head (s : FwSlot) : List Byte := if s.factory then Config.factoryHeader else s.hdr
/-- SVN of a header (Table 18-4). -/
def hdrSvn (h : List Byte) : Nat := le h 12 4
/-- FW_VER of a header. -/
def hdrVer (h : List Byte) : Nat := le h 16 4
/-- BODY_LEN of a header. -/
def hdrLen (h : List Byte) : Nat := le h 8 4
/-- The image digest (R497). -/
def imageDigest (h : List Byte) : List Byte := sha512 (slice h 0 128)

/-- MAGIC, VER, HCRC and the length (R497). -/
def hdrWell (h : List Byte) : Bool :=
  decide (640 ≤ h.length) && le h 0 4 = 0x57465244 && le h 4 2 = 1 && crc32c (slice h 0 636) = le h 636 4 && decide (640 + hdrLen h ≤ 4194304)

/-- The vendor key and signature of a header. -/
def vendorOk (h : List Byte) : Bool :=
  sha512 (slice h 128 133) = Config.vendorKeyHash && ecdsaVerify (slice h 128 133) (imageDigest h) (slice h 264 132)

/-- The owner's signature, needed once an owner key is written. -/
def Vault.ownerOk (v : Vault) (h : List Byte) : Bool :=
  match v.ownerKey with
  | none => true
  | some k => bitOf (le h 6 2) 0 && ecdsaVerify k (imageDigest h) (slice h 396 132)

/-- Whether the boot ROM takes a slot's image (R497). [Log: DESIGN CHOICE 11] -/
def Vault.slotValid (v : Vault) (s : FwSlot) : Bool := s.trusted && decide (v.floor ≤ hdrSvn s.head) && v.ownerOk s.head

/-- What an update session has written, as far as it is whole: the image from byte 0 to the end that its header names. -/
def FwSess.image (x : FwSess) : Option (List Byte) :=
  let get (n : Nat) : Option (List Byte) := (List.range n).mapM fun i => tget none x.bytes i
  match get 640 with
  | none => none
  | some h => if x.size < 640 + hdrLen h then none else get (640 + hdrLen h)

/-- The header written so far, where it is whole. -/
def FwSess.head (x : FwSess) : Option (List Byte) := (List.range 640).mapM fun i => tget none x.bytes i

/-- Whether the body written has the hash of its header. -/
def bodyOk (img : List Byte) : Bool := sha512 (img.drop 640) = slice img 24 64

/-- What the boot ROM will find in the slot of a session: the vendor checks over what was written. -/
def FwSess.slotNow (x : FwSess) : FwSlot :=
  match x.image with
  | none => { bytes := x.bytes }
  | some img => { bytes := x.bytes, hdr := img.take 640, trusted := hdrWell (img.take 640) && vendorOk (img.take 640) && bodyOk img }

/-- Write an image slot. -/
def NvSt.setSlot (n : NvSt) (k : Nat) (s : FwSlot) : NvSt := if k = 0 then { n with slotA := s } else { n with slotB := s }
/-- Read an image slot. -/
def NvSt.slot (n : NvSt) (k : Nat) : FwSlot := if k = 0 then n.slotA else n.slotB

/-- An update session ends without a commit: the slot holds what was written. -/
def Dev.dropSess (d : Dev) : Dev :=
  match d.sec.sess with
  | none => d
  | some x => { d with nv := d.nv.setSlot x.slot x.slotNow, sec := { d.sec with sess := none } }

/-- The boot ROM chooses and boots an image (R498), or enters recovery. -/
def Wk.bootRom (w : Wk) : Wk :=
  let n := w.d.nv
  let pref := if n.bcbValid then n.pref % 2 else 0
  let tries := if n.bcbValid then n.tries else 0
  let ok (s : Nat) : Bool := w.v.slotValid (w.d.nv.slot s)
  let bad := (List.range 2).filter fun s => !ok s
  let boot (w : Wk) (s : Nat) (fb : Bool) (tries : Nat) : Wk := w.up fun d =>
    let h := (d.nv.slot s).head
    let d := { d with nv := { d.nv with bcbValid := true, pref := pref, tries := tries }, sec := { d.sec with boot := d.nv.slot s, recovery := false, retired := bad } }
    (((((d.wr F.SEC_BOOT_IMAGE s).wrB F.SEC_BOOT_FALLBACK fb).wr F.SEC_BOOT_TRIES tries).wr F.SEC_FW_FW_VER (hdrVer h)).wr F.SEC_SVN (hdrSvn h)).wr F.CLK_START_STEP 3
  if tries ≥ 3 ∨ !ok pref then
    let w := w.on (!ok pref) (·.raise 83 0 pref)
    let s := 1 - pref
    if ok s then (boot w s true tries).raise 44 0 s
    else (w.raise 83 0 s).up fun d => { d with sec := { d.sec with recovery := true, retired := bad } }.wr F.CLK_START_STEP 2
  else boot w pref false (tries + 1)

/-! ## The hallmark (R503, Table 18-5) -/

/-- The 640 bytes that are signed. -/
def Wk.hallmarkBody (w : Wk) (k : Nat) (nonce : List Word) : List Byte :=
  let d := w.d
  let v := w.v
  let hd := d.sec.boot.head
  let flags := 0x42 + v.otpRd 1 * 2 ^ 8 + b2n (decide (0 < v.owners)) * 2 ^ 9 + k % 4 * 2 ^ 10 + b2n d.aon.intact * 2 ^ 12
    + d.rd F.SEC_PRES_STAT_JUMPER * 2 ^ 13 + b2n v.prevLockout * 2 ^ 14 + b2n v.lockout * 2 ^ 15 + d.rd F.TIM_STAT_COARSE * 2 ^ 16
    + d.rd F.SEC_DBG_SINCE * 2 ^ 17
  let olg := d.olgBytes v
  let msg (m : Option Msg) : List Byte := match m with | some m => leBytes 8 m.encode.toNat | none => List.replicate 8 0
  let seq := d.rd F.FLT_AON_SEQ
  let aonLog := ((List.range 8).filter fun i => decide (i < seq)).flatMap fun i => leBytes 8 (tget 0 d.aon.log ((seq - 1 - i) % 64)).toNat
  leBytes 4 0x4B4D4C48 ++ leBytes 2 1 ++ leBytes 2 772 ++ leBytes 4 0x9096 ++ leBytes 4 flags ++ v.otpBytes 4 16
    ++ wordBytes ((List.range 8).map fun i => nonce.getD i 0) ++ leBytes 8 d.time.now.toNat ++ leBytes 4 (d.rd F.TIM_EPOCH)
    ++ leBytes 4 (d.rd F.SEC_FW_FW_VER) ++ leBytes 4 (d.rd F.SEC_SVN) ++ leBytes 4 (d.rd F.SEC_BOOT_IMAGE + 2 * d.rd F.SEC_BOOT_FALLBACK)
    ++ imageDigest hd ++ sha512 ((List.range 1024).flatMap fun i => leBytes 4 (v.otpView i)) ++ leBytes 4 d.olg.gen.toNat ++ sha512 olg
    ++ leBytes 2 (d.rd F.SEC_SEAL_BREAKS) ++ leBytes 1 d.aon.hist.length ++ [0] ++ padTo 128 (d.aon.hist.flatMap SealRec.bytes)
    ++ leBytes 4 (d.rd F.FLT_LOG_SEQ) ++ leBytes 4 seq ++ msg v.first ++ msg v.comp ++ padTo 64 aonLog ++ padTo 136 (v.idKey k)

/-- The per-signature value of R495: from the random bit generator. [Log: PRESUMED 12] -/
def Dev.random (d : Dev) : Nat := 1 + Config.rbg d.free % (pN - 1)

/-- The guarded data of a port as written: `b` from byte 0 on. -/
def Dev.putGuarded (d : Dev) (p : Nat) (b : List Byte) : Dev :=
  d.upPort p fun q => { q with guarded := (List.range b.length).foldl (fun t i => tput 0 t i (b.getD i 0)) q.guarded }

/-- `n` bytes of a port's guarded data. -/
def Dev.getGuarded (d : Dev) (p o n : Nat) : List Byte := (List.range n).map fun i => tget 0 (d.port p).guarded (o + i)

/-! ## Rows -/

/-- PRES_WINDOW_OPEN (R487, R488): a press that counts opens a window on each port of PORTS. [Log: DEDUCED 32] -/
def execPresWindowOpen (s : State) : Host.Outcome State Fault Refusal :=
  s.run fun w => w.each ((List.range 2).filter fun p => bitOf (w.d.rd F.SEC_PRES_CTRL_PORTS) p) fun p w => w.presOpen p

/-- PRES_WINDOW_CLOSE (R488): the end of a window's length. -/
def execPresWindowClose (p : Nat) (s : State) : Host.Outcome State Fault Refusal :=
  s.run fun w => match (w.d.port p).presEnd with
    | some t => (w.advanceRt t).presClose p
    | none => w

/-- JUMPER_FITTED (R490, R494). -/
def execJumperFitted (s : State) : Host.Outcome State Fault Refusal :=
  s.run fun w => w.on (!w.d.rdB F.SEC_PRES_STAT_JUMPER) (·.up fun d => (d.wr F.SEC_PRES_STAT_JUMPER 1).sealRecord 3)

/-- JUMPER_REMOVED (R490, R494). -/
def execJumperRemoved (s : State) : Host.Outcome State Fault Refusal :=
  s.run fun w => w.on (w.d.rdB F.SEC_PRES_STAT_JUMPER) (·.up fun d => (d.wr F.SEC_PRES_STAT_JUMPER 0).sealRecord 4)

/-- SEAL_CHECK (R493). -/
def execSealCheck (sample : Bool) (s : State) : Host.Outcome State Fault Refusal := s.run (·.sealSample sample)

/-- DEBUG_WINDOW_EXPIRE (R505). -/
def execDebugWindowExpire (s : State) : Host.Outcome State Fault Refusal :=
  s.run fun w => match w.d.sec.dbgEnd with
    | some t => (w.advanceRt t).up (·.debugClose)
    | none => w

end Sys2Proof.Machine
end

