-- ==== Sys2Proof/Machine/Power.lean ====
section
/-! DEFINITION. Power states, clocks, resets and start-up (19_power_and_startup.md). -/
namespace Sys2Proof.Machine

/-! ## Requests (R513) -/

/-- Whether a request of a power state is taken (R513). -/
def Dev.pwrOk (d : Dev) (req : Nat) : Bool :=
  (req = 1 || req = 2) && d.run = .idle && d.rd F.CLK_STAT_PSTATE = 1 && d.stage.isNone && !(d.twin = 4 && d.twn.pState = some 3)
    && !(d.stkHead && decide (1 < d.rd F.STK_CTRL_NDEV))

/-- A request: taken, it holds for the next boundary, and wake sources are recorded from now on (R517, R521). -/
def Dev.pwrRequest (d : Dev) (req : Nat) : Dev :=
  if !d.pwrOk req then d else
  ({ d with sec := { d.sec with pwrReq := some (req, d.frame.k + 1) } }.wr F.CLK_PWR_REQ req).wr F.CLK_WAKE_STAT_WAKE 0

/-- A request refused: REG_WRITE_LOCKED (FS77) with the CLK page and the port (R473). [Log: DEDUCED 50] -/
def Wk.pwrWrite (w : Wk) (p req : Nat) : Wk :=
  if w.d.pwrOk req then w.up (·.pwrRequest req) else w.on (req ≠ 0) (·.raise 77 p 5)

/-! ## Entry (R515, R516) -/

/-- Every FRM value that waits takes effect: the frame generator stands (R464). -/
def Dev.frmAll (d : Dev) : Dev :=
  let l := d.frm
  l.foldl (fun d e => match e.2.getLast? with | some x => d.wrKey e.1 x.1 | none => d) { d with frm := [] }

/-- A lane powers down. -/
def Dev.laneOff (d : Dev) (n : Nat) : Dev :=
  let d := (({ d with tx := tput [] d.tx n [], os := tput [] d.os n [], lines := tput {} d.lines n {} }).delayLost n).wr (F.LANE_STAT_PHASE n) 0
  d.setLane n { d.lane n with bring := .none, turned := false, ttAt := none, out := .idle }

/-- The steps of R515: the recorded pair, frames and lanes stopped, clocks stopped, PSTATE 2. The lapse timers stand. [Log: DEDUCED 50] -/
def Dev.holdEntry (d : Dev) : Dev :=
  let d := d.recordPair.frmAll
  let d := d.settle (fun x => decide (x.kind = WaitKind.stop)) fun _ => (Status.ok, 0, [])
  let d := { d.wr F.SYS_FRM_CTRL_RUNNING 0 with edge := { d.edge with plan := [], next := [] } }
  let d := (List.range 24).foldl (fun d n => d.laneOff n) d
  let d := (List.range 16).foldl (fun d s => d.wr (F.STR_STAT_UP s) 0) d
  let d := (((d.wr F.CLK_STAT_LOCK 0).wr F.CLK_STAT_ON 3).wr F.CLK_STAT_PSTATE 2).syncDen
  ({ d with sec := { d.sec with pwrReq := none } }.wr F.CLK_PWR_REQ 0).kaFreeze

/-- What a reset of the core domain leaves (R516, Table 19-6a): the AON fields and the AON domain, the boot flash, real time,
and the recorded pair of a device that sleeps or wakes from SLEEP. The filtered jumper, the seal and the crystal are seen in the
AON domain, and so are their flags (R490, R493, R509). [Log: DEDUCED 50] -/
def Dev.coreReset (d : Dev) : Dev :=
  let d := d.dropSess
  let keep := d.aon.asleep || d.aon.woke
  { regs := d.regs.filter fun e => match fldOf e.1 with
      | some f => f.aon || f = F.SEC_PRES_STAT_JUMPER || f = F.SEC_SEAL_INTACT || f = F.CLK_STAT_XTAL
      | none => false
    time := { now := if d.aon.woke then d.time.now else 0, rt := d.time.rt, aonBase := d.time.aonBase, holdPair := if keep then d.time.holdPair else none }
    aon := d.aon, nv := d.nv, free := d.free }

/-- A reset without a power cycle: management cores that run without lockstep stay so (R330). [Log: DEDUCED 50] -/
def Dev.warmReset (d : Dev) : Dev :=
  let r := d.coreReset
  if d.rdB F.SYS_MCORE_SINGLE then (r.wr F.SYS_MCORE_SINGLE 1).wr F.SYS_MCORE_ROLE (d.rd F.SYS_MCORE_ROLE) else r

/-- Whether the entry of an accepted request may come: at its boundary, in the guard window before it, or at once while no frames
run (R513, R21). [Log: DESIGN CHOICE 35; DEDUCED 50] -/
def Dev.entryDue (d : Dev) (req : Nat) : Bool :=
  match d.sec.pwrReq with
  | some (r, k) => r = req && (decide ((d.frame.k - k).toNat < 2 ^ 31) || d.boundaryNext)
  | none => false

/-- The boundary of the request comes before the entry. [Log: DEDUCED 50] -/
def Wk.entryBoundary (w : Wk) : Wk :=
  match w.d.sec.pwrReq with
  | some (_, k) => w.on (w.d.running && decide (2 ^ 31 ≤ (w.d.frame.k - k).toNat)) (·.frameBoundary)
  | none => w

/-- HOLD_ENTRY (R515). -/
def execHoldEntry (s : State) : Host.Outcome State Fault Refusal := s.run fun w => w.on (w.d.entryDue 1) (·.entryBoundary.up (·.holdEntry))

/-- SLEEP_ENTRY (R516): as HOLD, presence windows close with their messages (R488, R489), the log entries that wait are written, then
the core rails go. [Log: DEDUCED 50] -/
def execSleepEntry (s : State) : Host.Outcome State Fault Refusal :=
  let due := s.dev.entryDue 2
  s.runThen (fun w => w.on due fun w => (w.entryBoundary.each [0, 1] fun p w => w.presClose p).up (·.holdEntry))
    fun d => if due then ({ d.logDrain with aon := { d.logDrain.aon with asleep := true } }).coreReset else d

/-! ## Waking (R517 to R521) -/

/-- WAKE_EVENT (R517, R521, Table 19-3): the source is recorded; the alarm when its time has come. [Log: DEDUCED 50] -/
def execWakeEvent (bit : Nat) (s : State) : Host.Outcome State Fault Refusal :=
  s.run fun w =>
    if bit = 3 then
      if !w.d.rdB F.CLK_ALARM_HI_ALARM_ARM then w else
      let left := sext 48 (w.d.aon.alarm + 2 ^ 48 - w.d.aonTime)
      (w.advanceRt (w.d.time.rt + left.toNat * 1953125)).up (·.setBit F.CLK_WAKE_STAT_WAKE 3)
    else if bit = 4 then w.on w.d.aon.broken (·.up (·.setBit F.CLK_WAKE_STAT_WAKE 4))
    else w.on (decide (bit < 3)) (·.up (·.setBit F.CLK_WAKE_STAT_WAKE bit))

/-- Whether an enabled wake source has asserted. -/
def Dev.wakes (d : Dev) : Bool := (d.rd F.CLK_WAKE_STAT_WAKE &&& d.rd F.CLK_WAKE_EN) ≠ 0

/-- No bead has reported yet since the frame generator stood: what a bead's last record said does not count for steps 7 and 8. [Log: DEDUCED 50] -/
def Dev.beadsUnheard (d : Dev) : Dev :=
  (List.range 96).foldl (fun d b => if (d.bead b).state0.isSome then d.setBead b { d.bead b with state0 := none } else d) d

/-- HOLD_WAKE (R518): the PLL locks, SYS returns to it, steps 6 to 8 run on the applied configuration; time is reseeded. -/
def execHoldWake (s : State) : Host.Outcome State Fault Refusal :=
  s.run fun w =>
    if w.d.rd F.CLK_STAT_PSTATE ≠ 2 ∨ w.d.aon.asleep ∨ !w.d.wakes then w else
    let w := w.up fun d => (((d.wr F.CLK_STAT_PSTATE 1).wr F.CLK_STAT_LOCK 1).wr F.CLK_STAT_ON 0x4F).syncDen.kaThaw
    w.reseed.up fun d => (d.beadsUnheard.wr F.CLK_START_STEP 6).setRun .boot

/-- SLEEP_WAKE (R519, R521): CORE_EN goes high, at least 10 ms after it went low, and the device starts as from power-on, with
device time reseeded from the pair in AON. -/
def execSleepWake (s : State) : Host.Outcome State Fault Refusal :=
  s.run fun w =>
    if !w.d.aon.asleep ∨ !w.d.wakes then w else
    let low := match w.d.time.holdPair with | some (_, a) => (w.d.aonTime + 2 ^ 48 - a) % 2 ^ 48 | none => 328
    let w := w.aonCycles (328 - low)
    (w.up fun d => { d with aon := { d.aon with asleep := false, woke := true } }).reseed

/-! ## Clocks and supplies (R511, R512, R524) -/

/-- The EDGE clock has stopped (R159): the safe state, EDG_STAT.CLK_LOST, EDGE_CLK_LOST (FS3). [Log: DEDUCED 24, 54] -/
def Wk.edgeLost (w : Wk) : Wk := (w.up fun d => ((d.enterSafe 3).wr F.EDG_STAT_CLK_LOST 1).setRun d.run.halted).raise 3 0 0

/-- CLK_FAIL (R511, Table 14-3): CLK_FAIL (FS2) with the domain; an EDGE failure raises EDGE_CLK_LOST too. [Log: DEDUCED 54] -/
def execClkFail (dom : Nat) (s : State) : Host.Outcome State Fault Refusal :=
  s.run fun w =>
    if 8 ≤ dom then w else
    let w := (w.up (·.inc F.CLK_MON_FAILS)).raise 2 dom 0
    w.on (dom = 3 && !w.d.rdB F.EDG_STAT_CLK_LOST) (·.edgeLost)

/-- PLL_LOCK_TIMEOUT (R512): SYS stays on the internal oscillator, the run state stays BOOT. -/
def execPllLockTimeout (s : State) : Host.Outcome State Fault Refusal :=
  s.run fun w =>
    if w.d.run ≠ .boot ∨ ¬ (w.d.rd F.CLK_START_STEP = 2 ∨ w.d.rd F.CLK_START_STEP = 3) then w else
    (w.up fun d => ((((({ d with sec := { d.sec with recovery := true } }).wr F.CLK_STAT_LOCK 0).wr F.CLK_STAT_INTOSC 1).wr F.CLK_STAT_ON 3).wr F.CLK_START_STEP 2).inc F.CLK_MON_FAILS).raise 2 1 0

/-- SUPPLY_FAULT (R524): rail code of Table 14-3. -/
def execSupplyFault (rail : Nat) (ovr : Bool) (s : State) : Host.Outcome State Fault Refusal :=
  s.run fun w => w.on (decide (rail < 8)) (·.raise 4 (rail + 128 * b2n ovr) 0)

/-! ## Resets (R525, Table 19-6a) -/

/-- VAON_POWER_ON: everything but the boot flash and the OTP; the seal history holds its record of kind 5 (R494). -/
def execVaonPowerOn (s : State) : Host.Outcome State Fault Refusal :=
  let d := s.dev.dropSess
  State.run { s with vault := { otp := s.vault.otp, fused := s.vault.fused },
                     dev := { nv := d.nv, free := d.free, time := { rt := d.time.rt, aonBase := d.time.rt } } } id

/-- The real time from which CORE_EN is high: 2 ms after the power-on reset of VAON (Table 19-5), and not in SLEEP (R516). -/
def Dev.coreEnAt (d : Dev) : Nat := d.time.aonBase + rtSec 1 / 500
/-- Whether CORE_EN is high. [Log: DEDUCED 50] -/
def Dev.coreEn (d : Dev) : Bool := !d.aon.asleep && decide (d.coreEnAt ≤ d.time.rt)

/-- CORE_POWER_ON: VDD_CORE has risen from below 0.40 V, on CORE_EN high; the lockout latch clears, and PREV_LOCKOUT tells of it
(R391). [Log: DEDUCED 50] -/
def execCorePowerOn (s : State) : Host.Outcome State Fault Refusal :=
  State.run { s with vault := { s.vault with lockout := false, prevLockout := s.vault.prevLockout || s.vault.lockout },
                     dev := let d := s.dev.coreReset; { d with aon := { d.aon with asleep := false }, time := { d.time with rt := max d.time.rt d.coreEnAt } } } id

/-- The straps (R559). -/
def Dev.straps (d : Dev) (stackId : Nat) (role : Bool) : Dev :=
  ({ d with sec := { d.sec with stackId := stackId % 8, twinRole := role } }.wr F.STK_ID (stackId % 8)).wrB F.TWN_STAT_UNIT role

/-- Step 2 of Table 19-6: the main PLL locks, the boot ROM boots an image; the self-check of the identity key (R501). [Log: DEDUCED 24] -/
def Wk.startUp (w : Wk) : Wk :=
  let w := w.up fun d => ((d.wr F.CLK_STAT_LOCK 1).wr F.CLK_STAT_INTOSC 0).wr F.CLK_STAT_ON 0x4F
  w.bootRom

/-- The identity slot that fails its self-check at boot (R501). -/
def Vault.bootCheck (v : Vault) : Option Nat :=
  match v.idSlot with
  | some k => if v.selfCheck k then none else some k
  | none => none

/-- A start from step 2, with a failed slot retired and KEY_SLOT_FAIL (FS36) raised (R332). [Log: DEDUCED 50] -/
def State.boot (s : State) (d : Dev) : Host.Outcome State Fault Refusal :=
  match s.vault.bootCheck with
  | some k => State.run { s with vault := s.vault.failSlot k, dev := d } fun w => w.startUp.raise 36 0 k
  | none => State.run { s with dev := d } (·.startUp)

/-- POR_N_RELEASE: the core is reset, straps, the VDD_IOH mode (R535), start-up from step 1, which ends here. With TEST_EN high the
device stays in reset (R560). The time that a wake from SLEEP has reseeded is kept (R519). [Log: DEDUCED 50] -/
def execPorNRelease (stackId : Nat) (twinRole ioh33 testEn : Bool) (s : State) : Host.Outcome State Fault Refusal :=
  let d := s.dev.warmReset
  let d := { d with aon := { d.aon with asleep := false, woke := false } }
  if testEn then .next { s with dev := d } else
  let d := d.straps stackId twinRole
  s.boot { d with sec := { d.sec with ioh33 := ioh33 } }

/-- RESET_N_RELEASE: straps, start-up from step 2; the VDD_IOH mode stays. -/
def execResetNRelease (stackId : Nat) (twinRole : Bool) (s : State) : Host.Outcome State Fault Refusal :=
  let io := s.dev.sec.ioh33
  let d := s.dev.warmReset
  let d := { d with aon := { d.aon with asleep := false, woke := false }, sec := { d.sec with ioh33 := io } }
  s.boot (d.straps stackId twinRole)

/-- AON_CRYSTAL_STABLE (R509). -/
def execAonCrystalStable (s : State) : Host.Outcome State Fault Refusal := s.run (·.up (·.wr F.CLK_STAT_XTAL 1))

/-! ## Start-up (R526, R527) -/

/-- The roles given after BIST (R220). -/
def bistRoles (mask : Nat) : Nat :=
  let ok := maskBits 6 mask
  (List.range 6).foldl (fun a c => a + (if bitOf mask c then [0, 1, 2, 3, 8, 9].getD (ok.filter (decide <| · < c)).length 0xF else 0xF) * 16 ^ c) 0

/-- A spare row takes the place of a row that failed BIST, with the messages of a repair in service (R253, R326). [Log: DEDUCED 40] -/
def Wk.bistRow (w : Wk) (row : Nat) : Wk :=
  let left := w.d.rd F.LPE_ECC_SPARES_LEFT
  if 1024 ≤ row then w else if left = 0 then w.raise 61 0 row else
  let sp := 1024 + (64 - left)
  (w.up fun d =>
    let d := { d with rowMap := tput 1 (tput 0 d.rowMap row 2) sp 0 }
    (d.upLpe fun x => { x with phys := tput none x.phys row (some sp) }).wr F.LPE_ECC_SPARES_LEFT (left - 1)).raise 28 0 row

/-- BIST_COMPLETE (R220, R479): steps 3 and 4; `mask` the clusters that passed, `rows` the rows to repair. -/
def execBistComplete (mask : Nat) (rows : List Nat) (s : State) : Host.Outcome State Fault Refusal :=
  s.run fun w =>
    if w.d.rd F.CLK_START_STEP ≠ 3 then w else
    let w := (w.each rows fun r w => w.bistRow r).up (·.wr F.LPE_ROLE (bistRoles mask))
    let w := w.on (decide ((maskBits 6 mask).length < 5)) (·.raise 0 (mask % 64) 0)
    w.up fun d => (d.olgBuild w.v).wr F.CLK_START_STEP 5

/-- DISCOVERY_END: every configured position has answered since the frame generator started, or 64 frames have passed. -/
def execDiscoveryEnd (s : State) : Host.Outcome State Fault Refusal :=
  s.run (·.up fun d =>
    let all := d.placed.all fun x => (d.bead x.1).state0.isSome && (decide (d.rd (F.BDT_STATE x.1) ≠ 0) || (d.bead x.1).nodeId.isSome)
    if d.rd F.CLK_START_STEP = 7 ∧ (all ∨ 64 ≤ d.frame.k.toNat) then
      { d with sec := { d.sec with stepAt := d.frame.k } }.wr F.CLK_START_STEP 8
    else d)

/-- The COLD beads that have not reported UFLAGS LOCK in their last record since the frame generator started. -/
def Dev.unlocked (d : Dev) : List Nat :=
  (List.range 96).filter fun b => d.rd (F.BDT_STATE b) = 1 && !((d.bead b).state0.isSome && bitOf (le (d.bead b).last 3 1) 0)

/-- TIME_LOCK_STEP_END (R527): step 8 ends, and BOOT becomes IDLE. A member or standby needs TIM_STAT.LOCK; a master or standalone
device waits for the host's first TIME_STEP, which clears COARSE. -/
def execTimeLockStepEnd (s : State) : Host.Outcome State Fault Refusal :=
  s.run (·.up fun d =>
    let l := d.unlocked
    let own : Bool := if d.followsTime then d.rdB F.TIM_STAT_LOCK else !d.rdB F.TIM_STAT_COARSE
    if d.rd F.CLK_START_STEP = 8 ∧ ((l.isEmpty ∧ own) ∨ 1024 ≤ (d.frame.k - d.sec.stepAt).toNat) then
      let d := (d.wr F.CLK_START_NOLOCK l.length).wr F.CLK_START_STEP 0
      if d.run = .boot then d.setRun .idle else d
    else d)

end Sys2Proof.Machine
end

