-- ==== Sys2Proof/Machine/Access.lean ====
section
/-! DEFINITION. The host address space as it reads (17_registers.md): mirrors, fields that are computed when they are read,
plain and applied values (R461), the memories, the bit alias (R466), and the WIDE mailbox (R476 to R478). -/
namespace Sys2Proof.Machine

/-! ## Mirrors (R458, R460) -/

/-- Whether a page decodes A[9:2] only. -/
def smallPage (pg : Nat) : Bool :=
  (decide (4 ≤ pg) && decide (pg ≤ 7)) || (decide (0xA ≤ pg) && decide (pg ≤ 0xE)) || (decide (0x20 ≤ pg) && decide (pg < 0x38))
    || (decide (0x40 ≤ pg) && decide (pg < 0x50)) || pg = 0x5F || pg = 0x68

/-- The base address of which an address of the register window is a mirror. -/
def canon (a : Nat) : Nat :=
  let a := a / 4 * 4
  if smallPage (a / 4096) then a / 4096 * 4096 + a % 1024 else a

/-! ## Fields computed when read -/

/-- The mask of the numbers below `n` for which a condition holds. -/
def maskOf (n : Nat) (f : Nat → Bool) : Nat := ofBits ((List.range n).filter f)

/-- A plain mailbox of a port. -/
def Port.box (q : Port) (k : Nat) : MBox := tget {} q.mbx k

/-- HST_PSTAT and the levels of HST_IRQ_STAT (Table 15-4, R426). -/
def Dev.viewHst (d : Dev) (p : Nat) (f : Fld) : Nat :=
  let q := d.port p
  let boxes := maskOf 4 fun k => (q.box k).full
  let outs := maskOf 4 fun l => !(tget [] q.outb l).isEmpty
  if f = F.HST_PSTAT_REPLIES p then q.replies.length
  else if f = F.HST_PSTAT_NETQ p then q.netq.length
  else if f = F.HST_PSTAT_LOCKET_FULL p then outs
  else if f = F.HST_PSTAT_MBX_FULL p then boxes
  else if f = F.HST_PSTAT_SEND_GO p then maskOf 2 fun j => !(tget [] q.send (2 + j)).isEmpty
  else if f = F.HST_IRQ_STAT_REPLY p then b2n !q.replies.isEmpty
  else if f = F.HST_IRQ_STAT_NET p then b2n !q.netq.isEmpty
  else if f = F.HST_IRQ_STAT_MBX p then b2n (boxes ≠ 0)
  else if f = F.HST_IRQ_STAT_LOCKET p then b2n (outs ≠ 0)
  else if f = F.HST_IRQ_STAT_DOORBELL p then b2n (d.rd (F.HST_DB_PEND p) ≠ 0)
  else d.rd f

/-- The MBX page (Table 15-5): words at and beyond LEN read 0 (R423). -/
def Dev.viewMbx (d : Dev) (f : Fld) : Nat :=
  let p := (f.addr - 0x8000) / 1024
  let b := (d.port p).box ((f.addr - 0x8000) % 1024 / 256)
  let o := f.addr % 256
  if o < 64 then (b.words.getD (o / 4) 0).toNat
  else if o = 132 then b.nseq
  else if f.lo = 8 then b2n b.full else b.words.length

/-- The SEC page (Table 18-6). -/
def Wk.viewSec (w : Wk) (f : Fld) : Nat :=
  let d := w.d
  let v := w.v
  if f = F.SEC_PRES_STAT_BUTTON then b2n (Config.inputLevel 1 d.free)
  else if f = F.SEC_PRES_REM_REM_A then d.secLeft (d.port 0).presEnd
  else if f = F.SEC_PRES_REM_REM_B then d.secLeft (d.port 1).presEnd
  else if f = F.SEC_KEY_SLOT then v.idSlot.getD 0
  else if f = F.SEC_KEY_VALID then b2n v.idSlot.isSome
  else if f = F.SEC_KEY_USED then v.idMask (· ≠ 0)
  else if f = F.SEC_KEY_FAILED then v.idMask (· = 0x5A5A00FF)
  else if f = F.SEC_KEY_OWRIT then maskOf 2 fun j => v.otpRd (384 + 40 * j) = 0x5A5A0002
  else if f = F.SEC_KEY_OWNER then b2n (decide (0 < v.owners))
  else if f = F.SEC_FLOOR then v.floor
  else if f = F.SEC_DBG_REM then d.secLeft d.sec.dbgEnd
  else if f = F.SEC_DBG_DBG_DIS then v.otpRd 80 % 2
  else if f = F.SEC_DBG_LOUPE_DIS then v.otpRd 80 / 2 % 2
  else if 0xA100 ≤ f.addr then le ((d.aon.hist.flatMap SealRec.bytes)) (f.addr - 0xA100) 4
  else d.rd f

/-- CLK_STAT.ON (Table 19-2, R510): what starts and stops with the power state is stored; ADC, LANE and HOST are seen. The ADC
clock comes from the main PLL; whether a host clocks its port is free, but for a read by that port (`hostSeen`). -/
def Dev.clkOn (d : Dev) : Nat :=
  let adc := d.rd F.CLK_STAT_PSTATE ≠ 2 && d.rdB F.CLK_STAT_LOCK && ((List.range 4).any (fun c => d.rd (F.ADC_CTRL_MODE c) ≠ 0) || d.rdB F.ACQ_CHK_EN)
  let lane := d.rd F.CLK_STAT_PSTATE ≠ 2 && (List.range 24).any fun n => d.role n ≠ 0 && d.role n ≠ 5
  d.rd F.CLK_STAT_ON ||| b2n adc * 16 ||| b2n lane * 32 ||| b2n (!d.hiZ && Config.inputLevel 2 d.free) * 128

/-- FLT_STAT's bits of the protected part (R390 to R392). -/
def Wk.viewFlt (w : Wk) (f : Fld) : Nat :=
  if f = F.FLT_STAT_LOCKOUT then b2n w.v.lockout
  else if f = F.FLT_STAT_PREV_LOCKOUT then b2n w.v.prevLockout
  else if f = F.FLT_STAT_FF_VALID then b2n w.v.first.isSome
  else if f = F.FLT_STAT_COMP_VALID then b2n w.v.comp.isSome
  else w.d.rd f

/-- The WIDE page (Table 17-6): the words read 0 while VALID = 0 (R477). -/
def Dev.viewWide (d : Dev) (f : Fld) : Nat :=
  let p := (f.addr - 0xE000) / 256
  let x := (d.port p).wide
  let o := f.addr % 256
  if o = 0 then x.sel
  else if o = 4 then (if f.lo = 0 then b2n x.valid else b2n x.bad)
  else if x.valid then (x.words.getD ((o - 16) / 4) 0).toNat else 0

/-- The value in force of a field, computed where the field is not stored. -/
def Wk.live (w : Wk) (f : Fld) : Nat :=
  let d := w.d
  let a := f.addr
  if a = 0x5004 then
    (if f = F.CLK_STAT_ON then d.clkOn else if f = F.CLK_STAT_VSENSE then b2n (Config.inputLevel 0 d.free) else d.rd f)
  else if 0x7000 ≤ a ∧ a < 0x7200 then d.viewHst ((a - 0x7000) / 256) f
  else if 0x8000 ≤ a ∧ a < 0x9000 then d.viewMbx f
  else if a = 0x9004 then w.viewFlt f
  else if 0xA000 ≤ a ∧ a < 0xB000 then w.viewSec f
  else if a = 0xC01C then (d.lanesOf 2).foldl (fun m n => max m (d.rd (F.LANE_DLY n))) 0
  else if 0xE000 ≤ a ∧ a < 0xF000 then d.viewWide f
  else if 0x5F000 ≤ a ∧ a < 0x60000 then d.viewString ((a - 0x5F000) / 32) f
  else if 0x6200 ≤ a ∧ a < 0x6240 ∧ a % 16 = 4 ∧ f.lo = 0 then (d.caps ((a - 0x6200) / 16)).length
  else if 0x60000 ≤ a ∧ a < 0x64000 ∧ a % 256 = 40 then d.tbPos ((a - 0x60000) / 256)
  else d.rd f

/-- The host's last EN of a channel, or the value in force where none was written (R443). [Log: DEDUCED 25] -/
def Dev.enPending (d : Dev) (c : Nat) : Nat :=
  if d.managed c then d.lastWritten (F.CH_CTRL_EN c) else (tfind d.edge.hostEn c).getD (d.rd (F.CH_CTRL_EN c))

/-- The last EN written to a timebase: a safe state clears the applied one only (R158, R461). [Log: DEDUCED 25] -/
def Dev.tbPending (d : Dev) (t : Nat) : Nat := (tfind d.edge.hostEn (256 + t)).getD (d.lastWritten (F.TB_CTRL_EN t))

/-- What stands behind a plain read of a field (R461, Table 17-3), a window end by the pending LEN while the pending AUTO is 1 (R29);
WO fields read 0. [Log: DEDUCED 23] -/
def Wk.pending (w : Wk) (f : Fld) : Nat :=
  let d := w.d
  match f.acc with
  | .wo => 0
  | _ =>
  match f.app with
  | .imm => w.live f
  | .car => d.carVal f
  | .frm =>
    if 0x64000 ≤ f.addr ∧ f.addr < 0x68000 then d.enPending ((f.addr - 0x64000) / 64)
    else if 0x60000 ≤ f.addr ∧ f.addr < 0x64000 then d.tbPending ((f.addr - 0x60000) / 256) else d.lastWritten f
  | .stg =>
    let auto := d.pendOr F.SYS_FRM_CTRL_AUTO = 1
    let len := d.pendOr F.SYS_FRM_LEN
    if f = F.SYS_FRM_UPL_END ∧ auto then len / 5
    else if f = F.SYS_FRM_CMP_END ∧ auto then len * 3 / 4
    else if f = F.SYS_FRM_DNL_END ∧ auto then len * 19 / 20
    else d.pendOr f

/-- What a plain read of a field returns, as wide as the field. [Log: DEDUCED 23] -/
def Wk.plain (w : Wk) (f : Fld) : Nat := w.pending f % 2 ^ f.width

/-- What an ACTIVE read of a field returns: the applied value. -/
def Wk.applied (w : Wk) (f : Fld) : Nat :=
  let d := w.d
  match f.acc with
  | .wo => 0
  | _ =>
    if f = F.SYS_FRM_UPL_END then d.uplEnd else if f = F.SYS_FRM_CMP_END then d.cmpEnd else if f = F.SYS_FRM_DNL_END then d.dnlEnd
    else w.live f

/-- A register word from its fields. -/
def packWord (l : List Fld) (val : Fld → Nat) : Nat := l.foldl (fun a f => a + val f % 2 ^ f.width * 2 ^ f.lo) 0

/-- A word of the register window (R458, R479). -/
def Wk.regWord (w : Wk) (x : Nat) (active : Bool) : Nat :=
  if x < 0x4000 then le (w.d.olgBytes w.v) x 4
  else packWord (fieldsAt x) (if active then w.applied else w.plain)

/-- Registers that show an input no command tells of: a read of one takes a fresh number for the next (entry 9). [Log: DESIGN CHOICE 9] -/
def Wk.inputRead (w : Wk) (x : Nat) : Wk :=
  if x = 0x5004 ∨ x = 0xA004 then w.up (·.fresh)
  else if 0x68050 ≤ x ∧ x < 0x68090 then (w.tripHeld ((x - 0x68050) / 4)).1
  else w

/-- A word of the host address space as a read returns it, without side effects (R458, R459, R466, R468). -/
def Wk.readOnly (w : Wk) (a : Nat) (active : Bool) : Nat :=
  let a := a / 4 * 4
  if a < 0x100000 then w.regWord (canon a) active
  else if 0x2000000 ≤ a ∧ a < 0x4000000 then b2n (bitOf (w.regWord (canon (a % 0x100000)) active) ((a - 0x2000000) / 0x100000))
  else if 0x4000000 ≤ a ∧ a < 0x4040000 then w.d.pmem ((a - 0x4000000) / 4)
  else if 0x4100000 ≤ a ∧ a < 0x4200000 then w.d.smem ((a - 0x4100000) / 4)
  else if 0x4800000 ≤ a ∧ a < 0x4801000 then w.v.otpView ((a - 0x4800000) / 4)
  else 0

/-! ## WIDE snapshots (R477, Table 17-7) -/

/-- The last message of a source (Table 14-7). -/
def Dev.wideLast (d : Dev) (n : Nat) : List Nat :=
  match tget none d.flt.last n with
  | some m => [m.encode.toNat % 2 ^ 32, m.encode.toNat / 2 ^ 32, d.rd (F.FLT_CNT n), 1]
  | none => [0, 0, d.rd (F.FLT_CNT n), 0]

/-- An entry of the RAM or AON log. -/
def Dev.logEntry (d : Dev) (aon : Bool) (n : Nat) : Nat := if aon then (tget 0 d.aon.log (n % 64)).toNat else (tget 0 d.flt.ram (n % 1024)).toNat

/-- The sequence number of the entry that a log writes next. -/
def Dev.logSeq (d : Dev) (aon : Bool) : Nat := d.rd (if aon then F.FLT_AON_SEQ else F.FLT_LOG_SEQ)

/-- The read position of a log. -/
def logRd (aon : Bool) : Fld := if aon then F.FLT_AONRD else F.FLT_LOGRD

/-- Entries a log holds. -/
def logSize (aon : Bool) : Nat := if aon then 64 else 1024

/-- Whether an entry of a log is valid: within the last `logSize` before the number that comes, modulo 2^32 (Table 14-7). [Log: DEDUCED 62] -/
def Dev.logValid (d : Dev) (aon : Bool) (n : Nat) : Bool :=
  let seq := d.logSeq aon
  let back := (seq + 2 ^ 32 - n) % 2 ^ 32
  decide (1 ≤ back) && decide (back ≤ logSize aon)

/-- The log selectors. [Log: DEDUCED 62] -/
def Dev.wideLog (d : Dev) (aon : Bool) : List Nat :=
  let n := d.rd (logRd aon)
  let e := d.logEntry aon n
  [e % 2 ^ 32, e / 2 ^ 32, n, b2n (d.logValid aon n)]

/-- The four words of a selector; none where it is unknown. [Log: DEDUCED 66] -/
def Wk.wideWords (w : Wk) (sel : Nat) : Option (List Nat) :=
  let d := w.d
  let now := d.time.now.toNat
  let org := d.frame.origin.toNat
  if sel = 0x0600 then some [now % 2 ^ 32, now / 2 ^ 32, d.rd F.TIM_EPOCH, w.regWord 0x6004 false]
  else if sel = 0x0601 then some [d.rd F.TIM_INC_FRAC, d.rd F.TIM_INC_INT, 0, 0]
  else if sel = 0x0602 then some [d.time.tai.toNat % 2 ^ 32, d.time.tai.toNat / 2 ^ 32, 0, 0]
  else if sel = 0x0603 then some [org % 2 ^ 32, org / 2 ^ 32, d.frame.base.toNat, w.regWord 0x4114 false]
  else if sel = 0x0604 then some [d.aonTime % 2 ^ 32, d.aonTime / 2 ^ 32, 0, 0]
  else if 0x0610 ≤ sel ∧ sel < 0x0614 then some (capWords (d.caps (sel - 0x0610)).head? ((d.caps (sel - 0x0610)).length - 1))
  else if 0x0900 ≤ sel ∧ sel < 0x0980 then some (d.wideLast (sel - 0x0900))
  else if sel = 0x0980 then some (d.wideLog false)
  else if sel = 0x0981 then some (d.wideLog true)
  else if sel = 0x0982 then
    let half (m : Option Msg) : List Nat := match m with | some m => [m.encode.toNat % 2 ^ 32, m.encode.toNat / 2 ^ 32] | none => [0, 0]
    some (half w.v.first ++ half w.v.comp)
  else if 0x0B00 ≤ sel ∧ sel < 0x0BC0 then
    let b := (sel - 0x0B00) / 2
    some ((List.range 4).map fun i => d.sensTemp (8 * b + 4 * (sel % 2) + i))
  else if 0x0BC0 ≤ sel ∧ sel < 0x0BC7 then some ((List.range 4).map fun i => d.sensTemp (768 + 4 * (sel - 0x0BC0) + i))
  else if 0x8400 ≤ sel ∧ sel < 0x8480 then
    let a := sel - 0x8400
    let s := toField 40 (d.acc a).old.sum
    let hi := s / 2 ^ 32
    some [s % 2 ^ 32, if hi < 128 then hi else hi + 0xFFFFFF00, d.rd (F.ACC_MEAN a), w.regWord (0x84000 + 32 * a + 24) false]
  else none

/-- The side effect of a snapshot once its reader has taken it (R478): the capture entry that it returned is popped, where it
still stands at the head, or the log's read position advances; an entry that was not valid has none. -/
def Dev.wideDone (d : Dev) (sel : Nat) (ws : List Nat) : Dev :=
  let last := ws.getD 3 0
  if 0x0610 ≤ sel ∧ sel < 0x0614 then (if bitOf last 4 && ((d.caps (sel - 0x0610)).head?.any (·.shown ws)) then d.popCap (sel - 0x0610) else d)
  else if (sel = 0x0980 ∨ sel = 0x0981) ∧ bitOf last 0 then
    let f := logRd (decide (sel = 0x0981))
    d.wr f (d.rd f + 1)
  else d

/-- A write to WIDE_SEL (R477): the earlier snapshot is discarded and a new one begins. -/
def Dev.wideStart (d : Dev) (p sel : Nat) : Dev := d.upPort p fun q => { q with wide := { sel := sel % 65536, busy := true } }

/-- The snapshot is ready. [Log: DEDUCED 66] -/
def Wk.wideReady (w : Wk) (p : Nat) : Wk :=
  w.up fun d =>
    let x := (d.port p).wide
    if !x.busy then d else
    let ws := w.wideWords x.sel
    d.upPort p fun q => { q with wide := { sel := x.sel, valid := true, bad := ws.isNone, words := (ws.getD []).map (BitVec.ofNat 32 ·) } }

/-- A read of WIDE3 by its own port ends the snapshot (R478). -/
def Dev.wideEnd (d : Dev) (p : Nat) : Dev :=
  let x := (d.port p).wide
  if !x.valid then d else
  let d := d.upPort p fun q => { q with wide := { q.wide with valid := false } }
  if x.bad then d else d.wideDone x.sel (x.words.map (·.toNat))

/-- One word read by a port, with the side effects of R407: the port's own WIDE3, and received stack mail (R371). The bit alias
and the other port's WIDE block have none (R468, R476). -/
def Wk.readWord (w : Wk) (p a : Nat) (active : Bool) : Wk × Nat :=
  let x := canon a
  let w := if a < 0x100000 then w.inputRead x else if 0x2000000 ≤ a ∧ a < 0x4000000 then w.inputRead (canon (a % 0x100000)) else w
  let v := w.readOnly a active
  if 0x100000 ≤ a then (w, v)
  else if x = 0xE01C + p * 256 then (w.up (·.wideEnd p), v)
  else if 0xD180 ≤ x ∧ x < 0xD1C0 then (w.up (·.mrxRead ((x - 0xD180) / 4)), v)
  else (w, v)

/-- Consecutive words read by a port (R408). [Log: DESIGN CHOICE 94] -/
def Wk.readWords (w : Wk) (p a : Nat) (active : Bool) : Nat → Wk × List Nat
  | 0 => (w, [])
  | n + 1 =>
    let (w, v) := w.readWord p (a % 2 ^ 32) active
    let (w, l) := w.readWords p (a + 4) active n
    (w, v :: l)

/-- WIDE_SNAPSHOT_READY (R477): within 64 SYS cycles of the write of WIDE_SEL. -/
def execWideSnapshotReady (p : Nat) (s : State) : Host.Outcome State Fault Refusal := s.run (·.wideReady p)

/-- WIDE3_READ (R478): the last clock of a read of WIDE3. -/
def execWide3Read (p : Nat) (s : State) : Host.Outcome State Fault Refusal := s.run fun w => w.on w.d.hosted (·.up (·.wideEnd p))

end Sys2Proof.Machine
end

