-- ==== Sys2Proof/Machine/Write.lean ====
section
/-! DEFINITION. A write of one word by a host port (R408, R434, R563): clasps and locks, apply points, guarded pairs
(R469 to R472), the bit alias (R466, R467), the memories (R225), clasps (R416) and keep-alives (R414). -/
namespace Sys2Proof.Machine

/-! ## Keep-alive and clasps -/

/-- A keep-alive of a port (R414); the first one that start-up accepts clears TRIES (R498). [Log: DEDUCED 51, 65] -/
def Dev.keepalive (d : Dev) (p : Nat) : Dev :=
  let d := (d.upPort p fun q => { q with kaLast := d.time.rt }).wr (F.HST_PSTAT_KA p) 1
  if d.sec.recovery then d else { d with nv := { d.nv with tries := 0 } }.wr F.SEC_BOOT_TRIES 0

/-- Whether the other port than `p` holds clasp `n`. -/
def Dev.claspHeld (d : Dev) (n p : Nat) : Bool := d.rd (F.HST_CLASP_OWNER n) = other p + 1

/-- Clasp `n` gets an owner; notification 0x08 (Table 15-3). -/
def Dev.claspSet (d : Dev) (n v : Nat) : Dev :=
  if d.rd (F.HST_CLASP_OWNER n) = v then d else (d.wr (F.HST_CLASP_OWNER n) v).notify 8 [n, v]

/-- A write to a clasp (R416): OWNER is bits [1:0]. CLASP12 to CLASP15 are reserved (Table 15-2): no port takes them. [Log: DEDUCED 56, 57] -/
def Dev.claspWrite (d : Dev) (p n v : Nat) : Dev :=
  let v := v % 4
  if 12 ≤ n ∧ n < 16 then d.hstErr p (F.HST_ERR2_CLASP_DENY p) else
  let o := d.rd (F.HST_CLASP_OWNER n)
  let me := p + 1
  if v = me ∧ o = 0 ∧ d.live p then d.claspSet n me
  else if v = me ∧ o = me then d
  else if v = 0 ∧ o = me then d.claspSet n 0
  else d.hstErr p (F.HST_ERR2_CLASP_DENY p)

/-! ## Locks (R418, R419, R473) -/

/-- The clasps that cover a field (Table 15-2). -/
def claspsOf (f : Fld) : List Nat :=
  let a := f.addr
  let has (b : Bool) (n : Nat) : List Nat := if b then [n] else []
  has (a = 0x4110 || a = 0x90000) 0
    ++ has (f.app = .stg) 1
    ++ has (decide (0x50000 ≤ a) && decide (a < 0x56000) || decide (0x5F000 ≤ a) && decide (a < 0x60000)) 3
    ++ has (decide (0x6000 ≤ a) && decide (a < 0x7000)) 4
    ++ has (decide (0x20000 ≤ a) && decide (a < 0x38000) || decide (0x4200 ≤ a) && decide (a < 0x420C)) 5
    ++ has (decide (0x9000 ≤ a) && decide (a < 0xA000)) 6
    ++ has (decide (0xC000 ≤ a) && decide (a < 0xD000)) 7
    ++ has (decide (0xD000 ≤ a) && decide (a < 0xE000)) 8
    ++ has (decide (0x90400 ≤ a) && decide (a < 0x90800)) 10
    ++ has (f.app = .car || f = F.EDG_ARM) 11

/-- Whether a block of registers is the other port's (R427, R476). -/
def foreign (p : Nat) (f : Fld) : Bool :=
  let a := f.addr
  (decide (0x7000 ≤ a) && decide (a < 0x7200) && decide ((a - 0x7000) / 256 ≠ p))
    || (decide (0xE000 ≤ a) && decide (a < 0xF000) && decide ((a - 0xE000) / 256 ≠ p))

/-- Whether the port owns the open staged set (R438). -/
def Dev.ownsStage (d : Dev) (p : Nat) : Bool := match d.stage with | some x => x.owner = p | none => false

/-- Whether a stack member's LEN follows its master (R32). -/
def Dev.lenFollows (d : Dev) : Bool := d.rdB F.STK_CTRL_EN && !d.stkHead

/-- Whether a rule of R473 refuses a write of a field that the write would change. [Log: DEDUCED 59, 64] -/
def Wk.refuses (w : Wk) (p : Nat) (f : Fld) : Bool :=
  let d := w.d
  let ch := (f.addr - 0x64000) / 64
  w.v.lockout || (claspsOf f).any (d.claspHeld · p) || foreign p f || (f.app = .stg && !(d.ownsStage p && d.serves))
    || (f = F.SYS_FRM_LEN && d.lenFollows)
    || ((f = F.TIM_INC_INT || f = F.TIM_INC_FRAC) && d.followsTime)
    || (decide (0x64000 ≤ f.addr) && decide (f.addr < 0x68000) && (f = F.CH_CTRL_EN ch || f = F.CH_PHS ch) && d.managed ch)

/-! ## What counts as a write (R563) -/

/-- A field that a write of 1 acts on and that clears by itself. -/
def Fld.selfClear (f : Fld) : Bool := f = F.GSV_DEN_TOGGLE || f = F.STK_MTX_CTRL_GO

/-- Whether writing `v` counts as a write of the field (R563). [Log: DEDUCED 30] -/
def Wk.changes (w : Wk) (f : Fld) (v : Nat) : Bool :=
  match f.acc with
  | .ro => false
  | .take => false
  | .wo => v ≠ 0
  | .w1c => v ≠ 0
  | .rw => if f.selfClear then v ≠ 0 else if f = F.EDG_ARM then v ≠ 0 || v ≠ w.plain f else v ≠ w.plain f
  | .grd => v ≠ w.plain f

/-! ## What a write does -/

/-- A host write of EN of a channel (R443, R445): it is kept, and where channels may be enabled it applies as FRM. [Log: DEDUCED 25] -/
def Dev.enWrite (d : Dev) (c v : Nat) : Dev :=
  let soft : Bool := match d.waiting .softStart with | some x => d.frame.planned && x.due = some (d.frame.k + 1) | none => false
  let d := { d with edge := { d.edge with hostEn := tins d.edge.hostEn c v } }
  if (d.svcRuns && !d.safe) || soft then d.frmWrite (F.CH_CTRL_EN c) v else d

/-- A host write of EN of a timebase: a FRM write, remembered as the last value written (R461). [Log: DEDUCED 25] -/
def Dev.tbWrite (d : Dev) (t v : Nat) : Dev :=
  { d with edge := { d.edge with hostEn := tins d.edge.hostEn (256 + t) v } }.frmWrite (F.TB_CTRL_EN t) v

/-- A write of LPE_CTRL.RUN (R233). -/
def Dev.runWrite (d : Dev) (v : Nat) : Dev :=
  if v = 1 ∧ !d.rdB F.LPE_STAT_VERIFIED then d.wr F.LPE_STAT_RUN_REJ 1 else d.frmWrite F.LPE_CTRL_RUN v

/-- A field of FLT_CFGn is written: the source's window closes (R384). -/
def Dev.winClose (d : Dev) (n : Nat) : Dev :=
  ({ d with flt := { d.flt with win := tput none d.flt.win n none } }.wr (F.FLT_CNT_WCNT n) 0).wr (F.FLT_CNT_WCLASS n) 0

/-- A write of 1s to a WO field. -/
def Wk.writeOnly (w : Wk) (p : Nat) (f : Fld) (v : Nat) : Wk :=
  let a := f.addr
  if f = F.HST_KA_KICK p then w.on (w.d.olg.built || w.d.sec.recovery) (·.up (·.keepalive p))
  else if f = F.HST_DB_SET p then w.up fun d => d.wr (F.HST_DB_PEND (other p)) (d.rd (F.HST_DB_PEND (other p)) ||| v)
  else if f = F.SEC_PRES_CLOSE then w.presClose p
  else if f = F.SEC_DBG_CLOSE then w.up (·.debugClose)
  else if 0x80000 ≤ a ∧ a < 0x80400 then w.regTrigger ((a - 0x80000) / 256)
  else if 0x84000 ≤ a ∧ a < 0x85000 then w.up (·.accLclr ((a - 0x84000) / 32))
  else w

/-- A write of 1s to a W1C field (R294 for BROKEN). -/
def Wk.clearOnes (w : Wk) (f : Fld) (v : Nat) : Wk :=
  if f = F.THM_DBRK_BROKEN then w.brokenWrite true 0 v
  else if 0x50000 ≤ f.addr ∧ f.addr < 0x56000 then w.brokenWrite false ((f.addr - 0x50000) / 256) v
  else w.up fun d => d.wr f (d.rd f - (d.rd f &&& v))

/-- A write of an IMM field with access RW. -/
def Wk.writeImm (w : Wk) (p : Nat) (f : Fld) (v : Nat) : Wk :=
  let a := f.addr
  let n := (a - 0x6100) / 32
  let o := (a - 0x6100) % 32
  if a = 0x6014 then w.incInt v
  else if a = 0x6024 then w.up fun d => { d.wr f v with time := { d.time with tai := BitVec.ofNat 64 (v * 2 ^ 32 + d.rd F.TIM_TAI_LO_BASE) } }
  else if 0x6100 ≤ a ∧ a < 0x61A0 then
    (if o = 0 ∧ f.lo = 0 then w.outMode n v else if o = 8 then w.outTgtHi n v else if o = 16 then w.outPerHi n v
     else if o = 20 then w.outWidth n v else w.up (·.wr f v))
  else if f = F.CLK_ALARM_HI then
    w.up fun d => { d.wr f v with aon := { d.aon with alarm := v * 2 ^ 32 + d.rd F.CLK_ALARM_LO } }
  else if a = 0xE000 ∨ a = 0xE100 then w.up (·.wideStart p v)
  else if f = F.EDG_ARM then w.up (·.armWrite v)
  else if f = F.GSV_DEN_TOGGLE then w.up (·.denToggle v)
  else if f = F.GSV_DEN_EN then w.up fun d => (d.wr f v).syncDen
  else if f = F.STK_MTX_CTRL_GO then w.up (·.mailGo)
  else if 0x9400 ≤ a ∧ a < 0x9600 then w.up fun d => (d.wr f v).winClose ((a - 0x9400) / 4)
  else w.up (·.wr f v)

/-- An accepted write of one field at its apply point (Table 17-3). -/
def Wk.putField (w : Wk) (p : Nat) (f : Fld) (v : Nat) : Wk :=
  match f.app with
  | .stg => w.up fun d => { d with stg := tput none d.stg f.key (some v) }
  | .car => w.up (·.carShadow f v)
  | .frm =>
    if f = F.LPE_CTRL_RUN then w.up (·.runWrite v)
    else if 0x60000 ≤ f.addr ∧ f.addr < 0x64000 then w.up (·.tbWrite ((f.addr - 0x60000) / 256) v)
    else if 0x64000 ≤ f.addr ∧ f.addr < 0x68000 then w.up (·.enWrite ((f.addr - 0x64000) / 64) v)
    else w.up (·.frmWrite f v)
  | .imm =>
    match f.acc with
    | .wo => w.writeOnly p f v
    | .w1c => w.clearOnes f v
    | .rw => w.writeImm p f v
    | _ => w

/-- One field of a register write, judged on its own (R563); true where a rule refuses it. [Log: DEDUCED 30, 64] -/
def Wk.fieldWrite (w : Wk) (p : Nat) (f : Fld) (v : Nat) : Wk × Bool :=
  if !w.changes f v then (w, false)
  else if w.refuses p f then (w, true)
  else (w.putField p f v, false)

/-- REG_WRITE_LOCKED (FS77), once for a register write with ignored fields (R473, R563): the page and the port. -/
def Wk.lockedWrite (w : Wk) (p x : Nat) : Wk := w.raise 77 p (x / 4096 % 256)

/-- The pending STG word of a register, as an ACTIVE twin mirrors it (R342). -/
def Dev.mirrorStg (d : Dev) (x : Nat) : Dev :=
  let l := (fieldsAt x).filter fun f => f.app = .stg
  d.mirror (.stg x (packWord l d.pendOr))

/-- The fields of a register written with their values: a GO comes last. -/
def Wk.fieldsWrite (w : Wk) (p x : Nat) (l : List (Fld × Nat)) : Wk × Bool :=
  let l := l.filter (fun e => e.1 ≠ F.STK_MTX_CTRL_GO) ++ l.filter fun e => e.1 = F.STK_MTX_CTRL_GO
  let old := w.d.stg
  let r := l.foldl (fun (a : Wk × Bool) e => let b := a.1.fieldWrite p e.1 e.2; (b.1, a.2 || b.2)) (w, false)
  let w := r.1.on (old ≠ r.1.d.stg) (·.up (·.mirrorStg x))
  (w.on r.2 (·.lockedWrite p x), r.2)

/-- A register write (R563). -/
def Wk.regWrite (w : Wk) (p x v : Nat) : Wk × Bool := w.fieldsWrite p x ((fieldsAt x).map fun f => (f, bits v f.lo f.width))

/-! ## Guarded pairs (R469 to R472) -/

/-- Whether a register is guarded as a whole. -/
def guardedReg (x : Nat) : Bool := (fieldsAt x).any fun f => f.acc = .grd

/-- The guard lock of a port. -/
def guardLock (p : Nat) : Fld := if p = 0 then F.SEC_GUARD_LOCK_A else F.SEC_GUARD_LOCK_B
/-- The mismatch count of a port. [Log: DEDUCED 59] -/
def guardMism (p : Nat) : Fld := if p = 0 then F.SEC_GUARD_MISM_A else F.SEC_GUARD_MISM_B

/-- A mismatch (R470, R471): GUARD_MISMATCH (FS75); the third within 1,000 ms locks the port's guard (FS76). [Log: DEDUCED 59] -/
def Wk.guardMiss (w : Wk) (p x : Nat) : Wk :=
  let now := w.d.time.rt
  let n : Nat × Nat := match (w.d.port p).mmWin with
    | some (t, c) => if now - t < rtSec 1 then (t, c + 1) else (now, 1)
    | none => (now, 1)
  let w := (w.up fun d => (d.upPort p fun q => { q with half := none, mmWin := some n }).inc (guardMism p)).raise 75 p (x / 4096 % 256)
  w.on (n.2 = 3) fun w => (w.up (·.wr (guardLock p) 1)).raise 76 0 p

/-- One field of a completed pair: classes by R400, power requests by R513. [Log: DEDUCED 30] -/
def Wk.guardField (w : Wk) (p : Nat) (f : Fld) (v : Nat) : Wk × Bool :=
  if f.acc ≠ .grd then (w, false)
  else if (claspsOf f).any (w.d.claspHeld · p) then (w, true)
  else if f = F.CLK_PWR_REQ then
    if w.d.pwrOk v then (w.up (·.pwrRequest v), false) else (w, v ≠ 0)
  else if 0x9200 ≤ f.addr ∧ f.addr < 0x9400 then
    let n := (f.addr - 0x9200) / 4
    if 5 ≤ v ∨ (v < fsDefault n ∧ !w.d.p1 p) then (w, true) else (w.up fun d => (d.wr f v).winClose n, false)
  else (w.up (·.wr f v), false)

/-- A completed pair applies (R469). -/
def Wk.guardApply (w : Wk) (p x v : Nat) : Wk × Bool :=
  let r := (fieldsAt x).foldl (fun (a : Wk × Bool) f => let b := a.1.guardField p f (bits v f.lo f.width); (b.1, a.2 || b.2)) (w, false)
  (r.1.on r.2 (·.lockedWrite p x), r.2)

/-- Whether the guarded writes of a port are ignored: its guard is locked (R471), or a lockout stands (R390). -/
def Wk.guardShut (w : Wk) (p : Nat) : Bool := w.v.lockout || w.d.rdB (guardLock p)

/-- The first half of a pair is held (R469). -/
def Wk.guardHalf (w : Wk) (p x v : Nat) : Wk × Bool :=
  if w.guardShut p then (w.lockedWrite p x, true)
  else (w.up (·.upPort p fun q => { q with half := some (x, v) }), false)

/-! ## The bit alias (R466, R467) -/

/-- A write of bit `b` of register `x`. -/
def Wk.aliasWrite (w : Wk) (p x b : Nat) (one : Bool) : Wk × Bool :=
  match (fieldsAt x).find? fun f => decide (f.lo ≤ b) && decide (b < f.lo + f.width) with
  | none => (w, false)
  | some f =>
    let m := 1 <<< (b - f.lo)
    let cur := w.plain f
    let bit := cur &&& m
    match f.acc with
    | .ro => (w, false)
    | .take => (w, false)
    | .grd => (w.lockedWrite p x, true)
    | .wo => if one then w.fieldsWrite p x [(f, m)] else (w, false)
    | .w1c => if one then w.fieldsWrite p x [(f, m)] else (w, false)
    | .rw =>
      if f.selfClear then (if one then w.fieldsWrite p x [(f, m)] else (w, false))
      else if f = F.EDG_ARM then
        if !one && bit = 0 then (w, false)
        else if w.refuses p f then (w.lockedWrite p x, true)
        else (w.up (·.armMask m (if one then m else 0)), false)
      else w.fieldsWrite p x [(f, if one then cur ||| m else cur - bit)]

/-! ## The memories (R225) -/

/-- Whether a memory word is locked to a port: while RUN has applied value 1, but for the inactive coefficient bank (R225), or
under CLASP2 (R419). [Log: DEDUCED 59] -/
def Wk.memLocked (w : Wk) (p k : Nat) : Bool :=
  let inactive := decide (65536 ≤ k) && decide (131072 ≤ k - 65536) && decide ((k - 65536 - 131072) / 65536 ≠ w.d.rd F.LPE_COEF_BANK)
  w.d.claspHeld 2 p || (w.d.rdB F.LPE_CTRL_RUN && !inactive)

/-- A host write of the memory word with key `k`: where the word is locked, a write that would change it is refused (R419). -/
def Wk.memWrite (w : Wk) (p a k v : Nat) : Wk × Bool :=
  if w.memLocked p k then
    (if v % 2 ^ 32 = (if k < 65536 then w.d.pmem k else w.d.smem (k - 65536)) then (w, false) else (w.lockedWrite p a, true))
  else (w.up fun d => if k < 65536 then d.putP k v else d.putS (k - 65536) v, false)

/-! ## One word (R408, R434) -/

/-- A write outside the guard-complement window, of the word at `a` (a multiple of 4). The Olgen page is read-only (R479). -/
def Wk.plainWrite (w : Wk) (p a v : Nat) : Wk × Bool :=
  if a < 0x100000 then
    let x := canon a
    if x < 0x4000 then (w, false)
    else if 0x7200 ≤ x ∧ x < 0x7280 then (if w.v.lockout then (w.lockedWrite p x, true) else (w.up (·.claspWrite p ((x - 0x7200) / 4) v), false))
    else if guardedReg x then w.guardHalf p x v
    else w.regWrite p x v
  else if 0x2000000 ≤ a ∧ a < 0x4000000 then
    let x := canon (a % 0x100000)
    if x < 0x4000 then (w, false) else w.aliasWrite p x ((a - 0x2000000) / 0x100000) (v % 2 = 1)
  else match memKey a with
    | some k => w.memWrite p a k v
    | none => (w, false)

/-- A write to the guard-complement window of register `x`, with or without a first half held. -/
def Wk.guardWrite (w : Wk) (p x v : Nat) : Wk × Bool :=
  if w.guardShut p then ((w.up (·.upPort p fun q => { q with half := none })).lockedWrite p x, true) else
  match (w.d.port p).half with
  | some (hx, hv) =>
    if hx = x ∧ v + hv = 0xFFFFFFFF then (w.up (·.upPort p fun q => { q with half := none })).guardApply p x hv
    else (w.guardMiss p hx, false)
  | none => (w.guardMiss p x, false)

/-- One word written by a port; true where it, or a field of it, is ignored by a rule. A first half that this write does not
complete is a mismatch, and the write itself is carried out (R470); the mismatch adds to a count it writes (R474). -/
def Wk.writeWord (w : Wk) (p a v : Nat) : Wk × Bool :=
  let a := a / 4 * 4
  if 0x100000 ≤ a ∧ a < 0x200000 then w.guardWrite p (canon (a % 0x100000)) v
  else match (w.d.port p).half with
    | some (hx, _) =>
      let r := (w.guardMiss p hx).plainWrite p a v
      if canon (a % 0x100000) = (guardMism p).addr then
        (r.1.up fun d => (d.wr (guardMism p) ((((w.up (·.upPort p fun q => { q with half := none })).plainWrite p a v).1).d.rd (guardMism p))).inc (guardMism p), r.2)
      else r
    | none => w.plainWrite p a v

/-- Consecutive words (R408, R434): the first address whose write was ignored. -/
def Wk.writeWords (w : Wk) (p a : Nat) : List Nat → Wk × Option Nat
  | [] => (w, none)
  | v :: l =>
    let (w, b) := w.writeWord p (a % 2 ^ 32) v
    let (w, r) := w.writeWords p (a + 4) l
    (w, if b then some (a / 4 * 4 % 2 ^ 32) else r)

/-- Whether a written word counts as a write of a STG field (R563, R438). -/
def Wk.stgHit (w : Wk) (a v : Nat) : Bool :=
  let a := a / 4 * 4
  let x := canon (a % 0x100000)
  let b := (a - 0x2000000) / 0x100000
  let word := if a < 0x100000 then some v else if 0x2000000 ≤ a ∧ a < 0x4000000 then
    (let old := w.regWord x false; some (old - (old &&& 1 <<< b) + (if v % 2 = 1 then 1 <<< b else 0))) else none
  match word with
  | some v => (fieldsAt x).any fun f => f.app = .stg && w.changes f (bits v f.lo f.width)
  | none => false

/-- Whether some of consecutive words counts as a write of a STG field. -/
def Wk.stgHits (w : Wk) (a : Nat) : List Nat → Bool
  | [] => false
  | v :: l => w.stgHit (a % 2 ^ 32) v || w.stgHits (a + 4) l

/-- The plain word of a register with one field replaced: what a host writes that means that field alone. -/
def Wk.wordWith (w : Wk) (x : Nat) (f : Fld) (v : Nat) : Nat :=
  packWord (fieldsAt x) fun g => if g = f then v else if g.acc = .w1c ∨ g.selfClear then 0 else w.plain g

end Sys2Proof.Machine
end

