-- ==== Sys2Proof/Machine/Host.lean ====
section
/-! DEFINITION. What a host does on its port (15_host_ports.md): the seven SPI instructions, keep-alive and lapse, mailboxes,
lockets, notifications and logs, and the register writes that have rows of their own. -/
namespace Sys2Proof.Machine

/-! ## A transaction -/

/-- The words a port put out on HPx_IO in its last transaction. [Log: DESIGN CHOICE 94] -/
def Dev.putIo (d : Dev) (p : Nat) (ws : List Nat) : Dev := d.upPort p fun q => { q with io := ws.map (BitVec.ofNat 32 ·) }

/-- The number of a port: 0 HPA, 1 HPB. [Log: DESIGN CHOICE 69] -/
def portNo (p : Nat) : Nat := if p = 0 then 0 else 1

/-- A transaction on a port. Before POR_N is released, in HOLD and in SLEEP it is not executed: the falling CS_N is a wake source only, and so it is beside
the transaction once a request of R513 is accepted (R520, R521). [Log: DESIGN CHOICE 94] -/
def State.host (s : State) (p : Nat) (f : Nat → Wk → Wk) : Host.Outcome State Fault Refusal :=
  s.run fun w =>
    let p := portNo p
    let w := w.up fun d => d.putIo p []
    let w := w.on (w.d.timStopped || w.d.sec.pwrReq.isSome) (·.up (·.setBit F.CLK_WAKE_STAT_WAKE 1))
    w.on w.d.hosted (f p)

/-- A single register write of a port. -/
def State.hostWrite (s : State) (p a v : Nat) : Host.Outcome State Fault Refusal := s.host p fun p w => (w.writeWord p a v).1

/-- A write of a register of the port's own block, or of a common one, that means one field; nothing where the operand names
no unit (`ok` false). -/
def State.fieldOnly (s : State) (p : Nat) (f : Nat → Fld) (v : Nat) (ok : Bool := true) : Host.Outcome State Fault Refusal :=
  s.host p fun p w => w.on ok fun w => (w.writeWord p (f p).addr (w.wordWith (f p).addr (f p) v)).1

/-! ## Interrupt pins (R426) -/

/-- Whether IRQA_N (port 0) or IRQB_N is asserted. -/
def Wk.irq (w : Wk) (p : Nat) : Bool :=
  (w.regWord (0x700C + p * 256) false &&& w.d.rd (F.HST_IRQ_EN p)) ≠ 0
    || (List.range 4).any fun i => w.d.rd (if p = 0 then F.FLT_PEND_A i else F.FLT_PEND_B i) ≠ 0

/-! ## Packets (R428, R429) -/

/-- Whether a header is valid for ring or locket `n` (R429). -/
def pktHeader (b : List Byte) (locket : Bool) (n : Nat) : Bool :=
  le b 0 1 = 1 && decide (le b 1 1 < 2) && decide (le b 6 2 ≤ if locket then 11 else 256) && le b 8 1 % 16 = n && decide (le b 8 1 < 64)
    && le b 9 7 = 0 && decide (n < if locket then 4 else 15)

/-- The packet that bytes with a valid header spell. -/
def pktOf (b : List Byte) (p : Nat) (locket : Bool) (n : Nat) : Pkt :=
  ⟨le b 2 2, ⟨p, locket, n, BitVec.ofNat 16 (le b 4 2), le b 8 1 / 16 % 4, le b 1 1 % 2 = 1⟩, toWords (le b 6 2) (b.drop 16)⟩

/-- Whether the CRC-32C of a packet holds. -/
def pktCrc (b : List Byte) : Bool :=
  let n := 16 + 4 * le b 6 2
  crc32c (slice b 0 n) = le b n 4

/-- The bytes of a packet on a ring. -/
def Pkt.size (x : Pkt) : Nat := 20 + 4 * x.ps.length

/-- A ring of a port. -/
def Port.ring (q : Port) (r : Nat) : List Pkt := tget [] q.rings r

/-- A discarded ring packet (R410): HOST_PKT_ERR (FS79), PKT_BAD, HST_ERRLAST. -/
def Wk.pktBad (w : Wk) (p ring kind op : Nat) : Wk :=
  (w.up fun d => ((((d.hstErr p (F.HST_ERR_PKT_BAD p)).wr (F.HST_ERRLAST_RING p) ring).wr (F.HST_ERRLAST_REASON p) kind).wr
    (F.HST_ERRLAST_OPCODE p) op)).raise 79 kind p

/-- A RING_PUSH (R410): the checks in the order of the rule. [Log: DEDUCED 58] -/
def Wk.ringPush (w : Wk) (p ring : Nat) (b : List Byte) : Wk :=
  let op := if 4 ≤ b.length then le b 2 2 else 0
  let q := (w.d.port p).ring ring
  if b.length < 20 ∨ b.length ≠ 20 + 4 * le b 6 2 ∨ !pktHeader b false ring then w.pktBad p ring 2 op
  else if !pktCrc b then w.pktBad p ring 1 op
  else if 8 ≤ q.length ∨ 4096 < (q.map Pkt.size).sum + b.length then w.pktBad p ring 3 op
  else w.up (·.upPort p fun x => { x with rings := tput [] x.rings ring (q ++ [pktOf b p false ring]) })

/-! ## Replies (R412, R413, R456) -/

/-- A NET entry as REPLY_POP returns it (R456). [Log: DEDUCED 61] -/
def NetFrame.bytesOut (f : NetFrame) : List Byte :=
  leBytes 4 (f.bytes.length % 2048 + f.lane % 2 * 2 ^ 12 + b2n f.tsValid * 2 ^ 13 + b2n f.coarse * 2 ^ 14) ++ leBytes 8 f.ts.toNat
    ++ leBytes 4 (f.epoch % 65536) ++ f.bytes

/-- The words of a byte list, the last one zero-padded. -/
def padWords (b : List Byte) : List Nat := (toWords ((b.length + 3) / 4) b).map (·.toNat)

/-- The words a pop returns: the length word, then the reply. -/
def popWords (l : List (List Byte)) : List Nat :=
  match l with
  | [] => [0]
  | b :: r => (b.length % 65536 + r.length % 256 * 2 ^ 16) :: padWords b

/-- REPLY_POP of which the host clocks out `n` words: the head leaves its queue only when its last word has been clocked out. [Log: DEDUCED 58] -/
def Wk.replyPop (w : Wk) (p : Nat) (net : Bool) (n : Nat) : Wk :=
  w.up fun d =>
    let q := d.port p
    let l := if net then q.netq.map NetFrame.bytesOut else q.replies
    let d := d.putIo p ((popWords l).take n)
    if decide (n < (popWords l).length) then d
    else if net then d.upPort p fun q => { q with netq := q.netq.drop 1 }
    else d.upPort p fun q => { q with replies := q.replies.drop 1 }

/-! ## Mailboxes and lockets (R420 to R423) -/

/-- An MBX_SEND at the rise of CS_N (R422): index 2 and 3 plain, 8 to 11 lockets; a message for an empty locket is copied with
the send itself, one for a full locket waits with GO. [Log: DEDUCED 57] -/
def Wk.mbxSend (w : Wk) (p idx : Nat) (ws : List Word) (cut : Bool) : Wk :=
  w.up fun d =>
    let q := d.port p
    let plain : Bool := idx = 2 || idx = 3
    let lock := decide (8 ≤ idx) && decide (idx < 12)
    if (!plain && !lock) || cut || decide (ws.length < 8) || decide (16 < ws.length) then d.hstErr p (F.HST_ERR_MBX_ERR p)
    else if !(tget [] q.send idx).isEmpty then d.hstErr p (F.HST_ERR_MBX_BUSY p)
    else if lock && (tget [] q.inb (idx - 8)).isEmpty then d.upPort p fun q => { q with inb := tput [] q.inb (idx - 8) ws }
    else d.upPort p fun q => { q with send := tput [] q.send idx ws }

/-- A waiting message is copied to the other port's mailbox, or to the locket, once that is not FULL (R422); GO clears. [Log: DEDUCED 57] -/
def Dev.mbxCopy (d : Dev) (p idx : Nat) : Dev :=
  let ws := tget [] (d.port p).send idx
  let r := other p
  if 8 ≤ idx ∧ idx < 12 then
    (if ws.isEmpty ∨ !(tget [] (d.port p).inb (idx - 8)).isEmpty then d
     else d.upPort p fun q => { q with send := tput [] q.send idx [], inb := tput [] q.inb (idx - 8) ws })
  else
  if (idx ≠ 2 ∧ idx ≠ 3) ∨ ws.isEmpty ∨ ((d.port r).box idx).full then d else
  let d := d.upPort p fun q => { q with send := tput [] q.send idx [] }
  d.upPort r fun q => { q with mbx := tput {} q.mbx idx { q.box idx with words := ws, full := true } }

/-- An MBX_RECV that clocks out the status word and `n` message words (R423): FULL clears with the last word of the message. [Log: DEDUCED 57] -/
def Wk.mbxRecv (w : Wk) (p idx n : Nat) : Wk :=
  w.up fun d =>
    let q := d.port p
    let b : MBox := if idx < 4 then q.box idx else if 8 ≤ idx ∧ idx < 12 then
        (let l := tget [] q.outb (idx - 8); { words := l, full := !l.isEmpty }) else {}
    let d := d.putIo p ((b.words.length + b2n b.full * 256) :: (List.range n).map fun i => (b.words.getD i 0).toNat)
    if !b.full || decide (n < b.words.length) then d
    else if idx < 4 then d.upPort p fun q => { q with mbx := tput {} q.mbx idx { q.box idx with full := false } }
    else d.upPort p fun q => { q with outb := tput [] q.outb (idx - 8) [] }

/-- The firmware takes the inbound message of a locket (R421, R429): only while the outbound buffer is empty. A packet that
fails its checks is dropped with HOST_PKT_ERR (FS79). -/
def Wk.locketTake (w : Wk) (p l : Nat) : Wk :=
  let q := w.d.port p
  let ws := tget [] q.inb l
  if 4 ≤ l ∨ ws.isEmpty ∨ !(tget [] q.outb l).isEmpty ∨ (tget none q.taken l).isSome then w else
  let b := wordBytes ws
  let w := w.up (·.upPort p fun q => { q with inb := tput [] q.inb l [] })
  if !pktHeader b true l ∨ b.length < 20 + 4 * le b 6 2 then w.raise 79 2 p
  else if !pktCrc b then w.raise 79 1 p
  else w.up (·.upPort p fun q => { q with taken := tput none q.taken l (some (pktOf b p true l)) })

/-! ## Notifications (R424) -/

/-- The firmware delivers the oldest notification that waits for MBX0 or MBX1, while that mailbox is not FULL. -/
def Dev.noteDeliver (d : Dev) (p m : Nat) : Dev :=
  let q := d.port p
  let n : NoteQ := tget {} q.notes m
  if 2 ≤ m ∨ (q.box m).full then d else
  match n.q with
  | [] => d
  | x :: r =>
    let seq := (n.seq + 1) % 256
    let w0 := x.type % 256 + 8 * 2 ^ 8 + seq * 2 ^ 16 + b2n n.ovf * 2 ^ 24
    let ws := ([w0, x.time].map (BitVec.ofNat 32 ·) ++ x.words ++ List.replicate 8 0).take 8
    d.upPort p fun q => { q with notes := tput {} q.notes m { q := r, ovf := false, seq := seq }, mbx := tput {} q.mbx m { words := ws, full := true, nseq := seq } }

/-! ## Keep-alive lapse (R415) -/

/-- Whether the open set is a port's, and not yet accepted. -/
def Dev.openOf (d : Dev) (p : Nat) : Bool := d.stage = some ⟨p, none⟩

/-- Whether a port may discard the set it owns (R441): not once a plan uses the accepted values (R440, R463). [Log: DEDUCED 60] -/
def Dev.abortable (d : Dev) (p : Nat) : Bool := d.ownsStage p && !(d.stageDue && d.frame.planned)

/-- The pending copy is discarded and the set closes (R441); an accepted STAGE_APPLY that waits replies ABANDONED. [Log: DEDUCED 60] -/
def Dev.discardSet (d : Dev) : Dev := d.closeSet.abandon [.stageApply] 0

/-- What a port leaves behind when it lapses: clasps, waiting packets, lockets, sessions, guarded data (R437), its staged set
(R441). [Log: DEDUCED 65] -/
def Dev.lapse (d : Dev) (p : Nat) : Dev :=
  let mine := (List.range 32).filter fun n => d.rd (F.HST_CLASP_OWNER n) = p + 1
  let d := mine.foldl (fun d n => d.claspSet n 0) d
  let d := if mine.isEmpty then d else d.wr (F.HST_IRQ_STAT_CLASP_FREED (other p)) 1
  let drop := ((List.range 14).map fun r => ((d.port p).ring r).length).sum
  let d := if drop = 0 then d else (d.addSat (F.HST_ERR2_PKT_DROP p) drop).wr (F.HST_IRQ_STAT_ERR p) 1
  let d := d.upPort p fun q => { q with rings := q.rings.filter fun e => decide (14 ≤ e.1), inb := [], outb := [], guarded := [], send := q.send.filter fun e => decide (e.1 < 8) }
  let d := match d.sec.sess with | some x => if x.port = p then d.dropSess else d | none => d
  let d := match d.lpe.load with | some x => if x.1 = p then d.upLpe fun l => { l with load := none } else d | none => d
  let d := if d.abortable p then d.discardSet.mirror (.cmd Config.opStageAbort [] d.dueNext) else d
  (d.wr (F.HST_PSTAT_KA p) 2).wr (F.HST_IRQ_STAT_LAPSED p) 1

/-! ## Rows: logs and notifications -/

/-- LOG_WRITE. -/
def execLogWrite (s : State) : Host.Outcome State Fault Refusal := s.run (·.up (·.logWrite))

/-- NOTIFICATION_DELIVER. -/
def execNotificationDeliver (p mbx : Nat) (s : State) : Host.Outcome State Fault Refusal := s.run (·.up (·.noteDeliver (portNo p) mbx))

/-! ## Rows: SPI instructions (Table 15-1) -/

/-- What a port sees of a word that it reads itself: it clocks the HOST domain meanwhile, so that CLK_STAT.ON bit 7 reads 1
(Table 19-2), through the alias too. -/
def hostSeen (a v : Nat) : Nat :=
  let b := F.CLK_STAT_ON.lo + 7
  if a < 0x100000 then (if canon a = 0x5004 then v ||| 2 ^ b else v)
  else if 0x2000000 ≤ a ∧ a < 0x4000000 ∧ canon (a % 0x100000) = 0x5004 ∧ (a - 0x2000000) / 0x100000 = b then 1 else v

/-- WINDOW_READ of `n` words. -/
def execWindowRead (p : Nat) (addr : Word) (n : Nat) (s : State) : Host.Outcome State Fault Refusal :=
  s.host p fun p w =>
    let r := w.readWords p addr.toNat false n
    r.1.up (·.putIo p (r.2.zipIdx.map fun x => hostSeen ((addr.toNat + 4 * x.2) % 2 ^ 32) x.1))

/-- WINDOW_WRITE: each word one register write, in address order (R408). -/
def execWindowWrite (p : Nat) (addr : Word) (words : List Word) (s : State) : Host.Outcome State Fault Refusal :=
  s.host p fun p w => (w.writeWords p addr.toNat (words.map (·.toNat))).1

/-- STATUS_READ: HST_PSTAT. -/
def execStatusRead (p : Nat) (s : State) : Host.Outcome State Fault Refusal :=
  s.host p fun p w => w.up (·.putIo p [w.regWord (0x7004 + p * 256) false])

/-- RING_PUSH. -/
def execRingPush (p ring : Nat) (bytes : List Byte) (s : State) : Host.Outcome State Fault Refusal :=
  s.host p fun p w => w.ringPush p (ring % 16) bytes

/-- REPLY_POP. -/
def execReplyPop (p : Nat) (net : Bool) (n : Nat) (s : State) : Host.Outcome State Fault Refusal := s.host p fun p w => w.replyPop p net n

/-- MBX_SEND. -/
def execMbxSend (p idx : Nat) (words : List Word) (cut : Bool) (s : State) : Host.Outcome State Fault Refusal :=
  s.host p fun p w => w.mbxSend p idx words cut

/-- MBX_RECV. -/
def execMbxRecv (p idx n : Nat) (s : State) : Host.Outcome State Fault Refusal := s.host p fun p w => w.mbxRecv p idx n

/-- HOST_BAD_INSTRUCTION (R405). -/
def execHostBadInstruction (p : Nat) (s : State) : Host.Outcome State Fault Refusal :=
  s.host p fun p w => w.up fun d => d.hstErr p (F.HST_ERR_BAD_INSTR p)

/-- MBX_COPY: `p` the sending port. -/
def execMbxCopy (p idx : Nat) (s : State) : Host.Outcome State Fault Refusal := s.run (·.up (·.mbxCopy (portNo p) idx))

/-- LOCKET_TAKE. -/
def execLocketTake (p l : Nat) (s : State) : Host.Outcome State Fault Refusal := s.run (·.locketTake (portNo p) l)

/-! ## Rows: keep-alive (R414, R415) -/

/-- KA_WARN: half the period has passed since the last keep-alive. [Log: DEDUCED 65] -/
def execKaWarn (p : Nat) (s : State) : Host.Outcome State Fault Refusal :=
  s.run fun w =>
    let p := portNo p
    w.on (w.d.live p && w.d.frozen.isNone) fun w =>
      let t := (w.d.port p).kaLast + w.d.rd (F.HST_KA_PERIOD p) * 32000000
      (w.advanceRt t).up fun d => (d.upPort p fun q => { q with kaWarned := t }).wr (F.HST_IRQ_STAT_KA_WARN p) 1

/-- HOST_KEEPALIVE_LAPSE (FS78). -/
def execHostKeepaliveLapse (p : Nat) (s : State) : Host.Outcome State Fault Refusal :=
  s.run fun w =>
    let p := portNo p
    w.on (w.d.live p && w.d.frozen.isNone) fun w =>
      ((w.advanceRt ((w.d.port p).kaLast + w.d.rd (F.HST_KA_PERIOD p) * 64000000)).up (·.lapse p)).raise 78 0 p

/-- HST_KICK (R414). -/
def execHstKick (p : Nat) (s : State) : Host.Outcome State Fault Refusal := s.fieldOnly p F.HST_KA_KICK 1

/-- CLASP_WRITE (R416). -/
def execClaspWrite (p n : Nat) (v : Word) (s : State) : Host.Outcome State Fault Refusal :=
  s.host p fun p w => w.on (decide (n < 32)) fun w => (w.writeWord p (0x7200 + 4 * n) v.toNat).1

/-- DOORBELL_SET (R425). -/
def execDoorbellSet (p : Nat) (mask : BitVec 16) (s : State) : Host.Outcome State Fault Refusal := s.fieldOnly p F.HST_DB_SET mask.toNat

/-! ## Rows: register writes (R563) -/

/-- REGISTER_WRITE. -/
def execRegisterWrite (p : Nat) (addr v : Word) (s : State) : Host.Outcome State Fault Refusal := s.hostWrite p addr.toNat v.toNat

/-- BIT_ALIAS_WRITE (R466): an address of the alias window. -/
def execBitAliasWrite (p : Nat) (addr v : Word) (s : State) : Host.Outcome State Fault Refusal :=
  s.host p fun p w => w.on (decide (0x2000000 ≤ addr.toNat) && decide (addr.toNat < 0x4000000)) fun w => (w.writeWord p addr.toNat v.toNat).1

/-- GUARD_FIRST_HALF (R469): a write to a guarded register. -/
def execGuardFirstHalf (p : Nat) (addr v : Word) (s : State) : Host.Outcome State Fault Refusal :=
  s.host p fun p w => w.on (decide (addr.toNat < 0x100000) && guardedReg (canon addr.toNat)) fun w => (w.writeWord p addr.toNat v.toNat).1

/-- GUARD_COMPLEMENT (R469, R470): a write to the guard-complement window. -/
def execGuardComplement (p : Nat) (addr v : Word) (s : State) : Host.Outcome State Fault Refusal :=
  s.host p fun p w => w.on (decide (0x100000 ≤ addr.toNat) && decide (addr.toNat < 0x200000)) fun w => (w.writeWord p addr.toNat v.toNat).1

/-- WIDE_SEL_WRITE (R477), in the port's own block. -/
def execWideSelWrite (p : Nat) (sel : BitVec 16) (s : State) : Host.Outcome State Fault Refusal := s.fieldOnly p F.WIDE_SEL sel.toNat

/-- EDG_ARM_WRITE (R143). -/
def execEdgArmWrite (p : Nat) (v : Word) (s : State) : Host.Outcome State Fault Refusal := s.hostWrite p 0x68000 v.toNat

/-- CAR_SHADOW_WRITE (R146): a write of a register of a timebase or channel. -/
def execCarShadowWrite (p : Nat) (addr v : Word) (s : State) : Host.Outcome State Fault Refusal :=
  s.host p fun p w => w.on ((fieldsAt (canon addr.toNat)).any fun f => f.app = .car) fun w => (w.writeWord p addr.toNat v.toNat).1

/-- TIM_INC_INT_WRITE (R38, R39). -/
def execTimIncIntWrite (p : Nat) (v : Word) (s : State) : Host.Outcome State Fault Refusal := s.hostWrite p 0x6014 v.toNat

/-- TIM_OUT_CTRL_WRITE (R51, R52). -/
def execTimOutCtrlWrite (p n : Nat) (v : Word) (s : State) : Host.Outcome State Fault Refusal :=
  s.host p fun p w => w.on (decide (n < 5)) fun w => (w.writeWord p (0x6100 + 32 * n) v.toNat).1

/-- TIM_OUT_TGT_HI_WRITE (R51). -/
def execTimOutTgtHiWrite (p n : Nat) (v : Word) (s : State) : Host.Outcome State Fault Refusal :=
  s.host p fun p w => w.on (decide (n < 5)) fun w => (w.writeWord p (0x6108 + 32 * n) v.toNat).1

/-- TIM_OUT_PER_HI_WRITE (R52). -/
def execTimOutPerHiWrite (p n : Nat) (v : Word) (s : State) : Host.Outcome State Fault Refusal :=
  s.host p fun p w => w.on (decide (n < 5)) fun w => (w.writeWord p (0x6110 + 32 * n) v.toNat).1

/-- TIM_OUT_WIDTH_WRITE (R52). -/
def execTimOutWidthWrite (p n : Nat) (v : Word) (s : State) : Host.Outcome State Fault Refusal :=
  s.host p fun p w => w.on (decide (n < 5)) fun w => (w.writeWord p (0x6114 + 32 * n) v.toNat).1

/-- GSV_DEN_TOGGLE_WRITE (R184). -/
def execGsvDenToggleWrite (p : Nat) (mask : BitVec 8) (s : State) : Host.Outcome State Fault Refusal :=
  s.fieldOnly p (fun _ => F.GSV_DEN_TOGGLE) mask.toNat

/-- ADC_GO_WRITE (R195). -/
def execAdcGoWrite (p c : Nat) (s : State) : Host.Outcome State Fault Refusal :=
  s.fieldOnly p (fun _ => F.ADC_CTRL_GO c) 1 (decide (c < 4))

/-- ACC_LCLR_WRITE (R204). -/
def execAccLclrWrite (p a : Nat) (s : State) : Host.Outcome State Fault Refusal :=
  s.fieldOnly p (fun _ => F.ACC_CFG_LCLR a) 1 (decide (a < 128))

/-- LPE_RUN_WRITE (R233). -/
def execLpeRunWrite (p : Nat) (v : Bool) (s : State) : Host.Outcome State Fault Refusal := s.fieldOnly p (fun _ => F.LPE_CTRL_RUN) (b2n v)

/-- LPE_MEM_WRITE (R225): a word of program or state memory. -/
def execLpeMemWrite (p : Nat) (addr v : Word) (s : State) : Host.Outcome State Fault Refusal :=
  s.host p fun p w => w.on (memKey addr.toNat).isSome fun w => (w.writeWord p addr.toNat v.toNat).1

/-- THM_BROKEN_WRITE (R294). -/
def execThmBrokenWrite (p : Nat) (die : Bool) (b : Nat) (mask : Word) (s : State) : Host.Outcome State Fault Refusal :=
  s.fieldOnly p (fun _ => if die then F.THM_DBRK_BROKEN else F.BTH_STAT_BROKEN b) (if die then mask.toNat else mask.toNat % 256) (die || decide (b < 96))

/-- SEC_PRES_CLOSE (R488): a port closes its own window. -/
def execSecPresClose (p : Nat) (s : State) : Host.Outcome State Fault Refusal := s.hostWrite p 0xA00C 1

/-- SEC_DBG_CLOSE (R505): either port closes the access. -/
def execSecDbgClose (p : Nat) (s : State) : Host.Outcome State Fault Refusal := s.hostWrite p 0xA028 4

/-! ## Rows: requests of a power state (R513) -/

/-- HOLD_REQUEST (R513): REQ = 1 by a guarded write of a port. -/
def execHoldRequest (p : Nat) (s : State) : Host.Outcome State Fault Refusal := s.host p fun p w => w.pwrWrite p 1

/-- SLEEP_REQUEST (R513). -/
def execSleepRequest (p : Nat) (s : State) : Host.Outcome State Fault Refusal := s.host p fun p w => w.pwrWrite p 2

/-! ## Rows: time limits of commands (R454) -/

/-- NO_ANSWER_TIMEOUT: 100 ms have passed since a MODULE_READ or a far-end LOOP_TEST of a port began. -/
def execNoAnswerTimeout (p : Nat) (s : State) : Host.Outcome State Fault Refusal :=
  s.run fun w =>
    let far (x : Wait) : Bool := x.hdr.port = portNo p && (x.kind = WaitKind.moduleRead || (x.kind = WaitKind.loopTest && x.arg.getD 1 0 = 2))
    match w.d.waits.find? far with
    | none => w
    | some x =>
      (w.advanceRt (x.since + 6400000000)).up fun d =>
        let lane := x.arg.getD 0 0
        (if x.kind = WaitKind.loopTest then d.testOver lane else d).settle (decide <| · = x) fun _ => (Status.timeout, 0, [])

end Sys2Proof.Machine
end

