-- ==== Sys2Proof/Machine/CmdBase.lean ====
section
/-! DEFINITION. How the firmware judges a command packet (R428 to R433): the tables of opcodes, the checks in the order of
R433, the twin's rules for mirrored commands (R342, R355), and the shape every command of the opcode tables shares. -/
namespace Sys2Proof.Machine

/-! ## The opcode tables (Tables 16-4 to 16-9, 16-11) -/

/-- Fewest and most parameter words of an opcode; none for a reserved opcode. [Log: DEDUCED 68] -/
def plenRange (op : Nat) : Option (Nat × Nat) :=
  if op / 256 = 2 then (if op = Config.opStageOpen ∨ op = Config.opStageApply ∨ op = Config.opStageAbort then some (0, 0) else none) else
  match op with
  | 0x0000 | 0x0001 | 0x0003 | 0x0004 => some (0, 0)
  | 0x0002 | 0x0100 | 0x0102 => some (2, 2)
  | 0x0005 => some (3, 256) | 0x0006 => some (3, 3)
  | 0x0101 => some (2, 256) | 0x0103 => some (1, 1)
  | 0x0300 | 0x0303 | 0x0304 | 0x0305 => some (0, 0)
  | 0x0301 => some (5, 5) | 0x0302 => some (1, 1)
  | 0x0400 | 0x0401 | 0x0402 | 0x0403 => some (1, 1)
  | 0x0500 => some (1, 2) | 0x0501 | 0x0502 => some (0, 0)
  | 0x0600 => some (3, 3) | 0x0601 | 0x0602 => some (1, 1)
  | 0x0700 | 0x0701 => some (2, 2) | 0x0702 => some (7, 7) | 0x0703 => some (1, 1)
  | 0x0800 | 0x0802 => some (0, 0) | 0x0801 => some (1, 1)
  | 0x0900 | 0x0901 => some (0, 0)
  | 0x0A00 => some (1, 1) | 0x0A01 | 0x0A02 => some (2, 2)
  | 0x0B00 => some (1, 255)
  | 0x0F00 => some (1, 2) | 0x0F01 | 0x0F03 => some (0, 0) | 0x0F02 | 0x0F05 => some (2, 2)
  | 0x0F04 => some (8, 8) | 0x0F06 => some (3, 3)
  | _ => none

/-- The parameter words a packet must have: LP_LOAD and FW_UPDATE need their second word for OPEN. [Log: DEDUCED 68] -/
def plenFor (op : Nat) (ps : List Word) : Option (Nat × Nat) :=
  (plenRange op).map fun r => if (op = 0x0500 ∨ op = 0x0F00) ∧ pw ps 0 % 4 = 0 then (2, 2) else r

/-- The clasp whose group contains an opcode (Table 15-2). -/
def claspFor (op : Nat) : Option Nat :=
  match op / 256 with
  | 2 => some 1
  | 3 => if op = 0x0304 ∨ op = 0x0305 then none else some 0
  | 4 => some 3
  | 5 => some 2
  | 6 => if op = 0x0600 then none else some 6
  | 7 => some 4
  | 8 => if op = 0x0800 then none else some 7
  | 9 => if op = 0x0900 then none else some 8
  | 10 => some 5
  | 15 => some 9
  | _ => none

/-- The commands that a lockout leaves (R390). -/
def lockoutOk (op : Nat) : Bool := decide (op < 0x0100) || [0x0100, 0x0103, 0x0600, 0x0602, 0x0800, 0x0F04].contains op

/-- The commands that an active twin mirrors (R342). -/
def mirrored (op : Nat) : Bool :=
  op = Config.opStageApply || op = Config.opStageAbort || op / 256 = 3 || op / 256 = 4 || op / 256 = 5

/-- Of these, the ones that wait while the partner follows (R342). [Log: DEDUCED 47] -/
def mirrorWaits (op : Nat) : Bool := op = Config.opStageApply || op = 0x0502 || op / 256 = 3

/-- The commands of recovery (R498). [Log: DEDUCED 51] -/
def recoveryOk (op : Nat) (ps : List Word) : Bool := [0x0000, 0x0001, 0x0003, 0x0004, 0x0F00].contains op || (op = 0x0005 && pw ps 0 = 2)

/-! ## Judging a packet -/

/-- A status with its DETAIL. -/
abbrev Refused := Option (Status × Nat)

/-- The first of two refusals. -/
def Refused.or (a b : Refused) : Refused := match a with | some x => some x | none => b

/-- Refused with a status when a condition holds. -/
def no (c : Bool) (st : Status) (det : Nat) : Refused := if c then some (st, det) else none

/-- STATE_INVALID when a condition holds: its DETAIL is STATUS word 0. -/
def Wk.noState (w : Wk) (c : Bool) : Refused := no c .stateInvalid w.status0

/-- BAD_PARAM for a parameter word. -/
def badParam (c : Bool) (i : Nat) : Refused := no c .badParam i

/-- BAD_OPCODE, BAD_LENGTH, LOCKET_REQUIRED (R433, R421). -/
def badForm (h : Hdr) (op : Nat) (ps : List Word) : Refused :=
  match plenFor op ps with
  | none => some (.badOpcode, 0)
  | some (lo, hi) =>
    (no (decide (ps.length < lo) || decide (hi < ps.length)) .badLength (if lo = hi then lo else 0xFFFFFFFF)).or
      (no (op / 256 = 15 && !h.locket) .locketRequired 0)

/-- Whether a mirrored command of an active unit whose partner is out of reach is refused (R344, R355). -/
def Dev.mirrorBlind (d : Dev) (op : Nat) : Bool :=
  mirrored op && op ≠ 0x0304 && op ≠ 0x0305 && d.twin = 4 && d.twn.pState = some 3 && !d.rdB F.TWN_STAT_H1_UP

/-- Whether a packet is a REG_WR that writes a STG field: of the kinds of R342. [Log: DEDUCED 47] -/
def Wk.writesStg (w : Wk) (op : Nat) (ps : List Word) : Bool := op = 0x0101 && w.stgHits (pw ps 0) ((ps.drop 1).map (·.toNat))

/-- The checks 1 to 5 of R433, and what the ROM of recovery serves (R498). [Log: DEDUCED 51, 68] -/
def Wk.preCheck (w : Wk) (op : Nat) (h : Hdr) (ps : List Word) : Refused :=
  let d := w.d
  (badForm h op ps).or <| (w.noState (d.sec.recovery && !recoveryOk op ps)).or <| (w.noState (w.v.lockout && !lockoutOk op)).or <|
    (w.noState ((mirrored op || w.writesStg op ps) && !d.serves || d.mirrorBlind op)).or <|
    match claspFor op with
    | some n => no (d.claspHeld n h.port) .claspHeld n
    | none => none

/-- The most words an opcode's reply may have (Tables 16-4 to 16-9). [Log: DEDUCED 58] -/
def replyMost (op : Nat) : Nat :=
  if op = Config.opStageApply then 1 else
  match op with
  | 0x0001 => 8 | 0x0002 => 256 | 0x0003 => 7 | 0x0004 | 0x0005 => 1 | 0x0006 | 0x0600 => 254 | 0x0100 => 255 | 0x0103 => 4
  | 0x0300 | 0x0302 | 0x0402 | 0x0400 | 0x0403 | 0x0601 | 0x0602 | 0x0802 | 0x0901 | 0x0F00 => 1
  | 0x0301 | 0x0A01 => 4 | 0x0401 | 0x0502 | 0x0700 | 0x0A00 | 0x0F01 | 0x0F04 => 2 | 0x0501 | 0x0800 => 5 | 0x0703 => 32
  | 0x0900 | 0x0B00 => 3 | 0x0A02 => 16 | _ => 0

/-- Bytes of the largest reply of an opcode. -/
def replySize (op : Nat) : Nat := 20 + 4 * replyMost op

/-- Whether a ring or a locket waits behind a command (R431, R342). -/
def Dev.blocked (d : Dev) (p : Nat) (locket : Bool) (r : Nat) : Bool :=
  let here (h : Hdr) : Bool := h.port = p && h.locket == locket && h.ring = r
  (d.waits.any fun x => here x.hdr) || d.twn.held.any fun x => here x.hdr

/-- Whether the reply queue of a port has room for the largest reply of an opcode, behind those already owed (R411, R412). -/
def Dev.room (d : Dev) (p op : Nat) : Bool :=
  let owed := (d.waits.filter fun x => x.hdr.port = p && !x.hdr.locket).map fun x => replySize x.op
  let q := (d.port p).replies
  decide (q.length + owed.length < 64) && decide ((q.map (·.length)).sum + owed.sum + replySize op ≤ 16384)

/-- Whether the firmware takes a packet now: not while it is dark or held (R329, R515), nor behind a command of the same ring or
locket, nor without room for its reply (R411, R421). [Log: DEDUCED 58] -/
def Dev.takes (d : Dev) (op : Nat) (h : Hdr) : Bool :=
  d.frozen.isNone && !d.blocked h.port h.locket h.ring
    && if h.locket then (tget [] (d.port h.port).outb h.ring).isEmpty else d.room h.port op

/-- Whether an active twin lets a command wait for the next boundary (R342). -/
def Dev.holdsCmd (d : Dev) (op : Nat) : Bool :=
  mirrorWaits op && d.twin = 4 && (d.twn.pState = some 2 || d.twn.pState = some 3) && (d.frame.planned || !d.twn.out.isEmpty)

/-- What a command is: the checks 6 to 8 of R433 that are its own, and its effect with its reply. -/
structure Cmd where
  check : Wk → Refused
  act : Wk → Wk

/-- A refused command replies and does nothing else (R432). -/
def Wk.refuse (w : Wk) (op : Nat) (h : Hdr) (x : Status × Nat) : Wk := w.up fun d => d.reply h op x.1 x.2 []

/-- A command that the firmware has taken. -/
def Wk.judge (w : Wk) (op : Nat) (h : Hdr) (ps : List Word) (c : Cmd) : Wk :=
  match (w.preCheck op h ps).or (c.check w) with
  | some x => w.refuse op h x
  | none => c.act w

/-- A command packet is served (R431, R433). -/
def Wk.command (w : Wk) (op : Nat) (h : Hdr) (ps : List Word) (c : Cmd) : Wk :=
  if !w.d.takes op h then w else
  let w := w.up (·.takePkt op h ps)
  if w.d.holdsCmd op then w.up (·.upTwn fun t => { t with held := t.held ++ [⟨op, h, ps⟩] }) else w.judge op h ps c

/-- The row of a command: its packet comes from a host port. [Log: DESIGN CHOICE 69] -/
def State.command (s : State) (op : Nat) (h : Hdr) (ps : List Word) (c : Cmd) : Host.Outcome State Fault Refusal :=
  s.run fun w => w.on (decide (h.port < 2)) (·.command op h ps c)

/-- The same for a command that writes the protected part. -/
def State.commandV (s : State) (op : Nat) (h : Hdr) (ps : List Word) (c : Cmd) : Host.Outcome State Fault Refusal :=
  s.runV fun w => w.on (decide (h.port < 2)) (·.command op h ps c)

/-- A command that replies OK with words at once. -/
def Wk.ok (w : Wk) (op : Nat) (h : Hdr) (ws : List Nat) : Wk := w.up fun d => d.replyOk h op ws

/-- A command that has taken effect is mirrored by an active twin with the boundary at which it applies (R342). -/
def Wk.mirror (w : Wk) (op : Nat) (ps : List Word) (due : BitVec 32) : Wk := w.up fun d => d.mirror (.cmd op ps due)

/-- The most reply words (R430): a command that asks for more through a locket names a count out of range. [Log: DEDUCED 58] -/
def roomFor (h : Hdr) : Nat := if h.locket then 11 else 256

/-- PRESENCE_REQUIRED under class P1 (Table 18-1). -/
def Wk.noP1 (w : Wk) (h : Hdr) (c : Bool) : Refused := no (c && !w.d.p1 h.port) .presenceRequired 1

/-- PRESENCE_REQUIRED under class P2: the button window and the jumper. -/
def Wk.noP2 (w : Wk) (h : Hdr) (c : Bool) : Refused := no (c && !w.d.p2 h.port) .presenceRequired 3

end Sys2Proof.Machine
end

