-- ==== Sys2Proof/Machine/Stage.lean ====
section
/-! DEFINITION. Staging (R438 to R441): the agreement rules that STAGE_APPLY checks (R439), and the commands of group 0x02. -/
namespace Sys2Proof.Machine

/-! ## The device at the applying boundary (R439) -/

/-- The CAR values that will have transferred by the boundary: those latched in a plan, and the shadows of a timebase that
starts there (R465). -/
def Dev.latchedCars (d : Dev) : Dev :=
  let d := (d.edge.plan ++ d.edge.next).foldl (fun d e => e.xfer.foldl (fun d x => d.wrKey x.1 x.2) d) d
  (List.range 64).foldl (fun d t => if d.rdB (F.TB_CTRL_EN t) && !(d.tb t).run then d.wr (F.TB_PER t) (d.carVal (F.TB_PER t)) else d) d

/-- The values at the boundary at which a STAGE_APPLY accepted now applies: everything that is not STG, then the set. -/
def Dev.stageView (d : Dev) : Dev :=
  let soft : Bool := match d.waiting .softStart with | some x => decide (x.due = some d.dueNext) | none => false
  let d := if soft then d.softPlan else d
  d.frmAll.stageValues.latchedCars

/-! ## Agreement rules: each gives the addresses of the fields that offend -/

/-- An address where a condition holds. -/
def offend (c : Bool) (a : Nat) : List Nat := if c then [a] else []

/-- The present delay D of a strand in ps (R86): the larger of the sums from its two ends; none while it is unmeasured. -/
def Dev.strandDelay (d : Dev) (v : Dev) (s : Nat) : Option Nat :=
  let n := min 12 (v.rd (F.STR_CTRL_NBEAD s))
  let l := (List.range n).map fun p => le (d.bead (v.rd (F.STR_POS_BEAD s p))).last 108 4
  let b := d.strandLane s true
  let far := match b with | some m => [d.rd (F.LANE_DLY m)] | none => []
  if !d.rdB (F.STR_STAT_UP s) || (l ++ far).any (· = 0) then none else
  let sum (x : List Nat) : Nat := x.foldl (· + ·) 0
  some (max (sum l) (if b.isSome then sum ((l.drop 1) ++ far) else 0))

/-- Payload rate of a strand in Gb/s. -/
def Dev.strandRate (d : Dev) (s : Nat) : Nat :=
  match (List.range 24).find? fun n => d.role n = 1 ∧ d.rd (F.LANE_CTRL_STR n) = s with
  | some n => d.payload n
  | none => 1

/-- t_DNL and t_UPL of R86 in ps. -/
def strandTimes (n p dly : Nat) : Nat × Nat :=
  (100000 + (48 + 192 * n) * 8000 / p + 120000 * (n - 1) + dly, 900000 + (48 + 128 * n) * 8000 / p + 120000 * (n - 1) + dly)

/-- The frame rules (R30). [Log: DEDUCED 60] -/
def Dev.r30 (d v : Dev) : List Nat :=
  let auto := v.rdB F.SYS_FRM_CTRL_AUTO
  let len := v.rd F.SYS_FRM_LEN
  let u := v.uplEnd
  let c := v.cmpEnd
  let n := v.dnlEnd
  let at_ (a : Nat) : Nat := if auto then 0x4100 else a
  let fits := (List.range 16).flatMap fun s =>
    if !v.rdB (F.STR_CTRL_EN s) then [] else
    match d.strandDelay v s with
    | none => []
    | some dly =>
      let t := strandTimes (min 12 (v.rd (F.STR_CTRL_NBEAD s))) (d.strandRate s) dly
      offend (decide (u * 2500 < t.2)) (at_ 0x4104) ++ offend (decide ((n - c) * 2500 < t.1)) (at_ 0x4108)
  let late := (List.range 256).any fun k => d.rd (F.CH_ROUTE_KIND k) ≠ 0 && d.enPending k = 1 && !d.rdB (F.CH_CTRL_EN k)
  offend (decide (len < 4000) || decide (80000 < len)) 0x4100
    ++ offend (decide (u < 400) || decide (c < u + 800)) (at_ 0x4104)
    ++ offend (decide (n < c + 400)) (at_ 0x4108) ++ offend (decide (len < n + 200)) 0x4100
    ++ offend (decide (c - u < d.rd F.LPE_VFYCNT_WCET_CNT)) (at_ 0x4104) ++ fits
    ++ offend (len ≠ d.rd F.SYS_FRM_LEN && (!d.safe || late)) 0x4100

/-- The lane rules (R65, R66, Table 3-1). A retired lane goes on naming its strand and end. [Log: DEDUCED 60] -/
def Dev.rLanes (d v : Dev) : List Nat :=
  let l := List.range 24
  let ctrl (n : Nat) : Nat := (F.LANE_CTRL_ROLE n).addr
  let role (n : Nat) : Nat := v.rd (F.LANE_CTRL_ROLE n)
  let ovr (r : Nat) : List Nat := ((l.filter fun n => role n = r).drop 2).map ctrl
  let moved := l.filter fun n => d.inService n &&
    (role n ≠ d.rd (F.LANE_CTRL_ROLE n) || v.rd (F.LANE_CTRL_STR n) ≠ d.rd (F.LANE_CTRL_STR n) || v.rd (F.LANE_CTRL_END n) ≠ d.rd (F.LANE_CTRL_END n))
  let on (s e : Nat) : List Nat := l.filter fun n => role n = 1 && v.rd (F.LANE_CTRL_STR n) = s && v.rd (F.LANE_CTRL_END n) = e
  let pairs := (List.range 16).flatMap fun s =>
    let a := on s 0
    let b := on s 1
    offend (decide (1 < a.length)) (ctrl (a.headD 0)) ++ offend (decide (1 < b.length)) (ctrl (b.headD 0))
      ++ (if v.rdB F.TWN_CTRL_EN then offend (!a.isEmpty && !b.isEmpty) (ctrl (min (a.headD 0) (b.headD 0)))
          else offend (a.isEmpty && !b.isEmpty) (ctrl (b.headD 0)))
  moved.map ctrl ++ (l.filter fun n => 6 ≤ role n).map ctrl ++ ovr 2 ++ ovr 3 ++ ovr 4 ++ pairs

/-- The strand rules (R127). [Log: DEDUCED 60] -/
def rStrands (v : Dev) : List Nat :=
  let occ := (List.range 16).flatMap fun s => (List.range 12).filterMap fun p =>
    if v.rdB (F.STR_POS_VALID s p) then some (v.rd (F.STR_POS_BEAD s p), (F.STR_POS_BEAD s p).addr) else none
  ((List.range 16).flatMap fun s =>
    let n := v.rd (F.STR_CTRL_NBEAD s)
    offend (decide (12 < n)) (F.STR_CTRL_EN s).addr
      ++ ((List.range (min 12 n)).filter fun p => !v.rdB (F.STR_POS_VALID s p)).map fun p => (F.STR_POS_BEAD s p).addr)
    ++ occ.filterMap fun x => if (occ.filter fun y => y.1 = x.1).length = 1 then none else some x.2

/-- The edge engine's rules (R151, R181). [Log: DEDUCED 60] -/
def Dev.rEdge (d v : Dev) : List Nat :=
  let l := List.range 256
  let en := l.filter fun c => v.rdB (F.CH_CTRL_EN c)
  let tb (c : Nat) : Nat := v.rd (F.CH_CTRL_TB c)
  let per (c : Nat) : Nat := v.rd (F.TB_PER (tb c))
  let kind (c : Nat) : Nat := v.rd (F.CH_ROUTE_KIND c)
  let bead (c : Nat) : Nat := v.rd (F.CH_ROUTE_BEAD c)
  let pairOf (c : Nat) : Nat := v.rd (F.CH_ROUTE_PAIR c)
  let sw (c : Nat) : Nat := v.rd (F.CH_ROUTE_SW c)
  let remote := l.filter fun c => kind c = 2
  let route (c : Nat) : List Nat := [F.CH_ROUTE_KIND, F.CH_ROUTE_PAIR, F.CH_ROUTE_SW, F.CH_ROUTE_BEAD].map fun f => v.rd (f c)
  let routeOld (c : Nat) : List Nat := [F.CH_ROUTE_KIND, F.CH_ROUTE_PAIR, F.CH_ROUTE_SW, F.CH_ROUTE_BEAD].map fun f => d.rd (f c)
  let dsat := ((List.range 16).filter fun k => v.rdB (F.GSV_PAIR_DSAT_EN k)).map fun k => v.rd (F.GSV_PAIR_DSAT_TIN k)
  let twice (c x : Nat) : Bool := x ≠ c && kind x = kind c &&
    (if kind c = 1 then pairOf x = pairOf c else kind c = 2 && bead x = bead c && sw x = sw c)
  (en.filter fun c => decide (v.rd (F.CH_DMIN c) < v.rd (F.CH_MINT c)) || decide (per c * 32 < 2 * v.rd (F.CH_DMIN c))).map (fun c => (F.CH_DMIN c).addr)
    ++ (en.filter fun c => en.any (twice c)).map (fun c => (F.CH_ROUTE_KIND c).addr)
    ++ (remote.filter fun c => remote.any fun x => bead x = bead c && sw x ≠ sw c && tb x ≠ tb c).map (fun c => (F.CH_CTRL_TB c).addr)
    ++ (en.filter fun c => kind c = 2 && decide (2 * per c < v.rd F.SYS_FRM_LEN)).map (fun c => (F.TB_PER (tb c)).addr)
    ++ ((l.filter fun c => d.rdB (F.CH_CTRL_EN c) || v.rdB (F.CH_CTRL_EN c)).flatMap fun c =>
      offend (tb c ≠ d.rd (F.CH_CTRL_TB c)) (F.CH_CTRL_TB c).addr ++ offend (route c ≠ routeOld c) (F.CH_ROUTE_KIND c).addr)
    ++ ((List.range 16).filter fun k => v.rdB (F.EDG_PAIR_SAFE_A k) && v.rdB (F.EDG_PAIR_SAFE_B k)).map (fun k => (F.EDG_PAIR_SAFE_A k).addr)
    ++ (en.filter fun c => v.rdB (F.CH_TRIP_TEN c) && dsat.contains (v.rd (F.CH_TRIP_TIN c))).map fun c => (F.CH_TRIP_TIN c).addr

/-- The acquisition's rules (R206), which bind while some sequence has a MODE other than 0. -/
def rAcq (v : Dev) : List Nat :=
  let used := (List.range 4).filter fun c => v.rd (F.ADC_CTRL_MODE c) ≠ 0
  let slots (c : Nat) : List (Nat × Nat × Nat) :=
    ((List.range (min 32 (v.rd (F.ADC_CTRL_SEQLEN c)))).map fun k => (v.rd (F.ADC_SLOT_AIN c k), v.rd (F.ADC_SLOT_ACC c k), (F.ADC_SLOT_AIN c k).addr))
      ++ (List.range (min 8 (v.rd (F.ADC_CTRL_INJLEN c)))).map fun k => (v.rd (F.ADC_ISLOT_AIN c k), v.rd (F.ADC_ISLOT_ACC c k), (F.ADC_ISLOT_AIN c k).addr)
  let alts := (List.range 8).filter fun j => v.rdB (F.ACQ_ALT_EN j)
  let ins (j : Nat) : List Nat := [v.rd (F.ACQ_ALT_PRIM j), v.rd (F.ACQ_ALT_SPARE j)]
  (used.filter fun c => v.rd (F.ADC_CTRL_SEQLEN c) = 0 || decide (32 < v.rd (F.ADC_CTRL_SEQLEN c)) || decide (8 < v.rd (F.ADC_CTRL_INJLEN c))).map (fun c => (F.ADC_CTRL_MODE c).addr)
    ++ (used.flatMap fun c => ((slots c).filter fun x => decide (47 < x.1)).map (·.2.2))
    ++ (used.flatMap fun c => ((slots c).filter fun x => used.any fun o => o ≠ c && (slots o).any fun y => y.2.1 = x.2.1).map (·.2.2))
    ++ (if used.isEmpty then [] else alts.filter fun j => v.rd (F.ACQ_ALT_PRIM j) = v.rd (F.ACQ_ALT_SPARE j) || alts.any fun i => i ≠ j && (ins i).any (ins j).contains).map fun j => (F.ACQ_ALT_PRIM j).addr

/-- The rate classes (R231). [Log: DEDUCED 81] -/
def rClasses (v : Dev) : List Nat :=
  let bad := (List.range 16).filter fun k => v.rd (F.LPE_RC_DIV k) ≠ 0 && if k = 0 then decide (v.rd (F.LPE_RC_PHASE 0) ≠ 0) else
    (decide (256 < v.rd (F.LPE_RC_DIV k)) || decide (65536 < v.period k) || decide (v.period k ≤ v.rd (F.LPE_RC_PHASE k)) || decide (k ≤ v.rd (F.LPE_RC_BASE k)))
  let named := ((List.range v.lpe.nent).map fun e => (v.entry e).rc).filter fun k => v.period k = 0
  (bad ++ named).map fun k => (F.LPE_RC_DIV k).addr

/-- Bead service (R306): a bead's state is the one it has at the coming boundary, where the plan has decided it (R439). -/
def Dev.rBeads (d v : Dev) : List Nat :=
  ((List.range 6).filter fun g => v.rdB (F.BSV_CTRL_EN g)).flatMap fun g =>
    let nmin := v.rd (F.BSV_CTRL_NMIN g)
    let ntgt := v.rd (F.BSV_CTRL_NTGT g)
    let t := v.rd (F.BSV_TB g)
    let bs := v.beadsOf g
    let step := v.rd (F.TB_PSTEP_PSTEP_MAX t)
    let need := (v.rd (F.TB_PER t) * 32 + nmin - 1) / nmin + 1
    let routed (b sw : Nat) : Bool := let l := v.legChannels b sw; !l.isEmpty && l.all fun c => v.rd (F.CH_CTRL_TB c) = t
    let main := (bs.filter fun b => !v.rdB (F.BDT_STATE_ROLE b)).length
    offend (nmin = 0 || decide (ntgt < nmin) || decide (main < ntgt)) (F.BSV_CTRL_EN g).addr
      ++ (bs.filter fun b => !(routed b 0 && routed b 1)).map (fun b => (F.BDT_STATE b).addr)
      ++ offend (step ≠ 0 && decide (step < need)) (F.TB_PSTEP_PSTEP_MAX t).addr
      ++ ((List.range 96).filter fun b => [2, 3, 4].contains (d.nextState b) &&
          (d.rd (F.BDT_STATE_STRING b) = g || v.rd (F.BDT_STATE_STRING b) = g) &&
          (d.rd (F.BDT_STATE_STRING b) ≠ v.rd (F.BDT_STATE_STRING b) || d.rd (F.BDT_STATE_ROLE b) ≠ v.rd (F.BDT_STATE_ROLE b))).map fun b => (F.BDT_STATE b).addr

/-- The stack's regions (R368). -/
def rStack (v : Dev) : List Nat :=
  let s := v.rd F.STK_SBASE
  let r := v.rd F.STK_RBASE
  offend (decide (131072 < s + 512) || (decide (s < r + 128) && decide (r < s + 512))) F.STK_SBASE.addr ++ offend (decide (131072 < r + 128)) F.STK_RBASE.addr

/-- The address of the first offending field of a set, in ascending order (Table 16-3); none where every rule holds. [Log: DEDUCED 60] -/
def Dev.stageOffence (d : Dev) : Option Nat :=
  let v := d.stageView
  match d.r30 v ++ d.rLanes v ++ rStrands v ++ d.rEdge v ++ rAcq v ++ rClasses v ++ d.rBeads v ++ rStack v with
  | [] => none
  | a :: l => some (l.foldl min a)

/-! ## Commands -/

/-- STAGE_OPEN (R438). -/
def stageOpenCmd (h : Hdr) : Cmd :=
  ⟨fun w => w.noState w.d.stage.isSome,
   fun w => (w.up (·.openSet h.port)).ok Config.opStageOpen h []⟩

/-- STAGE_APPLY (R439, R440, R464): a set that breaks a rule is rejected, which type 0x04 of Table 15-3 tells; while the frame generator stands the set applies at once with word 0 = 0; the first one
after a keep-alive ends step 5 of start-up (Table 19-6). [Log: DEDUCED 55, 60] -/
def stageApplyCmd (h : Hdr) (ps : List Word) : Cmd :=
  ⟨fun w => w.noState (!w.d.openOf h.port),
   fun w =>
    match w.d.stageOffence with
    | some a => (w.up fun d => d.notify 4 [9, if d.running then seqOf d.dueNext else 0]).refuse Config.opStageApply h (.stageInconsistent, a)
    | none =>
    if w.d.running then
      let due := w.d.dueNext
      (w.up fun d => ({ d with stage := some ⟨h.port, some due⟩ }).wait { kind := .stageApply, hdr := h, op := Config.opStageApply, due := some due }).mirror
        Config.opStageApply ps due
    else
      let w := (w.up fun d =>
        let d := d.stageValues.afterSet d
        let live := d.rd (F.HST_PSTAT_KA 0) ≠ 0 || d.rd (F.HST_PSTAT_KA 1) ≠ 0
        let d := if d.rd F.CLK_START_STEP = 5 && live then d.wr F.CLK_START_STEP 6 else d
        d.notify 4 [0, 0]).syncOutputs.olgSync
      w.ok Config.opStageApply h [0]⟩

/-- STAGE_ABORT (R441). [Log: DEDUCED 60] -/
def stageAbortCmd (h : Hdr) (ps : List Word) : Cmd :=
  ⟨fun w => w.noState (!w.d.abortable h.port),
   fun w => ((w.up (·.discardSet)).mirror Config.opStageAbort ps w.d.dueNext).ok Config.opStageAbort h []⟩

/-! ## Rows -/

/-- STAGE_OPEN. -/
def execStageOpen (h : Hdr) (ps : List Word) (s : State) : Host.Outcome State Fault Refusal := s.command Config.opStageOpen h ps (stageOpenCmd h)
/-- STAGE_APPLY. -/
def execStageApply (h : Hdr) (ps : List Word) (s : State) : Host.Outcome State Fault Refusal := s.command Config.opStageApply h ps (stageApplyCmd h ps)
/-- STAGE_ABORT. -/
def execStageAbort (h : Hdr) (ps : List Word) (s : State) : Host.Outcome State Fault Refusal := s.command Config.opStageAbort h ps (stageAbortCmd h ps)

end Sys2Proof.Machine
end

