-- ==== Sys2Proof/Machine/RunControl.lean ====
section
/-! DEFINITION. The run-control commands of group 0x03 (R442 to R447, Table 16-11) and the capacity checks of ARM (R87, R338,
R345, R365). -/
namespace Sys2Proof.Machine

/-! ## Capacity: times in ps -/

/-- The first lane whose strand fails R87 against the applied windows. -/
def Dev.strandCap (d : Dev) : Option Nat :=
  let bad (s : Nat) : Bool :=
    match d.strandDelay d s with
    | none => true
    | some dly =>
      let t := strandTimes (min 12 (d.rd (F.STR_CTRL_NBEAD s))) (d.strandRate s) dly
      decide (d.uplEnd * 2500 < t.2) || decide ((d.dnlEnd - d.cmpEnd) * 2500 < t.1)
  ((List.range 16).find? fun s => d.rdB (F.STR_CTRL_EN s) && bad s).map fun s => (d.strandLane s false).getD ((d.strandLane s true).getD 0)

/-- The first TWIN lane that fails R338. -/
def Dev.twinCap (d : Dev) : Option Nat :=
  if !d.rdB F.TWN_CTRL_EN then none else
  let win := (d.rd F.SYS_FRM_LEN - d.cmpEnd) * 2500
  (d.lanesOf 2).find? fun n =>
    let dly := d.rd (F.LANE_DLY n)
    dly = 0 || decide (win < 600000 + (2872 + 4 * d.rd F.TWN_SYNCW) * 8000 / d.payload n + dly)

/-- The first lane whose strand, relayed alone, fails R345. -/
def Dev.relayCap (d : Dev) : Option Nat :=
  if !d.rdB F.TWN_CTRL_EN then none else
  let win := (d.dnlEnd - d.cmpEnd) * 2500
  let bad (s : Nat) : Bool := (d.lanesOf 2).any fun n =>
    let t := strandTimes (min 12 (d.rd (F.STR_CTRL_NBEAD s))) (d.strandRate s) ((d.strandDelay d s).getD 0)
    decide (win < t.1 + 100000 + d.rd (F.LANE_DLY n) + 352000 / d.payload n)
  ((List.range 16).find? fun s => d.rdB (F.STR_CTRL_EN s) && bad s).map fun s => (d.strandLane s false).getD ((d.strandLane s true).getD 0)

/-- The first CASCADE lane of a master that fails R365; a link beyond the master's own lanes counts as measured once the report of the
device behind it has come in 64 frames in a row, and D is the summed delay that the last upward frames brought. [Log: DEDUCED 48] -/
def Dev.stackCap (d : Dev) : Option Nat :=
  if d.stkRole ≠ 1 then none else
  let n := d.rd F.STK_CTRL_NDEV
  let bd := 52 + 260 * (n - 1) + 140 * n
  let bu := 52 + 140 * (n - 1)
  let far := 100000 + 150000 * (n - 2) + d.rd F.STK_D_MAX
  let blind := (List.range (min 8 n)).any fun s => s ≠ d.rd F.STK_ID && decide (tget 0 d.stk.runs s < 64)
  if blind then some ((d.lanesOf 3).headD 0) else
  (d.lanesOf 3).find? fun l =>
    d.rd (F.LANE_DLY l) = 0 || decide ((d.rd F.SYS_FRM_LEN - d.cmpEnd) * 2500 < 500000 + far + bd * 8000 / d.payload l)
      || decide (d.uplEnd * 2500 < far + bu * 8000 / d.payload l)

/-- CAPACITY with the lane and the check (Table 16-3). -/
def Dev.capacity (d : Dev) : Refused :=
  let one (x : Option Nat) (t : Nat) : Refused := x.map fun n => (Status.capacity, n + 256 * t)
  (one d.strandCap 1).or <| (one d.twinCap 2).or <| (one d.relayCap 3).or (one d.stackCap 4)

/-! ## Commands -/

/-- The clusters of the loop engine that are absent (R220). -/
def Dev.absentClusters (d : Dev) : Nat := ((List.range 6).filter fun c => d.rd F.LPE_ROLE / 16 ^ c % 16 = 15).length

/-- ARM (R443). [Log: DEDUCED 67] -/
def armCmd (h : Hdr) (ps : List Word) : Cmd :=
  ⟨fun w =>
    let d := w.d
    (w.noState (!(d.run = .idle || d.run = .quiesced) || (d.waiting .arm).isSome || d.rdB F.FLT_STAT_TRIPPED || !d.rdB F.LPE_STAT_VERIFIED
      || decide (2 ≤ d.absentClusters))).or d.capacity,
   fun w => (w.up fun d => d.wait { kind := .arm, hdr := h, op := 0x0300, due := some d.dueNext }).mirror 0x0300 ps
      (w.d.dueNext + BitVec.ofNat 32 (2 - w.d.frame.safeRecs))⟩

/-- The beads that a PRECHARGE names. [Log: DEDUCED 67] -/
def Dev.namedBeads (d : Dev) (ps : List Word) : List Nat :=
  let m := pw ps 1 + pw ps 2 * 2 ^ 32 + pw ps 3 * 2 ^ 64
  (List.range 96).filter fun b => if m = 0 then (d.stringOf b).isSome else bitOf m b

/-- The precharge pattern begins (R175, R177, R444). -/
def Dev.startPrecharge (d : Dev) (ps : List Word) : Dev :=
  let beads := d.namedBeads ps
  let pairs := (List.range 16).filter fun k => d.rdB (F.GSV_PAIR_PC_EN k)
  let d := beads.foldl (fun d b => ((d.wr (F.GSV_BEAD_PC_DONE b) 0).wr (F.GSV_BEAD_PC_FAIL b) 0).wr (F.GSV_BEAD_PCNT b) 0) d
  let d := pairs.foldl (fun d k => d.setPair k { d.pair k with pulses := 0, pulsing := false }) d
  { d with edge := { d.edge with pc := some { beads := beads, pairs := pairs, dcl := bitOf (pw ps 0) 0, limit := pw ps 4 % 65536 } } }.setRun .precharging

/-- Whether ARM, PRECHARGE or SOFT_START already waits. -/
def Dev.runBusy (d : Dev) : Bool := (d.waiting .arm).isSome || (d.waiting .precharge).isSome || (d.waiting .softStart).isSome

/-- PRECHARGE (R444); the pattern's pulse must lie in the frame (Table 6-2). [Log: DEDUCED 67] -/
def prechargeCmd (h : Hdr) (ps : List Word) : Cmd :=
  ⟨fun w => (badParam (pw ps 4 % 65536 = 0) 4).or
      (w.noState (w.d.run ≠ .armed || w.d.runBusy || decide (w.d.rd F.SYS_FRM_LEN ≤ w.d.rd F.GSV_PC_OFS + w.d.rd F.GSV_PC_WIDTH))),
   fun w => (w.up fun d => (d.startPrecharge ps).wait { kind := .precharge, hdr := h, op := 0x0301 }).mirror 0x0301 ps w.d.dueNext⟩

/-- Whether R179 forbids SOFT_START: a bead in service without a held bit, an enabled local pair without HELD. -/
def Dev.notHeld (d : Dev) : Bool :=
  ((List.range 96).any fun b => d.rd (F.BDT_STATE b) = 3 && !d.heldAll b)
    || ((List.range 256).any fun c => d.rd (F.CH_ROUTE_KIND c) = 1 && (d.rdB (F.CH_CTRL_EN c) || tget 0 d.edge.hostEn c = 1)
      && !bitOf (d.rd F.GSV_STAT_HELD) (d.rd (F.CH_ROUTE_PAIR c)))

/-- SOFT_START (R445). [Log: DEDUCED 67] -/
def softStartCmd (h : Hdr) (ps : List Word) : Cmd :=
  ⟨fun w => w.noState (w.d.run ≠ .armed || w.d.runBusy || w.d.notHeld),
   fun w => (w.up fun d => d.wait { kind := .softStart, hdr := h, op := 0x0302, due := some d.dueNext, arg := [pw ps 0 % 2] }).mirror 0x0302 ps w.d.dueNext⟩

/-- RUN (Table 16-11). -/
def runCmd (h : Hdr) (ps : List Word) : Cmd :=
  ⟨fun w => w.noState (w.d.run ≠ .softStarting || !w.d.rampsDone),
   fun w => ((w.up (·.setRun .run)).mirror 0x0303 ps w.d.dueNext).ok 0x0303 h []⟩

/-- Whether the run state takes QUIESCE and STOP. -/
def Dev.runLive (d : Dev) : Bool := d.run ≠ .boot && d.run ≠ .lockout

/-- The effect of QUIESCE (R446): nothing in IDLE and QUIESCED, but for an ARM that waits (R447). -/
def Dev.quiesceNow (d : Dev) : Dev :=
  if d.run = .idle ∨ d.run = .quiesced then d.abandon [.arm] 1 else (d.enterSafe 1).setRun .quiesced

/-- QUIESCE (R446). -/
def quiesceCmd (h : Hdr) (ps : List Word) : Cmd :=
  ⟨fun w => w.noState (!w.d.runLive),
   fun w => (((w.up (·.quiesceNow)).syncOutputs).mirror 0x0304 ps w.d.dueNext).ok 0x0304 h []⟩

/-- The effect of STOP (R446). -/
def Dev.stopNowSafe (d : Dev) : Dev := ((d.enterSafe 2).frmNext F.LPE_CTRL_RUN 0).setRun .idle

/-- STOP (R446): the reply follows at the boundary at which RUN = 0 applies. [Log: DEDUCED 67] -/
def stopCmd (h : Hdr) (ps : List Word) : Cmd :=
  ⟨fun w => w.noState (!w.d.runLive),
   fun w =>
    let due := w.d.frame.k + 1
    let w := ((w.up (·.stopNowSafe)).syncOutputs).mirror 0x0305 ps due
    if w.d.running then w.up (·.wait { kind := .stop, hdr := h, op := 0x0305, due := some due }) else w.ok 0x0305 h []⟩

/-! ## Rows -/

/-- ARM. -/
def execArm (h : Hdr) (ps : List Word) (s : State) : Host.Outcome State Fault Refusal := s.command 0x0300 h ps (armCmd h ps)
/-- PRECHARGE. -/
def execPrecharge (h : Hdr) (ps : List Word) (s : State) : Host.Outcome State Fault Refusal := s.command 0x0301 h ps (prechargeCmd h ps)
/-- SOFT_START. -/
def execSoftStart (h : Hdr) (ps : List Word) (s : State) : Host.Outcome State Fault Refusal := s.command 0x0302 h ps (softStartCmd h ps)
/-- RUN. -/
def execRun (h : Hdr) (ps : List Word) (s : State) : Host.Outcome State Fault Refusal := s.command 0x0303 h ps (runCmd h ps)
/-- QUIESCE. -/
def execQuiesce (h : Hdr) (ps : List Word) (s : State) : Host.Outcome State Fault Refusal := s.command 0x0304 h ps (quiesceCmd h ps)
/-- STOP. -/
def execStop (h : Hdr) (ps : List Word) (s : State) : Host.Outcome State Fault Refusal := s.command 0x0305 h ps (stopCmd h ps)

end Sys2Proof.Machine
end

