-- ==== Sys2Proof/Machine/CmdBeads.lean ====
section
/-! DEFINITION. The commands of bead service (group 0x04: R321, R185, R448) and of the loop program (group 0x05: R233, R242,
R254, R281, R449, R450). -/
namespace Sys2Proof.Machine

/-! ## Bead service -/

/-- The bead a command names. -/
def beadOf (ps : List Word) : Nat := pw ps 0 % 128

/-- A bead number beyond 95. -/
def badBead (ps : List Word) : Refused := badParam (decide (95 < beadOf ps)) 0

/-- An accepted command waits for its plan instant (R321). -/
def Wk.beadWait (w : Wk) (kind : WaitKind) (op : Nat) (h : Hdr) (ps : List Word) (arg : List Nat) : Wk :=
  (w.up (·.wait { kind := kind, hdr := h, op := op, arg := arg })).mirror op ps w.d.dueNext

/-- BEAD_BYPASS: for an IN_SERVICE bead. -/
def beadBypassCmd (h : Hdr) (ps : List Word) : Cmd :=
  ⟨fun w => (badBead ps).or (w.noState (w.d.rd (F.BDT_STATE (beadOf ps)) ≠ 3)), fun w => w.beadWait .bypass 0x0400 h ps [beadOf ps]⟩

/-- BEAD_INSERT: for a ready spare, or a BYPASSED bead held and toggled. -/
def beadInsertCmd (h : Hdr) (ps : List Word) : Cmd :=
  ⟨fun w => (badBead ps).or (w.noState (!w.d.insertOk (beadOf ps))), fun w => w.beadWait .insert 0x0401 h ps [beadOf ps]⟩

/-- BEAD_RETIRE: for a COLD, SPARE or BYPASSED bead, with FORCE under P1 also for an IN_SERVICE one. -/
def beadRetireCmd (h : Hdr) (ps : List Word) : Cmd :=
  let force := bitOf (pw ps 0) 8
  ⟨fun w =>
    let st := w.d.rd (F.BDT_STATE (beadOf ps))
    (w.noP1 h force).or <| (badBead ps).or (w.noState !([1, 2, 5].contains st || (force && st = 3))),
   fun w => w.beadWait .retire 0x0402 h ps [beadOf ps, b2n force]⟩

/-- A toggle of R185 begins. [Log: DEDUCED 44] -/
def Dev.startToggle (d : Dev) (b : Nat) : Dev :=
  (d.setBead b { d.bead b with toggle := some 0, seen0 := [] }).wr (F.GSV_BEAD_TOGGLING b) 1

/-- BEAD_ENABLE_TOGGLE: not while a front-end channel of the bead is enabled. -/
def beadEnableToggleCmd (h : Hdr) (ps : List Word) : Cmd :=
  let b := beadOf ps
  ⟨fun w => (badBead ps).or (w.noState ((w.d.legChannels b 0 ++ w.d.legChannels b 1).any fun c => w.d.rdB (F.CH_CTRL_EN c))),
   fun w => (w.up (·.startToggle b)).beadWait .toggle 0x0403 h ps [b]⟩

/-! ## Loop program -/

/-- Whether the load session is a port's. -/
def Dev.lpSession (d : Dev) (p : Nat) : Bool := match d.lpe.load with | some x => x.1 = p | none => false

/-- The image of the open session, when every byte up to its size has been written. -/
def Dev.lpImage (d : Dev) : Option (List Byte) :=
  match d.lpe.load with
  | none => none
  | some x =>
    let l := (List.range x.2.1).filterMap fun i => tget none x.2.2 i
    if l.length = x.2.1 then some l else none

/-- LP_LOAD OPEN (R449); MODE 3 names nothing. -/
def lpLoadOpenCmd (h : Hdr) (ps : List Word) : Cmd :=
  let size := pw ps 1
  ⟨fun w => (badParam (pw ps 0 % 4 ≠ 0) 0).or <| (badParam (decide (size < 148) || decide (1048708 < size)) 1).or (w.noState (w.d.rdB F.LPE_CTRL_RUN)),
   fun w => ((w.up (·.upLpe fun l => { l with load := some (h.port, size, []) })).mirror 0x0500 ps w.d.dueNext).ok 0x0500 h []⟩

/-- LP_LOAD COMMIT (R449, R254): the image is copied, and the partner gets it whole (R342). [Log: DEDUCED 53, 72] -/
def lpLoadCommitCmd (h : Hdr) : Cmd :=
  let img (w : Wk) : Option (List Byte) := match w.d.lpImage with | some b => if imageOk b then some b else none | none => none
  ⟨fun w => (w.noState (!w.d.lpSession h.port || w.d.rdB F.LPE_CTRL_RUN)).or (no (img w).isNone .verifyFail 1),
   fun w => match img w with
    | none => w
    | some b =>
      ((w.up fun d => (d.loadImage b).upLpe fun l => { l with load := none }).mirror 0x0500 (1 :: toWords (b.length / 4 + 1) b) w.d.dueNext).ok 0x0500 h []⟩

/-- LP_LOAD ABORT (R449). -/
def lpLoadAbortCmd (h : Hdr) (ps : List Word) : Cmd :=
  ⟨fun w => w.noState (!w.d.lpSession h.port),
   fun w => ((w.up (·.upLpe fun l => { l with load := none })).mirror 0x0500 ps w.d.dueNext).ok 0x0500 h []⟩

/-- LP_VERIFY (R233, R449): a failed check replies VERIFY_FAIL with the code and the entry, which LPE_VFY holds too. -/
def lpVerifyCmd (h : Hdr) (ps : List Word) : Cmd :=
  ⟨fun _ => none, fun w =>
    let w := (w.up (·.lpVerify)).mirror 0x0501 ps w.d.dueNext
    let d := w.d
    let c := d.rd F.LPE_VFY_CODE
    let e := d.rd F.LPE_VFY_ENTRY
    if c = 0 then w.ok 0x0501 h [c, e, d.rd F.LPE_VFYCYC_WCET_CYC, d.rd F.LPE_VFYCNT_WCET_CNT, d.rd F.TWN_SYNCW]
    else w.refuse 0x0501 h (.verifyFail, c + e * 65536)⟩

/-- The limits of R281 that an entry sets: the places of a low and a high limit among its parameters. [Log: DESIGN CHOICE 92] -/
def Entry.limits (e : Entry) (p : Nat) : List (Nat × Bool) :=
  match e.op with
  | 0x0B => if p < 3 ∨ e.rc = 2 then [(0, false), (1, true)] else []
  | 0x06 => if (p = 3 ∧ e.rc = 2) ∨ (p < 3 ∧ e.rc = 1 ∧ e.opx % 2 = 1) then [(2, false), (3, true)] else []
  | 0x17 => [(3, true)]
  | _ => []

/-- The coefficient words that hold the string current, string voltage and DAB phase limits of the loaded program, and
whether each bounds from above. -/
def Dev.limitWords (d : Dev) : List (Nat × Bool) :=
  (List.range 4).flatMap fun p => (d.partEntries p).flatMap fun no =>
    let e := d.entry no
    let (kp, _, _) := e.counts
    if e.par / 2 ^ 21 ≠ 1 then [] else
    (e.limits p).flatMap fun x => (List.range (if e.ps then e.n else 1)).map fun i => (e.par % 2 ^ 21 + i * kp + x.1, x.2)

/-- Whether the inactive bank widens a limit of R281. -/
def Dev.swapWidens (d : Dev) : Bool :=
  let at_ (bank ix : Nat) : Nat := d.smem (131072 + 65536 * bank + ix)
  let now := d.rd F.LPE_COEF_BANK
  d.limitWords.any fun x =>
    let old := at_ now x.1
    let new := at_ (1 - now) x.1
    !(if x.2 then fLe new old else fLe old new)

/-- COEF_SWAP (R242, R450). -/
def coefSwapCmd (h : Hdr) (ps : List Word) : Cmd :=
  ⟨fun w => w.noState (w.d.rdB F.LPE_COEF_SWAP_PEND || (w.d.swapWidens && !(h.locket && w.d.p1 h.port))),
   fun w => (w.up fun d => (d.wr F.LPE_COEF_SWAP_PEND 1).wait { kind := .coefSwap, hdr := h, op := 0x0502, due := some (d.frame.k + 1) }).mirror 0x0502 ps (w.d.frame.k + 1)⟩

/-! ## Rows -/

/-- BEAD_BYPASS. -/
def execBeadBypass (h : Hdr) (ps : List Word) (s : State) : Host.Outcome State Fault Refusal := s.command 0x0400 h ps (beadBypassCmd h ps)
/-- BEAD_INSERT. -/
def execBeadInsert (h : Hdr) (ps : List Word) (s : State) : Host.Outcome State Fault Refusal := s.command 0x0401 h ps (beadInsertCmd h ps)
/-- BEAD_RETIRE. -/
def execBeadRetire (h : Hdr) (ps : List Word) (s : State) : Host.Outcome State Fault Refusal := s.command 0x0402 h ps (beadRetireCmd h ps)
/-- BEAD_ENABLE_TOGGLE. -/
def execBeadEnableToggle (h : Hdr) (ps : List Word) (s : State) : Host.Outcome State Fault Refusal := s.command 0x0403 h ps (beadEnableToggleCmd h ps)

/-- A row of a command with a MODE: a packet with another mode is another row's. -/
def State.modeCommand (s : State) (mine : Bool) (op : Nat) (h : Hdr) (ps : List Word) (c : Cmd) : Host.Outcome State Fault Refusal :=
  s.run fun w => w.on (mine && decide (h.port < 2)) (·.command op h ps c)

/-- LP_LOAD OPEN. -/
def execLpLoadOpen (h : Hdr) (ps : List Word) (s : State) : Host.Outcome State Fault Refusal :=
  s.modeCommand (pw ps 0 % 4 = 0 || pw ps 0 % 4 = 3) 0x0500 h ps (lpLoadOpenCmd h ps)
/-- LP_LOAD COMMIT. -/
def execLpLoadCommit (h : Hdr) (ps : List Word) (s : State) : Host.Outcome State Fault Refusal := s.modeCommand (pw ps 0 % 4 = 1) 0x0500 h ps (lpLoadCommitCmd h)
/-- LP_LOAD ABORT. -/
def execLpLoadAbort (h : Hdr) (ps : List Word) (s : State) : Host.Outcome State Fault Refusal := s.modeCommand (pw ps 0 % 4 = 2) 0x0500 h ps (lpLoadAbortCmd h ps)
/-- LP_VERIFY. -/
def execLpVerify (h : Hdr) (ps : List Word) (s : State) : Host.Outcome State Fault Refusal := s.command 0x0501 h ps (lpVerifyCmd h ps)
/-- COEF_SWAP. -/
def execCoefSwap (h : Hdr) (ps : List Word) (s : State) : Host.Outcome State Fault Refusal := s.command 0x0502 h ps (coefSwapCmd h ps)

end Sys2Proof.Machine
end

