-- ==== Sys2Proof/Machine/CmdLinks.lean ====
section
/-! DEFINITION. The commands of the twin and the stack (groups 0x08 and 0x09: R334, R354, R373, R453), of lanes and modules
(group 0x0A: R80, R81, R84, R454) and of NET frames (group 0x0B: R455). -/
namespace Sys2Proof.Machine

/-! ## Twin and stack -/

/-- TWIN_STATUS. -/
def twinStatusCmd (h : Hdr) : Cmd := ⟨fun _ => none, fun w =>
  w.ok 0x0800 h [w.regWord 0xC004 false, w.d.rd F.TWN_EPOCH, w.d.twn.pState.getD 0, w.regWord 0xC018 false, w.regWord 0xC01C false]⟩

/-- TWIN_PREFER (R334). -/
def twinPreferCmd (h : Hdr) (ps : List Word) : Cmd := ⟨fun _ => none, fun w => (w.up (·.wr F.TWN_CTRL_PREF (pw ps 0 % 2))).ok 0x0801 h []⟩

/-- TWIN_HANDBACK (R353, R354): of an ACTIVE unit whose partner stands in STANDBY, synced. -/
def twinHandbackCmd (h : Hdr) : Cmd :=
  ⟨fun w => w.noState (!(w.d.twin = 4 && w.d.twn.pState = some 3 && w.d.rdB F.TWN_STAT_SYNCED) || w.d.twn.hbkAsk || w.d.twn.hbk.isSome),
   fun w => w.up fun d => (d.upTwn fun t => { t with hbkAsk := true }).wait { kind := .handback, hdr := h, op := 0x0802 }⟩

/-- STACK_STATUS. -/
def stackStatusCmd (h : Hdr) : Cmd := ⟨fun _ => none, fun w => w.ok 0x0900 h [w.regWord 0xD004 false, w.d.rd F.STK_EPOCH, w.d.rd F.STK_D_MAX]⟩

/-- STACK_RECLAIM (R373): of an acting device that sees device 0 ready; RCL counts from 7 in the next downward frame. -/
def stackReclaimCmd (h : Hdr) : Cmd :=
  ⟨fun w => w.noState (w.d.stkRole ≠ 4 || !w.d.stk.ready0 || w.d.stk.rcl.isSome),
   fun w => w.up fun d => (d.upStk fun t => { t with rcl := some ((seqOf d.dueNext + 7) % 65536) }).wait { kind := .reclaim, hdr := h, op := 0x0901 }⟩

/-! ## Lanes -/

/-- The lane a command names. -/
def laneOf (ps : List Word) : Nat := pw ps 0 % 32

/-- RATE (R454): bring-up up to a rate for this run. -/
def rateCmd (h : Hdr) (ps : List Word) : Cmd :=
  let n := laneOf ps
  ⟨fun w => (badParam (decide (24 ≤ n) || !([1, 2, 3].contains (w.d.role n)) || (w.d.role n = 1 && w.d.rdB (F.LANE_CTRL_END n))) 0).or (w.noState (w.d.inService n)),
   fun w => w.up fun d => (d.bringUp n (bits (pw ps 0) 8 2)).wait { kind := .rate, hdr := h, op := 0x0A00, arg := [n] }⟩

/-- LOOP_TEST (R80, R81, Table 3-5): of a lane that is OFF or SPARE, or whose link is not in service. [Log: DEDUCED 38] -/
def loopTestCmd (h : Hdr) (ps : List Word) : Cmd :=
  let n := laneOf ps
  let mode := bits (pw ps 0) 8 2
  ⟨fun w => (badParam (decide (24 ≤ n) || mode = 3) 0).or (w.noState (w.d.inService n || w.d.role n = 4)),
   fun w => w.up fun d => ((d.wr (F.LANE_STAT_TEST n) 1).setLane n { d.lane n with out := if mode = 0 then .idle else .prbs (bitOf (pw ps 0) 12) }).wait
    { kind := .loopTest, hdr := h, op := 0x0A01, due := some (d.frame.k + BitVec.ofNat 32 (pw ps 1 % 65536)), since := d.time.rt, arg := [n, mode, bits (pw ps 0) 12 1, bits (pw ps 0) 16 4, pw ps 1 % 65536] }⟩

/-- MODULE_READ (R84, R454): from a byte of either address; `ans` is what the module answers. -/
def moduleReadCmd (h : Hdr) (ps : List Word) (ans : Option (List Byte)) : Cmd :=
  let n := pw ps 1
  ⟨fun _ => (badParam (decide (24 ≤ laneOf ps)) 0).or (badParam (n = 0 || decide (64 < n) || decide (4 * roomFor h < n)) 1),
   fun w =>
    let w := w.up (·.busDo (laneOf ps) [⟨if bitOf (pw ps 0) 8 then 0xA2 else 0xA0, bits (pw ps 0) 16 8, if ans.isSome then n else 0⟩])
    match ans with
    | some b => w.ok 0x0A02 h ((List.range ((n + 3) / 4)).map fun i => le (b.take n) (4 * i) 4)
    | none => w.up fun d => d.wait { kind := .moduleRead, hdr := h, op := 0x0A02, since := d.time.rt, arg := [laneOf ps] }⟩

/-! ## NET frames -/

/-- NET_SEND (R455): fragments are joined; the last packet's reply is sent once the frame has left. [Log: DEDUCED 61] -/
def netSendCmd (h : Hdr) (ps : List Word) : Cmd :=
  let p := pw ps 0
  let i := p % 2
  let more := bitOf p 2
  let len := bits p 16 11
  let data := (wordBytes (ps.drop 1)).take len
  let frame (w : Wk) : List Byte := ((w.d.port h.port).frag.getD []) ++ data
  ⟨fun w => (badParam (len = 0 || decide (1016 < len) || decide (4 * (ps.length - 1) < len)) 0).or
      (w.noState (h.locket || h.ring ≠ 14 || (w.d.port h.port).netWait.isSome || decide ((w.d.lanesOf 4).length ≤ i))),
   fun w =>
    if more then (w.up (·.upPort h.port fun q => { q with frag := some (frame w) })).ok 0x0B00 h [] else
    let b := frame w
    let w := w.up (·.upPort h.port fun q => { q with frag := none })
    if b.length < 60 ∨ 1518 < b.length then w.refuse 0x0B00 h (.badParam, 0) else
    w.up fun d => (d.upPort h.port fun q => { q with netWait := some (i, b, h, bitOf p 1) }).wait { kind := .net, hdr := h, op := 0x0B00 }⟩

/-! ## Rows -/

/-- TWIN_STATUS. -/
def execTwinStatus (h : Hdr) (ps : List Word) (s : State) : Host.Outcome State Fault Refusal := s.command 0x0800 h ps (twinStatusCmd h)
/-- TWIN_PREFER. -/
def execTwinPrefer (h : Hdr) (ps : List Word) (s : State) : Host.Outcome State Fault Refusal := s.command 0x0801 h ps (twinPreferCmd h ps)
/-- TWIN_HANDBACK. -/
def execTwinHandback (h : Hdr) (ps : List Word) (s : State) : Host.Outcome State Fault Refusal := s.command 0x0802 h ps (twinHandbackCmd h)
/-- STACK_STATUS. -/
def execStackStatus (h : Hdr) (ps : List Word) (s : State) : Host.Outcome State Fault Refusal := s.command 0x0900 h ps (stackStatusCmd h)
/-- STACK_RECLAIM. -/
def execStackReclaim (h : Hdr) (ps : List Word) (s : State) : Host.Outcome State Fault Refusal := s.command 0x0901 h ps (stackReclaimCmd h)
/-- RATE. -/
def execRate (h : Hdr) (ps : List Word) (s : State) : Host.Outcome State Fault Refusal := s.command 0x0A00 h ps (rateCmd h ps)
/-- LOOP_TEST. -/
def execLoopTest (h : Hdr) (ps : List Word) (s : State) : Host.Outcome State Fault Refusal := s.command 0x0A01 h ps (loopTestCmd h ps)
/-- MODULE_READ. -/
def execModuleRead (h : Hdr) (ps : List Word) (ans : Option (List Byte)) (s : State) : Host.Outcome State Fault Refusal :=
  s.command 0x0A02 h ps (moduleReadCmd h ps ans)
/-- NET_SEND. -/
def execNetSend (h : Hdr) (ps : List Word) (s : State) : Host.Outcome State Fault Refusal := s.command 0x0B00 h ps (netSendCmd h ps)

end Sys2Proof.Machine
end

