-- ==== Sys2Proof/Machine/CmdGuarded.lean ====
section
/-! DEFINITION. The guarded commands of group 0x0F (R457, Table 16-9): firmware update (R499), keys (R500 to R502), the
guard lock (R472), the hallmark (R503), debug access (R505) and the fuses (R495). -/
namespace Sys2Proof.Machine

/-! ## Firmware update (R499) -/

/-- The update session of a port. -/
def Dev.fwSession (d : Dev) (p : Nat) : Option FwSess :=
  match d.sec.sess with
  | some x => if x.port = p then some x else none
  | none => none

/-- FW_UPDATE OPEN: the slot not booted is retired; an open session ends. MODE 3 names nothing. [Log: DEDUCED 53] -/
def fwOpenCmd (h : Hdr) (ps : List Word) : Cmd :=
  let size := pw ps 1
  ⟨fun w => (w.noP2 h (pw ps 0 % 4 = 0)).or <| (badParam (pw ps 0 % 4 ≠ 0) 0).or (badParam (decide (size < 640) || decide (4194304 < size)) 1),
   fun w =>
    let slot := 1 - w.d.rd F.SEC_BOOT_IMAGE
    let w := w.up fun d =>
      let d := d.dropSess
      { d with sec := { d.sec with sess := some ⟨h.port, size, slot, []⟩, retired := if d.sec.retired.contains slot then d.sec.retired else d.sec.retired ++ [slot] } }
    w.olgSync.ok 0x0F00 h [slot]⟩

/-- What COMMIT finds wrong in the written bytes (R497, R499): a malformed header or an SVN below the floor; the vendor checks
and the body hash (bit 0), the owner checks (bit 1). -/
def Vault.commitRefused (v : Vault) (x : FwSess) : Refused :=
  match x.head with
  | none => some (.badParam, 1)
  | some hd =>
    if !hdrWell hd || decide (hdrSvn hd < v.floor) then some (.badParam, 1) else
    let vend := vendorOk hd && (match x.image with | some img => bodyOk img | none => false)
    let own := v.ownerOk hd
    no (!(vend && own)) .signatureFail (b2n (!vend) + 2 * b2n (!own))

/-- FW_UPDATE COMMIT: `flashFail` is the byte at which the flash fails, where it does; the slot then stays retired. [Log: DEDUCED 53] -/
def fwCommitCmd (h : Hdr) (flashFail : Option Nat) : Cmd :=
  ⟨fun w => (w.noP2 h true).or <| match w.d.fwSession h.port with
      | none => w.noState true
      | some x => w.v.commitRefused x,
   fun w => match w.d.fwSession h.port with
    | none => w
    | some x =>
      match flashFail with
      | some o => (w.up fun d => { d with sec := { d.sec with sess := some { x with bytes := tput none x.bytes o none } } }).refuse 0x0F00 h (.flashError, o)
      | none =>
        let w := w.up fun d =>
          let n := d.nv.setSlot x.slot x.slotNow
          { d with nv := { n with bcbValid := true, pref := x.slot, tries := 0 }, sec := { d.sec with sess := none, retired := d.sec.retired.filter (· ≠ x.slot) } }
        w.olgSync.ok 0x0F00 h [x.slot]⟩

/-- FW_UPDATE ABORT: the slot stays retired. [Log: DEDUCED 53] -/
def fwAbortCmd (h : Hdr) : Cmd :=
  ⟨fun w => w.noState (w.d.fwSession h.port).isNone,
   fun w => match w.d.fwSession h.port with
    | none => w
    | some x => (w.up (·.dropSess)).ok 0x0F00 h [x.slot]⟩

/-! ## Keys and fuses -/

/-- A key slot fails its self-check (R332): it is retired, with KEY_SLOT_FAIL (FS36). -/
def Wk.keySlotFail (w : Wk) (k : Nat) : Wk := ({ w with v := w.v.failSlot k }.raise 36 0 k).olgSync

/-- The OTP with a key pair written in a slot, its state still 0. [Log: PRESUMED 12] -/
def Vault.putKey (v : Vault) (k scalar : Nat) : Vault :=
  { v with otp := otpPut (otpPut v.otp (idWord k + 1) (beBytes 66 scalar)) (idWord k + 18) (pubKey scalar) }

/-- KEY_PROVISION (R500): a slot in use that fails its self-check is retired first. -/
def keyProvisionCmd (h : Hdr) : Cmd :=
  let held (v : Vault) : Bool := match v.idSlot with | some k => v.selfCheck k | none => false
  ⟨fun w => (w.noP2 h true).or (w.noState (held w.v || w.v.idFree.isNone)),
   fun w =>
    let w := match w.v.idSlot with | some k => w.keySlotFail k | none => w
    match w.v.idFree with
    | none => w
    | some k =>
      let w := { w with v := w.v.putKey k w.d.random }.up (·.fresh)
      if !w.v.selfCheck k then let w := w.keySlotFail k; w.refuse 0x0F01 h (.stateInvalid, w.status0) else
      let w := { w with v := { w.v with otp := tput 0 w.v.otp (idWord k) 0x5A5A0001 } }
      (w.up (·.putGuarded h.port (w.v.idKey k))).olgSync.ok 0x0F01 h [k, 133]⟩

/-- The key that OWNER_KEY takes. -/
def Dev.offeredKey (d : Dev) (p : Nat) : List Byte := d.getGuarded p 0 133

/-- OWNER_KEY (R502). [Log: DEDUCED 68] -/
def ownerKeyCmd (h : Hdr) (ps : List Word) : Cmd :=
  ⟨fun w =>
    let k := w.d.offeredKey h.port
    (w.noP2 h true).or <| (badParam (pw ps 0 ≠ 133 || (keyPoint k).isNone) 0).or <| (badParam (crc32c k ≠ pw ps 1) 1).or (w.noState (decide (2 ≤ w.v.owners))),
   fun w =>
    let j := 384 + 40 * w.v.owners
    let w := { w with v := { w.v with otp := tput 0 (otpPut w.v.otp (j + 1) (w.d.offeredKey h.port)) j 0x5A5A0002 } }
    w.ok 0x0F02 h []⟩

/-- The port's lock flag and mismatch window clear (R472). -/
def guardUnlockCmd (h : Hdr) : Cmd :=
  ⟨fun w => w.noP1 h true,
   fun w => (w.up fun d => (d.wr (guardLock h.port) 0).upPort h.port fun q => { q with mmWin := none }).ok 0x0F03 h []⟩

/-- HALLMARK (R503) after the self-check of R501: the stored public key must be the one derived, and `selfCheck` tells how signing and
verifying the test digest went. -/
def hallmarkCmd (h : Hdr) (ps : List Word) (selfCheck : Bool) : Cmd :=
  ⟨fun w => w.noState w.v.idSlot.isNone,
   fun w => match w.v.idSlot with
    | none => w
    | some k =>
      if !(selfCheck && w.v.keyMatches k) then let w := w.keySlotFail k; w.refuse 0x0F04 h (.stateInvalid, w.status0) else
      let body := w.hallmarkBody k ps
      let rec_ := body ++ ecdsaSign (w.v.idScalar k) w.d.random (sha512 body)
      (w.up fun d => (d.putGuarded h.port rec_).fresh).ok 0x0F04 h [772, crc32c rec_]⟩

/-- DEBUG_OPEN (R505): DEBUG_OPENED (FS82) with the port. [Log: DESIGN CHOICE 73] -/
def debugOpenCmd (h : Hdr) (ps : List Word) : Cmd :=
  let m := pw ps 0 % 4
  let n := pw ps 1
  ⟨fun w => (w.noP2 h true).or <| (badParam (m = 0) 0).or <| (badParam (n = 0 || decide (86400 < n)) 1).or (w.noState (w.v.otpRd 80 % 4 &&& m ≠ 0)),
   fun w =>
    let w := w.up fun d =>
      let d := if bitOf m 0 then d.wr F.SEC_DBG_DEBUG 1 else d
      let d := if bitOf m 1 then d.wr F.SEC_DBG_LOUPE 1 else d
      { d with sec := { d.sec with dbgEnd := some (d.time.rt + rtSec n) } }.wr F.SEC_DBG_SINCE 1
    (w.raise 82 0 h.port).ok 0x0F05 h []⟩

/-- The OTP words that FUSE_WRITE may write (Table 18-3). -/
def fuseWord (i : Nat) : Bool := (decide (64 ≤ i) && decide (i ≤ 80)) || (decide (512 ≤ i) && decide (i ≤ 1023))

/-- FUSE_WRITE (R495, R457): a word is written once. [Log: DEDUCED 68] -/
def fuseWriteCmd (h : Hdr) (ps : List Word) : Cmd :=
  let i := pw ps 0
  ⟨fun w => (w.noP2 h true).or <| (badParam (pw ps 2 ≠ 0xFFFFFFFF - pw ps 1) 2).or <| (no (!fuseWord i) .badAddress i).or
      (no (w.v.fused.contains i) .regLocked (0x04800000 + 4 * i)),
   fun w => { w with v := { w.v with otp := tput 0 w.v.otp i (BitVec.ofNat 32 (pw ps 1)), fused := w.v.fused ++ [i] } }.ok 0x0F06 h []⟩

/-! ## Rows -/

/-- FW_UPDATE OPEN. -/
def execFwUpdateOpen (h : Hdr) (ps : List Word) (s : State) : Host.Outcome State Fault Refusal :=
  s.modeCommand (pw ps 0 % 4 = 0 || pw ps 0 % 4 = 3) 0x0F00 h ps (fwOpenCmd h ps)
/-- FW_UPDATE COMMIT. -/
def execFwUpdateCommit (h : Hdr) (ps : List Word) (flashFail : Option Nat) (s : State) : Host.Outcome State Fault Refusal :=
  s.modeCommand (pw ps 0 % 4 = 1) 0x0F00 h ps (fwCommitCmd h flashFail)
/-- FW_UPDATE ABORT. -/
def execFwUpdateAbort (h : Hdr) (ps : List Word) (s : State) : Host.Outcome State Fault Refusal := s.modeCommand (pw ps 0 % 4 = 2) 0x0F00 h ps (fwAbortCmd h)
/-- KEY_PROVISION. -/
def execKeyProvision (h : Hdr) (ps : List Word) (s : State) : Host.Outcome State Fault Refusal := s.commandV 0x0F01 h ps (keyProvisionCmd h)
/-- OWNER_KEY. -/
def execOwnerKey (h : Hdr) (ps : List Word) (s : State) : Host.Outcome State Fault Refusal := s.commandV 0x0F02 h ps (ownerKeyCmd h ps)
/-- GUARD_UNLOCK. -/
def execGuardUnlock (h : Hdr) (ps : List Word) (s : State) : Host.Outcome State Fault Refusal := s.command 0x0F03 h ps (guardUnlockCmd h)
/-- HALLMARK. -/
def execHallmark (h : Hdr) (ps : List Word) (selfCheck : Bool) (s : State) : Host.Outcome State Fault Refusal := s.commandV 0x0F04 h ps (hallmarkCmd h ps selfCheck)
/-- DEBUG_OPEN. -/
def execDebugOpen (h : Hdr) (ps : List Word) (s : State) : Host.Outcome State Fault Refusal := s.command 0x0F05 h ps (debugOpenCmd h ps)
/-- FUSE_WRITE. -/
def execFuseWrite (h : Hdr) (ps : List Word) (s : State) : Host.Outcome State Fault Refusal := s.commandV 0x0F06 h ps (fuseWriteCmd h ps)

end Sys2Proof.Machine
end

