-- ==== Sys2Proof/Machine/CmdSystem.lean ====
section
/-! DEFINITION. Commands of groups 0x00 and 0x01 (R434 to R437), of the fault collector (R401, R451) and of device time
(R41, R42, R452). -/
namespace Sys2Proof.Machine

/-! ## Group 0x00 -/

/-- NOP. -/
def nopCmd (h : Hdr) : Cmd := ⟨fun _ => none, (·.ok 0x0000 h [])⟩

/-- IDENT (R10, R11, R559, Table 16-4); in recovery the firmware word reads 0 (R498). -/
def identCmd (h : Hdr) : Cmd := ⟨fun _ => none, fun w =>
  let d := w.d
  w.ok 0x0001 h ([0x9096, 0x42 + w.v.otpRd 1 % 2 * 256, if d.sec.recovery then 0 else d.rd F.SEC_FW_FW_VER,
    d.rd F.SEC_BOOT_IMAGE + d.sec.stackId % 8 * 16 + b2n d.sec.twinRole * 256] ++ (List.range 4).map fun i => w.v.otpRd (4 + i))⟩

/-- DESC_READ (R434): words of the Olgen table, behind its generation. [Log: DEDUCED 52] -/
def descReadCmd (h : Hdr) (ps : List Word) : Cmd :=
  let o := pw ps 0
  let n := pw ps 1
  ⟨fun _ => (badParam (decide (o % 4 ≠ 0) || decide (16384 ≤ o)) 0).or (badParam (decide (n = 0) || decide (255 < n) || decide (roomFor h < n + 1)) 1),
   fun w =>
    let b := w.d.olgBytes w.v
    w.ok 0x0002 h (w.d.olg.gen.toNat :: (List.range n).map fun i => le b (o + 4 * i) 4)⟩

/-- STATUS (Table 16-5). -/
def statusCmd (h : Hdr) : Cmd := ⟨fun _ => none, fun w =>
  w.ok 0x0003 h ([w.status0, w.d.olg.gen.toNat] ++ [0x4114, 0x90004, 0x9004, 0x68004, 0x6004].map fun x => w.regWord x false)⟩

/-- KEEPALIVE (R414): the first one is accepted once the Olgen table is built (R479), or in recovery (R498). -/
def keepaliveCmd (h : Hdr) : Cmd := ⟨fun _ => none, fun w =>
  (w.on (w.d.olg.built || w.d.sec.recovery) (·.up (·.keepalive h.port))).ok 0x0004 h [w.d.rd (F.HST_KA_PERIOD h.port)]⟩

/-- Size of a bulk target (Table 16-6, R496). -/
def bulkSize (t : Nat) : Nat := match t with | 1 => 1048708 | 2 => 4194304 | _ => 4096

/-- Bytes stored at an offset of a buffer that knows what was written. -/
def putBytes (t : Tab (Option Byte)) (o : Nat) (b : List Byte) : Tab (Option Byte) :=
  (b.foldl (fun (a : Tab (Option Byte) × Nat) x => (tput none a.1 a.2 (some x), a.2 + 1)) (t, o)).1

/-- Whether a port may write a bulk target (Table 16-6). -/
def Dev.bulkOpen (d : Dev) (p t : Nat) : Bool :=
  match t with
  | 1 => decide (d.rd (F.HST_CLASP_OWNER 2) = p + 1) && (match d.lpe.load with | some x => x.1 = p | none => false)
  | 2 => match d.sec.sess with | some x => x.port = p | none => false
  | _ => true

/-- The data of a BULK_WRITE enters its target. -/
def Dev.bulkPut (d : Dev) (p t o : Nat) (b : List Byte) : Dev :=
  match t with
  | 1 => d.upLpe fun l => { l with load := l.load.map fun x => (x.1, x.2.1, putBytes x.2.2 o b) }
  | 2 => { d with sec := { d.sec with sess := d.sec.sess.map fun x => { x with bytes := putBytes x.bytes o b } } }
  | _ => d.upPort p fun q => { q with guarded := (List.range b.length).foldl (fun t i => tput 0 t (o + i) (b.getD i 0)) q.guarded }

/-- BULK_WRITE (R437). -/
def bulkWriteCmd (h : Hdr) (ps : List Word) : Cmd :=
  let t := pw ps 0
  let o := pw ps 1
  let b := wordBytes (ps.drop 2)
  ⟨fun w => (badParam (decide (t = 0) || decide (3 < t)) 0).or <| (badParam (decide (o % 4 ≠ 0)) 1).or <|
      (no (decide (bulkSize t < o + b.length)) .badAddress o).or (w.noState (!w.d.bulkOpen h.port t)),
   fun w => (w.up (·.bulkPut h.port t o b)).ok 0x0005 h [o + b.length]⟩

/-- BULK_READ (R437): the port's guarded data. [Log: DEDUCED 68] -/
def bulkReadCmd (h : Hdr) (ps : List Word) : Cmd :=
  let o := pw ps 1
  let n := pw ps 2
  ⟨fun _ => (badParam (decide (pw ps 0 ≠ 3)) 0).or <| (badParam (decide (n = 0) || decide (254 < n) || decide (roomFor h < n)) 2).or (no (decide (4096 < o + 4 * n)) .badAddress o),
   fun w => w.ok 0x0006 h ((List.range n).map fun i => leNat (w.d.getGuarded h.port (o + 4 * i) 4))⟩

/-! ## Group 0x01 -/

/-- REG_RD (R434): each word as a window read, with the ACTIVE flag the values in force (R9). -/
def regRdCmd (h : Hdr) (ps : List Word) : Cmd :=
  ⟨fun _ => badParam (decide (pw ps 1 = 0) || decide (255 < pw ps 1) || decide (roomFor h < pw ps 1)) 1,
   fun w => let r := w.readWords h.port (pw ps 0) h.active (pw ps 1); r.1.ok 0x0100 h r.2⟩

/-- REG_WR (R434): each word as a window write; REG_LOCKED with the first address whose write was ignored. -/
def regWrCmd (h : Hdr) (ps : List Word) : Cmd :=
  ⟨fun _ => none, fun w =>
    let r := w.writeWords h.port (pw ps 0) ((ps.drop 1).map (·.toNat))
    match r.2 with
    | none => r.1.ok 0x0101 h []
    | some a => r.1.refuse 0x0101 h (.regLocked, a)⟩

/-- REG_WR_PAIR (R435): the value and its complement back to back. -/
def regWrPairCmd (h : Hdr) (ps : List Word) : Cmd :=
  let x := pw ps 0
  let v := pw ps 1
  ⟨fun w => (no (w.d.rdB (guardLock h.port)) .guardLocked 0).or (no (decide (0x100000 ≤ x)) .badAddress x),
   fun w =>
    let r := w.writeWord h.port x v
    let q := r.1.writeWord h.port (x + 0x100000) (0xFFFFFFFF - v)
    if r.2 then q.1.refuse 0x0102 h (.regLocked, x)
    else if q.2 then q.1.refuse 0x0102 h (.regLocked, x + 0x100000)
    else q.1.ok 0x0102 h []⟩

/-- REG_RD_WIDE (R436): a snapshot of its own, with the selector's side effect. -/
def regRdWideCmd (h : Hdr) (ps : List Word) : Cmd :=
  let sel := pw ps 0 % 65536
  ⟨fun w => no (w.wideWords sel).isNone .badAddress sel,
   fun w => match w.wideWords sel with
    | some ws => (w.up (·.wideDone sel ws)).ok 0x0103 h ws
    | none => w⟩

/-! ## Group 0x06 -/

/-- The oldest valid entry of a log. -/
def Dev.logOldest (d : Dev) (aon : Bool) : Nat :=
  let seq := d.logSeq aon
  let n := logSize aon
  let full := d.logValid aon ((seq + 2 ^ 32 - n) % 2 ^ 32)
  if full then (seq + 2 ^ 32 - n) % 2 ^ 32 else seq - min seq n

/-- The words of FLT_LOG (R451): the valid entries of a log from a sequence number on, or from the oldest valid one where that
number has gone by; none where it has not been written yet. [Log: DEDUCED 62] -/
def Dev.fltLogWords (d : Dev) (aon : Bool) (n most : Nat) : List Nat :=
  let seq := d.logSeq aon
  let ahead := decide ((n + 2 ^ 32 - seq) % 2 ^ 32 < 2 ^ 31)
  let first := if d.logValid aon n || ahead then n else d.logOldest aon
  let cnt := if ahead then 0 else min most ((seq + 2 ^ 32 - first) % 2 ^ 32)
  [first, cnt] ++ (List.range cnt).flatMap fun i =>
    let e := d.logEntry aon ((first + i) % 2 ^ 32)
    [e % 2 ^ 32, e / 2 ^ 32]

/-- FLT_LOG (R451). [Log: DEDUCED 62] -/
def fltLogCmd (h : Hdr) (ps : List Word) : Cmd :=
  ⟨fun _ => badParam (decide (pw ps 2 = 0) || decide (126 < pw ps 2) || decide (roomFor h < 2 + 2 * pw ps 2)) 2,
   fun w => w.ok 0x0600 h (w.d.fltLogWords (bitOf (pw ps 0) 0) (pw ps 1) (pw ps 2))⟩

/-- The reserved source numbers of Table 14-2. -/
def fsReserved (n : Nat) : Bool := n = 46 || n = 47 || decide (102 ≤ n)

/-- FLT_INJECT (R393, R451). -/
def fltInjectCmd (h : Hdr) (ps : List Word) : Cmd :=
  let v := pw ps 0
  ⟨fun w => (w.noP1 h (bitOf v 28)).or (w.noState (fsReserved (v % 128) || v % 128 = 100 || w.v.lockout)),
   fun w =>
    let t := w.d.ns % 2 ^ 32
    let m : Msg := { fs := v % 128, kind := bits v 8 8, inst := bits v 16 12, inj := true, time := t, react := bitOf v 28, cyc := w.cyc }
    { w with ms := w.ms ++ [m] }.ok 0x0601 h [t]⟩

/-- FLT_CLEAR (R401): TRIPPED and CLASSMAX; with FF the first-fault pair; with PREV PREV_LOCKOUT. The lockout latch stays. -/
def fltClearCmd (h : Hdr) (ps : List Word) : Cmd :=
  ⟨fun _ => none, fun w =>
    let v := if bitOf (pw ps 0) 0 then { w.v with first := none, comp := none } else w.v
    let v := if bitOf (pw ps 0) 1 then { v with prevLockout := false } else v
    let w := { w with v := v }.up fun d => (d.wr F.FLT_STAT_TRIPPED 0).wr F.FLT_STAT_CLASSMAX 0
    w.ok 0x0602 h [w.regWord 0x9004 false]⟩

/-! ## Group 0x07 -/

/-- TIME_STEP (R41): refused where time follows another unit (R42). -/
def timeStepCmd (h : Hdr) (ps : List Word) : Cmd :=
  ⟨fun w => no w.d.followsTime .regLocked 0, fun w =>
    let w := w.timeStep (sext 64 (pw ps 0 + pw ps 1 * 2 ^ 32))
    w.ok 0x0700 h [w.d.time.now.toNat % 2 ^ 32, w.d.time.now.toNat / 2 ^ 32]⟩

/-- TIME_INC (R38, R452). -/
def timeIncCmd (h : Hdr) (ps : List Word) : Cmd :=
  ⟨fun w => (badParam (!(decide (524032 ≤ pw ps 1) && decide (pw ps 1 ≤ 524543))) 1).or (no w.d.followsTime .regLocked F.TIM_INC_FRAC.addr),
   fun w => ((w.up (·.wr F.TIM_INC_FRAC (pw ps 0))).incInt (pw ps 1)).ok 0x0701 h []⟩

/-- PULSE_SET (R452): every register of the output, TGT_HI last; values that break R52 are refused whole. [Log: DEDUCED 68] -/
def pulseSetCmd (h : Hdr) (ps : List Word) : Cmd :=
  let n := pw ps 0 % 8
  let mode := pw ps 1 % 4
  let per := pw ps 5 % 65536 * 2 ^ 32 + pw ps 4
  let width := pw ps 6
  let perOk := mode ≠ 2 || (decide (1048576 ≤ per) && decide (per < 2 ^ 48))
  ⟨fun _ => (badParam (decide (5 ≤ n)) 0).or <| (badParam (mode = 3) 1).or <| (badParam (!perOk) 4).or (badParam (!outRulesOk mode per width) 6),
   fun w =>
    let w := w.up fun d =>
      let d := ((((d.wr (F.TIM_OUT_PER_LO n) (pw ps 4)).wr (F.TIM_OUT_PER_HI n) (pw ps 5)).wr (F.TIM_OUT_WIDTH n) width).wr (F.TIM_OUT_CTRL_POL n) (bits (pw ps 1) 2 1)).wr (F.TIM_OUT_TGT_LO n) (pw ps 2)
      d.setOut n { d.out n with per := per }
    ((w.outMode n mode).outTgtHi n (pw ps 3)).ok 0x0702 h []⟩

/-- Entries taken from a capture FIFO: the words of at most `k`, and how many. -/
def takeCaps : Nat → List Capture → List Nat
  | 0, _ => []
  | _, [] => []
  | k + 1, e :: r => capWords (some e) r.length ++ takeCaps k r

/-- CAPTURE_READ (R452): at most the number asked, ending at an empty FIFO. -/
def captureReadCmd (h : Hdr) (ps : List Word) : Cmd :=
  let i := pw ps 0 % 4
  let n := bits (pw ps 0) 8 4
  ⟨fun _ => badParam (decide (n = 0) || decide (8 < n) || decide (roomFor h < 4 * n)) 0, fun w =>
    let q := w.d.caps i
    (w.up fun d => { d with time := { d.time with caps := tput [] d.time.caps i (q.drop n) } }).ok 0x0703 h (takeCaps n q)⟩

/-! ## Rows -/

/-- NOP. -/
def execNop (h : Hdr) (ps : List Word) (s : State) : Host.Outcome State Fault Refusal := s.command 0x0000 h ps (nopCmd h)
/-- IDENT. -/
def execIdent (h : Hdr) (ps : List Word) (s : State) : Host.Outcome State Fault Refusal := s.command 0x0001 h ps (identCmd h)
/-- DESC_READ. -/
def execDescRead (h : Hdr) (ps : List Word) (s : State) : Host.Outcome State Fault Refusal := s.command 0x0002 h ps (descReadCmd h ps)
/-- STATUS. -/
def execStatus (h : Hdr) (ps : List Word) (s : State) : Host.Outcome State Fault Refusal := s.command 0x0003 h ps (statusCmd h)
/-- KEEPALIVE. -/
def execKeepalive (h : Hdr) (ps : List Word) (s : State) : Host.Outcome State Fault Refusal := s.command 0x0004 h ps (keepaliveCmd h)
/-- BULK_WRITE. -/
def execBulkWrite (h : Hdr) (ps : List Word) (s : State) : Host.Outcome State Fault Refusal := s.command 0x0005 h ps (bulkWriteCmd h ps)
/-- BULK_READ. -/
def execBulkRead (h : Hdr) (ps : List Word) (s : State) : Host.Outcome State Fault Refusal := s.command 0x0006 h ps (bulkReadCmd h ps)
/-- REG_RD. -/
def execRegRd (h : Hdr) (ps : List Word) (s : State) : Host.Outcome State Fault Refusal := s.command 0x0100 h ps (regRdCmd h ps)
/-- REG_WR. -/
def execRegWr (h : Hdr) (ps : List Word) (s : State) : Host.Outcome State Fault Refusal := s.command 0x0101 h ps (regWrCmd h ps)
/-- REG_WR_PAIR. -/
def execRegWrPair (h : Hdr) (ps : List Word) (s : State) : Host.Outcome State Fault Refusal := s.command 0x0102 h ps (regWrPairCmd h ps)
/-- REG_RD_WIDE. -/
def execRegRdWide (h : Hdr) (ps : List Word) (s : State) : Host.Outcome State Fault Refusal := s.command 0x0103 h ps (regRdWideCmd h ps)
/-- FLT_LOG. -/
def execFltLog (h : Hdr) (ps : List Word) (s : State) : Host.Outcome State Fault Refusal := s.command 0x0600 h ps (fltLogCmd h ps)
/-- FLT_INJECT. -/
def execFltInject (h : Hdr) (ps : List Word) (s : State) : Host.Outcome State Fault Refusal := s.command 0x0601 h ps (fltInjectCmd h ps)
/-- FLT_CLEAR. -/
def execFltClear (h : Hdr) (ps : List Word) (s : State) : Host.Outcome State Fault Refusal := s.commandV 0x0602 h ps (fltClearCmd h ps)
/-- TIME_STEP. -/
def execTimeStep (h : Hdr) (ps : List Word) (s : State) : Host.Outcome State Fault Refusal := s.command 0x0700 h ps (timeStepCmd h ps)
/-- TIME_INC. -/
def execTimeInc (h : Hdr) (ps : List Word) (s : State) : Host.Outcome State Fault Refusal := s.command 0x0701 h ps (timeIncCmd h ps)
/-- PULSE_SET. -/
def execPulseSet (h : Hdr) (ps : List Word) (s : State) : Host.Outcome State Fault Refusal := s.command 0x0702 h ps (pulseSetCmd h ps)
/-- CAPTURE_READ. -/
def execCaptureRead (h : Hdr) (ps : List Word) (s : State) : Host.Outcome State Fault Refusal := s.command 0x0703 h ps (captureReadCmd h ps)

end Sys2Proof.Machine
end

