-- ==== Sys2Proof/Machine/Sequence.lean ====
section
/-! DEFINITION. FRAME_BOUNDARY with what a twin does around it (R342): the partner's mirrored commands apply at their boundary,
and the commands of the own ports that waited for it are judged. -/
namespace Sys2Proof.Machine

/-- The header of a command that no port of this unit sent: it gets no reply. -/
def mirrorHdr : Hdr := ⟨2, false, 0, 0, 0, false⟩

/-- The effect of a mirrored command at the boundary `k` that comes; a unit in LOCKOUT takes none (R390). [Log: DEDUCED 47] -/
def Wk.mirrored (w : Wk) (k : BitVec 32) (op : Nat) (ps : List Word) : Wk :=
  if w.v.lockout then w else
  let x : Wait := { kind := .arm, hdr := mirrorHdr, op := op, due := some k }
  let bead (kind : WaitKind) : Wait := { x with kind := kind, due := none, arg := [beadOf ps, b2n (bitOf (pw ps 0) 8)] }
  match op with
  | 0x0300 => w.up (·.wait x)
  | 0x0301 => w.up fun d => (d.startPrecharge ps).wait { x with kind := .precharge, due := none }
  | 0x0302 => w.up fun d => d.softPlan.wait { x with kind := .softStart, arg := [pw ps 0 % 2] }
  | 0x0303 => w.up (·.setRun .run)
  | 0x0304 => (w.up (·.quiesceNow)).syncOutputs
  | 0x0305 => (w.up (·.stopNowSafe)).syncOutputs
  | 0x0400 => w.beadCommand (bead .bypass)
  | 0x0401 => w.beadCommand (bead .insert)
  | 0x0402 => w.beadCommand (bead .retire)
  | 0x0403 => w.up (·.startToggle (beadOf ps))
  | 0x0500 => w.on (pw ps 0 % 4 = 1) (·.up (·.loadImage (wordBytes (ps.drop 1))))
  | 0x0501 => w.up (·.lpVerify)
  | 0x0502 => w.up (·.wr F.LPE_COEF_SWAP_PEND 1)
  | _ => w

/-- The partner's commands that are due by the next boundary apply, in the order they came. -/
def Wk.mirroredDue (w : Wk) : Wk :=
  if !w.d.running then w else
  let due := w.d.twn.sched.filter fun x => w.d.dueBy x.1
  if due.isEmpty then w else
  let planned := w.d.frame.planned
  let w := w.up fun d => { d.upTwn fun t => { t with sched := t.sched.filter fun x => !d.dueBy x.1 } with frame := { d.frame with planned := false } }
  let w := w.each due fun x w => w.mirrored (w.d.frame.k + 1) x.2.1 x.2.2
  w.up fun d => { d with frame := { d.frame with planned := planned } }

/-- The commands that an active twin may hold (R342). -/
def heldCmd (op : Nat) (h : Hdr) (ps : List Word) : Cmd :=
  match op with
  | 0x0300 => armCmd h ps
  | 0x0301 => prechargeCmd h ps
  | 0x0302 => softStartCmd h ps
  | 0x0303 => runCmd h ps
  | 0x0304 => quiesceCmd h ps
  | 0x0305 => stopCmd h ps
  | 0x0502 => coefSwapCmd h ps
  | _ => stageApplyCmd h ps

/-- The commands held are judged one by one; those that must wait again stay. [Log: DEDUCED 47] -/
def Wk.judgeHeld (w : Wk) : Wk :=
  let l := w.d.twn.held
  (w.up (·.upTwn fun t => { t with held := [] })).each l fun x w =>
    if w.d.holdsCmd x.op then w.up (·.upTwn fun t => { t with held := t.held ++ [x] }) else w.judge x.op x.hdr x.ps (heldCmd x.op x.hdr x.ps)

/-- FRAME_BOUNDARY. -/
def execFrameBoundary (s : State) : Host.Outcome State Fault Refusal :=
  s.run fun w => w.on w.d.running fun w => w.mirroredDue.frameBoundary.on (!w.d.twn.held.isEmpty) (·.judgeHeld)

end Sys2Proof.Machine
end

