-- ==== Sys2Proof/Machine/Dispatch.lean ====
section
/-! DEFINITION. The dispatch: one arm per command, each one direct call of the command's meaning. -/
namespace Sys2Proof.Machine

/-- The effect of a command on everything but the queue of waiting commands. -/
def exec (i : Instr) (s : State) : Host.Outcome State Fault Refusal :=
  match i with
  | .frameBoundary => Sys2Proof.Machine.execFrameBoundary s
  | .longWindowClose a => Sys2Proof.Machine.execLongWindowClose a s
  | .uplEnd => Sys2Proof.Machine.execUplEnd s
  | .partitionComplete cl flt => Sys2Proof.Machine.execPartitionComplete cl flt s
  | .lpeSpareReady => Sys2Proof.Machine.execLpeSpareReady s
  | .planInstant => Sys2Proof.Machine.execPlanInstant s
  | .bypassTimeout b => Sys2Proof.Machine.execBypassTimeout b s
  | .prechargeLimit isPair n => Sys2Proof.Machine.execPrechargeLimit isPair n s
  | .prechargeComplete => Sys2Proof.Machine.execPrechargeComplete s
  | .timebaseReload t => Sys2Proof.Machine.execTimebaseReload t s
  | .channelTransition c => Sys2Proof.Machine.execChannelTransition c s
  | .cmpxFire t m => Sys2Proof.Machine.execCmpxFire t m s
  | .tripInputAssert x => Sys2Proof.Machine.execTripInputAssert x s
  | .gateDesat l => Sys2Proof.Machine.execGateDesat l s
  | .dfbOffLevel x => Sys2Proof.Machine.execDfbOffLevel x s
  | .gateHsTimeout k => Sys2Proof.Machine.execGateHsTimeout k s
  | .dfbStuck k => Sys2Proof.Machine.execDfbStuck k s
  | .gsmonFall x => Sys2Proof.Machine.execGsmonFall x s
  | .gsmonRise x => Sys2Proof.Machine.execGsmonRise x s
  | .edgeClkLost => Sys2Proof.Machine.execEdgeClkLost s
  | .debugHalt => Sys2Proof.Machine.execDebugHalt s
  | .denToggleEnd m => Sys2Proof.Machine.execDenToggleEnd m s
  | .acqRegularTrigger c => Sys2Proof.Machine.execAcqRegularTrigger c s
  | .acqUrgentTrigger c => Sys2Proof.Machine.execAcqUrgentTrigger c s
  | .acqPassEnd c inj => Sys2Proof.Machine.execAcqPassEnd c inj s
  | .adcResult phys slot x => Sys2Proof.Machine.execAdcResult phys slot x s
  | .uplinkRecordReceive x strand fromB => Sys2Proof.Machine.execUplinkRecordReceive x strand fromB s
  | .sensorSilentTimeout b n => Sys2Proof.Machine.execSensorSilentTimeout b n s
  | .thmHoldEnd b => Sys2Proof.Machine.execThmHoldEnd b s
  | .housekeepingRound counts rails => Sys2Proof.Machine.execHousekeepingRound counts rails s
  | .timWrap => Sys2Proof.Machine.execTimWrap s
  | .pulseOutFire n => Sys2Proof.Machine.execPulseOutFire n s
  | .pulseWidthEnd n => Sys2Proof.Machine.execPulseWidthEnd n s
  | .trigInCapture n rising x => Sys2Proof.Machine.execTrigInCapture n rising x s
  | .ttRequestSend lane => Sys2Proof.Machine.execTtRequestSend lane s
  | .ttRequestReceive lane seq turn => Sys2Proof.Machine.execTtRequestReceive lane seq turn s
  | .ttResponseReceive lane rtt seq turn => Sys2Proof.Machine.execTtResponseReceive lane rtt seq turn s
  | .netFrameReceive lane fcsOk bytes ts => Sys2Proof.Machine.execNetFrameReceive lane fcsOk bytes ts s
  | .laneLosAssert lane => Sys2Proof.Machine.execLaneLosAssert lane s
  | .laneLosDeassert lane => Sys2Proof.Machine.execLaneLosDeassert lane s
  | .laneLolAssert lane => Sys2Proof.Machine.execLaneLolAssert lane s
  | .laneLolDeassert lane => Sys2Proof.Machine.execLaneLolDeassert lane s
  | .laneLolPersist lane testFail => Sys2Proof.Machine.execLaneLolPersist lane testFail s
  | .linkBringUp lane => Sys2Proof.Machine.execLinkBringUp lane s
  | .capReceive lane bytes => Sys2Proof.Machine.execCapReceive lane bytes s
  | .laneDwellEnd lane errs lost => Sys2Proof.Machine.execLaneDwellEnd lane errs lost s
  | .capReportTimeout lane => Sys2Proof.Machine.execCapReportTimeout lane s
  | .laneFallbackEnd lane => Sys2Proof.Machine.execLaneFallbackEnd lane s
  | .laneStepFail lane => Sys2Proof.Machine.execLaneStepFail lane s
  | .linkRejoin lane errs lost => Sys2Proof.Machine.execLinkRejoin lane errs lost s
  | .linkRejoinRetry lane => Sys2Proof.Machine.execLinkRejoinRetry lane s
  | .loopTestEnd lane bits errs lost => Sys2Proof.Machine.execLoopTestEnd lane bits errs lost s
  | .modulePoll lane page => Sys2Proof.Machine.execModulePoll lane page s
  | .twinListenEnd => Sys2Proof.Machine.execTwinListenEnd s
  | .twinFrameReceive lane x => Sys2Proof.Machine.execTwinFrameReceive lane x s
  | .h1Deadline => Sys2Proof.Machine.execH1Deadline s
  | .twinSyncComplete => Sys2Proof.Machine.execTwinSyncComplete s
  | .h2WordSend => Sys2Proof.Machine.execH2WordSend s
  | .h2WordReceive w => Sys2Proof.Machine.execH2WordReceive w s
  | .h2Deadline => Sys2Proof.Machine.execH2Deadline s
  | .hbInDown => Sys2Proof.Machine.execHbInDown s
  | .twinYield => Sys2Proof.Machine.execTwinYield s
  | .twinHoldExpire => Sys2Proof.Machine.execTwinHoldExpire s
  | .mgmtLockstep => Sys2Proof.Machine.execMgmtLockstep s
  | .mgmtSelftestDone p0 p1 => Sys2Proof.Machine.execMgmtSelftestDone p0 p1 s
  | .cascadeFrameReceive lane x => Sys2Proof.Machine.execCascadeFrameReceive lane x s
  | .stkMasterMiss => Sys2Proof.Machine.execStkMasterMiss s
  | .stkTakeover => Sys2Proof.Machine.execStkTakeover s
  | .stkOrphan => Sys2Proof.Machine.execStkOrphan s
  | .stkReturnedReady => Sys2Proof.Machine.execStkReturnedReady s
  | .logWrite => Sys2Proof.Machine.execLogWrite s
  | .notificationDeliver p mbx => Sys2Proof.Machine.execNotificationDeliver p mbx s
  | .windowRead p addr n => Sys2Proof.Machine.execWindowRead p addr n s
  | .windowWrite p addr words => Sys2Proof.Machine.execWindowWrite p addr words s
  | .statusRead p => Sys2Proof.Machine.execStatusRead p s
  | .ringPush p ring bytes => Sys2Proof.Machine.execRingPush p ring bytes s
  | .replyPop p net n => Sys2Proof.Machine.execReplyPop p net n s
  | .mbxSend p idx words cut => Sys2Proof.Machine.execMbxSend p idx words cut s
  | .mbxRecv p idx n => Sys2Proof.Machine.execMbxRecv p idx n s
  | .hostBadInstruction p => Sys2Proof.Machine.execHostBadInstruction p s
  | .mbxCopy p idx => Sys2Proof.Machine.execMbxCopy p idx s
  | .locketTake p l => Sys2Proof.Machine.execLocketTake p l s
  | .kaWarn p => Sys2Proof.Machine.execKaWarn p s
  | .hostKeepaliveLapse p => Sys2Proof.Machine.execHostKeepaliveLapse p s
  | .hstKick p => Sys2Proof.Machine.execHstKick p s
  | .claspWrite p n v => Sys2Proof.Machine.execClaspWrite p n v s
  | .doorbellSet p mask => Sys2Proof.Machine.execDoorbellSet p mask s
  | .nop h ps => Sys2Proof.Machine.execNop h ps s
  | .ident h ps => Sys2Proof.Machine.execIdent h ps s
  | .descRead h ps => Sys2Proof.Machine.execDescRead h ps s
  | .status h ps => Sys2Proof.Machine.execStatus h ps s
  | .keepalive h ps => Sys2Proof.Machine.execKeepalive h ps s
  | .bulkWrite h ps => Sys2Proof.Machine.execBulkWrite h ps s
  | .bulkRead h ps => Sys2Proof.Machine.execBulkRead h ps s
  | .regRd h ps => Sys2Proof.Machine.execRegRd h ps s
  | .regWr h ps => Sys2Proof.Machine.execRegWr h ps s
  | .regWrPair h ps => Sys2Proof.Machine.execRegWrPair h ps s
  | .regRdWide h ps => Sys2Proof.Machine.execRegRdWide h ps s
  | .stageOpen h ps => Sys2Proof.Machine.execStageOpen h ps s
  | .stageApply h ps => Sys2Proof.Machine.execStageApply h ps s
  | .stageAbort h ps => Sys2Proof.Machine.execStageAbort h ps s
  | .stagedSetApply => Sys2Proof.Machine.execStagedSetApply s
  | .frmApply => Sys2Proof.Machine.execFrmApply s
  | .arm h ps => Sys2Proof.Machine.execArm h ps s
  | .armApply => Sys2Proof.Machine.execArmApply s
  | .precharge h ps => Sys2Proof.Machine.execPrecharge h ps s
  | .softStart h ps => Sys2Proof.Machine.execSoftStart h ps s
  | .softStartApply => Sys2Proof.Machine.execSoftStartApply s
  | .autorunComplete => Sys2Proof.Machine.execAutorunComplete s
  | .run h ps => Sys2Proof.Machine.execRun h ps s
  | .quiesce h ps => Sys2Proof.Machine.execQuiesce h ps s
  | .stop h ps => Sys2Proof.Machine.execStop h ps s
  | .beadBypass h ps => Sys2Proof.Machine.execBeadBypass h ps s
  | .beadInsert h ps => Sys2Proof.Machine.execBeadInsert h ps s
  | .beadRetire h ps => Sys2Proof.Machine.execBeadRetire h ps s
  | .beadCommandAct => Sys2Proof.Machine.execBeadCommandAct s
  | .beadEnableToggle h ps => Sys2Proof.Machine.execBeadEnableToggle h ps s
  | .lpLoadOpen h ps => Sys2Proof.Machine.execLpLoadOpen h ps s
  | .lpLoadCommit h ps => Sys2Proof.Machine.execLpLoadCommit h ps s
  | .lpLoadAbort h ps => Sys2Proof.Machine.execLpLoadAbort h ps s
  | .lpVerify h ps => Sys2Proof.Machine.execLpVerify h ps s
  | .coefSwap h ps => Sys2Proof.Machine.execCoefSwap h ps s
  | .coefSwapApply => Sys2Proof.Machine.execCoefSwapApply s
  | .fltLog h ps => Sys2Proof.Machine.execFltLog h ps s
  | .fltInject h ps => Sys2Proof.Machine.execFltInject h ps s
  | .fltClear h ps => Sys2Proof.Machine.execFltClear h ps s
  | .timeStep h ps => Sys2Proof.Machine.execTimeStep h ps s
  | .timeInc h ps => Sys2Proof.Machine.execTimeInc h ps s
  | .pulseSet h ps => Sys2Proof.Machine.execPulseSet h ps s
  | .captureRead h ps => Sys2Proof.Machine.execCaptureRead h ps s
  | .twinStatus h ps => Sys2Proof.Machine.execTwinStatus h ps s
  | .twinPrefer h ps => Sys2Proof.Machine.execTwinPrefer h ps s
  | .twinHandback h ps => Sys2Proof.Machine.execTwinHandback h ps s
  | .stackStatus h ps => Sys2Proof.Machine.execStackStatus h ps s
  | .stackReclaim h ps => Sys2Proof.Machine.execStackReclaim h ps s
  | .rate h ps => Sys2Proof.Machine.execRate h ps s
  | .loopTest h ps => Sys2Proof.Machine.execLoopTest h ps s
  | .moduleRead h ps ans => Sys2Proof.Machine.execModuleRead h ps ans s
  | .netSend h ps => Sys2Proof.Machine.execNetSend h ps s
  | .fwUpdateOpen h ps => Sys2Proof.Machine.execFwUpdateOpen h ps s
  | .fwUpdateCommit h ps flashFail => Sys2Proof.Machine.execFwUpdateCommit h ps flashFail s
  | .fwUpdateAbort h ps => Sys2Proof.Machine.execFwUpdateAbort h ps s
  | .keyProvision h ps => Sys2Proof.Machine.execKeyProvision h ps s
  | .ownerKey h ps => Sys2Proof.Machine.execOwnerKey h ps s
  | .guardUnlock h ps => Sys2Proof.Machine.execGuardUnlock h ps s
  | .hallmark h ps selfCheck => Sys2Proof.Machine.execHallmark h ps selfCheck s
  | .debugOpen h ps => Sys2Proof.Machine.execDebugOpen h ps s
  | .fuseWrite h ps => Sys2Proof.Machine.execFuseWrite h ps s
  | .registerWrite p addr v => Sys2Proof.Machine.execRegisterWrite p addr v s
  | .bitAliasWrite p addr v => Sys2Proof.Machine.execBitAliasWrite p addr v s
  | .guardFirstHalf p addr v => Sys2Proof.Machine.execGuardFirstHalf p addr v s
  | .guardComplement p addr v => Sys2Proof.Machine.execGuardComplement p addr v s
  | .holdRequest p => Sys2Proof.Machine.execHoldRequest p s
  | .sleepRequest p => Sys2Proof.Machine.execSleepRequest p s
  | .holdEntry => Sys2Proof.Machine.execHoldEntry s
  | .sleepEntry => Sys2Proof.Machine.execSleepEntry s
  | .wakeEvent bit => Sys2Proof.Machine.execWakeEvent bit s
  | .holdWake => Sys2Proof.Machine.execHoldWake s
  | .sleepWake => Sys2Proof.Machine.execSleepWake s
  | .clkFail dom => Sys2Proof.Machine.execClkFail dom s
  | .pllLockTimeout => Sys2Proof.Machine.execPllLockTimeout s
  | .supplyFault rail ovr => Sys2Proof.Machine.execSupplyFault rail ovr s
  | .vaonPowerOn => Sys2Proof.Machine.execVaonPowerOn s
  | .corePowerOn => Sys2Proof.Machine.execCorePowerOn s
  | .porNRelease stackId twinRole ioh33 testEn => Sys2Proof.Machine.execPorNRelease stackId twinRole ioh33 testEn s
  | .resetNRelease stackId twinRole => Sys2Proof.Machine.execResetNRelease stackId twinRole s
  | .bistComplete mask rows => Sys2Proof.Machine.execBistComplete mask rows s
  | .frameGeneratorStart => Sys2Proof.Machine.execFrameGeneratorStart s
  | .discoveryEnd => Sys2Proof.Machine.execDiscoveryEnd s
  | .timeLockStepEnd => Sys2Proof.Machine.execTimeLockStepEnd s
  | .olgCrcUpdate => Sys2Proof.Machine.execOlgCrcUpdate s
  | .wideSelWrite p sel => Sys2Proof.Machine.execWideSelWrite p sel s
  | .wideSnapshotReady p => Sys2Proof.Machine.execWideSnapshotReady p s
  | .wide3Read p => Sys2Proof.Machine.execWide3Read p s
  | .stkMrxRead w => Sys2Proof.Machine.execStkMrxRead w s
  | .stkMailSend => Sys2Proof.Machine.execStkMailSend s
  | .edgArmWrite p v => Sys2Proof.Machine.execEdgArmWrite p v s
  | .carShadowWrite p addr v => Sys2Proof.Machine.execCarShadowWrite p addr v s
  | .timIncIntWrite p v => Sys2Proof.Machine.execTimIncIntWrite p v s
  | .timOutCtrlWrite p n v => Sys2Proof.Machine.execTimOutCtrlWrite p n v s
  | .timOutTgtHiWrite p n v => Sys2Proof.Machine.execTimOutTgtHiWrite p n v s
  | .timOutPerHiWrite p n v => Sys2Proof.Machine.execTimOutPerHiWrite p n v s
  | .timOutWidthWrite p n v => Sys2Proof.Machine.execTimOutWidthWrite p n v s
  | .gsvDenToggleWrite p mask => Sys2Proof.Machine.execGsvDenToggleWrite p mask s
  | .adcGoWrite p c => Sys2Proof.Machine.execAdcGoWrite p c s
  | .accLclrWrite p a => Sys2Proof.Machine.execAccLclrWrite p a s
  | .lpeRunWrite p v => Sys2Proof.Machine.execLpeRunWrite p v s
  | .lpeMemWrite p addr v => Sys2Proof.Machine.execLpeMemWrite p addr v s
  | .thmBrokenWrite p die b mask => Sys2Proof.Machine.execThmBrokenWrite p die b mask s
  | .secPresClose p => Sys2Proof.Machine.execSecPresClose p s
  | .secDbgClose p => Sys2Proof.Machine.execSecDbgClose p s
  | .memScrub addr errs => Sys2Proof.Machine.execMemScrub addr errs s
  | .lpeRowRemap row => Sys2Proof.Machine.execLpeRowRemap row s
  | .rowCountWindowExpire row => Sys2Proof.Machine.execRowCountWindowExpire row s
  | .presWindowOpen => Sys2Proof.Machine.execPresWindowOpen s
  | .presWindowClose p => Sys2Proof.Machine.execPresWindowClose p s
  | .jumperFitted => Sys2Proof.Machine.execJumperFitted s
  | .jumperRemoved => Sys2Proof.Machine.execJumperRemoved s
  | .sealCheck sample => Sys2Proof.Machine.execSealCheck sample s
  | .debugWindowExpire => Sys2Proof.Machine.execDebugWindowExpire s
  | .downlinkHeaderReceive lane x => Sys2Proof.Machine.execDownlinkHeaderReceive lane x s
  | .dnlEnd => Sys2Proof.Machine.execDnlEnd s
  | .debugHaltRelease => Sys2Proof.Machine.execDebugHaltRelease s
  | .laneRateSwitch lane => Sys2Proof.Machine.execLaneRateSwitch lane s
  | .prbs31DwellStart lane => Sys2Proof.Machine.execPrbs31DwellStart lane s
  | .netAutonegotiation lane => Sys2Proof.Machine.execNetAutonegotiation lane s
  | .netFrameSent lane ts => Sys2Proof.Machine.execNetFrameSent lane ts s
  | .noAnswerTimeout p => Sys2Proof.Machine.execNoAnswerTimeout p s
  | .aonCrystalStable => Sys2Proof.Machine.execAonCrystalStable s

end Sys2Proof.Machine
end

