-- ==== Sys2Proof/Machine/Serve.lean ====
section
/-! DEFINITION. What the block does of itself while no command waits (entry 3): the copies and deliveries of the host ports, the
packets in rings and lockets in the order of R411, the frame's own instants and the keep-alive limits when their time has come,
and otherwise one clock edge (R37, R47). -/
namespace Sys2Proof.Machine

/-- What comes next: the row of the table that tells of it, a packet that no row tells of, or one clock edge. -/
inductive Work where
  | row (i : Instr)
  | odd (x : Pkt)
  | tick
deriving DecidableEq, Repr

/-! ## Packets -/

/-- The row that tells of a packet; none for a reserved opcode. -/
def rowOf (x : Pkt) : Option Instr :=
  let h := x.hdr
  let ps := x.ps
  let mode := pw ps 0 % 4
  if x.op = Config.opStageOpen then some (.stageOpen h ps)
  else if x.op = Config.opStageApply then some (.stageApply h ps)
  else if x.op = Config.opStageAbort then some (.stageAbort h ps)
  else match x.op with
  | 0x0000 => some (.nop h ps) | 0x0001 => some (.ident h ps) | 0x0002 => some (.descRead h ps) | 0x0003 => some (.status h ps)
  | 0x0004 => some (.keepalive h ps) | 0x0005 => some (.bulkWrite h ps) | 0x0006 => some (.bulkRead h ps)
  | 0x0100 => some (.regRd h ps) | 0x0101 => some (.regWr h ps) | 0x0102 => some (.regWrPair h ps) | 0x0103 => some (.regRdWide h ps)
  | 0x0300 => some (.arm h ps) | 0x0301 => some (.precharge h ps) | 0x0302 => some (.softStart h ps) | 0x0303 => some (.run h ps)
  | 0x0304 => some (.quiesce h ps) | 0x0305 => some (.stop h ps)
  | 0x0400 => some (.beadBypass h ps) | 0x0401 => some (.beadInsert h ps) | 0x0402 => some (.beadRetire h ps) | 0x0403 => some (.beadEnableToggle h ps)
  | 0x0500 => some (if mode = 1 then .lpLoadCommit h ps else if mode = 2 then .lpLoadAbort h ps else .lpLoadOpen h ps)
  | 0x0501 => some (.lpVerify h ps) | 0x0502 => some (.coefSwap h ps)
  | 0x0600 => some (.fltLog h ps) | 0x0601 => some (.fltInject h ps) | 0x0602 => some (.fltClear h ps)
  | 0x0700 => some (.timeStep h ps) | 0x0701 => some (.timeInc h ps) | 0x0702 => some (.pulseSet h ps) | 0x0703 => some (.captureRead h ps)
  | 0x0800 => some (.twinStatus h ps) | 0x0801 => some (.twinPrefer h ps) | 0x0802 => some (.twinHandback h ps)
  | 0x0900 => some (.stackStatus h ps) | 0x0901 => some (.stackReclaim h ps)
  | 0x0A00 => some (.rate h ps) | 0x0A01 => some (.loopTest h ps) | 0x0A02 => some (.moduleRead h ps none) | 0x0B00 => some (.netSend h ps)
  | 0x0F00 => some (if mode = 1 then .fwUpdateCommit h ps none else if mode = 2 then .fwUpdateAbort h ps else .fwUpdateOpen h ps)
  | 0x0F01 => some (.keyProvision h ps) | 0x0F02 => some (.ownerKey h ps) | 0x0F03 => some (.guardUnlock h ps)
  | 0x0F04 => some (.hallmark h ps true) | 0x0F05 => some (.debugOpen h ps) | 0x0F06 => some (.fuseWrite h ps)
  | _ => none

/-- The work that a packet is. [Log: DESIGN CHOICE 63] -/
def Pkt.work (x : Pkt) : Work := match rowOf x with | some i => .row i | none => .odd x

/-- Whether the firmware of start-up serves packets: from step 5 of Table 19-6 on, or in recovery. -/
def Dev.served (d : Dev) : Bool := d.frozen.isNone && (d.sec.recovery || d.rd F.CLK_START_STEP = 0 || decide (5 ≤ d.rd F.CLK_START_STEP))

/-- The packet that a port's rings offer: the highest priority, then the lowest ring (R411). -/
def Dev.offer (d : Dev) (p : Nat) : Option Pkt :=
  let heads := (List.range 15).filterMap fun r =>
    match (d.port p).ring r with
    | x :: _ => if d.blocked p false r then none else some x
    | [] => none
  let top := heads.foldl (fun a x => max a x.hdr.prio) 0
  match heads.find? fun x => x.hdr.prio = top with
  | some x => if d.takes x.op x.hdr then some x else none
  | none => none

/-- The packet of a locket that the firmware has taken and not begun. -/
def Dev.locketWork (d : Dev) : Option Pkt :=
  ([0, 1].flatMap fun p => (List.range 4).filterMap fun l =>
    match tget none (d.port p).taken l with
    | some x => if d.takes x.op x.hdr then some x else none
    | none => none).head?

/-- The next packet (R411): the ports take turns. [Log: DEDUCED 58] -/
def Dev.nextPkt (d : Dev) : Option Pkt :=
  if !d.served then none else
  match d.locketWork with
  | some x => some x
  | none =>
    let a := other d.lastServed
    match d.offer a with
    | some x => some x
    | none => d.offer (other a)

/-! ## Ports and logs -/

/-- A copy, a delivery, a locket to take, a log entry to write. -/
def Dev.portWork (d : Dev) : Option Instr :=
  let ps := [0, 1]
  let busy (p i : Nat) : Bool := if i < 4 then ((d.port (other p)).box i).full else !(tget [] (d.port p).inb (i - 8)).isEmpty
  let copy := ps.flatMap fun p => ([2, 3, 8, 9, 10, 11].filter fun i => !(tget [] (d.port p).send i).isEmpty && !busy p i).map (Instr.mbxCopy p ·)
  let log := if d.flt.queue.isEmpty then [] else [Instr.logWrite]
  let note := ps.flatMap fun p => ([0, 1].filter fun m => !(tget {} (d.port p).notes m).q.isEmpty && !((d.port p).box m).full).map (Instr.notificationDeliver p ·)
  let lock := ps.flatMap fun p => ((List.range 4).filter fun l =>
    !(tget [] (d.port p).inb l).isEmpty && (tget [] (d.port p).outb l).isEmpty && (tget none (d.port p).taken l).isNone).map (Instr.locketTake p ·)
  (copy ++ log ++ (if d.served then note ++ lock else [])).head?

/-! ## Time -/

/-- The next instant of the control frame, with its row. -/
def Dev.frameInstant (d : Dev) : BitVec 64 × Instr :=
  match d.rd F.SYS_FRM_STAT_WINDOW with
  | 0 => (d.inFrame d.uplEnd, .uplEnd)
  | 1 => (d.inFrame d.cmpEnd, .planInstant)
  | 2 => (d.inFrame d.dnlEnd, .dnlEnd)
  | _ => (d.boundaryAt (d.frame.k + 1), .frameBoundary)

/-- An instant that the next clock edge reaches: of the control frame, of a /TT/ request (R125), of a keep-alive. -/
def Dev.timeWork (d : Dev) : Option Instr :=
  let (t, i) :=
    match (List.range 24).find? d.ttOwed with
    | some n => (d.ttInstant, Instr.ttRequestSend n)
    | none => d.frameInstant
  if d.running && decide (-(d.time.incI + 1 : Int) ≤ d.behind t) then some i else
  let late (p : Nat) (units : Nat) : Bool := d.live p && d.frozen.isNone && decide ((d.port p).kaLast + d.rd (F.HST_KA_PERIOD p) * units ≤ d.time.rt + 512)
  match [0, 1].find? fun p => late p 64000000 with
  | some p => some (.hostKeepaliveLapse p)
  | none => ([0, 1].find? fun p => late p 32000000 && (d.port p).kaWarned ≠ (d.port p).kaLast + d.rd (F.HST_KA_PERIOD p) * 32000000).map (Instr.kaWarn ·)

/-- What the block does next. [Log: DESIGN CHOICE 3] -/
def Dev.work (d : Dev) : Work :=
  match d.portWork with
  | some i => .row i
  | none =>
    match d.nextPkt with
    | some x => x.work
    | none =>
      if d.timStopped then .tick else
      match d.timeWork with
      | some i => .row i
      | none => .tick

/-- One clock edge: of the TIM domain, or an AON cycle while that stands; before the release of POR_N no clock counts. [Log: DESIGN CHOICE 3] -/
def Wk.tick (w : Wk) : Wk :=
  if w.d.timStopped then w.aonCycles 1
  else if w.d.rd F.CLK_START_STEP = 1 then w
  else (w.edges 1).tripScan

/-- What an empty queue does. [Log: DESIGN CHOICE 3] -/
def State.idle (s : State) : Host.Outcome State Fault Refusal :=
  match s.dev.work with
  | .row i => exec i s
  | .odd x => s.command x.op x.hdr x.ps ⟨fun _ => none, id⟩
  | .tick => s.run (·.tick)

end Sys2Proof.Machine
end

