-- ==== Sys2Proof/Machine/Step.lean ====
section
/-! DEFINITION. One step: the command at the front of the queue runs with the rest of the queue. On an empty queue the
block does what it does of itself (entry 3). -/
namespace Sys2Proof.Machine

/-- One step of the block. [Log: DESIGN CHOICE 3] -/
def step (s : State) : Host.Outcome State Fault Refusal :=
  match s.pending with
  | [] => s.idle
  | c :: r => exec c { s with pending := r }

/-- The table gives no row bits, so no word spells a command and the state stays as it is. [Log: DESIGN CHOICE 3] -/
def State.withFetchWord (s : State) (_nbits _w : Nat) : State := s

end Sys2Proof.Machine
end

