-- ==== Sys2Proof/Safety.lean ====
section
/-! DEFINITION. The words in which claims about the block are stated: that a command completes and what its next state holds,
that a packet is accepted, refused or not served, what a reply says, and which rows are command packets. -/
namespace Sys2Proof.Machine

/-! ## Completion -/

/-- A command answers a next state of which `P` holds. -/
def Does (c : Instr) (s : State) (P : State → Prop) : Prop := ∃ t, exec c s = .next t ∧ P t

/-- Nothing of the state has changed but the device, which is now `d`. -/
abbrev State.withDev (s : State) (d : Dev) : State := { s with dev := d }

/-- A command leaves a device and the messages it sent, of which `P` holds; the next state is what the fault collector (R382)
makes of them. -/
def Leaves (c : Instr) (s : State) (P : Dev → List Msg → Prop) : Prop := ∃ w : Wk, exec c s = .next (s.settleWk s.vault w) ∧ P w.d w.ms

/-- Source, kind and instance of a message. -/
def Msg.tag (m : Msg) : Nat × Nat × Nat := (m.fs, m.kind, m.inst)

/-- A message that passing time sends of itself: device time wraps (R43), or the turn-on of a local pin meets its complement (R169). -/
def Msg.passing (m : Msg) : Bool := decide (m.tag = (97, 0, 0)) || decide (m.fs = 17 ∧ m.kind = 0 ∧ 0xF00 ≤ m.inst ∧ m.inst < 0xF10)

/-- A register field that passing time leaves: all but the epoch, WRAP (R43) and the count of refused turn-ons (R169). -/
def Fld.still (f : Fld) : Bool :=
  decide (f.lo < 32) && decide (f.key ≠ F.TIM_EPOCH.key) && decide (f.key ≠ F.TIM_STAT_WRAP.key) && decide (f.key ≠ F.GSV_CNT_ILK.key)

/-- A register field that no reaction of the collector writes: the fields below the FLT page but CLK_STAT.PSTATE, and those from
the SEC page to the strands, beads and bead service but TWN_STAT.HBK_PEND, TWN_HBK.HBK_SEQ and BDT_STATE.FAILED. -/
def Fld.quiet (f : Fld) : Bool :=
  decide (f.lo < 32) &&
    ((decide (f.addr < 0x9000) && decide (f.key ≠ F.CLK_STAT_PSTATE.key)) ||
     (decide (0xA000 ≤ f.addr) && decide (f.addr < 0x60000) && decide (f.key ≠ F.TWN_STAT_HBK_PEND.key) && decide (f.key ≠ F.TWN_HBK_HBK_SEQ.key)
       && (decide (f.addr < 0x50000) || decide (f.lo ≠ 25))))

/-! ## Command packets (R428 to R433) -/

/-- The work as the firmware judges a packet: the packet has left the head of its ring. -/
def State.taking (s : State) (op : Nat) (h : Hdr) (ps : List Word) : Wk := s.wk.up (·.takePkt op h ps)

/-- The verdict of R433 on a packet: none, or a status and its DETAIL. -/
def State.verdict (s : State) (op : Nat) (h : Hdr) (ps : List Word) (c : Cmd) : Refused :=
  ((s.taking op h ps).preCheck op h ps).or (c.check (s.taking op h ps))

/-- A packet of a host port is judged now: the firmware takes it (R411), and an active twin does not let it wait (R342). -/
def State.judges (s : State) (op : Nat) (h : Hdr) (ps : List Word) : Bool :=
  decide (h.port < 2) && s.dev.takes op h && !(s.taking op h ps).d.holdsCmd op

/-- A packet is accepted: it is judged now and passes every check. -/
def State.accepts (s : State) (op : Nat) (h : Hdr) (ps : List Word) (c : Cmd) : Bool :=
  s.judges op h ps && (s.verdict op h ps c).isNone

/-- The reply to a command (Table 16-2) stands in the state: at the end of the ring port's queue, or in the locket's buffer. -/
def Replied (t : State) (h : Hdr) (op : Nat) (st : Status) (det : Nat) (ws : List Nat) : Prop :=
  let b := replyBytes h op st det (ws.map (BitVec.ofNat 32 ·))
  if h.locket then tget [] (t.dev.port h.port).outb h.ring = toWords 261 (padTo 32 b) else b ∈ (t.dev.port h.port).replies

/-- The next state of a command that is done at once: the packet has left its ring, `f` has been done, and the reply OK with
words has been placed (R431). -/
def State.answered (s : State) (op : Nat) (h : Hdr) (ps : List Word) (ws : List Nat) (f : Dev → Dev := id) : State :=
  s.withDev ((f (s.dev.takePkt op h ps)).replyOk h op ws)

/-- The next state of a refused command (R432): the packet has left its ring and the reply with the status has been placed. -/
def State.refused (s : State) (op : Nat) (h : Hdr) (ps : List Word) (x : Status × Nat) : State :=
  s.withDev ((s.dev.takePkt op h ps).reply h op x.1 x.2 [])

/-- The next state of a command that waits for its effect before it replies (R431): the packet has left its ring, `f` has been
done, the command is the last of those that wait, and an active twin mirrors it where `m` names a boundary (R342). -/
def State.begun (s : State) (op : Nat) (h : Hdr) (ps : List Word) (x : Dev → Wait) (m : Dev → Option (BitVec 32) := fun _ => none) (f : Dev → Dev := id) : State :=
  let d := s.dev.takePkt op h ps
  let e := (f d).wait (x d)
  s.withDev (match m d with | some due => e.mirror (.cmd op ps due) | none => e)

/-- A command waits for its effect before it replies (R431): it is the last of those that wait. -/
def Waits (s t : State) (x : Wait) : Prop := t.dev.waits = s.dev.waits ++ [x]

/-- A row that is a command packet: its opcode, header and parameters, its checks and effect, and whether the packet is this
row's (a MODE may make it another's). -/
structure PacketRow where
  op : Nat
  h : Hdr
  ps : List Word
  cmd : Cmd
  mine : Bool := true

/-- The rows that are command packets. -/
def packetRow : Instr → Option PacketRow
  | .nop h ps => some ⟨0x0000, h, ps, nopCmd h, true⟩
  | .ident h ps => some ⟨0x0001, h, ps, identCmd h, true⟩
  | .descRead h ps => some ⟨0x0002, h, ps, descReadCmd h ps, true⟩
  | .status h ps => some ⟨0x0003, h, ps, statusCmd h, true⟩
  | .keepalive h ps => some ⟨0x0004, h, ps, keepaliveCmd h, true⟩
  | .bulkWrite h ps => some ⟨0x0005, h, ps, bulkWriteCmd h ps, true⟩
  | .bulkRead h ps => some ⟨0x0006, h, ps, bulkReadCmd h ps, true⟩
  | .regRd h ps => some ⟨0x0100, h, ps, regRdCmd h ps, true⟩
  | .regWr h ps => some ⟨0x0101, h, ps, regWrCmd h ps, true⟩
  | .regWrPair h ps => some ⟨0x0102, h, ps, regWrPairCmd h ps, true⟩
  | .regRdWide h ps => some ⟨0x0103, h, ps, regRdWideCmd h ps, true⟩
  | .stageOpen h ps => some ⟨Config.opStageOpen, h, ps, stageOpenCmd h, true⟩
  | .stageApply h ps => some ⟨Config.opStageApply, h, ps, stageApplyCmd h ps, true⟩
  | .stageAbort h ps => some ⟨Config.opStageAbort, h, ps, stageAbortCmd h ps, true⟩
  | .arm h ps => some ⟨0x0300, h, ps, armCmd h ps, true⟩
  | .precharge h ps => some ⟨0x0301, h, ps, prechargeCmd h ps, true⟩
  | .softStart h ps => some ⟨0x0302, h, ps, softStartCmd h ps, true⟩
  | .run h ps => some ⟨0x0303, h, ps, runCmd h ps, true⟩
  | .quiesce h ps => some ⟨0x0304, h, ps, quiesceCmd h ps, true⟩
  | .stop h ps => some ⟨0x0305, h, ps, stopCmd h ps, true⟩
  | .beadBypass h ps => some ⟨0x0400, h, ps, beadBypassCmd h ps, true⟩
  | .beadInsert h ps => some ⟨0x0401, h, ps, beadInsertCmd h ps, true⟩
  | .beadRetire h ps => some ⟨0x0402, h, ps, beadRetireCmd h ps, true⟩
  | .beadEnableToggle h ps => some ⟨0x0403, h, ps, beadEnableToggleCmd h ps, true⟩
  | .lpLoadOpen h ps => some ⟨0x0500, h, ps, lpLoadOpenCmd h ps, pw ps 0 % 4 = 0 || pw ps 0 % 4 = 3⟩
  | .lpLoadCommit h ps => some ⟨0x0500, h, ps, lpLoadCommitCmd h, pw ps 0 % 4 = 1⟩
  | .lpLoadAbort h ps => some ⟨0x0500, h, ps, lpLoadAbortCmd h ps, pw ps 0 % 4 = 2⟩
  | .lpVerify h ps => some ⟨0x0501, h, ps, lpVerifyCmd h ps, true⟩
  | .coefSwap h ps => some ⟨0x0502, h, ps, coefSwapCmd h ps, true⟩
  | .fltLog h ps => some ⟨0x0600, h, ps, fltLogCmd h ps, true⟩
  | .fltInject h ps => some ⟨0x0601, h, ps, fltInjectCmd h ps, true⟩
  | .fltClear h ps => some ⟨0x0602, h, ps, fltClearCmd h ps, true⟩
  | .timeStep h ps => some ⟨0x0700, h, ps, timeStepCmd h ps, true⟩
  | .timeInc h ps => some ⟨0x0701, h, ps, timeIncCmd h ps, true⟩
  | .pulseSet h ps => some ⟨0x0702, h, ps, pulseSetCmd h ps, true⟩
  | .captureRead h ps => some ⟨0x0703, h, ps, captureReadCmd h ps, true⟩
  | .twinStatus h ps => some ⟨0x0800, h, ps, twinStatusCmd h, true⟩
  | .twinPrefer h ps => some ⟨0x0801, h, ps, twinPreferCmd h ps, true⟩
  | .twinHandback h ps => some ⟨0x0802, h, ps, twinHandbackCmd h, true⟩
  | .stackStatus h ps => some ⟨0x0900, h, ps, stackStatusCmd h, true⟩
  | .stackReclaim h ps => some ⟨0x0901, h, ps, stackReclaimCmd h, true⟩
  | .rate h ps => some ⟨0x0A00, h, ps, rateCmd h ps, true⟩
  | .loopTest h ps => some ⟨0x0A01, h, ps, loopTestCmd h ps, true⟩
  | .moduleRead h ps ans => some ⟨0x0A02, h, ps, moduleReadCmd h ps ans, true⟩
  | .netSend h ps => some ⟨0x0B00, h, ps, netSendCmd h ps, true⟩
  | .fwUpdateOpen h ps => some ⟨0x0F00, h, ps, fwOpenCmd h ps, pw ps 0 % 4 = 0 || pw ps 0 % 4 = 3⟩
  | .fwUpdateCommit h ps x => some ⟨0x0F00, h, ps, fwCommitCmd h x, pw ps 0 % 4 = 1⟩
  | .fwUpdateAbort h ps => some ⟨0x0F00, h, ps, fwAbortCmd h, pw ps 0 % 4 = 2⟩
  | .keyProvision h ps => some ⟨0x0F01, h, ps, keyProvisionCmd h, true⟩
  | .ownerKey h ps => some ⟨0x0F02, h, ps, ownerKeyCmd h ps, true⟩
  | .guardUnlock h ps => some ⟨0x0F03, h, ps, guardUnlockCmd h, true⟩
  | .hallmark h ps x => some ⟨0x0F04, h, ps, hallmarkCmd h ps x, true⟩
  | .debugOpen h ps => some ⟨0x0F05, h, ps, debugOpenCmd h ps, true⟩
  | .fuseWrite h ps => some ⟨0x0F06, h, ps, fuseWriteCmd h ps, true⟩
  | _ => none

/-- A packet is judged now and passes the checks that all commands share (1 to 5 of R433). -/
def State.passes (s : State) (op : Nat) (h : Hdr) (ps : List Word) : Bool :=
  s.judges op h ps && ((s.taking op h ps).preCheck op h ps).isNone

/-- A packet row is accepted. -/
def State.takesRow (s : State) (r : PacketRow) : Bool := r.mine && s.accepts r.op r.h r.ps r.cmd

/-! ## Host transactions (R404 to R409) -/

/-- A port may move words: POR_N is released, device time runs, and no request of HOLD or SLEEP stands (R520, R521, R523). -/
def State.hostOn (s : State) : Bool := s.dev.hosted && s.dev.sec.pwrReq.isNone

/-- The work of a transaction of a port that may move words: it has put out nothing yet. -/
def State.trans (s : State) (p : Nat) : Wk := s.wk.up (·.putIo (portNo p) [])

/-- A port whose writes count: words may move, no lockout stands (R390), no half of a guarded pair is held (R469). -/
def State.writes (s : State) (p : Nat) : Bool := s.hostOn && !s.vault.lockout && (s.dev.port (portNo p)).half.isNone

/-- The rows that are a transaction of a host port, with the port. -/
def hostRow : Instr → Option Nat
  | .windowRead p _ _ | .windowWrite p _ _ | .statusRead p | .ringPush p _ _ | .replyPop p _ _ | .mbxSend p _ _ _ | .mbxRecv p _ _
  | .hostBadInstruction p | .hstKick p | .claspWrite p _ _ | .doorbellSet p _ | .registerWrite p _ _ | .bitAliasWrite p _ _
  | .guardFirstHalf p _ _ | .guardComplement p _ _ | .wideSelWrite p _ | .edgArmWrite p _ | .carShadowWrite p _ _ | .timIncIntWrite p _
  | .timOutCtrlWrite p _ _ | .timOutTgtHiWrite p _ _ | .timOutPerHiWrite p _ _ | .timOutWidthWrite p _ _ | .gsvDenToggleWrite p _
  | .adcGoWrite p _ | .accLclrWrite p _ | .lpeRunWrite p _ | .lpeMemWrite p _ _ | .thmBrokenWrite p _ _ _ | .secPresClose p | .secDbgClose p | .holdRequest p | .sleepRequest p => some p
  | _ => none

/-- A register field of which a host write does no more than store its value: RW, in force at once, with no action of its own, and
read back as it is stored. -/
def Fld.stores (f : Fld) : Bool :=
  let a := f.addr
  let within (lo hi : Nat) : Bool := decide (lo ≤ a) && decide (a < hi)
  decide (f.acc = .rw) && decide (f.app = .imm) && !f.selfClear
    && !(within 0x6100 0x61A0 || within 0x6200 0x6240 || within 0x7000 0x9000 || within 0x9400 0x9600 || within 0xA000 0xB000 || within 0xE000 0xF000)
    && !(a = 0x6014 || a = 0x6024 || f = F.CLK_ALARM_HI || a = 0x9004 || a = 0x5004 || a = 0xC01C || f = F.EDG_ARM || f = F.GSV_DEN_EN)

/-! ## Faults -/

/-- The collector has taken a message of a source (R385): the last message of that source says kind and instance. -/
def Reported (t : State) (fs kind inst : Nat) : Prop :=
  ∃ m : Msg, tget none t.dev.flt.last fs = some m ∧ m.fs = fs ∧ m.kind = kind ∧ m.inst = inst

/-- No TRIP input is asserted, so device time that passes trips nothing (R153). -/
def Dev.noTrip (d : Dev) : Bool := (List.range 16).all fun k => d.rd (F.EDG_TRIP_LEVEL k) = 0

/-- No pin of a local pair waits for its turn-on and none has an edge to come, so device time that passes moves none (R137). -/
def Dev.noPin (d : Dev) : Bool := (List.range 16).all fun k => (d.pair k).want.isNone && (d.pair k).ahead.isEmpty

end Sys2Proof.Machine
end

