-- ==== Sys2Proof/Certificates/Slice0/Obligations.lean ====
section
/-! DEFINITION. The statements about the block that the provers are asked to settle. -/
open Sys2Proof Sys2Proof.Machine

/-- For every command c and state s: if c stands at the front of the queue, a step of s is exec of c on s with the rest
of the queue. Rests on R408, R431, entry 3 of the assumption log. -/
def Obligations.StepRunsTheFrontCommand : Prop :=
  ∀ (s : State) (c : Instr) (r : List Instr), s.pending = c :: r → step s = exec c { s with pending := r }

/-- The model's own choice (entry 3): with an empty queue a step carries out what the block does of itself (a copy, a
delivery, the next packet, an instant whose time has come, or one clock edge), it always answers a next state, and
the queue stays empty. Rests on R37, R411, entry 3 of the assumption log. -/
def Obligations.EmptyQueueStepCompletes : Prop :=
  ∀ s : State, s.pending = [] → ∃ t : State, step s = .next t ∧ t.pending = []

/-- For every command and every state, exec answers a next state whose queue is the one it was given: no command faults,
none is refused, none sends a command of its own. Rests on R408, R431, R510. -/
def Obligations.EveryCommandCompletesAndKeepsTheQueue : Prop :=
  ∀ (c : Instr) (s : State), ∃ t : State, exec c s = .next t ∧ t.pending = s.pending

/-- In the state after reset every register field of the address map reads its reset value (of the spec's register
tables, or where they give none the value named in the assumption log), the run state is BOOT, no command waits, no
lockout stands, no fault is held, and each port is without packets, replies and keep-alive. Rests on R460, R510,
R414, R442. -/
def Obligations.ResetLeavesEveryFieldAtItsResetValue : Prop :=
  (∀ f : Fld, f.rst < 2 ^ f.width → State.reset.dev.rd f = f.rst) ∧ State.reset.dev.run = .boot ∧ State.reset.dev.waits = [] ∧ State.reset.pending = [] ∧
  State.reset.vault.lockout = false ∧ State.reset.vault.first = none ∧ State.reset.vault.comp = none ∧
  (∀ p, (State.reset.dev.port p).replies = [] ∧ (State.reset.dev.port p).rings = [] ∧ State.reset.dev.live p = false)

/-- From every state in which the lockout latch is set, every command but the two power-on resets (of VDD_CORE alone,
and of VAON with VDD_CORE) answers a state in which it is set, and so does a step with an empty queue. A power-on
reset of VDD_CORE clears it and sets PREV_LOCKOUT, which every command keeps but FLT_CLEAR with its PREV flag and
the power-on of VAON, in whose domain it is held. Formalises R391. -/
def Obligations.OnlyCorePowerOnClearsTheLockout : Prop :=
  (∀ (s t : State) (c : Instr), s.vault.lockout = true → c ≠ .vaonPowerOn → c ≠ .corePowerOn → exec c s = .next t → t.vault.lockout = true) ∧
  (∀ s t : State, s.vault.lockout = true → s.pending = [] → step s = .next t → t.vault.lockout = true) ∧
  (∀ s : State, Does .corePowerOn s fun t => t.vault.lockout = false ∧ t.vault.prevLockout = (s.vault.prevLockout || s.vault.lockout)) ∧
  (∀ (s t : State) (c : Instr), s.vault.prevLockout = true → c ≠ .vaonPowerOn → (∀ h ps, c = .fltClear h ps → bitOf (pw ps 0) 1 = false) →
    exec c s = .next t → t.vault.prevLockout = true)

/-- From every state whose first-fault pair has a FIRST, every command but FLT_CLEAR with its FF flag and the power-on
of VAON (the pair is held in the AON domain) answers a state with the same FIRST, and with the same COMP where that
was filled. Rests on R392, R401, R516. -/
def Obligations.FirstFaultPairStandsUntilCleared : Prop :=
  ∀ (s t : State) (c : Instr), s.vault.first.isSome = true → c ≠ .vaonPowerOn → (∀ h ps, c = .fltClear h ps → bitOf (pw ps 0) 0 = false) →
    exec c s = .next t → t.vault.first = s.vault.first ∧ (s.vault.comp.isSome = true → t.vault.comp = s.vault.comp)

/-- From every state, every command but FUSE_WRITE, KEY_PROVISION, OWNER_KEY, HALLMARK (which retires a slot whose key
fails) and the two boots (whose self-check may retire one) answers a state with the same OTP words and the same
record of words written by FUSE_WRITE. Rests on R332, R495, R500, R501, R502. -/
def Obligations.FusesChangeOnlyByTheirOwnCommands : Prop :=
  ∀ (s t : State) (c : Instr),
    (match c with
     | .fuseWrite .. | .keyProvision .. | .ownerKey .. | .hallmark .. | .porNRelease .. | .resetNRelease .. => False
     | _ => True) →
    exec c s = .next t → t.vault.otp = s.vault.otp ∧ t.vault.fused = s.vault.fused

/-- Accepted, each of NOP, IDENT, DESC_READ, STATUS, BULK_READ, FLT_LOG, TWIN_STATUS and STACK_STATUS answers the state
that differs from the one before only in that the packet has left its ring and the reply OK with the words of Tables
16-4 to 16-8 has been placed. Rests on R430, R431, R434, R437, R451, R559. -/
def Obligations.ReadingCommandsOnlyReply : Prop :=
  (∀ (s : State) (h : Hdr) (ps : List Word), s.accepts 0x0000 h ps (nopCmd h) = true → exec (.nop h ps) s = .next (s.answered 0x0000 h ps [])) ∧
  (∀ (s : State) (h : Hdr) (ps : List Word), s.accepts 0x0001 h ps (identCmd h) = true →
    exec (.ident h ps) s = .next (s.answered 0x0001 h ps
      ([0x9096, 0x42 + s.vault.otpRd 1 % 2 * 256, if s.dev.sec.recovery then 0 else s.dev.rd F.SEC_FW_FW_VER,
        s.dev.rd F.SEC_BOOT_IMAGE + s.dev.sec.stackId % 8 * 16 + b2n s.dev.sec.twinRole * 256] ++ (List.range 4).map fun i => s.vault.otpRd (4 + i)))) ∧
  (∀ (s : State) (h : Hdr) (ps : List Word), s.accepts 0x0002 h ps (descReadCmd h ps) = true →
    exec (.descRead h ps) s = .next (s.answered 0x0002 h ps
      (s.dev.olg.gen.toNat :: (List.range (pw ps 1)).map fun i => le ((s.dev.takePkt 0x0002 h ps).olgBytes s.vault) (pw ps 0 + 4 * i) 4))) ∧
  (∀ (s : State) (h : Hdr) (ps : List Word), s.accepts 0x0003 h ps (statusCmd h) = true →
    exec (.status h ps) s = .next (s.answered 0x0003 h ps
      ([(s.taking 0x0003 h ps).status0, s.dev.olg.gen.toNat] ++ [0x4114, 0x90004, 0x9004, 0x68004, 0x6004].map fun x => (s.taking 0x0003 h ps).regWord x false))) ∧
  (∀ (s : State) (h : Hdr) (ps : List Word), s.accepts 0x0006 h ps (bulkReadCmd h ps) = true →
    exec (.bulkRead h ps) s = .next (s.answered 0x0006 h ps ((List.range (pw ps 2)).map fun i => leNat (s.dev.getGuarded h.port (pw ps 1 + 4 * i) 4)))) ∧
  (∀ (s : State) (h : Hdr) (ps : List Word), s.accepts 0x0600 h ps (fltLogCmd h ps) = true →
    exec (.fltLog h ps) s = .next (s.answered 0x0600 h ps (s.dev.fltLogWords (bitOf (pw ps 0) 0) (pw ps 1) (pw ps 2)))) ∧
  (∀ (s : State) (h : Hdr) (ps : List Word), s.accepts 0x0800 h ps (twinStatusCmd h) = true →
    exec (.twinStatus h ps) s = .next (s.answered 0x0800 h ps
      [(s.taking 0x0800 h ps).regWord 0xC004 false, s.dev.rd F.TWN_EPOCH, s.dev.twn.pState.getD 0, (s.taking 0x0800 h ps).regWord 0xC018 false,
        (s.taking 0x0800 h ps).regWord 0xC01C false])) ∧
  (∀ (s : State) (h : Hdr) (ps : List Word), s.accepts 0x0900 h ps (stackStatusCmd h) = true →
    exec (.stackStatus h ps) s = .next (s.answered 0x0900 h ps [(s.taking 0x0900 h ps).regWord 0xD004 false, s.dev.rd F.STK_EPOCH, s.dev.rd F.STK_D_MAX]))

/-- Accepted, each of these commands answers the state in which its packet has left its ring, its one effect has
happened and the reply OK stands; nothing else changes. KEEPALIVE: the port's keep-alive (once the Olgen table is
built, or in recovery). BULK_WRITE: the data enters its target. STAGE_OPEN: an empty set of the port is open beside
a copy of the applied STG values. STAGE_ABORT: the open set and that copy are gone and a STAGE_APPLY that waits
replies ABANDONED, mirrored by an active twin. CAPTURE_READ: the entries read leave the FIFO. TWIN_PREFER: the
preference. GUARD_UNLOCK: the port's guard lock and mismatch window clear. RUN: the run state, mirrored.
MODULE_READ: the lane's two-wire master has read so many bytes of the chosen address, and the bytes are replied.
Rests on R414, R437, R438, R441, R452, R472, R334, R454, Table 16-11. -/
def Obligations.CommandsDoneAtOnce : Prop :=
  (∀ (s : State) (h : Hdr) (ps : List Word), s.accepts 0x0004 h ps (keepaliveCmd h) = true →
    exec (.keepalive h ps) s = .next (s.answered 0x0004 h ps [s.dev.rd (F.HST_KA_PERIOD h.port)]
      fun d => if d.olg.built || d.sec.recovery then d.keepalive h.port else d)) ∧
  (∀ (s : State) (h : Hdr) (ps : List Word), s.accepts 0x0005 h ps (bulkWriteCmd h ps) = true →
    exec (.bulkWrite h ps) s = .next (s.answered 0x0005 h ps [pw ps 1 + (wordBytes (ps.drop 2)).length]
      fun d => d.bulkPut h.port (pw ps 0) (pw ps 1) (wordBytes (ps.drop 2)))) ∧
  (∀ (s : State) (h : Hdr) (ps : List Word), s.accepts Config.opStageOpen h ps (stageOpenCmd h) = true →
    exec (.stageOpen h ps) s = .next (s.answered Config.opStageOpen h ps [] fun d => { d with stg := [], stage := some ⟨h.port, none⟩, stgCopy := some (stgRegs d.regs) })) ∧
  (∀ (s : State) (h : Hdr) (ps : List Word), s.accepts Config.opStageAbort h ps (stageAbortCmd h ps) = true →
    exec (.stageAbort h ps) s = .next (s.answered Config.opStageAbort h ps []
      fun d => ({ d with stg := [], stage := none, stgCopy := none }.abandon [.stageApply] 0).mirror (.cmd Config.opStageAbort ps d.dueNext))) ∧
  (∀ (s : State) (h : Hdr) (ps : List Word), s.accepts 0x0703 h ps (captureReadCmd h ps) = true →
    exec (.captureRead h ps) s = .next (s.answered 0x0703 h ps (takeCaps (bits (pw ps 0) 8 4) (s.dev.caps (pw ps 0 % 4)))
      fun d => { d with time := { d.time with caps := tput [] d.time.caps (pw ps 0 % 4) ((s.dev.caps (pw ps 0 % 4)).drop (bits (pw ps 0) 8 4)) } })) ∧
  (∀ (s : State) (h : Hdr) (ps : List Word), s.accepts 0x0801 h ps (twinPreferCmd h ps) = true →
    exec (.twinPrefer h ps) s = .next (s.answered 0x0801 h ps [] fun d => d.wr F.TWN_CTRL_PREF (pw ps 0 % 2))) ∧
  (∀ (s : State) (h : Hdr) (ps : List Word), s.accepts 0x0F03 h ps (guardUnlockCmd h) = true →
    exec (.guardUnlock h ps) s = .next (s.answered 0x0F03 h ps []
      fun d => (d.wr (guardLock h.port) 0).upPort h.port fun q => { q with mmWin := none })) ∧
  (∀ (s : State) (h : Hdr) (ps : List Word), s.accepts 0x0303 h ps (runCmd h ps) = true →
    exec (.run h ps) s = .next (s.answered 0x0303 h ps [] fun d => (d.setRun .run).mirror (.cmd 0x0303 ps d.dueNext))) ∧
  (∀ (s : State) (h : Hdr) (ps : List Word) (b : List Byte), s.accepts 0x0A02 h ps (moduleReadCmd h ps (some b)) = true →
    exec (.moduleRead h ps (some b)) s = .next (s.answered 0x0A02 h ps ((List.range ((pw ps 1 + 3) / 4)).map fun i => le (b.take (pw ps 1)) (4 * i) 4)
      (·.busDo (pw ps 0 % 32) [⟨if bitOf (pw ps 0) 8 then 0xA2 else 0xA0, bits (pw ps 0) 16 8, pw ps 1⟩])))

/-- Accepted, each of these commands answers the state in which its packet has left its ring, what it sets at once is
set, it is the last of the commands that wait, and an active twin has mirrored it with its boundary; no reply is
placed and nothing else changes. NET_SEND with its last fragment waits with the whole frame; with MORE it replies
and keeps the fragment. Rests on R431, R443, R444, R445, R321, R242, R354, R373, R454, R80, R455, R342. -/
def Obligations.CommandsThatWaitBeforeTheyReply : Prop :=
  (∀ (s : State) (h : Hdr) (ps : List Word), s.accepts 0x0300 h ps (armCmd h ps) = true →
    exec (.arm h ps) s = .next (s.begun 0x0300 h ps (fun d => { kind := .arm, hdr := h, op := 0x0300, due := some d.dueNext })
      (fun d => some (d.dueNext + BitVec.ofNat 32 (2 - d.frame.safeRecs))))) ∧
  (∀ (s : State) (h : Hdr) (ps : List Word), s.accepts 0x0301 h ps (prechargeCmd h ps) = true →
    exec (.precharge h ps) s = .next (s.begun 0x0301 h ps (fun _ => { kind := .precharge, hdr := h, op := 0x0301 }) (fun d => some d.dueNext) (·.startPrecharge ps))) ∧
  (∀ (s : State) (h : Hdr) (ps : List Word), s.accepts 0x0302 h ps (softStartCmd h ps) = true →
    exec (.softStart h ps) s = .next (s.begun 0x0302 h ps (fun d => { kind := .softStart, hdr := h, op := 0x0302, due := some d.dueNext, arg := [pw ps 0 % 2] })
      (fun d => some d.dueNext))) ∧
  (∀ (s : State) (h : Hdr) (ps : List Word), s.accepts 0x0400 h ps (beadBypassCmd h ps) = true →
    exec (.beadBypass h ps) s = .next (s.begun 0x0400 h ps (fun _ => { kind := .bypass, hdr := h, op := 0x0400, arg := [pw ps 0 % 128] }) (fun d => some d.dueNext))) ∧
  (∀ (s : State) (h : Hdr) (ps : List Word), s.accepts 0x0401 h ps (beadInsertCmd h ps) = true →
    exec (.beadInsert h ps) s = .next (s.begun 0x0401 h ps (fun _ => { kind := .insert, hdr := h, op := 0x0401, arg := [pw ps 0 % 128] }) (fun d => some d.dueNext))) ∧
  (∀ (s : State) (h : Hdr) (ps : List Word), s.accepts 0x0402 h ps (beadRetireCmd h ps) = true →
    exec (.beadRetire h ps) s = .next (s.begun 0x0402 h ps (fun _ => { kind := .retire, hdr := h, op := 0x0402, arg := [pw ps 0 % 128, b2n (bitOf (pw ps 0) 8)] })
      (fun d => some d.dueNext))) ∧
  (∀ (s : State) (h : Hdr) (ps : List Word), s.accepts 0x0403 h ps (beadEnableToggleCmd h ps) = true →
    exec (.beadEnableToggle h ps) s = .next (s.begun 0x0403 h ps (fun _ => { kind := .toggle, hdr := h, op := 0x0403, arg := [pw ps 0 % 128] })
      (fun d => some d.dueNext) (·.startToggle (pw ps 0 % 128)))) ∧
  (∀ (s : State) (h : Hdr) (ps : List Word), s.accepts 0x0502 h ps (coefSwapCmd h ps) = true →
    exec (.coefSwap h ps) s = .next (s.begun 0x0502 h ps (fun d => { kind := .coefSwap, hdr := h, op := 0x0502, due := some (d.frame.k + 1) })
      (fun d => some (d.frame.k + 1)) (·.wr F.LPE_COEF_SWAP_PEND 1))) ∧
  (∀ (s : State) (h : Hdr) (ps : List Word), s.accepts 0x0802 h ps (twinHandbackCmd h) = true →
    exec (.twinHandback h ps) s = .next (s.begun 0x0802 h ps (fun _ => { kind := .handback, hdr := h, op := 0x0802 }) (fun _ => none)
      (·.upTwn fun t => { t with hbkAsk := true }))) ∧
  (∀ (s : State) (h : Hdr) (ps : List Word), s.accepts 0x0901 h ps (stackReclaimCmd h) = true →
    exec (.stackReclaim h ps) s = .next (s.begun 0x0901 h ps (fun _ => { kind := .reclaim, hdr := h, op := 0x0901 }) (fun _ => none)
      fun d => d.upStk fun t => { t with rcl := some ((seqOf d.dueNext + 7) % 65536) })) ∧
  (∀ (s : State) (h : Hdr) (ps : List Word), s.accepts 0x0A00 h ps (rateCmd h ps) = true →
    exec (.rate h ps) s = .next (s.begun 0x0A00 h ps (fun _ => { kind := .rate, hdr := h, op := 0x0A00, arg := [pw ps 0 % 32] }) (fun _ => none)
      (·.bringUp (pw ps 0 % 32) (bits (pw ps 0) 8 2)))) ∧
  (∀ (s : State) (h : Hdr) (ps : List Word), s.accepts 0x0A01 h ps (loopTestCmd h ps) = true →
    exec (.loopTest h ps) s = .next (s.begun 0x0A01 h ps 
      (fun d => { kind := .loopTest, hdr := h, op := 0x0A01, due := some (d.frame.k + BitVec.ofNat 32 (pw ps 1 % 65536)), since := d.time.rt, arg := [pw ps 0 % 32, bits (pw ps 0) 8 2, bits (pw ps 0) 12 1, bits (pw ps 0) 16 4, pw ps 1 % 65536] })
      (fun _ => none) fun d => (d.wr (F.LANE_STAT_TEST (pw ps 0 % 32)) 1).setLane (pw ps 0 % 32)
        { d.lane (pw ps 0 % 32) with out := if bits (pw ps 0) 8 2 = 0 then .idle else .prbs (bitOf (pw ps 0) 12) })) ∧
  (∀ (s : State) (h : Hdr) (ps : List Word), s.accepts 0x0A02 h ps (moduleReadCmd h ps none) = true →
    exec (.moduleRead h ps none) s = .next (s.begun 0x0A02 h ps (fun d => { kind := .moduleRead, hdr := h, op := 0x0A02, since := d.time.rt, arg := [pw ps 0 % 32] }) (fun _ => none)
      (·.busDo (pw ps 0 % 32) [⟨if bitOf (pw ps 0) 8 then 0xA2 else 0xA0, bits (pw ps 0) 16 8, 0⟩]))) ∧
  (∀ (s : State) (h : Hdr) (ps : List Word), s.accepts 0x0B00 h ps (netSendCmd h ps) = true →
    let b := ((s.dev.port h.port).frag.getD []) ++ (wordBytes (ps.drop 1)).take (bits (pw ps 0) 16 11)
    exec (.netSend h ps) s = .next (
      if bitOf (pw ps 0) 2 then s.answered 0x0B00 h ps [] (·.upPort h.port fun q => { q with frag := some b })
      else if b.length < 60 ∨ 1518 < b.length then
        s.withDev (((s.dev.takePkt 0x0B00 h ps).upPort h.port fun q => { q with frag := none }).reply h 0x0B00 .badParam 0 [])
      else s.begun 0x0B00 h ps (fun _ => { kind := .net, hdr := h, op := 0x0B00 }) (fun _ => none)
        (·.upPort h.port fun q => { q with frag := none, netWait := some (pw ps 0 % 2, b, h, bitOf (pw ps 0) 1) })))

/-- Accepted, LP_LOAD OPEN opens a session of the port with the size and no bytes; COMMIT takes the whole valid image of
the session (R254), ends the session and lets an active twin mirror the image; ABORT ends the session; LP_VERIFY
stores the result of R233 and replies its words, or VERIFY_FAIL with the code and the entry. Each replies at once,
and nothing else changes. Rests on R233, R254, R342, R437, R449. -/
def Obligations.LoopProgramSessions : Prop :=
  (∀ (s : State) (h : Hdr) (ps : List Word), s.accepts 0x0500 h ps (lpLoadOpenCmd h ps) = true →
    exec (.lpLoadOpen h ps) s = .next (s.answered 0x0500 h ps []
      fun d => (d.upLpe fun l => { l with load := some (h.port, pw ps 1, []) }).mirror (.cmd 0x0500 ps d.dueNext))) ∧
  (∀ (s : State) (h : Hdr) (ps : List Word), pw ps 0 % 4 = 1 → s.accepts 0x0500 h ps (lpLoadCommitCmd h) = true →
    ∃ b : List Byte, s.dev.lpImage = some b ∧ imageOk b = true ∧
      exec (.lpLoadCommit h ps) s = .next (s.answered 0x0500 h ps []
        fun d => ((d.loadImage b).upLpe fun l => { l with load := none }).mirror (.cmd 0x0500 (1 :: toWords (b.length / 4 + 1) b) d.dueNext))) ∧
  (∀ (s : State) (h : Hdr) (ps : List Word), pw ps 0 % 4 = 2 → s.accepts 0x0500 h ps (lpLoadAbortCmd h ps) = true →
    exec (.lpLoadAbort h ps) s = .next (s.answered 0x0500 h ps [] fun d => (d.upLpe fun l => { l with load := none }).mirror (.cmd 0x0500 ps d.dueNext))) ∧
  (∀ (s : State) (h : Hdr) (ps : List Word), s.accepts 0x0501 h ps (lpVerifyCmd h ps) = true →
    let d := s.dev.takePkt 0x0501 h ps
    let e := d.lpVerify.mirror (.cmd 0x0501 ps d.dueNext)
    exec (.lpVerify h ps) s = .next (s.withDev (
      if e.rd F.LPE_VFY_CODE = 0 then
        e.replyOk h 0x0501 [0, e.rd F.LPE_VFY_ENTRY, e.rd F.LPE_VFYCYC_WCET_CYC, e.rd F.LPE_VFYCNT_WCET_CNT, e.rd F.TWN_SYNCW]
      else e.reply h 0x0501 .verifyFail (e.rd F.LPE_VFY_CODE + e.rd F.LPE_VFY_ENTRY * 65536) [])))

/-- Accepted, FW_UPDATE OPEN ends an open session, opens one of the port on the slot that was not booted and holds that
slot retired; the only message it can send is OLG_CHANGED. COMMIT writes the slot, makes it preferred with TRIES 0
and a valid boot control block, ends the session and gives the slot back, where the flash fails it replies
FLASH_ERROR with the offset and keeps the session, and where what was written is malformed, too old or not signed it
is refused. ABORT ends the session: the slot holds what was written. Rests on R484, R496, R499, Table 16-9. -/
def Obligations.FirmwareUpdateSessions : Prop :=
  (∀ (s : State) (h : Hdr) (ps : List Word), s.accepts 0x0F00 h ps (fwOpenCmd h ps) = true →
    Leaves (.fwUpdateOpen h ps) s fun d ms =>
      let slot := 1 - s.dev.rd F.SEC_BOOT_IMAGE
      d.sec.sess = some ⟨h.port, pw ps 1, slot, []⟩ ∧ d.sec.retired.contains slot = true ∧ d.nv = s.dev.dropSess.nv ∧ (∀ f : Fld, d.rd f = s.dev.rd f) ∧
        (∀ m ∈ ms, m.tag = (99, 0, 0)) ∧ Replied (s.withDev d) h 0x0F00 .ok 0 [slot]) ∧
  (∀ (s : State) (h : Hdr) (ps : List Word) (x : FwSess) (o : Nat), pw ps 0 % 4 = 1 → s.dev.fwSession h.port = some x →
    s.passes 0x0F00 h ps = true → s.dev.p2 h.port = true →
    match s.vault.commitRefused x with
    | some r => exec (.fwUpdateCommit h ps none) s = .next (s.refused 0x0F00 h ps r) ∧ exec (.fwUpdateCommit h ps (some o)) s = .next (s.refused 0x0F00 h ps r)
    | none =>
      (Leaves (.fwUpdateCommit h ps none) s fun d ms =>
        d.nv = { s.dev.nv.setSlot x.slot x.slotNow with bcbValid := true, pref := x.slot, tries := 0 } ∧ d.sec.sess = none ∧
          d.sec.retired = s.dev.sec.retired.filter (· ≠ x.slot) ∧ (∀ f : Fld, d.rd f = s.dev.rd f) ∧ (∀ m ∈ ms, m.tag = (99, 0, 0)) ∧
          Replied (s.withDev d) h 0x0F00 .ok 0 [x.slot]) ∧
      (let d := s.dev.takePkt 0x0F00 h ps;
        exec (.fwUpdateCommit h ps (some o)) s = .next (s.withDev
          ({ d with sec := { d.sec with sess := some { x with bytes := tput none x.bytes o none } } }.reply h 0x0F00 .flashError o [])))) ∧
  (∀ (s : State) (h : Hdr) (ps : List Word) (x : FwSess), pw ps 0 % 4 = 2 → s.dev.fwSession h.port = some x → s.accepts 0x0F00 h ps (fwAbortCmd h) = true →
    exec (.fwUpdateAbort h ps) s = .next (s.answered 0x0F00 h ps [x.slot] fun d => { d with nv := d.nv.setSlot x.slot x.slotNow, sec := { d.sec with sess := none } }))

/-- Accepted, FUSE_WRITE writes its OTP word once and records it; OWNER_KEY writes the offered key into the next owner
slot; HALLMARK with a key that passes its self-check (the stored public key is the one derived, and signing and
verifying went well) places the signed record in the port's guarded data and replies its length and CRC, with a key
that fails it retires the slot with KEY_SLOT_FAIL; KEY_PROVISION on a part without a key in use writes a fresh pair
into the first free slot and marks it written once it passes its self-check, or retired with KEY_SLOT_FAIL;
DEBUG_OPEN opens what its mask names for the given seconds and raises DEBUG_OPENED with the port. Rests on R332,
R495, R500, R501, R502, R503, R505, Table 18-3. -/
def Obligations.KeysFusesAndDebugAccess : Prop :=
  (∀ (s : State) (h : Hdr) (ps : List Word), s.accepts 0x0F06 h ps (fuseWriteCmd h ps) = true →
    exec (.fuseWrite h ps) s = .next { s.answered 0x0F06 h ps [] with
      vault := { s.vault with otp := tput 0 s.vault.otp (pw ps 0) (BitVec.ofNat 32 (pw ps 1)), fused := s.vault.fused ++ [pw ps 0] } }) ∧
  (∀ (s : State) (h : Hdr) (ps : List Word), s.accepts 0x0F02 h ps (ownerKeyCmd h ps) = true →
    let j := 384 + 40 * s.vault.owners
    exec (.ownerKey h ps) s = .next { s.answered 0x0F02 h ps [] with
      vault := { s.vault with otp := tput 0 (otpPut s.vault.otp (j + 1) (s.dev.getGuarded h.port 0 133)) j 0x5A5A0002 } }) ∧
  (∀ (s : State) (h : Hdr) (ps : List Word) (k : Nat), s.vault.idSlot = some k → s.vault.keyMatches k = true → s.accepts 0x0F04 h ps (hallmarkCmd h ps true) = true →
    let body := (s.taking 0x0F04 h ps).hallmarkBody k ps
    let b := body ++ ecdsaSign (s.vault.idScalar k) s.dev.random (sha512 body)
    exec (.hallmark h ps true) s = .next (s.answered 0x0F04 h ps [772, crc32c b] fun d => (d.putGuarded h.port b).fresh)) ∧
  (∀ (s : State) (h : Hdr) (ps : List Word) (k : Nat) (x : Bool), s.vault.idSlot = some k → (x && s.vault.keyMatches k) = false →
    s.accepts 0x0F04 h ps (hallmarkCmd h ps x) = true → Does (.hallmark h ps x) s fun t => t.vault.otp = tput 0 s.vault.otp (idWord k) 0x5A5A00FF ∧ Reported t 36 0 k) ∧
  (∀ (s : State) (h : Hdr) (ps : List Word) (k : Nat), s.vault.idSlot = none → s.vault.idFree = some k → s.accepts 0x0F01 h ps (keyProvisionCmd h) = true →
    let v := s.vault.putKey k s.dev.random
    Does (.keyProvision h ps) s fun t => t.vault.fused = s.vault.fused ∧
      (if v.selfCheck k then t.vault.otp = tput 0 v.otp (idWord k) 0x5A5A0001
        else t.vault.otp = tput 0 v.otp (idWord k) 0x5A5A00FF ∧ Reported t 36 0 k)) ∧
  (∀ (s : State) (h : Hdr) (ps : List Word), s.accepts 0x0F05 h ps (debugOpenCmd h ps) = true →
    Leaves (.debugOpen h ps) s fun d ms =>
      d.sec = { s.dev.sec with dbgEnd := some (s.dev.time.rt + pw ps 1 * 64000000000) } ∧ d.rd F.SEC_DBG_SINCE = 1 ∧
        (bitOf (pw ps 0) 0 = true → d.rd F.SEC_DBG_DEBUG = 1) ∧ (bitOf (pw ps 0) 1 = true → d.rd F.SEC_DBG_LOUPE = 1) ∧
        (∀ f : Fld, f.addr ≠ F.SEC_DBG_DEBUG.addr → f.lo < 32 → d.rd f = s.dev.rd f) ∧ ms.map Msg.tag = [(82, 0, h.port)] ∧ Replied (s.withDev d) h 0x0F05 .ok 0 [])

/-- Accepted, REG_RD reads its words in address order as window reads (with the ACTIVE flag the values in force) and
replies them; REG_RD_WIDE replies the snapshot of its selector and carries out its side effect; REG_WR carries out
its words as window writes and replies OK, or REG_LOCKED with the first address whose write was ignored; REG_WR_PAIR
writes the value and then its complement at 100000h above, and replies REG_LOCKED with the address of an ignored
half. The messages sent are those of the writes. Rests on R9, R407, R408, R434, R435, R436, R477, R478. -/
def Obligations.RegisterCommands : Prop :=
  (∀ (s : State) (h : Hdr) (ps : List Word), s.accepts 0x0100 h ps (regRdCmd h ps) = true →
    let r := (s.taking 0x0100 h ps).readWords h.port (pw ps 0) h.active (pw ps 1)
    exec (.regRd h ps) s = .next (s.withDev (r.1.d.replyOk h 0x0100 r.2))) ∧
  (∀ (s : State) (h : Hdr) (ps : List Word) (ws : List Nat), s.accepts 0x0103 h ps (regRdWideCmd h ps) = true →
    (s.taking 0x0103 h ps).wideWords (pw ps 0 % 65536) = some ws →
    exec (.regRdWide h ps) s = .next (s.answered 0x0103 h ps ws (·.wideDone (pw ps 0 % 65536) ws))) ∧
  (∀ (s : State) (h : Hdr) (ps : List Word), s.accepts 0x0101 h ps (regWrCmd h ps) = true →
    let r := (s.taking 0x0101 h ps).writeWords h.port (pw ps 0) ((ps.drop 1).map (·.toNat))
    Leaves (.regWr h ps) s fun d ms => ms = r.1.ms ∧
      d = (match r.2 with
        | none => r.1.d.replyOk h 0x0101 []
        | some a => r.1.d.reply h 0x0101 .regLocked a [])) ∧
  (∀ (s : State) (h : Hdr) (ps : List Word), s.accepts 0x0102 h ps (regWrPairCmd h ps) = true →
    let r := (s.taking 0x0102 h ps).writeWord h.port (pw ps 0) (pw ps 1)
    let q := r.1.writeWord h.port (pw ps 0 + 0x100000) (0xFFFFFFFF - pw ps 1)
    Leaves (.regWrPair h ps) s fun d ms => ms = q.1.ms ∧
      d = (if r.2 then q.1.d.reply h 0x0102 .regLocked (pw ps 0) []
        else if q.2 then q.1.d.reply h 0x0102 .regLocked (pw ps 0 + 0x100000) []
        else q.1.d.replyOk h 0x0102 []))

/-- Accepted, FLT_INJECT sends one message with the INJ mark and the source, kind, instance and reaction of its
parameter, and replies the time it carries; the device is otherwise unchanged but for the packet and the reply.
FLT_CLEAR clears TRIPPED and CLASSMAX, with bit 0 the first-fault pair, with bit 1 PREV_LOCKOUT, leaves the lockout
latch, and replies FLT_STAT. Rests on R393, R401, R451, R432. -/
def Obligations.FaultCommands : Prop :=
  (∀ (s : State) (h : Hdr) (ps : List Word), s.accepts 0x0601 h ps (fltInjectCmd h ps) = true →
    Leaves (.fltInject h ps) s fun d ms => d = (s.dev.takePkt 0x0601 h ps).replyOk h 0x0601 [s.dev.ns % 2 ^ 32] ∧
      ms = [{ fs := pw ps 0 % 128, kind := bits (pw ps 0) 8 8, inst := bits (pw ps 0) 16 12, inj := true, time := s.dev.ns % 2 ^ 32, react := bitOf (pw ps 0) 28, cyc := 0 }]) ∧
  (∀ (s : State) (h : Hdr) (ps : List Word), s.accepts 0x0602 h ps (fltClearCmd h ps) = true →
    ∃ x : Nat,
    exec (.fltClear h ps) s = .next { s.answered 0x0602 h ps [x] fun d => (d.wr F.FLT_STAT_TRIPPED 0).wr F.FLT_STAT_CLASSMAX 0 with
      vault := { s.vault with
        first := if bitOf (pw ps 0) 0 then none else s.vault.first, comp := if bitOf (pw ps 0) 0 then none else s.vault.comp,
        prevLockout := s.vault.prevLockout && !bitOf (pw ps 0) 1 } } ∧
    ∀ f : Fld, f ∈ fieldsAt 0x9004 → bits x f.lo f.width =
      (if f = F.FLT_STAT_LOCKOUT then b2n s.vault.lockout
        else if f = F.FLT_STAT_PREV_LOCKOUT then b2n (s.vault.prevLockout && !bitOf (pw ps 0) 1)
        else if f = F.FLT_STAT_FF_VALID then b2n (s.vault.first.isSome && !bitOf (pw ps 0) 0)
        else if f = F.FLT_STAT_COMP_VALID then b2n (s.vault.comp.isSome && !bitOf (pw ps 0) 0)
        else if f = F.FLT_STAT_TRIPPED ∨ f = F.FLT_STAT_CLASSMAX then 0
        else s.dev.rd f % 2 ^ f.width))

/-- Accepted, TIME_INC brings both halves of the increment into force at once and changes nothing else. TIME_STEP moves
TIM_NOW and FRM_ORIGIN by its signed offset at the next TIM clock edge, sets STEPPED, clears COARSE, sends
TIME_STEPPED last with the sign, exponent and mantissa of the offset in ns, and replies the new TIM_NOW. PULSE_SET
writes every register of its output, its period and its target, which arms the output, or waits where a pulse is in
progress in a mode that goes on; registers outside the output's block stay. Rests on R16, R38, R41, R42, R43, R47,
R51, R52, R452, Table 14-3. -/
def Obligations.TimeCommands : Prop :=
  (∀ (s : State) (h : Hdr) (ps : List Word), s.accepts 0x0701 h ps (timeIncCmd h ps) = true →
    exec (.timeInc h ps) s = .next (s.answered 0x0701 h ps []
      fun d => { (d.wr F.TIM_INC_FRAC (pw ps 0)).wr F.TIM_INC_INT (pw ps 1) with time := { d.time with incI := pw ps 1, incF := pw ps 0 } })) ∧
  (∀ (s : State) (h : Hdr) (ps : List Word), s.accepts 0x0700 h ps (timeStepCmd h ps) = true →
    let t := s.dev.time
    let off := sext 64 (pw ps 0 + pw ps 1 * 2 ^ 32)
    let edge : BitVec 64 := BitVec.ofNat 64 ((t.now.toNat * 2 ^ 32 + t.rem.toNat + (t.incI * 2 ^ 32 + t.incF)) / 2 ^ 32)
    Leaves (.timeStep h ps) s fun d ms =>
      d.time.now = edge + BitVec.ofInt 64 off ∧ d.frame.origin = s.dev.frame.origin + BitVec.ofInt 64 off ∧ d.time.rt = t.rt + 512 ∧
        d.rd F.TIM_STAT_STEPPED = 1 ∧ d.rd F.TIM_STAT_COARSE = 0 ∧
        (∀ f : Fld, f.addr ≠ F.TIM_STAT_STEPPED.addr → f.still = true → d.rd f = s.dev.rd f) ∧
        (∃ e m : Nat, ms.getLast?.map Msg.tag = some (74, b2n (decide (off < 0)) * 128 + e, m) ∧ m = off.natAbs / 65536 / 2 ^ e ∧ m < 4096 ∧ (e = 0 ∨ 2048 ≤ m)) ∧
        Replied (s.withDev d) h 0x0700 .ok 0 [d.time.now.toNat % 2 ^ 32, d.time.now.toNat / 2 ^ 32]) ∧
  (∀ (s : State) (h : Hdr) (ps : List Word), s.accepts 0x0702 h ps (pulseSetCmd h ps) = true →
    let n := pw ps 0 % 8
    let mode := pw ps 1 % 4
    let go : BitVec 64 := BitVec.ofNat 64 (pw ps 3 * 2 ^ 32 + pw ps 2)
    let wait : Bool := (s.dev.out n).active && decide (mode ≠ 0)
    n < 5 ∧ Does (.pulseSet h ps) s fun t =>
      t.dev.rd (F.TIM_OUT_CTRL_MODE n) = mode ∧ t.dev.rd (F.TIM_OUT_CTRL_POL n) = bits (pw ps 1) 2 1 ∧ t.dev.rd (F.TIM_OUT_CTRL_PEND n) = 1 ∧
        t.dev.rd (F.TIM_OUT_TGT_LO n) = pw ps 2 ∧ t.dev.rd (F.TIM_OUT_TGT_HI n) = pw ps 3 ∧ t.dev.rd (F.TIM_OUT_PER_LO n) = pw ps 4 ∧
        t.dev.rd (F.TIM_OUT_PER_HI n) = pw ps 5 % 65536 ∧ t.dev.rd (F.TIM_OUT_WIDTH n) = pw ps 6 ∧
        (t.dev.out n).per = pw ps 5 % 65536 * 2 ^ 32 + pw ps 4 ∧
        (if wait then (t.dev.out n).held = some go ∧ (t.dev.out n).target = (s.dev.out n).target else (t.dev.out n).target = go ∧ (t.dev.out n).armed = true) ∧
        (∀ m : Nat, m ≠ n → t.dev.out m = s.dev.out m) ∧
        (∀ f : Fld, f.lo < 32 → (f.addr < 0x6100 + 32 * n ∨ 0x6120 + 32 * n ≤ f.addr) → t.dev.rd f = s.dev.rd f) ∧
        t.vault = s.vault ∧ t.dev.time.now = s.dev.time.now ∧ t.dev.run = s.dev.run ∧ t.dev.waits = s.dev.waits)

/-- From an energised run state (neither IDLE nor QUIESCED), an accepted QUIESCE answers the run state QUIESCED and an
accepted STOP the run state IDLE. From both, the edge engine is in the safe state; entered now, no channel and no
timebase is enabled or runs, and nothing is planned; no ARM, PRECHARGE or SOFT_START waits any more, while every
other waiting command stays; the protected part is unchanged. STOP clears LPE_CTRL.RUN at the next boundary and,
while the frame generator runs, waits for it. In IDLE and QUIESCED a QUIESCE ends only an ARM that waits. Rests on
R158, R159, R161, R342, R446, R447, R508. -/
def Obligations.QuiesceAndStopEnterTheSafeState : Prop :=
  (∀ (s : State) (h : Hdr) (ps : List Word), s.dev.run ≠ .idle → s.dev.run ≠ .quiesced → s.accepts 0x0304 h ps (quiesceCmd h ps) = true →
    Does (.quiesce h ps) s fun t =>
      t.dev.run = .quiesced ∧ t.dev.rd F.EDG_STAT_QUIESCED = 1 ∧ t.dev.rd F.CLK_STAT_PSTATE = 1 ∧ t.vault = s.vault ∧
        t.dev.waits = (s.dev.waits.filter fun x => !([WaitKind.arm, .precharge, .softStart].contains x.kind)) ∧
        (s.dev.safe = false → (∀ c < 256, t.dev.rd (F.CH_CTRL_EN c) = 0) ∧ (∀ b < 64, t.dev.rd (F.TB_CTRL_EN b) = 0 ∧ t.dev.rd (F.TB_STAT_RUN b) = 0) ∧
          t.dev.edge.plan = [] ∧ t.dev.edge.next = [])) ∧
  (∀ (s : State) (h : Hdr) (ps : List Word), s.dev.run ≠ .idle → s.dev.run ≠ .quiesced → s.accepts 0x0305 h ps (stopCmd h ps) = true →
    Does (.stop h ps) s fun t =>
      t.dev.run = .idle ∧ t.dev.rd F.EDG_STAT_QUIESCED = 1 ∧ t.dev.rd F.CLK_STAT_PSTATE = 1 ∧ t.vault = s.vault ∧
        (t.dev.waits = (s.dev.waits.filter fun x => !([WaitKind.arm, .precharge, .softStart].contains x.kind)) ++
          (if s.dev.running then [{ kind := .stop, hdr := h, op := 0x0305, due := some (s.dev.frame.k + 1) }] else [])) ∧
        (if s.dev.running then tget [] t.dev.frm F.LPE_CTRL_RUN.key = [(0, s.dev.frame.k + 1)] else t.dev.rd F.LPE_CTRL_RUN = 0) ∧
        (s.dev.safe = false → (∀ c < 256, t.dev.rd (F.CH_CTRL_EN c) = 0) ∧ (∀ b < 64, t.dev.rd (F.TB_CTRL_EN b) = 0 ∧ t.dev.rd (F.TB_STAT_RUN b) = 0) ∧
          t.dev.edge.plan = [] ∧ t.dev.edge.next = [])) ∧
  (∀ (s : State) (h : Hdr) (ps : List Word), s.dev.run = .idle ∨ s.dev.run = .quiesced → s.dev.safe = true → s.accepts 0x0304 h ps (quiesceCmd h ps) = true →
    Does (.quiesce h ps) s fun t => t.dev.run = s.dev.run ∧ t.vault = s.vault ∧ t.dev.waits = (s.dev.waits.filter fun x => x.kind ≠ .arm) ∧
      ∀ f : Fld, f.lo < 32 → f.key ≠ F.EDG_STAT_SAFE.key → f.key ≠ F.GSV_DEN_LVL.key → t.dev.rd f = s.dev.rd f)

/-- Accepted, STAGE_APPLY of a set that breaks an agreement rule replies STAGE_INCONSISTENT with the lowest offending
address, tells it by notification 0x04, and leaves the set open and every register field as it was. A set that
breaks none waits for the next boundary before whose plan instant it came, while the frame generator runs; while it
stands, every field of the set has its value at once and every other STG field the value of the copy that STAGE_OPEN
made, the set is closed and the reply is OK with word 0 = 0; only OLG_CHANGED and refused turn-ons can be reported.
Rests on R30, R438, R439, R440, R464, Table 15-3, Table 16-3. -/
def Obligations.StageApplyTakesTheWholeSetOrNothing : Prop :=
  (∀ (s : State) (h : Hdr) (ps : List Word) (a : Nat), s.accepts Config.opStageApply h ps (stageApplyCmd h ps) = true →
    (s.dev.takePkt Config.opStageApply h ps).stageOffence = some a →
    exec (.stageApply h ps) s = .next (s.withDev
      (((s.dev.takePkt Config.opStageApply h ps).notify 4 [9, if s.dev.running then seqOf s.dev.dueNext else 0]).reply h Config.opStageApply .stageInconsistent a []))) ∧
  (∀ (s : State) (h : Hdr) (ps : List Word), s.accepts Config.opStageApply h ps (stageApplyCmd h ps) = true →
    (s.dev.takePkt Config.opStageApply h ps).stageOffence = none → s.dev.running = true →
    exec (.stageApply h ps) s = .next (s.begun Config.opStageApply h ps (fun d => { kind := .stageApply, hdr := h, op := Config.opStageApply, due := some d.dueNext })
      (fun d => some d.dueNext) fun d => { d with stage := some ⟨h.port, some d.dueNext⟩ })) ∧
  (∀ (s : State) (h : Hdr) (ps : List Word), s.accepts Config.opStageApply h ps (stageApplyCmd h ps) = true →
    (s.dev.takePkt Config.opStageApply h ps).stageOffence = none → s.dev.running = false →
    Leaves (.stageApply h ps) s fun d ms => d.stage = none ∧ d.stg = [] ∧ d.stgCopy = none ∧ d.run = s.dev.run ∧ d.waits = s.dev.waits ∧ Replied (s.withDev d) h Config.opStageApply .ok 0 [0] ∧
      (∀ m ∈ ms, m.fs = 17 ∨ m.tag = (99, 0, 0)) ∧
      ∀ f : Fld, f.app = .stg → fldOf f.key = some f → twf none s.dev.stg = true →
        d.rd f = (match tget none s.dev.stg f.key with | some v => v % 2 ^ f.width | none => s.dev.copied f))

/-- For every row that is a command packet: one that fails a check answers the state in which only the packet has left
its ring and the reply with the first failing status and its DETAIL stands; while the firmware does not take it (it
is dark, a command of the same ring or locket waits, or the reply has no room), nothing changes; where an active
twin lets the command wait for the next boundary, it is held and nothing else changes; a packet that is not this
row's, or from no host port, changes nothing. Rests on R329, R342, R431, R432, R433, R498. -/
def Obligations.PacketsAreJudgedInOrder : Prop :=
  (∀ (c : Instr) (s : State) (r : PacketRow) (x : Status × Nat), packetRow c = some r → r.mine = true → s.judges r.op r.h r.ps = true →
    s.verdict r.op r.h r.ps r.cmd = some x → exec c s = .next (s.refused r.op r.h r.ps x)) ∧
  (∀ (c : Instr) (s : State) (r : PacketRow), packetRow c = some r → s.dev.takes r.op r.h = false → exec c s = .next s) ∧
  (∀ (c : Instr) (s : State) (r : PacketRow), packetRow c = some r → r.mine = true → r.h.port < 2 → s.dev.takes r.op r.h = true →
    (s.dev.takePkt r.op r.h r.ps).holdsCmd r.op = true →
    exec c s = .next (s.withDev ((s.dev.takePkt r.op r.h r.ps).upTwn fun t => { t with held := t.held ++ [⟨r.op, r.h, r.ps⟩] }))) ∧
  (∀ (c : Instr) (s : State) (r : PacketRow), packetRow c = some r → r.mine = false ∨ 2 ≤ r.h.port → exec c s = .next s)

/-- With the lockout latch set, a well-formed packet of an opcode that R390 does not leave (a LOCKET_REQUIRED one
through its locket) is refused with STATE_INVALID, which carries STATUS word 0, and answers the state in which only
the packet has left its ring and that reply stands. Rests on R390, R432, R433. -/
def Obligations.LockoutLeavesOnlyTheListedCommands : Prop :=
  ∀ (c : Instr) (s : State) (r : PacketRow), packetRow c = some r → r.mine = true → s.judges r.op r.h r.ps = true → s.vault.lockout = true →
    lockoutOk r.op = false → badForm r.h r.op r.ps = none → exec c s = .next (s.refused r.op r.h r.ps (.stateInvalid, (s.taking r.op r.h r.ps).status0))

/-- For every row that is a transaction of a host port: in HOLD and SLEEP it answers the state in which nothing is put
out and WAKE_STAT bit 1 is set; nothing else changes. Before POR_N is released nothing is put out and nothing
changes (R523). Before the entry, while a request stands, the transaction is executed and the cause is recorded too.
Rests on R520, R521, R517, R523. -/
def Obligations.TransactionsInHoldAndSleepOnlyWake : Prop :=
  (∀ (c : Instr) (s : State) (p : Nat), hostRow c = some p → s.dev.timStopped = true →
    exec c s = .next (s.withDev ((s.dev.putIo (portNo p) []).setBit F.CLK_WAKE_STAT_WAKE 1))) ∧
  (∀ (c : Instr) (s : State) (p : Nat), hostRow c = some p → s.dev.hosted = false → s.dev.timStopped = false → s.dev.sec.pwrReq = none →
    exec c s = .next (s.withDev (s.dev.putIo (portNo p) []))) ∧
  (∀ (s : State) (p : Nat), s.dev.hosted = true → s.dev.sec.pwrReq.isSome = true →
    exec (.statusRead p) s = .next (s.withDev (((s.dev.putIo (portNo p) []).setBit F.CLK_WAKE_STAT_WAKE 1).putIo (portNo p)
      [((s.trans p).up (·.setBit F.CLK_WAKE_STAT_WAKE 1)).regWord (0x7004 + portNo p * 256) false])))

/-- On a port that may move words: WINDOW_READ puts out the words from the address on, with the side effects of the
reads and its own clock shown as running; WINDOW_WRITE carries out its words as writes in address order, with their
messages; STATUS_READ puts out HST_PSTAT; RING_PUSH with a valid packet that fits appends it to its ring and nothing
else; REPLY_POP and MBX_RECV put out their words and take the entry only when it is clocked out in full; MBX_SEND
fills an empty send buffer, or an empty locket at once, and counts a full one as busy and an ill-formed one as an
error; any other instruction puts out nothing and counts BAD_INSTR. On a port that may move words: a RING_PUSH whose
length, header, CRC or room is wrong leaves every ring as it was, counts PKT_BAD, sets ERR, records ring, reason (2,
1 or 3 in the order of the checks) and opcode in HST_ERRLAST, and sends HOST_PKT_ERR with the reason and the port.
An MBX_SEND with an unlisted index, a wrong length or a cut counts MBX_ERR, one whose send buffer still waits
MBX_BUSY, each with ERR, and stores nothing. Rests on R405, R407, R408, R409, R410, R412, R413, R422, R423. -/
def Obligations.HostPortInstructionsAndTheirRefusals : Prop :=
  ((∀ (s : State) (p : Nat) (a : Word) (n : Nat), s.hostOn = true →
    let r := (s.trans p).readWords (portNo p) a.toNat false n
    exec (.windowRead p a n) s = .next (s.withDev (r.1.d.putIo (portNo p) (r.2.zipIdx.map fun x => hostSeen ((a.toNat + 4 * x.2) % 2 ^ 32) x.1)))) ∧
  (∀ (s : State) (p : Nat) (a : Word) (ws : List Word), s.hostOn = true →
    let r := (s.trans p).writeWords (portNo p) a.toNat (ws.map (·.toNat))
    Leaves (.windowWrite p a ws) s fun d ms => d = r.1.d ∧ ms = r.1.ms) ∧
  (∀ (s : State) (p : Nat), s.hostOn = true →
    exec (.statusRead p) s = .next (s.withDev (s.dev.putIo (portNo p) [(s.trans p).regWord (0x7004 + portNo p * 256) false]))) ∧
  (∀ (s : State) (p ring : Nat) (b : List Byte), s.hostOn = true → 20 ≤ b.length → b.length = 20 + 4 * le b 6 2 → pktHeader b false (ring % 16) = true → pktCrc b = true →
    ((s.dev.port (portNo p)).ring (ring % 16)).length < 8 → (((s.dev.port (portNo p)).ring (ring % 16)).map Pkt.size).sum + b.length ≤ 4096 →
    exec (.ringPush p ring b) s = .next (s.withDev ((s.dev.putIo (portNo p) []).upPort (portNo p) fun q =>
      { q with rings := tput [] q.rings (ring % 16) (q.ring (ring % 16) ++ [pktOf b (portNo p) false (ring % 16)]) }))) ∧
  (∀ (s : State) (p : Nat) (net : Bool) (n : Nat), s.hostOn = true →
    let q := s.dev.port (portNo p)
    let l := if net then q.netq.map NetFrame.bytesOut else q.replies
    let full := decide ((popWords l).length ≤ n)
    exec (.replyPop p net n) s = .next (s.withDev ((s.dev.putIo (portNo p) ((popWords l).take n)).upPort (portNo p) fun q =>
      { q with netq := if full && net then q.netq.drop 1 else q.netq, replies := if full && !net then q.replies.drop 1 else q.replies }))) ∧
  (∀ (s : State) (p idx : Nat) (ws : List Word), s.hostOn = true → 8 ≤ ws.length → ws.length ≤ 16 →
    ((idx = 2 ∨ idx = 3) → tget [] (s.dev.port (portNo p)).send idx = [] →
      exec (.mbxSend p idx ws false) s = .next (s.withDev ((s.dev.putIo (portNo p) []).upPort (portNo p) fun q => { q with send := tput [] q.send idx ws }))) ∧
    (8 ≤ idx → idx < 12 → tget [] (s.dev.port (portNo p)).send idx = [] →
      exec (.mbxSend p idx ws false) s = .next (s.withDev ((s.dev.putIo (portNo p) []).upPort (portNo p) fun q =>
        if tget [] q.inb (idx - 8) = [] then { q with inb := tput [] q.inb (idx - 8) ws } else { q with send := tput [] q.send idx ws })))) ∧
  (∀ (s : State) (p idx n : Nat), s.hostOn = true → idx < 4 →
    let b := (s.dev.port (portNo p)).box idx
    exec (.mbxRecv p idx n) s = .next (s.withDev ((s.dev.putIo (portNo p)
        ((b.words.length + b2n b.full * 256) :: (List.range n).map fun i => (b.words.getD i 0).toNat)).upPort (portNo p) fun q =>
      if b.full && decide (b.words.length ≤ n) then { q with mbx := tput {} q.mbx idx { b with full := false } } else q))) ∧
  (∀ (s : State) (p : Nat), s.hostOn = true →
    exec (.hostBadInstruction p) s = .next (s.withDev (((s.dev.putIo (portNo p) []).inc (F.HST_ERR_BAD_INSTR (portNo p))).wr (F.HST_IRQ_STAT_ERR (portNo p)) 1)))) ∧
  ((∀ (s : State) (p ring : Nat) (b : List Byte), s.hostOn = true →
    let q := (s.dev.port (portNo p)).ring (ring % 16)
    let form := decide (20 ≤ b.length) && decide (b.length = 20 + 4 * le b 6 2) && pktHeader b false (ring % 16)
    let why := if !form then 2 else if !pktCrc b then 1 else 3
    (form = false ∨ pktCrc b = false ∨ 8 ≤ q.length ∨ 4096 < (q.map Pkt.size).sum + b.length) →
    Leaves (.ringPush p ring b) s fun d ms => (d.port (portNo p)).rings = (s.dev.port (portNo p)).rings ∧
      d.rd (F.HST_ERR_PKT_BAD (portNo p)) = min (s.dev.rd (F.HST_ERR_PKT_BAD (portNo p)) + 1) 255 ∧ d.rd (F.HST_IRQ_STAT_ERR (portNo p)) = 1 ∧
      d.rd (F.HST_ERRLAST_RING (portNo p)) = ring % 16 ∧ d.rd (F.HST_ERRLAST_REASON (portNo p)) = why ∧
      d.rd (F.HST_ERRLAST_OPCODE (portNo p)) = (if 4 ≤ b.length then le b 2 2 else 0) ∧ ms.map Msg.tag = [(79, why, portNo p)]) ∧
  (∀ (s : State) (p idx : Nat) (ws : List Word) (cut : Bool), s.hostOn = true →
    let q := s.dev.port (portNo p)
    let listed := decide (idx = 2) || decide (idx = 3) || (decide (8 ≤ idx) && decide (idx < 12))
    let ill := !listed || cut || decide (ws.length < 8) || decide (16 < ws.length)
    (ill = true → exec (.mbxSend p idx ws cut) s = .next (s.withDev (((s.dev.putIo (portNo p) []).inc (F.HST_ERR_MBX_ERR (portNo p))).wr (F.HST_IRQ_STAT_ERR (portNo p)) 1))) ∧
    (ill = false → tget [] q.send idx ≠ [] →
      exec (.mbxSend p idx ws cut) s = .next (s.withDev (((s.dev.putIo (portNo p) []).inc (F.HST_ERR_MBX_BUSY (portNo p))).wr (F.HST_IRQ_STAT_ERR (portNo p)) 1)))))

/-- MBX_COPY moves a waiting message to the other port's plain mailbox that is not FULL, sets FULL there and clears the
sender's GO; one for a locket goes to the locket's empty inbound buffer. LOCKET_TAKE with a valid packet takes it
out of the inbound buffer for the firmware. NOTIFICATION_DELIVER moves the oldest notification into its mailbox that
is not FULL, with its type, length 8, the next number of that mailbox and the overflow mark. LOG_WRITE takes the
head of the collector's queue, and where no mark is due writes it at LOG_SEQ and AON_SEQ of the logs it goes to.
LOG_WRITE of an entry for the RAM log, when a mark is due or the last mark's bits of device time and epoch differ
from the present ones, writes first a FLT_MARK with those bits and then the entry, and LOG_SEQ advances by two; with
no mark due and the same bits it advances by one. Rests on R395, R396, R397, R421, R422, R424, R429, Table 15-3. -/
def Obligations.NotificationsMailboxesAndMarkedLogs : Prop :=
  ((∀ (s : State) (p idx : Nat), (idx = 2 ∨ idx = 3) → tget [] (s.dev.port (portNo p)).send idx ≠ [] → ((s.dev.port (other (portNo p))).box idx).full = false →
    let ws := tget [] (s.dev.port (portNo p)).send idx
    exec (.mbxCopy p idx) s = .next (s.withDev ((s.dev.upPort (portNo p) fun q => { q with send := tput [] q.send idx [] }).upPort (other (portNo p)) fun q =>
      { q with mbx := tput {} q.mbx idx { q.box idx with words := ws, full := true } }))) ∧
  (∀ (s : State) (p idx : Nat), 8 ≤ idx → idx < 12 → tget [] (s.dev.port (portNo p)).send idx ≠ [] → tget [] (s.dev.port (portNo p)).inb (idx - 8) = [] →
    exec (.mbxCopy p idx) s = .next (s.withDev (s.dev.upPort (portNo p) fun q =>
      { q with send := tput [] q.send idx [], inb := tput [] q.inb (idx - 8) (tget [] q.send idx) }))) ∧
  (∀ (s : State) (p l : Nat), l < 4 → tget [] (s.dev.port (portNo p)).inb l ≠ [] → tget [] (s.dev.port (portNo p)).outb l = [] → tget none (s.dev.port (portNo p)).taken l = none →
    let b := wordBytes (tget [] (s.dev.port (portNo p)).inb l)
    pktHeader b true l = true → 20 + 4 * le b 6 2 ≤ b.length → pktCrc b = true →
    exec (.locketTake p l) s = .next (s.withDev (s.dev.upPort (portNo p) fun q =>
      { q with inb := tput [] q.inb l [], taken := tput none q.taken l (some (pktOf b (portNo p) true l)) }))) ∧
  (∀ (s : State) (p m : Nat) (x : Note) (r : List Note), m < 2 → ((s.dev.port (portNo p)).box m).full = false →
    (tget {} (s.dev.port (portNo p)).notes m).q = x :: r →
    Does (.notificationDeliver p m) s fun t =>
      let n := tget {} (s.dev.port (portNo p)).notes m
      let n' := tget {} (t.dev.port (portNo p)).notes m
      let b := (t.dev.port (portNo p)).box m
      n'.q = r ∧ n'.ovf = false ∧ n'.seq = (n.seq + 1) % 256 ∧ b.full = true ∧ b.nseq = (n.seq + 1) % 256 ∧ b.words.length = 8 ∧
        b.words.take (2 + x.words.length) = (([BitVec.ofNat 32 (x.type % 256 + 8 * 2 ^ 8 + (n.seq + 1) % 256 * 2 ^ 16 + b2n n.ovf * 2 ^ 24), BitVec.ofNat 32 x.time] ++ x.words).take 8) ∧
        t.dev.port (other (portNo p)) = s.dev.port (other (portNo p)) ∧ t.dev.regs = s.dev.regs ∧ t.vault = s.vault) ∧
  (∀ (s : State) (x : LogReq) (r : List LogReq), s.dev.flt.queue = x :: r → s.dev.flt.ramMarkDue = false → s.dev.flt.ramMark = s.dev.markKey →
    s.dev.aon.markDue = false → s.dev.aon.mark = s.dev.markKey →
    Does .logWrite s fun t => t.dev.flt.queue = r ∧
      t.dev.flt.ram = (if x.ram then tput 0 s.dev.flt.ram (s.dev.rd F.FLT_LOG_SEQ % 1024) x.msg.encode else s.dev.flt.ram) ∧
      t.dev.aon.log = (if x.aon then tput 0 s.dev.aon.log (s.dev.rd F.FLT_AON_SEQ % 64) x.msg.encode else s.dev.aon.log) ∧
      t.dev.rd F.FLT_LOG_SEQ = (s.dev.rd F.FLT_LOG_SEQ + b2n x.ram) % 2 ^ 32 ∧ t.dev.rd F.FLT_AON_SEQ = (s.dev.rd F.FLT_AON_SEQ + b2n x.aon) % 2 ^ 32 ∧
      (∀ f : Fld, f.lo < 32 → f.addr ≠ 0x9008 → f.addr ≠ 0x900C → t.dev.rd f = s.dev.rd f) ∧ t.vault = s.vault)) ∧
  (∀ (s : State) (x : LogReq) (r : List LogReq), s.dev.flt.queue = x :: r → x.ram = true →
    Does .logWrite s fun t => (s.dev.flt.ramMarkDue = true ∨ s.dev.flt.ramMark ≠ s.dev.markKey →
      t.dev.flt.ramMarkDue = false ∧ t.dev.flt.ramMark = s.dev.markKey ∧ t.dev.rd F.FLT_LOG_SEQ = (s.dev.rd F.FLT_LOG_SEQ + 2) % 2 ^ 32 ∧
        tget 0 t.dev.flt.ram (s.dev.rd F.FLT_LOG_SEQ % 1024) = s.dev.markMsg.encode ∧
        tget 0 t.dev.flt.ram ((s.dev.rd F.FLT_LOG_SEQ + 1) % 2 ^ 32 % 1024) = x.msg.encode) ∧
      (s.dev.flt.ramMarkDue = false → s.dev.flt.ramMark = s.dev.markKey →
        t.dev.rd F.FLT_LOG_SEQ = (s.dev.rd F.FLT_LOG_SEQ + 1) % 2 ^ 32 ∧ tget 0 t.dev.flt.ram (s.dev.rd F.FLT_LOG_SEQ % 1024) = x.msg.encode))

/-- Once the Olgen table is built (or in recovery), an accepted KEEPALIVE and a write of 1 to KICK put their port in
LIVE, restart its period at the present real time, and outside recovery clear TRIES; no register but KA, TRIES
changes, and nothing of the protected part. KA_WARN of a LIVE port, whose timers run, sets the cause KA_WARN when at
least half the period has passed; it sends no message but those of the time that passes (a wrap, a refused turn-on
of a local pin). HOST_KEEPALIVE_LAPSE of a LIVE port whose timers run, with at least its period passed: every clasp
of the port is free and no other clasp changes; the packets of RING0 to RING13 are gone and counted in PKT_DROP; the
lockets and the guarded data are empty; the port is LAPSED with the cause LAPSED; its load and update sessions are
closed, and so is its staged set unless a plan uses the accepted values already (entry 60: a STAGE_APPLY that waits
then replies ABANDONED, which is the only reply added). The reply queue, the NET queue, RING14, the plain mailboxes
and the other waiting commands are kept, and run state, edge engine and lanes stand as they were.
HOST_KEEPALIVE_LAPSE is sent with the port as instance, behind at most the messages of the time that passes. Rests
on R414, R415, R479, R498, R437, R441, R449, R499. -/
def Obligations.KeepAlivesAndTheirLapse : Prop :=
  ((∀ (s : State) (h : Hdr) (ps : List Word), s.accepts 0x0004 h ps (keepaliveCmd h) = true → (s.dev.olg.built || s.dev.sec.recovery) = true →
    Does (.keepalive h ps) s fun t => t.dev.live h.port = true ∧ (t.dev.port h.port).kaLast = s.dev.time.rt ∧ (s.dev.sec.recovery = false → t.dev.nv.tries = 0) ∧
      Replied t h 0x0004 .ok 0 [s.dev.rd (F.HST_KA_PERIOD h.port)] ∧ t.vault = s.vault ∧ t.dev.run = s.dev.run ∧
      ∀ f : Fld, f.lo < 32 → f.key ≠ (F.HST_PSTAT_KA h.port).key → f.key ≠ F.SEC_BOOT_TRIES.key → t.dev.rd f = s.dev.rd f) ∧
  (∀ (s : State) (p : Nat), s.writes p = true → (s.dev.olg.built || s.dev.sec.recovery) = true →
    Does (.hstKick p) s fun t => t.dev.live (portNo p) = true ∧ (t.dev.port (portNo p)).kaLast = s.dev.time.rt ∧ (s.dev.sec.recovery = false → t.dev.nv.tries = 0) ∧
      t.vault = s.vault ∧ t.dev.run = s.dev.run ∧
      ∀ f : Fld, f.lo < 32 → f.key ≠ (F.HST_PSTAT_KA (portNo p)).key → f.key ≠ F.SEC_BOOT_TRIES.key → t.dev.rd f = s.dev.rd f) ∧
  (∀ (s : State) (p : Nat), s.dev.live (portNo p) = true → s.dev.frozen = none →
    Leaves (.kaWarn p) s fun d ms => d.rd (F.HST_IRQ_STAT_KA_WARN (portNo p)) = 1 ∧
      (s.dev.port (portNo p)).kaLast + s.dev.rd (F.HST_KA_PERIOD (portNo p)) * 32000000 ≤ d.time.rt ∧ s.dev.time.rt ≤ d.time.rt ∧
      (∀ m ∈ ms, m.passing = true) ∧ d.run = s.dev.run ∧ d.waits = s.dev.waits ∧
      ∀ f : Fld, f.key ≠ (F.HST_IRQ_STAT_KA_WARN (portNo p)).key → f.still = true → d.rd f = s.dev.rd f)) ∧
  (∀ (s : State) (p : Nat), s.dev.live (portNo p) = true → s.dev.frozen = none →
    let q := s.dev.port (portNo p)
    Leaves (.hostKeepaliveLapse p) s fun d ms =>
      (s.dev.port (portNo p)).kaLast + s.dev.rd (F.HST_KA_PERIOD (portNo p)) * 64000000 ≤ d.time.rt ∧
      (∀ n < 32, d.rd (F.HST_CLASP_OWNER n) = if s.dev.rd (F.HST_CLASP_OWNER n) = portNo p + 1 then 0 else s.dev.rd (F.HST_CLASP_OWNER n)) ∧
      (∀ r < 14, (d.port (portNo p)).ring r = []) ∧ (∀ i < 4, tget [] (d.port (portNo p)).send (8 + i) = []) ∧ (d.port (portNo p)).ring 14 = q.ring 14 ∧
      d.rd (F.HST_ERR2_PKT_DROP (portNo p)) = min (s.dev.rd (F.HST_ERR2_PKT_DROP (portNo p)) + ((List.range 14).map fun r => (q.ring r).length).sum) 65535 ∧
      (d.port (portNo p)).inb = [] ∧ (d.port (portNo p)).guarded = [] ∧
      d.rd (F.HST_PSTAT_KA (portNo p)) = 2 ∧ d.rd (F.HST_IRQ_STAT_LAPSED (portNo p)) = 1 ∧
      (d.port (portNo p)).netq = q.netq ∧ (d.port (portNo p)).mbx = q.mbx ∧
      (s.dev.abortable (portNo p) = true → d.stage = none ∧ d.stg = [] ∧ d.stgCopy = none ∧ d.waits = (s.dev.waits.filter fun x => x.kind ≠ .stageApply)) ∧
      (s.dev.abortable (portNo p) = false → d.stage = s.dev.stage ∧ d.stg = s.dev.stg ∧ d.stgCopy = s.dev.stgCopy ∧ d.waits = s.dev.waits ∧
        (d.port (portNo p)).outb = [] ∧ (d.port (portNo p)).replies = q.replies) ∧
      d.fwSession (portNo p) = none ∧ d.lpSession (portNo p) = false ∧
      d.run = s.dev.run ∧ { d.edge with pairs := s.dev.edge.pairs } = s.dev.edge ∧ d.lanes = s.dev.lanes ∧
      (∃ l : List Msg, ms.map Msg.tag = l.map Msg.tag ++ [(78, 0, portNo p)] ∧ ∀ m ∈ l, m.passing = true))

/-- CLASP_WRITE of a port whose writes count, to a clasp that is not reserved: the own number takes a free clasp when
the port is LIVE and 0 releases an own one, each told by notification 0x08; the own number on an own clasp changes
nothing; every other case, and every write to a reserved clasp (CLASP12 to CLASP15), leaves the owner and counts
CLASP_DENY with ERR. The owner written is bits [1:0]. DOORBELL_SET sets the mask's bits in the other port's PEND and
changes nothing else. WIDE_SEL_WRITE of a selector other than the one held, by a port whose writes count, discards
the earlier snapshot and makes the new one busy; of the one held it changes nothing (R563). WIDE_SNAPSHOT_READY
makes a busy one valid with the four words of its selector (bad where the selector is unknown). WIDE3_READ, while
the ports carry out transactions, ends a valid one and carries out the selector's side effect unless it was bad.
Nothing else changes. Rests on R416, R418, R425, R390, Table 15-3, R476, R477, R478, R563. -/
def Obligations.ClaspsDoorbellsAndTheWideMailbox : Prop :=
  ((∀ (s : State) (p n : Nat) (v : Word), s.writes p = true → n < 32 → ¬ (12 ≤ n ∧ n < 16) →
    let o := s.dev.rd (F.HST_CLASP_OWNER n)
    let me := portNo p + 1
    let d := s.dev.putIo (portNo p) []
    exec (.claspWrite p n v) s = .next (s.withDev (
      if v.toNat % 4 = me ∧ o = 0 ∧ s.dev.live (portNo p) = true then (d.wr (F.HST_CLASP_OWNER n) me).notify 8 [n, me]
      else if v.toNat % 4 = me ∧ o = me then d
      else if v.toNat % 4 = 0 ∧ o = me then (d.wr (F.HST_CLASP_OWNER n) 0).notify 8 [n, 0]
      else (d.inc (F.HST_ERR2_CLASP_DENY (portNo p))).wr (F.HST_IRQ_STAT_ERR (portNo p)) 1))) ∧
  (∀ (s : State) (p n : Nat) (v : Word), s.writes p = true → 12 ≤ n → n < 16 →
    exec (.claspWrite p n v) s = .next (s.withDev (((s.dev.putIo (portNo p) []).inc (F.HST_ERR2_CLASP_DENY (portNo p))).wr (F.HST_IRQ_STAT_ERR (portNo p)) 1))) ∧
  (∀ (s : State) (p : Nat) (m : BitVec 16), s.writes p = true → m ≠ 0 →
    exec (.doorbellSet p m) s = .next (s.withDev ((s.dev.putIo (portNo p) []).wr (F.HST_DB_PEND (other (portNo p)))
      (s.dev.rd (F.HST_DB_PEND (other (portNo p))) ||| m.toNat))))) ∧
  ((∀ (s : State) (p : Nat) (sel : BitVec 16), s.writes p = true → sel.toNat ≠ (s.dev.port (portNo p)).wide.sel % 65536 →
    exec (.wideSelWrite p sel) s = .next (s.withDev ((s.dev.putIo (portNo p) []).upPort (portNo p) fun q => { q with wide := { sel := sel.toNat, busy := true } }))) ∧
  (∀ (s : State) (p : Nat) (sel : BitVec 16), s.writes p = true → sel.toNat = (s.dev.port (portNo p)).wide.sel % 65536 →
    exec (.wideSelWrite p sel) s = .next (s.withDev (s.dev.putIo (portNo p) []))) ∧
  (∀ (s : State) (p : Nat), (s.dev.port p).wide.busy = true →
    let x := (s.dev.port p).wide
    let ws := s.wk.wideWords x.sel
    exec (.wideSnapshotReady p) s = .next (s.withDev (s.dev.upPort p fun q =>
      { q with wide := { sel := x.sel, valid := true, bad := ws.isNone, words := (ws.getD []).map (BitVec.ofNat 32 ·) } }))) ∧
  (∀ (s : State) (p : Nat), s.dev.hosted = true → (s.dev.port p).wide.valid = true →
    let x := (s.dev.port p).wide
    let d := s.dev.upPort p fun q => { q with wide := { q.wide with valid := false } }
    exec (.wide3Read p) s = .next (s.withDev (if x.bad then d else d.wideDone x.sel (x.words.map (·.toNat))))))

/-- REGISTER_WRITE by a port whose writes count, to the base address of a register whose fields only store (RW, in force
at once) or are read-only, none of them held by the other port's clasp, in the other port's block or refused by
another rule: every RW field reads its bits of the written word, every other field of the register map reads as
before, and nothing but the register fields and the port's output changes. BIT_ALIAS_WRITE of one bit of such a
field sets or clears that bit of the field alone. REGISTER_WRITE to a register in the map that is neither guarded
nor a clasp, by a port with no half held, where a lockout stands or a clasp of the other port covers every field
that the write would change: no register field and nothing else of the device changes but the port's output, and
REG_WRITE_LOCKED is sent once with the port and the page, where the write would have changed a field; else nothing
is sent. Rests on R408, R460, R466, R467, R563, R461, R390, R418, R473, R427. -/
def Obligations.RegisterWritesStoreOrAreRefused : Prop :=
  ((∀ (s : State) (p : Nat) (a v : Word), s.writes p = true → a.toNat < 0x100000 → canon a.toNat = a.toNat →
    (∀ f ∈ fieldsAt a.toNat, (f.stores = true ∧ (s.trans p).refuses (portNo p) f = false) ∨ f.acc = .ro) →
    Does (.registerWrite p a v) s fun t =>
      (∀ f ∈ fieldsAt a.toNat, f.acc = .rw → t.dev.rd f = bits v.toNat f.lo f.width) ∧
      (∀ f : Fld, f.lo < 32 → (f.addr ≠ a.toNat ∨ f ∈ fieldsAt a.toNat ∧ f.acc = .ro) → t.dev.rd f = s.dev.rd f) ∧
      { t.dev with regs := s.dev.regs } = s.dev.putIo (portNo p) [] ∧ t.vault = s.vault) ∧
  (∀ (s : State) (p b : Nat) (v : Word) (f : Fld), s.writes p = true → f.addr < 0x100000 → canon f.addr = f.addr → b < 32 →
    (fieldsAt f.addr).find? (fun g => decide (g.lo ≤ b) && decide (b < g.lo + g.width)) = some f →
    f.stores = true → (s.trans p).refuses (portNo p) f = false → 
    Does (.bitAliasWrite p (BitVec.ofNat 32 (0x2000000 + b * 0x100000 + f.addr)) v) s fun t =>
      (∀ i < f.width, bitOf (t.dev.rd f) i = if i = b - f.lo then decide (v.toNat % 2 = 1) else bitOf (s.dev.rd f) i) ∧
      (∀ g : Fld, g.lo < 32 → g.key ≠ f.key → t.dev.rd g = s.dev.rd g) ∧
      { t.dev with regs := s.dev.regs } = s.dev.putIo (portNo p) [] ∧ t.vault = s.vault)) ∧
  (∀ (s : State) (p : Nat) (a v : Word), s.hostOn = true → (s.dev.port (portNo p)).half = none → a.toNat < 0x100000 → canon a.toNat = a.toNat → 0x4000 ≤ a.toNat →
    guardedReg a.toNat = false → ¬ (0x7200 ≤ a.toNat ∧ a.toNat < 0x7280) →
    (s.vault.lockout = true ∨ ∀ f ∈ fieldsAt a.toNat, ((claspsOf f).any (s.dev.claspHeld · (portNo p))) = true) →
    let hit : Bool := (fieldsAt a.toNat).any fun f => (s.trans p).changes f (bits v.toNat f.lo f.width)
    Leaves (.registerWrite p a v) s fun d ms => d = s.dev.putIo (portNo p) [] ∧ ms.map Msg.tag = (if hit then [(77, portNo p, a.toNat / 4096 % 256)] else []))

/-- GUARD_FIRST_HALF of a guarded register holds address and value and changes no register. GUARD_COMPLEMENT that
completes the held half with the complement ends the half and applies the value: PRES_CTRL as written, a class of
FLT_SEV that is at least its default (or any up to 4 in an open P1 window). Where no half is held or the pair does
not match, no register changes but the mismatch count, no half is held, GUARD_MISMATCH is sent, and at the third
mismatch of a window the port's guard is locked with GUARD_LOCK. While the guard is locked or a lockout stands, the
write is ignored with REG_WRITE_LOCKED. Rests on R469, R470, R471, R400, R472, R473. -/
def Obligations.GuardedPairsApplyOnlyInFull : Prop :=
  (∀ (s : State) (p : Nat) (a v : Word), s.writes p = true → a.toNat < 0x100000 → a.toNat % 4 = 0 → guardedReg (canon a.toNat) = true → s.dev.rdB (guardLock (portNo p)) = false →
    exec (.guardFirstHalf p a v) s = .next (s.withDev ((s.dev.putIo (portNo p) []).upPort (portNo p) fun q => { q with half := some (canon a.toNat, v.toNat) }))) ∧
  (∀ (s : State) (p : Nat) (v : Word), s.hostOn = true → s.vault.lockout = false → s.dev.rdB (guardLock (portNo p)) = false →
    (s.dev.port (portNo p)).half = some (0xA000, 0xFFFFFFFF - v.toNat) →
    Does (.guardComplement p 0x10A000 v) s fun t =>
      t.dev.rd F.SEC_PRES_CTRL_LEN = bits (0xFFFFFFFF - v.toNat) 0 9 ∧ t.dev.rd F.SEC_PRES_CTRL_PORTS = bits (0xFFFFFFFF - v.toNat) 16 2 ∧
        (t.dev.port (portNo p)).half = none ∧ (∀ f : Fld, f.lo < 32 → f.addr ≠ 0xA000 → t.dev.rd f = s.dev.rd f) ∧ t.vault = s.vault) ∧
  (∀ (s : State) (p n : Nat) (v : Word), s.hostOn = true → s.vault.lockout = false → s.dev.rdB (guardLock (portNo p)) = false → n < 128 →
    (s.dev.port (portNo p)).half = some (0x9200 + 4 * n, 0xFFFFFFFF - v.toNat) → s.dev.claspHeld 6 (portNo p) = false →
    let x := bits (0xFFFFFFFF - v.toNat) 0 3
    x < 5 → (fsDefault n ≤ x ∨ s.dev.p1 (portNo p) = true) →
    Does (.guardComplement p (BitVec.ofNat 32 (0x109200 + 4 * n)) v) s fun t =>
      t.dev.rd (F.FLT_SEV n) = x ∧ (t.dev.port (portNo p)).half = none ∧ t.vault = s.vault ∧
        (∀ f : Fld, f.lo < 32 → f.addr ≠ 0x9200 + 4 * n → f.addr ≠ 0x9600 + 4 * n → t.dev.rd f = s.dev.rd f)) ∧
  (∀ (s : State) (p : Nat) (a v : Word), s.hostOn = true → s.vault.lockout = false → s.dev.rdB (guardLock (portNo p)) = false →
    0x100000 ≤ a.toNat → a.toNat < 0x200000 → a.toNat % 4 = 0 →
    let x := canon (a.toNat % 0x100000)
    (∀ hx hv : Nat, (s.dev.port (portNo p)).half = some (hx, hv) → hx ≠ x ∨ v.toNat + hv ≠ 0xFFFFFFFF) →
    let pg := match (s.dev.port (portNo p)).half with | some (hx, _) => hx | none => x
    let third : Bool := match (s.dev.port (portNo p)).mmWin with | some (t, c) => decide (s.dev.time.rt - t < 64000000000) && decide (c = 2) | none => false
    Leaves (.guardComplement p a v) s fun d ms =>
      (d.port (portNo p)).half = none ∧ d.rd (guardMism (portNo p)) = min (s.dev.rd (guardMism (portNo p)) + 1) (2 ^ (guardMism (portNo p)).width - 1) ∧
        d.rd (guardLock (portNo p)) = b2n third ∧ ms.map Msg.tag = (75, portNo p, pg / 4096 % 256) :: (if third then [(76, 0, portNo p)] else []) ∧
        (∀ f : Fld, f.lo < 32 → f.key ≠ (guardMism (portNo p)).key → f.key ≠ (guardLock (portNo p)).key → d.rd f = s.dev.rd f)) ∧
  (∀ (s : State) (p : Nat) (a v : Word), s.hostOn = true → s.vault.lockout = true ∨ s.dev.rdB (guardLock (portNo p)) = true →
    0x100000 ≤ a.toNat → a.toNat < 0x200000 → a.toNat % 4 = 0 →
    Leaves (.guardComplement p a v) s fun d ms => d = (s.dev.putIo (portNo p) []).upPort (portNo p) (fun q => { q with half := none }) ∧
      ms.map Msg.tag = [(77, portNo p, canon (a.toNat % 0x100000) / 4096 % 256)])

/-- By a port whose writes count, with the Time clasp not the other port's: an increment from 524,032 to 524,543 brings
both halves into force (in a unit whose time is its own), another one sets INC_REJ and changes nothing; MODE 0
disarms an output and returns its pin at the next edge (that a target which waits is dropped with PEND, and that the
reserved MODE 3 is refused as R52 refuses, is entry 87's choice), MODE 1 and 2 apply where R52 holds; TGT_HI gives
the full target, PEND, and arms, or waits for the end of a pulse; PER_HI and WIDTH apply where R52 holds. A value
that breaks R52 sets REJ and leaves the field as it was. A target that is not later than now is passed at this edge.
A write of the value the field holds is no write (R563). Rests on R38, R39, R45, R48, R49, R51, R52, R563. -/
def Obligations.WritesThatSetDeviceTime : Prop :=
  (∀ (s : State) (p : Nat) (v : Word), s.writes p = true → s.dev.claspHeld 4 (portNo p) = false → s.dev.followsTime = false → v.toNat ≠ s.dev.rd F.TIM_INC_INT →
    Does (.timIncIntWrite p v) s fun t =>
      if 524032 ≤ v.toNat ∧ v.toNat ≤ 524543 then t.dev.rd F.TIM_INC_INT = v.toNat ∧ t.dev.time = { s.dev.time with incI := v.toNat, incF := s.dev.rd F.TIM_INC_FRAC }
      else t.dev.rd F.TIM_STAT_INC_REJ = 1 ∧ t.dev.rd F.TIM_INC_INT = s.dev.rd F.TIM_INC_INT ∧ t.dev.time = s.dev.time) ∧
  (∀ (s : State) (p n : Nat) (v : Word), s.writes p = true → s.dev.claspHeld 4 (portNo p) = false → n < 5 → bits v.toNat 3 1 = 0 →
    let mode := bits v.toNat 0 2
    mode ≠ s.dev.rd (F.TIM_OUT_CTRL_MODE n) →
    Does (.timOutCtrlWrite p n v) s fun t =>
      t.dev.rd (F.TIM_OUT_CTRL_POL n) = bits v.toNat 2 1 ∧
      (if mode = 0 then t.dev.rd (F.TIM_OUT_CTRL_MODE n) = 0 ∧ t.dev.rd (F.TIM_OUT_CTRL_PEND n) = 0 ∧ t.dev.out n =
          { s.dev.out n with armed := false, active := false, held := none, passed := none, edge := if (s.dev.out n).active then s.dev.time.now + BitVec.ofNat 64 s.dev.time.incI else (s.dev.out n).edge }
        else if mode ≤ 2 ∧ outRulesOk mode (s.dev.out n).per (s.dev.rd (F.TIM_OUT_WIDTH n)) = true then t.dev.rd (F.TIM_OUT_CTRL_MODE n) = mode ∧ t.dev.time.now = s.dev.time.now ∧
          t.dev.out n = (if s.dev.rd (F.TIM_OUT_CTRL_MODE n) = 0 ∧ (s.dev.out n).armed = true then (s.dev.out n).aim (s.dev.out n).target s.dev.time.now else s.dev.out n)
        else t.dev.rd (F.TIM_OUT_CTRL_MODE n) = s.dev.rd (F.TIM_OUT_CTRL_MODE n) ∧ t.dev.rd (F.TIM_OUT_CTRL_REJ n) = 1 ∧ t.dev.time = s.dev.time)) ∧
  (∀ (s : State) (p n : Nat) (v : Word), s.writes p = true → s.dev.claspHeld 4 (portNo p) = false → n < 5 → v.toNat ≠ s.dev.rd (F.TIM_OUT_TGT_HI n) →
    let go : BitVec 64 := BitVec.ofNat 64 (v.toNat * 2 ^ 32 + s.dev.rd (F.TIM_OUT_TGT_LO n))
    Does (.timOutTgtHiWrite p n v) s fun t => t.dev.rd (F.TIM_OUT_TGT_HI n) = v.toNat ∧ t.dev.rd (F.TIM_OUT_CTRL_PEND n) = 1 ∧
      t.dev.out n = (if (s.dev.out n).active then { s.dev.out n with held := some go } else (s.dev.out n).aim go s.dev.time.now)) ∧
  (∀ (s : State) (p n : Nat) (v : Word), s.writes p = true → s.dev.claspHeld 4 (portNo p) = false → n < 5 → v.toNat % 65536 ≠ s.dev.rd (F.TIM_OUT_PER_HI n) →
    let per := v.toNat % 65536 * 2 ^ 32 + s.dev.rd (F.TIM_OUT_PER_LO n)
    Does (.timOutPerHiWrite p n v) s fun t =>
      if outRulesOk (s.dev.rd (F.TIM_OUT_CTRL_MODE n)) per (s.dev.rd (F.TIM_OUT_WIDTH n)) = true then
        t.dev.rd (F.TIM_OUT_PER_HI n) = v.toNat % 65536 ∧ t.dev.out n = { s.dev.out n with per := per }
      else t.dev.rd (F.TIM_OUT_CTRL_REJ n) = 1 ∧ t.dev.rd (F.TIM_OUT_PER_HI n) = s.dev.rd (F.TIM_OUT_PER_HI n) ∧ t.dev.time = s.dev.time) ∧
  (∀ (s : State) (p n : Nat) (v : Word), s.writes p = true → s.dev.claspHeld 4 (portNo p) = false → n < 5 → v.toNat ≠ s.dev.rd (F.TIM_OUT_WIDTH n) →
    Does (.timOutWidthWrite p n v) s fun t =>
      if outRulesOk (s.dev.rd (F.TIM_OUT_CTRL_MODE n)) (s.dev.out n).per v.toNat = true then t.dev.rd (F.TIM_OUT_WIDTH n) = v.toNat ∧ t.dev.time = s.dev.time
      else t.dev.rd (F.TIM_OUT_CTRL_REJ n) = 1 ∧ t.dev.rd (F.TIM_OUT_WIDTH n) = s.dev.rd (F.TIM_OUT_WIDTH n) ∧ t.dev.time = s.dev.time) ∧
  (∀ (s : State) (p n : Nat) (v : Word), s.writes p = true → n < 5 →
    (v.toNat = s.dev.rd F.TIM_INC_INT → exec (.timIncIntWrite p v) s = .next (s.withDev (s.dev.putIo (portNo p) []))) ∧
    (v.toNat = s.dev.rd (F.TIM_OUT_TGT_HI n) → exec (.timOutTgtHiWrite p n v) s = .next (s.withDev (s.dev.putIo (portNo p) []))) ∧
    (v.toNat % 65536 = s.dev.rd (F.TIM_OUT_PER_HI n) → exec (.timOutPerHiWrite p n v) s = .next (s.withDev (s.dev.putIo (portNo p) []))) ∧
    (v.toNat = s.dev.rd (F.TIM_OUT_WIDTH n) → exec (.timOutWidthWrite p n v) s = .next (s.withDev (s.dev.putIo (portNo p) []))))

/-- By a port whose writes count, with CLASP11 not the other port's: a write of EDG_ARM with a bit set acts on all its
groups; a write to TB_PER, to CH_CMP or to CH_PHS of a channel that bead service does not manage changes the shadow
alone, the value in force stays (a period below 2 is refused with PER_REJ). A write of DEN_TOGGLE bits starts a
toggle of each of these DEN groups that does not toggle yet, and of no other. Rests on R131, R143, R144, R146, R184,
R303. -/
def Obligations.WritesToTheEdgeEngine : Prop :=
  (∀ (s : State) (p : Nat) (v : Word), s.writes p = true → s.dev.claspHeld 11 (portNo p) = false → v.toNat % 65536 ≠ 0 →
    exec (.edgArmWrite p v) s = .next (s.withDev ((s.dev.putIo (portNo p) []).armMask 65535 (v.toNat % 65536)))) ∧
  (∀ (s : State) (p t : Nat) (v : Word), s.writes p = true → s.dev.claspHeld 11 (portNo p) = false → t < 64 →
    let x := v.toNat % 2 ^ 24
    Does (.carShadowWrite p (BitVec.ofNat 32 (0x60004 + 256 * t)) v) s fun u =>
      u.dev.rd (F.TB_PER t) = s.dev.rd (F.TB_PER t) ∧
        (if x = s.dev.carVal (F.TB_PER t) % 2 ^ 24 then u.dev.shad = s.dev.shad
          else if x < 2 then u.dev.rd (F.TB_STAT_PER_REJ t) = 1 ∧ u.dev.shad = s.dev.shad else u.dev.carVal (F.TB_PER t) = x)) ∧
  (∀ (s : State) (p c : Nat) (v : Word) (f : Fld), s.writes p = true → s.dev.claspHeld 11 (portNo p) = false → c < 256 →
    f = F.CH_CMP c ∨ (f = F.CH_PHS c ∧ s.dev.managed c = false) → v.toNat % 2 ^ f.width ≠ s.dev.carVal f % 2 ^ f.width →
    Does (.carShadowWrite p (BitVec.ofNat 32 f.addr) v) s fun u => u.dev.rd f = s.dev.rd f ∧ u.dev.carVal f = v.toNat % 2 ^ f.width ∧ u.vault = s.vault) ∧
  (∀ (s : State) (p : Nat) (mask : BitVec 8), s.writes p = true → mask ≠ 0 →
    Does (.gsvDenToggleWrite p mask) s fun t => t.vault = s.vault ∧ t.dev.run = s.dev.run ∧
      ∀ m < 8, tget none t.dev.edge.den m = (if bitOf mask.toNat m = true ∧ tget none s.dev.edge.den m = none then some 0 else tget none s.dev.edge.den m) ∧
        bitOf (t.dev.rd F.GSV_DEN_TOGGLE) m = (bitOf (s.dev.rd F.GSV_DEN_TOGGLE) m || (bitOf mask.toNat m && (tget none s.dev.edge.den m).isNone)))

/-- By a port whose writes count: ADC_GO in MODE 2 starts a pass, is queued behind a running one, or is counted and
reported where one is queued; LCLR marks the accumulator; RUN of a verified program waits as the last FRM value
(applies at once while the frame generator stands), of an unverified one sets RUN_REJ; a memory word that no rule
locks is stored and every other word of both memories is as before; a 1 to BROKEN of a bead's sensor clears it and
sends SENSOR restored; CLOSE ends the port's own presence window with PRES_WINDOW, or the debug access. Of the stack
mail: GO counts MSEQ, and the read of the last word of a full message clears FULL. Rests on R195, R196, R198, R204,
R225, R233, R251, R294, R371, R488, R505. -/
def Obligations.WritesThatStartOrStopAUnit : Prop :=
  (∀ (s : State) (p c : Nat), s.writes p = true → c < 4 → s.dev.rd (F.ADC_CTRL_MODE c) = 2 →
    Leaves (.adcGoWrite p c) s fun d ms =>
      if s.dev.rdB (F.ADC_STAT_REG_RUN c) = false ∧ s.dev.rdB (F.ADC_STAT_INJ_RUN c) = false then
        d.rd (F.ADC_STAT_REG_RUN c) = 1 ∧ (d.seq c).reg = s.dev.regSlots c ∧ (d.seq c).pos = 0 ∧ ms = []
      else if s.dev.rdB (F.ADC_STAT_REG_Q c) = false then d.rd (F.ADC_STAT_REG_Q c) = 1 ∧ d.acq = s.dev.acq ∧ ms = []
      else d.rd (F.ADC_CNT_REG_OVR c) = min (s.dev.rd (F.ADC_CNT_REG_OVR c) + 1) 65535 ∧ d.acq = s.dev.acq ∧ ms.map Msg.tag = [(55, 0, c)]) ∧
  (∀ (s : State) (p a : Nat), s.writes p = true → a < 128 →
    exec (.accLclrWrite p a) s = .next (s.withDev ((s.dev.putIo (portNo p) []).setAcc a { s.dev.acc a with lclr := true }))) ∧
  (∀ (s : State) (p : Nat) (v : Bool), s.writes p = true → s.dev.claspHeld 0 (portNo p) = false →
    (v = false ∨ s.dev.rdB F.LPE_STAT_VERIFIED = true → Does (.lpeRunWrite p v) s fun t => t.dev.lastWritten F.LPE_CTRL_RUN % 2 = b2n v ∧
      (s.dev.running = true → t.dev.rd F.LPE_CTRL_RUN = s.dev.rd F.LPE_CTRL_RUN)) ∧
    (v = true → s.dev.rdB F.LPE_STAT_VERIFIED = false → s.dev.lastWritten F.LPE_CTRL_RUN % 2 = 0 →
      exec (.lpeRunWrite p v) s = .next (s.withDev ((s.dev.putIo (portNo p) []).wr F.LPE_STAT_RUN_REJ 1)))) ∧
  (∀ (s : State) (p k : Nat) (a v : Word), s.writes p = true → a.toNat % 4 = 0 → memKey a.toNat = some k → (s.trans p).memLocked (portNo p) k = false →
    Does (.lpeMemWrite p a v) s fun t =>
      (∀ i < 65536, t.dev.pmem i = if i = k then v.toNat else s.dev.pmem i) ∧ (∀ i, t.dev.smem i = if 65536 + i = k then v.toNat else s.dev.smem i) ∧
        (k < 65536 → t.dev.rd F.LPE_STAT_VERIFIED = 0) ∧
        (∀ f : Fld, f.lo < 32 → f.key ≠ F.LPE_STAT_VERIFIED.key → t.dev.rd f = s.dev.rd f) ∧ t.vault = s.vault) ∧
  (∀ (s : State) (p b j : Nat), s.writes p = true → b < 96 → j < 8 → s.dev.claspHeld 3 (portNo p) = false → s.dev.broken (8 * b + j) = true →
    Leaves (.thmBrokenWrite p false b (BitVec.ofNat 32 (2 ^ j))) s fun d ms => d.broken (8 * b + j) = false ∧ ms.map Msg.tag = [(95, 0, 8 * b + j)]) ∧
  (∀ (s : State) (p : Nat), s.writes p = true → s.dev.p1 (portNo p) = true →
    Leaves (.secPresClose p) s fun d ms => d.p1 (portNo p) = false ∧ d.rd (presFlag (portNo p)) = 0 ∧ d.p1 (other (portNo p)) = s.dev.p1 (other (portNo p)) ∧ ms.map Msg.tag = [(81, 0, 0)]) ∧
  (∀ (s : State) (p : Nat), s.writes p = true →
    exec (.secDbgClose p) s = .next (s.withDev (({ s.dev.putIo (portNo p) [] with sec := { s.dev.sec with dbgEnd := none } }.wr F.SEC_DBG_DEBUG 0).wr F.SEC_DBG_LOUPE 0))) ∧
  (∀ s : State, exec .stkMailSend s = .next (s.withDev ((s.dev.wr F.STK_MTX_CTRL_MSEQ (s.dev.rd F.STK_MTX_CTRL_MSEQ + 1)).wr F.STK_MTX_CTRL_GO 1))) ∧
  (∀ (s : State) (i : Nat), s.dev.hosted = true → exec (.stkMrxRead i) s = .next (s.withDev (
    if s.dev.rdB F.STK_MRX_STAT_FULL = true ∧ i + 1 = s.dev.rd F.STK_MRX_STAT_LEN then s.dev.wr F.STK_MRX_STAT_FULL 0 else s.dev)))

/-- A request of HOLD or SLEEP in run state IDLE and power state IDLE, with no staged set open, by a unit that is no
active twin beside a partner in STANDBY and no head of a stack of several devices, stands in CLK_PWR.REQ for the
next boundary and empties the record of wake sources; every other request is refused with REG_WRITE_LOCKED, the port
and the CLK page. An entry comes for a standing request whose boundary comes next (in the guard window, or at once
while no frames run) or has come, else the row changes nothing. HOLD_ENTRY leaves PSTATE 2, the frame generator, the
PLL and every lane stopped, no planned event, every FRM value applied, the time pair recorded, every DEN inactive,
and the lapse timers standing. SLEEP_ENTRY resets the core and keeps the AON fields, what the AON domain sees of
jumper, seal and crystal, the AON domain and the recorded pair. Rests on R47, R414, R464, R473, R513, R515, R516,
R521, Table 19-1. -/
def Obligations.HoldAndSleepRequestsAndEntries : Prop :=
  (∀ (s : State) (p : Nat), s.dev.hosted = true →
    let ok := s.dev.run = .idle ∧ s.dev.rd F.CLK_STAT_PSTATE = 1 ∧ s.dev.stage = none ∧ ¬ (s.dev.rd F.TWN_STAT_STATE = 4 ∧ s.dev.twn.pState = some 3) ∧
      ¬ ((s.dev.rd F.STK_STAT_ROLE = 1 ∨ s.dev.rd F.STK_STAT_ROLE = 4) ∧ 1 < s.dev.rd F.STK_CTRL_NDEV)
    let io := s.dev.putIo (portNo p) []
    let asks (c : Instr) (req : Nat) : Prop :=
      (ok → Does c s fun t => t.dev.rd F.CLK_PWR_REQ = req ∧ t.dev.rd F.CLK_WAKE_STAT_WAKE = 0 ∧ t.dev.sec = { s.dev.sec with pwrReq := some (req, s.dev.frame.k + 1) } ∧
        (∀ f : Fld, f.key ≠ F.CLK_PWR_REQ.key → f.key ≠ F.CLK_WAKE_STAT_WAKE.key → t.dev.rd f = s.dev.rd f) ∧
        { t.dev with regs := s.dev.regs, sec := s.dev.sec } = io ∧ t.vault = s.vault) ∧
      (¬ ok → Leaves c s fun d ms => d = (if s.dev.sec.pwrReq.isSome then io.setBit F.CLK_WAKE_STAT_WAKE 1 else io) ∧ ms.map Msg.tag = [(77, portNo p, 5)])
    asks (.holdRequest p) 1 ∧ asks (.sleepRequest p) 2) ∧
  (∀ s : State, (s.dev.entryDue 1 = false → exec .holdEntry s = .next s) ∧ (s.dev.entryDue 2 = false → exec .sleepEntry s = .next s)) ∧
  (∀ (s : State) (k : BitVec 32), s.dev.sec.pwrReq = some (1, k) → s.dev.entryDue 1 = true →
    Leaves .holdEntry s fun d ms => d.rd F.CLK_STAT_PSTATE = 2 ∧ d.rd F.CLK_STAT_LOCK = 0 ∧ d.rd F.CLK_STAT_ON = 3 ∧ d.rd F.CLK_PWR_REQ = 0 ∧ d.sec.pwrReq = none ∧
      d.rd F.SYS_FRM_CTRL_RUNNING = 0 ∧ d.frm = [] ∧ d.edge.plan = [] ∧ d.edge.next = [] ∧
      (∀ n < 24, d.rd (F.LANE_STAT_PHASE n) = 0) ∧ (∀ x < 16, d.rd (F.STR_STAT_UP x) = 0) ∧
      d.time.holdPair = some (d.time.now, d.aonTime) ∧ d.frozen.isSome = true ∧ d.rd F.GSV_DEN_LVL = 0 ∧ (∀ n < 24, (d.lane n).out = .idle) ∧
      (s.dev.running = false ∨ s.dev.frame.k = k → ms = [] ∧ d.run = s.dev.run ∧ d.frame = s.dev.frame ∧ d.time.now = s.dev.time.now ∧ d.stage = s.dev.stage ∧ d.stg = s.dev.stg ∧
        ∀ n < 32, s.dev.frm = [] → d.rd (F.HST_CLASP_OWNER n) = s.dev.rd (F.HST_CLASP_OWNER n))) ∧
  (∀ (s : State) (k : BitVec 32), s.dev.sec.pwrReq = some (2, k) → s.dev.entryDue 2 = true →
    Does .sleepEntry s fun t => t.dev.aon.asleep = true ∧ t.dev.run = .boot ∧ t.dev.waits = [] ∧ t.dev.stage = none ∧ t.dev.flt = {} ∧ t.dev.hpa = {} ∧ t.dev.hpb = {} ∧
      t.dev.sec.pwrReq = none ∧
      (∀ f : Fld, fldOf f.key = some f → f.aon = false → f ≠ F.SEC_PRES_STAT_JUMPER → f ≠ F.SEC_SEAL_INTACT → f ≠ F.CLK_STAT_XTAL → f.rst < 2 ^ f.width →
        t.dev.rd f = f.rst) ∧
      (s.dev.running = false ∨ s.dev.frame.k = k → s.dev.p1 0 = false → s.dev.p1 1 = false → s.dev.flt.queue = [] →
        t.vault = s.vault ∧ t.dev.time.holdPair = some (s.dev.time.now, t.dev.aonTime) ∧ t.dev.aon = { s.dev.aon with asleep := true } ∧
        ∀ f : Fld, fldOf f.key = some f → f.aon = true ∨ f = F.SEC_PRES_STAT_JUMPER ∨ f = F.SEC_SEAL_INTACT ∨ f = F.CLK_STAT_XTAL → s.dev.frm = [] → t.dev.rd f = s.dev.rd f))

/-- WAKE_EVENT records WAKE_N, HOST and VSENSE, SEAL of a broken seal, and ALARM when armed, once the real time of the
alarm has come. HOLD_WAKE of a device in HOLD with an enabled source recorded locks the PLL, makes PSTATE 1 and the
run state BOOT, goes on at step 6 with no bead heard, lets the lapse timers run from where they stood or from a
later kick, and with HOLD_SEED and a recorded pair sets TIM_NOW to the recorded value plus 2,000,000,000 tu for each
AON cycle since, with COARSE set, and the DEN levels follow their enables again; SLEEP_WAKE does the same to device
time and ends SLEEP. A source that is not armed or broken is not recorded, and without an enabled source, or in the
other state, the wakes change nothing. No message but those of passing time is sent. Rests on R47, R415, R517, R518,
R519, R521, R526, Table 19-3. -/
def Obligations.WakingReseedsDeviceTime : Prop :=
  (∀ (s : State) (b : Nat), b < 3 → exec (.wakeEvent b) s = .next (s.withDev (s.dev.wr F.CLK_WAKE_STAT_WAKE (s.dev.rd F.CLK_WAKE_STAT_WAKE ||| 2 ^ b)))) ∧
  (∀ (s : State) (b : Nat), (b = 3 ∧ s.dev.rd F.CLK_ALARM_HI_ALARM_ARM = 0) ∨ (b = 4 ∧ s.dev.aon.broken = false) ∨ 5 ≤ b → exec (.wakeEvent b) s = .next s) ∧
  (∀ s : State, s.dev.aon.broken = true → exec (.wakeEvent 4) s = .next (s.withDev (s.dev.wr F.CLK_WAKE_STAT_WAKE (s.dev.rd F.CLK_WAKE_STAT_WAKE ||| 16)))) ∧
  (∀ s : State, s.dev.rd F.CLK_ALARM_HI_ALARM_ARM = 1 →
    Leaves (.wakeEvent 3) s fun d ms => d.rd F.CLK_WAKE_STAT_WAKE = s.dev.rd F.CLK_WAKE_STAT_WAKE ||| 8 ∧
      s.dev.time.rt + (sext 48 (s.dev.aon.alarm + 2 ^ 48 - s.dev.aonTime)).toNat * 1953125 ≤ d.time.rt ∧ (∀ m ∈ ms, m.passing = true) ∧ d.run = s.dev.run ∧
      ∀ f : Fld, f.key ≠ F.CLK_WAKE_STAT_WAKE.key → f.still = true → d.rd f = s.dev.rd f) ∧
  (∀ s : State, (s.dev.rd F.CLK_STAT_PSTATE ≠ 2 ∨ s.dev.aon.asleep = true ∨ s.dev.rd F.CLK_WAKE_STAT_WAKE &&& s.dev.rd F.CLK_WAKE_EN = 0 →
      exec .holdWake s = .next s) ∧
    (s.dev.aon.asleep = false ∨ s.dev.rd F.CLK_WAKE_STAT_WAKE &&& s.dev.rd F.CLK_WAKE_EN = 0 → exec .sleepWake s = .next s)) ∧
  (∀ s : State, s.dev.rd F.CLK_STAT_PSTATE = 2 → s.dev.aon.asleep = false → s.dev.rd F.CLK_WAKE_STAT_WAKE &&& s.dev.rd F.CLK_WAKE_EN ≠ 0 →
    Leaves .holdWake s fun d ms => d.rd F.CLK_STAT_PSTATE = 1 ∧ d.rd F.CLK_STAT_LOCK = 1 ∧ d.rd F.CLK_START_STEP = 6 ∧ d.run = .boot ∧ d.frozen = none ∧
      d.time.holdPair = none ∧ (∀ m ∈ ms, m.passing = true) ∧
      (∀ (t : BitVec 64) (a : Nat), s.dev.time.holdPair = some (t, a) → s.dev.rd F.TIM_CTRL_HOLD_SEED = 1 →
        d.time.now = BitVec.ofNat 64 (t.toNat + (s.dev.aonTime + 2 ^ 48 - a) % 2 ^ 48 * 2000000000) ∧ d.rd F.TIM_STAT_COARSE = 1 ∧
        d.flt.ramMarkDue = true ∧ d.aon.markDue = true) ∧
      (s.dev.rd F.TIM_CTRL_HOLD_SEED = 0 → s.dev.time.holdPair.isSome = true → d.time.now = s.dev.time.now) ∧
      (∀ (r p : Nat), s.dev.frozen = some r → (d.port p).kaLast = (s.dev.port p).kaLast + (s.dev.time.rt - max r (s.dev.port p).kaLast)) ∧
      (∀ b < 96, (d.bead b).state0 = none) ∧
      ∀ f : Fld, f.lo < 32 → f.addr ≠ 0x5004 → f.addr ≠ 0x501C → f.addr ≠ 0x6004 → f.addr ≠ 0x6008 → f.key ≠ F.GSV_DEN_LVL.key → d.rd f = s.dev.rd f) ∧
  (∀ s : State, s.dev.aon.asleep = true → s.dev.rd F.CLK_WAKE_STAT_WAKE &&& s.dev.rd F.CLK_WAKE_EN ≠ 0 →
    Leaves .sleepWake s fun d ms => d.aon.asleep = false ∧ d.aon.woke = true ∧ d.time.holdPair = none ∧ (∀ m ∈ ms, m.passing = true) ∧ s.dev.time.rt ≤ d.time.rt ∧
      (∀ (t : BitVec 64) (a : Nat), s.dev.time.holdPair = some (t, a) → s.dev.rd F.TIM_CTRL_HOLD_SEED = 1 →
        d.time.now = BitVec.ofNat 64 (t.toNat + (d.aonTime + 2 ^ 48 - a) % 2 ^ 48 * 2000000000) ∧ d.rd F.TIM_STAT_COARSE = 1) ∧
      d.run = s.dev.run ∧ ∀ f : Fld, f.lo < 32 → f.addr ≠ 0x6004 → f.addr ≠ 0x6008 → d.rd f = s.dev.rd f)

/-- The power-on of VAON restores every register field, the AON domain, the first-fault pair and the latch, and keeps
the OTP. The power-on of VDD_CORE comes 2 ms after the power-on of VAON at the earliest, restores every field
outside AON but what the AON domain sees of jumper, seal and crystal, keeps the AON fields and domain, the fault
pair and real time, and clears the latch. The release of POR_N or RESET_N keeps AON and the latch, latches the
straps, and boots: the preferred slot when it is valid and fewer than three tries are counted, one try more; else
the other slot with FALLBACK; else recovery in step 2. With TEST_EN high the device stays in reset. Rests on R390,
R391, R497, R498, R501, R516, R525, R526, R535, R559, R560, Table 19-6a. -/
def Obligations.ResetsKeepTheirDomains : Prop :=
  (∀ s : State, Does .vaonPowerOn s fun t => (∀ f : Fld, f.rst < 2 ^ f.width → t.dev.rd f = f.rst) ∧ t.dev.run = .boot ∧ t.dev.waits = [] ∧ t.dev.hpa = {} ∧ t.dev.hpb = {} ∧ t.dev.aon = {} ∧
    t.vault.otp = s.vault.otp ∧ t.vault.fused = s.vault.fused ∧ t.vault.lockout = false ∧ t.vault.prevLockout = false ∧ t.vault.first = none ∧ t.vault.comp = none ∧
    t.dev.time.rt = s.dev.time.rt ∧ (s.dev.sec.sess = none → t.dev.nv = s.dev.nv)) ∧
  (∀ s : State, Does .corePowerOn s fun t => (∀ f : Fld, fldOf f.key = some f → f.aon = false → f ≠ F.SEC_PRES_STAT_JUMPER → f ≠ F.SEC_SEAL_INTACT → f ≠ F.CLK_STAT_XTAL → f.rst < 2 ^ f.width → t.dev.rd f = f.rst) ∧
    (∀ f : Fld, fldOf f.key = some f → f.aon = true ∨ f = F.SEC_PRES_STAT_JUMPER ∨ f = F.SEC_SEAL_INTACT ∨ f = F.CLK_STAT_XTAL → t.dev.rd f = s.dev.rd f) ∧
    t.dev.aon = { s.dev.aon with asleep := false } ∧
    t.dev.run = .boot ∧ t.dev.waits = [] ∧ t.dev.hpa = {} ∧ t.dev.hpb = {} ∧ t.dev.time.rt = max s.dev.time.rt (s.dev.time.aonBase + 128000000) ∧ (s.dev.sec.sess = none → t.dev.nv = s.dev.nv) ∧
    t.vault = { s.vault with lockout := false, prevLockout := s.vault.prevLockout || s.vault.lockout }) ∧
  (∀ (s : State) (id : Nat) (tw io33 : Bool), Does (.porNRelease id tw io33 true) s fun t => t.vault = s.vault ∧ t.dev.run = .boot ∧
    t.dev.rd F.CLK_START_STEP = 1) ∧
  (∀ (s : State) (id : Nat) (tw io33 : Bool) (pref tries : Nat), id < 8 →
    pref = (if s.dev.nv.bcbValid then s.dev.nv.pref % 2 else 0) → tries = (if s.dev.nv.bcbValid then s.dev.nv.tries else 0) → s.vault.bootCheck = none → s.dev.sec.sess = none →
    let boots (c : Instr) : Prop := Does c s fun t =>
      t.vault.otp = s.vault.otp ∧ t.dev.rd F.CLK_STAT_LOCK = 1 ∧ t.dev.rd F.CLK_STAT_INTOSC = 0 ∧ t.dev.rd F.STK_ID = id ∧ t.dev.rd F.TWN_STAT_UNIT = b2n tw ∧
      (s.vault.lockout = true → t.vault.lockout = true) ∧
      (∀ f : Fld, fldOf f.key = some f → f.aon = true → f.addr < 0x9000 → t.dev.rd f = s.dev.rd f) ∧
      (tries < 3 → s.vault.slotValid (s.dev.nv.slot pref) = true →
        t.dev.rd F.SEC_BOOT_IMAGE = pref ∧ t.dev.rd F.SEC_BOOT_FALLBACK = 0 ∧ t.dev.rd F.SEC_BOOT_TRIES = (tries + 1) ∧ t.dev.nv.tries = tries + 1 ∧ t.dev.rd F.CLK_START_STEP = 3 ∧
        t.dev.sec.recovery = false ∧ t.dev.rd F.SEC_SVN = hdrSvn (s.dev.nv.slot pref).head % 2 ^ 32) ∧
      (3 ≤ tries ∨ s.vault.slotValid (s.dev.nv.slot pref) = false → s.vault.slotValid (s.dev.nv.slot (1 - pref)) = true →
        t.dev.rd F.SEC_BOOT_IMAGE = 1 - pref ∧ t.dev.rd F.SEC_BOOT_FALLBACK = 1 ∧ t.dev.rd F.CLK_START_STEP = 3 ∧ t.dev.sec.recovery = false) ∧
      (3 ≤ tries ∨ s.vault.slotValid (s.dev.nv.slot pref) = false → s.vault.slotValid (s.dev.nv.slot (1 - pref)) = false →
        t.dev.sec.recovery = true ∧ t.dev.rd F.CLK_START_STEP = 2)
    (boots (.porNRelease id tw io33 false) ∧ ∀ t, exec (.porNRelease id tw io33 false) s = .next t → t.dev.sec.ioh33 = io33) ∧
    boots (.resetNRelease id tw) ∧ ∀ t, exec (.resetNRelease id tw) s = .next t → t.dev.sec.ioh33 = s.dev.sec.ioh33)

/-- BIST_COMPLETE in step 3 gives the clusters that passed, in ascending order, the codes 0 to 3, 8 and 9 and the others
Fh, takes a spare row for each row to repair (LPE_ROW_REMAP, or LPE_ROW_NOSPARE when none is left), raises
LPE_BOOT_SHORT when fewer than five passed, builds the Olgen table as generation 1 and goes on with step 5.
FRAME_GENERATOR_START in step 6 with every configured link up begins frame 0 now, but for a step of device time that
boundary 0 owes. DISCOVERY_END ends step 7 when every configured position has answered since the frame generator
started or 64 frames have passed; TIME_LOCK_STEP_END ends step 8 and makes BOOT IDLE when every COLD bead has shown
LOCK and the unit's own time is locked where it follows another, else not COARSE, or 1,024 frames have passed.
AON_CRYSTAL_STABLE sets XTAL; OLG_CRC_UPDATE makes the header's CRC follow a change. Rests on R18, R220, R253, R479,
R484, R509, R526, R527, Table 19-6. -/
def Obligations.StartUpSteps : Prop :=
  (∀ (s : State) (mask : Nat) (rows : List Nat), s.dev.rd F.CLK_START_STEP = 3 → (∀ r ∈ rows, r < 1024) →
    Leaves (.bistComplete mask rows) s fun d ms =>
      (∀ c < 6, bits (d.rd F.LPE_ROLE) (4 * c) 4 = if bitOf mask c then [0, 1, 2, 3, 8, 9].getD ((List.range c).filter fun j => bitOf mask j).length 15 else 15) ∧
      d.rd F.LPE_ECC_SPARES_LEFT = s.dev.rd F.LPE_ECC_SPARES_LEFT - rows.length ∧ d.olg.built = true ∧ d.olg.gen = 1 ∧ d.olg.spares = d.rd F.LPE_ECC_SPARES_LEFT ∧
      d.rd F.CLK_START_STEP = 5 ∧ ms.map Msg.tag = (rows.zipIdx.map fun x => if x.2 < s.dev.rd F.LPE_ECC_SPARES_LEFT then (28, 0, x.1) else (61, 0, x.1)) ++
        (if ((List.range 6).filter fun c => bitOf mask c).length < 5 then [(0, mask % 64, 0)] else []) ∧ d.run = s.dev.run ∧
      ∀ f : Fld, f.key ≠ F.LPE_ROLE.key → f.key ≠ F.LPE_ECC_SPARES_LEFT.key → f.key ≠ F.CLK_START_STEP.key → d.rd f = s.dev.rd f) ∧
  (∀ s : State, s.dev.running = false → s.dev.rd F.CLK_START_STEP = 6 → s.dev.linksUp = true →
    Leaves .frameGeneratorStart s fun d _ => d.rd F.SYS_FRM_CTRL_RUNNING = 1 ∧ d.rd F.SYS_FRM_STAT_SEQ = 0 ∧ d.rd F.SYS_FRM_STAT_WINDOW = 0 ∧ d.rd F.CLK_START_STEP = 7 ∧
      d.frame.k = 0 ∧ d.frame.base = 0 ∧
      (s.dev.time.stepDue = none → d.frame.origin = s.dev.time.now ∧ d.time.now = s.dev.time.now)) ∧
  (∀ s : State, let all := ∀ x ∈ s.dev.placed, (s.dev.bead x.1).state0.isSome = true ∧ (s.dev.rd (F.BDT_STATE x.1) ≠ 0 ∨ (s.dev.bead x.1).nodeId.isSome = true)
    (s.dev.rd F.CLK_START_STEP = 7 → all ∨ 64 ≤ s.dev.frame.k.toNat →
      exec .discoveryEnd s = .next (s.withDev ({ s.dev with sec := { s.dev.sec with stepAt := s.dev.frame.k } }.wr F.CLK_START_STEP 8))) ∧
    (s.dev.rd F.CLK_START_STEP ≠ 7 ∨ ¬ all ∧ s.dev.frame.k.toNat < 64 → exec .discoveryEnd s = .next s)) ∧
  (∀ s : State, let cold := (List.range 96).filter fun b => s.dev.rd (F.BDT_STATE b) = 1 && !((s.dev.bead b).state0.isSome && bitOf (le (s.dev.bead b).last 3 1) 0)
    let ended := (cold = [] ∧ (if s.dev.rd F.TIM_STAT_TSRC = 0 then s.dev.rd F.TIM_STAT_COARSE = 0 else s.dev.rd F.TIM_STAT_LOCK = 1)) ∨ 1024 ≤ (s.dev.frame.k - s.dev.sec.stepAt).toNat
    (s.dev.rd F.CLK_START_STEP = 8 → ended → Does .timeLockStepEnd s fun t => t.dev.rd F.CLK_START_STEP = 0 ∧ t.dev.rd F.CLK_START_NOLOCK = cold.length ∧
      t.dev.run = (if s.dev.run = .boot then .idle else s.dev.run) ∧ t.vault = s.vault ∧
      ∀ f : Fld, f.key ≠ F.CLK_START_STEP.key → f.key ≠ F.CLK_START_NOLOCK.key → f.key ≠ F.CLK_STAT_PSTATE.key → t.dev.rd f = s.dev.rd f) ∧
    (s.dev.rd F.CLK_START_STEP ≠ 8 ∨ ¬ ended → exec .timeLockStepEnd s = .next s)) ∧
  (∀ s : State, exec .aonCrystalStable s = .next (s.withDev (s.dev.wr F.CLK_STAT_XTAL 1))) ∧
  (∀ s : State, s.dev.olg.crcDue = true → exec .olgCrcUpdate s = .next (s.withDev { s.dev with olg := { s.dev.olg with crcDue := false, crc := s.dev.olgCrc s.vault } }))

/-- TWIN_LISTEN_END after 64 frames of LISTEN, in a unit that heard no header of its own number, leads to SYNC where the
partner is ACTIVE, and else to ACTIVE with the next epoch (with its own time, no trim and no LOCK where it follows
nobody any more) where the unit is preferred or hears neither path nor a bead witness. TWIN_SYNC_COMPLETE leads from
SYNC to STANDBY after 64 frames that met R343. TWIN_YIELD leads an ACTIVE unit with YIELD_EN and a partner in
STANDBY, for whom a yield is due or that three frames' witnesses have not heard, to YIELDED with its outputs safe
and DEN inactive at once. TWIN_HOLD_EXPIRE asks for a handback after HOLD ms beside a synced STANDBY partner. In
every other case nothing changes. H1_DEADLINE of a frame in which no TWIN frame came counts a miss, lowers H1_UP and
SYNCED, restarts the hold, ends a pending handback whose switch has not been made, and sends the loss of path 1 only
the first time while H2 is up; H2_DEADLINE does the same for H2 without a word. H2_WORD_RECEIVE of a valid word of
the partner, with no block in this frame, complete by 9.5 µs into the frame and before H2 is judged, clears the
count and raises H2_UP; every other word only ends HB_IN_DOWN; YIELD is what the latest word shows. H2_WORD_SEND
puts out, 500 ns after the boundary and once in a frame, the word with the marker 101b, the unit, the code of its
state and odd parity. HB_IN_DOWN is remembered for the next frame. Rests on R334, R335, R341, R343, R348, R350,
R353, R561, Table 12-2, R337, R346, R347. -/
def Obligations.TwinStatesAndHeartbeats : Prop :=
  ((∀ s : State, s.dev.rd F.TWN_STAT_STATE = 1 → 64 ≤ s.dev.twn.listen → s.dev.twn.clash = false →
    (s.dev.twn.pState = some 4 → Does .twinListenEnd s fun t => t.dev.rd F.TWN_STAT_STATE = 2 ∧ t.dev.rd F.TIM_STAT_TSRC = 2 ∧ t.vault = s.vault ∧
      ∀ f : Fld, f.key ≠ F.TWN_STAT_STATE.key → f.key ≠ F.TIM_STAT_TSRC.key → t.dev.rd f = s.dev.rd f) ∧
    (s.dev.twn.pState ≠ some 4 → s.dev.rd F.TWN_CTRL_PREF = s.dev.rd F.TWN_STAT_UNIT ∨ (s.dev.rd F.TWN_STAT_H1_UP = 0 ∧ s.dev.rd F.TWN_STAT_H2_UP = 0 ∧ s.dev.twn.heard = false) →
      Does .twinListenEnd s fun t => t.dev.rd F.TWN_STAT_STATE = 4 ∧ t.dev.rd F.TWN_EPOCH = (max (s.dev.rd F.TWN_EPOCH) s.dev.twn.hi + 1) % 2 ^ 32 ∧ t.vault = s.vault ∧
        (s.dev.rd F.TIM_STAT_TSRC ≠ 0 → t.dev.rd F.TIM_STAT_TSRC = 0 → t.dev.rd F.TIM_STAT_LOCK = 0 ∧ t.dev.time.trim = none ∧ t.dev.time.stepDue = none ∧ t.dev.time.incI = s.dev.rd F.TIM_INC_INT) ∧
        ∀ f : Fld, f.key ≠ F.TWN_STAT_STATE.key → f.key ≠ F.TIM_STAT_TSRC.key → f.key ≠ F.TIM_STAT_LOCK.key → f.key ≠ F.TWN_EPOCH.key → t.dev.rd f = s.dev.rd f) ∧
    (s.dev.twn.pState ≠ some 4 → s.dev.rd F.TWN_CTRL_PREF ≠ s.dev.rd F.TWN_STAT_UNIT → s.dev.rd F.TWN_STAT_H1_UP = 1 ∨ s.dev.rd F.TWN_STAT_H2_UP = 1 ∨ s.dev.twn.heard = true →
      exec .twinListenEnd s = .next s)) ∧
  (∀ s : State, s.dev.rd F.TWN_STAT_STATE ≠ 1 ∨ s.dev.twn.listen < 64 ∨ s.dev.twn.clash = true → exec .twinListenEnd s = .next s) ∧
  (∀ s : State, (s.dev.rd F.TWN_STAT_STATE = 2 → 64 ≤ s.dev.twn.okRun → Does .twinSyncComplete s fun t => t.dev.rd F.TWN_STAT_STATE = 3 ∧ t.dev.twn = s.dev.twn ∧ t.vault = s.vault ∧
      ∀ f : Fld, f.key ≠ F.TWN_STAT_STATE.key → t.dev.rd f = s.dev.rd f) ∧
    (s.dev.rd F.TWN_STAT_STATE ≠ 2 ∨ s.dev.twn.okRun < 64 → exec .twinSyncComplete s = .next s)) ∧
  (∀ s : State, let due := s.dev.rd F.TWN_STAT_STATE = 4 ∧ s.dev.twn.pState = some 3 ∧ s.dev.rd F.TWN_CTRL_YIELD_EN = 1 ∧ (s.dev.yieldDue = true ∨ 3 ≤ s.dev.twn.deaf)
    (due → Leaves .twinYield s fun d ms => ms = [] ∧ d.rd F.TWN_STAT_STATE = 5 ∧ d.rd F.TWN_CNT_YIELDS = min (s.dev.rd F.TWN_CNT_YIELDS + 1) 255 ∧ d.yieldDue = false ∧ d.twn.live = false ∧
      d.twn.deaf = 0 ∧ d.rd F.EDG_STAT_SAFE = 1 ∧ d.rd F.GSV_DEN_LVL = 0 ∧ d.run = s.dev.run ∧
      (s.dev.rd F.EDG_STAT_SAFE = 0 → ∀ k < 16, (d.pair k).a = s.dev.rdB (F.EDG_PAIR_SAFE_A k) ∧ (d.pair k).b = s.dev.rdB (F.EDG_PAIR_SAFE_B k))) ∧
    (¬ due → exec .twinYield s = .next s)) ∧
  (∀ (s : State) (m : Nat), s.dev.twn.since = some m → s.dev.rd F.TWN_STAT_STATE = 4 → s.dev.rd F.TWN_CTRL_REVERT = 1 → s.dev.rd F.TWN_CTRL_PREF ≠ s.dev.rd F.TWN_STAT_UNIT →
    s.dev.rd F.TWN_HOLD * 64000000 ≤ s.dev.time.rt - m → s.dev.twn.hbk = none → exec .twinHoldExpire s = .next (s.withDev { s.dev with twn := { s.dev.twn with hbkAsk := true } }))) ∧
  ((∀ s : State, let n : BitVec 32 := if s.dev.frame.planned then s.dev.frame.k else s.dev.frame.k - 1
    (s.dev.rd F.TWN_STAT_STATE ≠ 0 → s.dev.twn.h1Got ≠ some n → s.dev.twn.h1Done ≠ some n →
      Leaves .h1Deadline s fun d ms => d.rd F.TWN_STAT_H1_MISS = min (s.dev.rd F.TWN_STAT_H1_MISS + 1) 255 ∧ d.rd F.TWN_STAT_H1_UP = 0 ∧ d.rd F.TWN_STAT_SYNCED = 0 ∧ d.twn.h1Done = some n ∧
        d.twn.okRun = 0 ∧ d.twn.since = none ∧ (s.dev.handbackDone = false → d.twn.hbk = none ∧ d.twn.hbkAsk = false) ∧
        ms.map Msg.tag = (if s.dev.twn.lost1 = false ∧ s.dev.rd F.TWN_STAT_H2_UP = 1 then [(68, 0, 1)] else []) ∧ d.run = s.dev.run ∧
        ∀ f : Fld, f.lo < 32 → f.addr ≠ 0xC004 → f.key ≠ F.TWN_HBK_HBK_SEQ.key → d.rd f = s.dev.rd f) ∧
    (s.dev.rd F.TWN_STAT_STATE = 0 ∨ s.dev.twn.h1Got = some n ∨ s.dev.twn.h1Done = some n → exec .h1Deadline s = .next s)) ∧
  (∀ s : State, (s.dev.rd F.TWN_STAT_STATE ≠ 0 → s.dev.twn.h2Got = false → s.dev.twn.h2Done = false →
      Leaves .h2Deadline s fun d ms => d.twn.h2Done = true ∧ d.rd F.TWN_STAT_H2_MISS = min (s.dev.rd F.TWN_STAT_H2_MISS + 1) 255 ∧ d.rd F.TWN_STAT_H2_UP = 0 ∧
        ms.map Msg.tag = (if s.dev.twn.lost2 = false ∧ s.dev.rd F.TWN_STAT_H1_UP = 1 then [(68, 0, 2)] else []) ∧ d.run = s.dev.run ∧
        ∀ f : Fld, f.key ≠ F.TWN_STAT_H2_MISS.key → f.key ≠ F.TWN_STAT_H2_UP.key → d.rd f = s.dev.rd f) ∧
    (s.dev.rd F.TWN_STAT_STATE = 0 ∨ s.dev.twn.h2Got = true ∨ s.dev.twn.h2Done = true → exec .h2Deadline s = .next s)) ∧
  (∀ (s : State) (v : Byte),
    let good := s.dev.rd F.TWN_STAT_STATE ≠ 0 ∧ v.toNat / 32 = 5 ∧ (maskBits 8 v.toNat).length % 2 = 1 ∧ v.toNat / 16 % 2 ≠ s.dev.rd F.TWN_STAT_UNIT ∧ s.dev.twn.hbBlk = false ∧ s.dev.twn.h2Done = false ∧
      s.dev.behind s.dev.boundaryNow ≤ 622592000
    (good → Does (.h2WordReceive v) s fun t => t.dev.rd F.TWN_STAT_H2_MISS = 0 ∧ t.dev.rd F.TWN_STAT_H2_UP = 1 ∧
      t.dev.twn = { s.dev.twn with hbDown := false, h2Got := true, lost2 := false, lostAll := false, yieldSeen := decide (v.toNat / 4 % 4 = 3) } ∧
      (∀ f : Fld, f.key ≠ F.TWN_STAT_H2_MISS.key → f.key ≠ F.TWN_STAT_H2_UP.key → t.dev.rd f = s.dev.rd f) ∧ { t.dev with regs := s.dev.regs, twn := s.dev.twn } = s.dev ∧ t.vault = s.vault) ∧
    (¬ good → exec (.h2WordReceive v) s = .next (s.withDev { s.dev with twn := { s.dev.twn with hbDown := false } }))) ∧
  (∀ s : State, s.dev.rd F.TWN_STAT_STATE = 0 ∨ s.dev.twn.hbAt = some (s.dev.boundaryNow + 32768000) → exec .h2WordSend s = .next s) ∧
  (∀ s : State, s.dev.rd F.TWN_STAT_STATE ≠ 0 → s.dev.twn.hbAt ≠ some (s.dev.boundaryNow + 32768000) → Leaves .h2WordSend s fun d ms =>
    let b := d.twn.hbOut.toNat
    b / 32 = 5 ∧ b / 16 % 2 = s.dev.rd F.TWN_STAT_UNIT ∧ b / 4 % 4 = (if s.dev.rd F.TWN_STAT_STATE = 3 then 1 else if s.dev.rd F.TWN_STAT_STATE = 4 then 2 else if s.dev.rd F.TWN_STAT_STATE = 5 then 3 else 0) ∧
      b / 2 % 2 = 0 ∧ (maskBits 8 b).length % 2 = 1 ∧ d.twn = { s.dev.twn with hbOut := d.twn.hbOut, hbAt := some (s.dev.boundaryNow + 32768000) } ∧
      (s.dev.running = false → { d with twn := s.dev.twn } = s.dev) ∧ (∀ m ∈ ms, m.passing = true) ∧ d.run = s.dev.run ∧ d.frame = s.dev.frame ∧ ∀ f : Fld, f.still = true → d.rd f = s.dev.rd f) ∧
  (∀ s : State, exec .hbInDown s = .next (s.withDev { s.dev with twn := { s.dev.twn with hbDown := true } })))

/-- A frame that was interrupted on its lane changes nothing in any of the four rows. TWIN_FRAME_RECEIVE of a frame that
is short, of another type, with a bad header CRC, on a lane of another role, or in a unit without a twin changes
nothing; one that carries the own unit number is only remembered. The first valid one of the present frame (by its
SEQ, or from an ACTIVE unit whose frames this one takes over, or any while this unit listens) ends the misses of H1,
raises H1_UP and notes the partner's state and epoch; one that comes after H1 has been judged missed is noted and
ends no miss. DOWNLINK_HEADER_RECEIVE in a unit that is not active takes QUIESCE from the header of its ACTIVE
partner alone, and nothing under LOCKOUT. UPLINK_RECORD_RECEIVE of a frame with a bad header counts UPL_CRC of its
enabled strand and takes no record; a frame outside its window, or of another frame, is not counted and not taken.
Rests on R24, R91, R119, R124, R334, R337, R344, R390, R561, Table 12-3. -/
def Obligations.FramesOfThePartnerAndItsBeads : Prop :=
  (∀ (s : State) (lane n : Nat) (b : List Byte) (e : Bool), exec (.twinFrameReceive lane ⟨b, true⟩) s = .next s ∧ exec (.downlinkHeaderReceive lane ⟨b, true⟩) s = .next s ∧
    exec (.uplinkRecordReceive ⟨b, true⟩ n e) s = .next s ∧ exec (.cascadeFrameReceive lane ⟨b, true⟩) s = .next s) ∧
  (∀ (s : State) (lane : Nat) (b : List Byte), b.length < 32 ∨ le b 0 1 ≠ 0x31 ∨ crc8 (b.take 31) ≠ le b 31 1 ∨ s.dev.role lane ≠ 2 ∨ s.dev.rd F.TWN_STAT_STATE = 0 →
    exec (.twinFrameReceive lane ⟨b, false⟩) s = .next s) ∧
  (∀ (s : State) (lane : Nat) (b : List Byte), 32 ≤ b.length → le b 0 1 = 0x31 → crc8 (b.take 31) = le b 31 1 → le b 1 1 % 2 = s.dev.rd F.TWN_STAT_UNIT → s.dev.role lane = 2 → s.dev.rd F.TWN_STAT_STATE ≠ 0 →
    exec (.twinFrameReceive lane ⟨b, false⟩) s = .next (s.withDev { s.dev with twn := { s.dev.twn with clash := true } })) ∧
  (∀ (s : State) (lane : Nat) (b : List Byte), 32 ≤ b.length → le b 0 1 = 0x31 → crc8 (b.take 31) = le b 31 1 → le b 1 1 % 2 ≠ s.dev.rd F.TWN_STAT_UNIT → s.dev.role lane = 2 → s.dev.rd F.TWN_STAT_STATE ≠ 0 →
    let st := le b 1 1 / 4 % 8
    let follow := st = 4 ∧ (s.dev.rd F.TWN_STAT_STATE = 2 ∨ s.dev.rd F.TWN_STAT_STATE = 3)
    (s.dev.twn.h1Done = some s.dev.frame.k → exec (.twinFrameReceive lane ⟨b, false⟩) s = .next (s.withDev (s.dev.hearTwin b))) ∧
    (s.dev.twn.h1Done ≠ some s.dev.frame.k → s.dev.twn.h1Got ≠ some s.dev.frame.k →
    s.dev.rd F.TWN_STAT_STATE = 1 ∨ le b 2 2 = seqOf s.dev.frame.k ∨ (follow ∧ ¬ (s.dev.twn.aligned = true ∧ le b 2 2 = seqOf (s.dev.frame.k - 1))) →
    Leaves (.twinFrameReceive lane ⟨b, false⟩) s fun d ms => d.rd F.TWN_STAT_H1_MISS = 0 ∧ d.rd F.TWN_STAT_H1_UP = 1 ∧ d.twn.pState = some st ∧ d.twn.pEpoch = le b 4 4 ∧
      d.twn.h1Got = some d.frame.k ∧ (¬ follow → d.frame = s.dev.frame ∧ d.time = s.dev.time ∧ ms = []) ∧
      (∀ m ∈ ms, m.tag = (37, 0, 0)) ∧ d.run = s.dev.run)) ∧
  (∀ (s : State) (lane : Nat) (b : List Byte), s.vault.lockout = false → hdrOk 1 b = true → s.dev.role lane = 1 → s.dev.rd F.TWN_STAT_STATE ≠ 0 → s.dev.rd F.TWN_STAT_STATE ≠ 4 → le b 4 4 = s.dev.twn.pEpoch → s.dev.twn.pState = some 4 →
    (bitOf (le b 16 4) 24 = true → Leaves (.downlinkHeaderReceive lane ⟨b, false⟩) s fun d ms => d.rd F.EDG_STAT_QUIESCED = 1 ∧ ms = [] ∧ d.run = s.dev.run) ∧
    (bitOf (le b 16 4) 24 = false → Leaves (.downlinkHeaderReceive lane ⟨b, false⟩) s fun d _ => d.rd F.EDG_STAT_QUIESCED = 0 ∧ d.run = s.dev.run)) ∧
  (∀ (s : State) (lane : Nat) (b : List Byte), s.vault.lockout = true ∨ hdrOk 1 b = false ∨ s.dev.role lane ≠ 1 ∨ s.dev.rd F.TWN_STAT_STATE = 0 ∨ s.dev.rd F.TWN_STAT_STATE = 4 ∨ le b 4 4 ≠ s.dev.twn.pEpoch ∨ s.dev.twn.pState ≠ some 4 →
    exec (.downlinkHeaderReceive lane ⟨b, false⟩) s = .next s) ∧
  (∀ (s : State) (n : Nat) (b : List Byte) (e : Bool), n < 16 → s.dev.rd F.TWN_CTRL_EN = 0 →
    (s.dev.rd (F.STR_CTRL_EN n) = 1 → hdrOk 2 b = false → exec (.uplinkRecordReceive ⟨b, false⟩ n e) s = .next (s.withDev (s.dev.wr (F.STR_ERR_UPL_CRC n) (min (s.dev.rd (F.STR_ERR_UPL_CRC n) + 1) 65535)))) ∧
    (s.dev.rd (F.STR_CTRL_EN n) = 0 → exec (.uplinkRecordReceive ⟨b, false⟩ n e) s = .next s) ∧
    (hdrOk 2 b = true → le b 2 2 ≠ seqOf s.dev.frame.k ∨ s.dev.rd F.SYS_FRM_STAT_WINDOW ≠ 0 ∨ s.dev.rd F.SYS_FRM_CTRL_RUNNING = 0 → exec (.uplinkRecordReceive ⟨b, false⟩ n e) s = .next s))

/-- UPLINK_RECORD_RECEIVE of a frame that holds one record of the present frame, whose CRC holds and whose position and
number are those of an occupied position: where no record of that bead came before in this frame, the bead holds its
128 bytes, its run of missing records ends, its held and latch bits are the record's, and messages are sent for its
own reports alone; where one came, nothing changes. A record with a bad CRC is counted in UPL_CRC and not taken.
Rests on R24, R91, R118, R119, R120, R157, R179, R188, R237, Table 4-7. -/
def Obligations.ABeadsRecordIsTakenOnce : Prop :=
  ∀ (s : State) (n : Nat) (b : List Byte) (e : Bool), n < 16 → s.dev.rd F.TWN_CTRL_EN = 0 → s.dev.rd (F.STR_CTRL_EN n) = 1 → s.dev.rd (F.STR_CTRL_BEND n) = 0 → hdrOk 2 b = true →
    le b 2 2 = seqOf s.dev.frame.k → s.dev.rd F.SYS_FRM_STAT_WINDOW = 0 → s.dev.running = true → le b 5 1 = 1 → b.length = 160 →
    let r := b.drop 32
    let p := le r 0 1
    let k := s.dev.rd (F.STR_POS_BEAD n p)
    (crc32c (slice r 0 124) ≠ le r 124 4 → exec (.uplinkRecordReceive ⟨b, false⟩ n e) s = .next (s.withDev (s.dev.inc (F.STR_ERR_UPL_CRC n)))) ∧
    (crc32c (slice r 0 124) = le r 124 4 → p < 12 → p < s.dev.rd (F.STR_CTRL_NBEAD n) → s.dev.rd (F.STR_POS_VALID n p) = 1 → k < 96 → le r 1 1 = k →
      ((s.dev.bead k).got = true → exec (.uplinkRecordReceive ⟨b, false⟩ n e) s = .next s) ∧
      ((s.dev.bead k).got = false → Leaves (.uplinkRecordReceive ⟨b, false⟩ n e) s fun d _ =>
        (d.bead k).last = r ∧ (d.bead k).got = true ∧ (d.bead k).missRun = 0 ∧ (d.bead k).state0 = some (le r 2 1) ∧
        d.rd (F.GSV_BEAD_HELD k) = le r 60 4 / 2 ^ 24 % 64 ∧ d.rd (F.GSV_BEAD_LATCH k) = le r 71 1 % 64 ∧
        (∀ j : Nat, j ≠ k → (d.bead j).last = (s.dev.bead j).last ∧ (d.bead j).got = (s.dev.bead j).got) ∧
        d.frame = s.dev.frame ∧ d.time = s.dev.time ∧ d.run = s.dev.run ∧ d.lanes = s.dev.lanes))

/-- MGMT_LOCKSTEP of a pair sends MCORE_LOCKSTEP and stops the lapse timers, and changes nothing else; a core that runs
alone is not compared. MGMT_SELFTEST_DONE with both cores of the pair good counts a mismatch; else the failed cores
are retired, the spare core where one stands by takes a place in the pair, and MCORE_RETIRED is sent for each, with
MCORE_SINGLE and the flag when fewer than two cores are left. Awake, the lapse timers run on. CLK_FAIL counts the
failure in CLK_MON.FAILS and sends CLK_FAIL with the domain as KIND; of EDGE, when the loss is not yet shown, it
also enters the safe state with CLK_LOST and sends EDGE_CLK_LOST, as the row EDGE_CLK_LOST does by itself.
PLL_LOCK_TIMEOUT in BOOT keeps SYS on the internal oscillator, leaves BOOT, and serves recovery's commands alone.
SUPPLY_FAULT sends its rail, with bit 7 for an over-voltage, and changes nothing else. Rests on R327, R328, R329,
R415, R484, R158, R159, R446, R511, R512, R524, Table 14-3. -/
def Obligations.CoresClocksAndSuppliesFail : Prop :=
  ((∀ s : State, (s.dev.rd F.SYS_MCORE_SINGLE = 0 → Leaves .mgmtLockstep s fun d ms => ms.map Msg.tag = [(67, 0, 0)] ∧ d = { s.dev with frozen := some (s.dev.frozen.getD s.dev.time.rt) }) ∧
    (s.dev.rd F.SYS_MCORE_SINGLE ≠ 0 → exec .mgmtLockstep s = .next s)) ∧
  (∀ (s : State) (a b c : Nat) (p0 p1 : Bool), a < b → b < 3 → c < 3 → c ≠ a → c ≠ b → s.dev.mcore a = 0 → s.dev.mcore b = 0 → s.dev.mcore c ≠ 0 →
    Leaves (.mgmtSelftestDone p0 p1) s fun d ms =>
      let bad := (if p0 then 0 else 1) + (if p1 then 0 else 1)
      let spare := if s.dev.mcore c = 1 then 1 else 0
      d.mcore a = (if p0 then 0 else 2) ∧ d.mcore b = (if p1 then 0 else 2) ∧ d.mcore c = (if bad ≠ 0 ∧ s.dev.mcore c = 1 then 0 else s.dev.mcore c) ∧
      d.rd F.SYS_MCORE_MISMATCH = (if bad = 0 then min (s.dev.rd F.SYS_MCORE_MISMATCH + 1) 65535 else s.dev.rd F.SYS_MCORE_MISMATCH) ∧
      d.rd F.SYS_MCORE_SINGLE = (if spare < bad then 1 else s.dev.rd F.SYS_MCORE_SINGLE) ∧
      (s.dev.rd F.CLK_STAT_PSTATE ≠ 2 → d.frozen = none) ∧ d.run = s.dev.run ∧
      (∃ l : List Msg, (∀ m ∈ l, m.tag = (99, 0, 0)) ∧ ms.map Msg.tag = l.map Msg.tag ++ (if p0 then [] else [(33, 0, a)]) ++ (if p1 then [] else [(33, 0, b)]) ++ (if spare < bad then [(34, 0, 0)] else [])) ∧
      ∀ f : Fld, f.addr ≠ 0x4300 → f.lo < 32 → d.rd f = s.dev.rd f)) ∧
  ((∀ (s : State) (dom : Nat), dom < 8 → dom ≠ 3 ∨ s.dev.rd F.EDG_STAT_CLK_LOST = 1 →
    Leaves (.clkFail dom) s fun d ms => d = s.dev.wr F.CLK_MON_FAILS (min (s.dev.rd F.CLK_MON_FAILS + 1) 65535) ∧ ms.map Msg.tag = [(2, dom, 0)]) ∧
  (∀ s : State, s.dev.rd F.EDG_STAT_CLK_LOST = 0 →
    Leaves (.clkFail 3) s fun d ms => d.rd F.CLK_MON_FAILS = min (s.dev.rd F.CLK_MON_FAILS + 1) 65535 ∧ ms.map Msg.tag = [(2, 3, 0), (3, 0, 0)] ∧
      d.rd F.EDG_STAT_QUIESCED = 1 ∧ d.rd F.EDG_STAT_CLK_LOST = 1 ∧ d.run = s.dev.run.halted) ∧
  (∀ s : State, Leaves .edgeClkLost s fun d ms => ms.map Msg.tag = [(3, 0, 0)] ∧ d.rd F.EDG_STAT_QUIESCED = 1 ∧ d.rd F.EDG_STAT_CLK_LOST = 1 ∧ d.run = s.dev.run.halted ∧
    (s.dev.rd F.EDG_STAT_QUIESCED = 0 → d.rd F.EDG_STAT_SAFE = 1 ∧ d.edge.plan = [] ∧ d.edge.next = [] ∧ d.edge.pc = none ∧
      (∀ t < 64, d.rd (F.TB_CTRL_EN t) = 0) ∧ (∀ c < 256, d.rd (F.CH_CTRL_EN c) = 0) ∧
      ∀ k < 16, (d.pair k).a = s.dev.rdB (F.EDG_PAIR_SAFE_A k) ∧ (d.pair k).b = s.dev.rdB (F.EDG_PAIR_SAFE_B k))) ∧
  (∀ s : State, s.dev.run = .boot → s.dev.rd F.CLK_START_STEP = 2 ∨ s.dev.rd F.CLK_START_STEP = 3 →
    Leaves .pllLockTimeout s fun d ms => d.run = .boot ∧ d.rd F.CLK_STAT_LOCK = 0 ∧ d.rd F.CLK_STAT_INTOSC = 1 ∧ d.sec.recovery = true ∧
      d.rd F.CLK_MON_FAILS = min (s.dev.rd F.CLK_MON_FAILS + 1) 65535 ∧ ms.map Msg.tag = [(2, 1, 0)] ∧
      ∀ f : Fld, f.lo < 32 → f.addr ≠ 0x5004 → f.addr ≠ 0x5018 → f.addr ≠ 0x501C → d.rd f = s.dev.rd f) ∧
  (∀ (s : State) (rail : Nat) (ovr : Bool), rail < 8 → Leaves (.supplyFault rail ovr) s fun d ms => d = s.dev ∧ ms.map Msg.tag = [(4, rail + 128 * b2n ovr, 0)]))

/-- STK_MASTER_MISS of a boundary without a header obeyed counts a miss once, and notes that an ACTIVE unit whose
partner hears the master owes a yield. STK_TAKEOVER makes a deputy with DEP_EN and four misses ACTING with the next
epoch and sends the take-over; STK_ORPHAN makes a member without a master for ORPHAN frames an orphan, with its own
time; STK_RETURNED_READY is noted after 64 locked frames. CASCADE_FRAME_RECEIVE on another lane, or with EN 0,
changes nothing; a bad header is counted and the frame passed on with a bad CRC, but absorbed by the head of the
stack; a header with the own number (and, in a twin, the own unit) that is no copy of the frame last sent sends
STK_ID_CLASH, and such a copy is absorbed. A downward header of a higher epoch is obeyed: epoch, master and SEQ are
taken, the misses end, and its QUIESCE leads to the safe state. Rests on R359, R361, R363, R364, R370, R372, R373,
R375, Table 13-1. -/
def Obligations.StackRolesAndEpochs : Prop :=
  (∀ s : State, let j : BitVec 32 := if s.dev.frame.planned then s.dev.frame.k + 1 else s.dev.frame.k
    let r := s.dev.rd F.STK_STAT_ROLE
    (r ≠ 0 → r ≠ 1 → r ≠ 4 → s.dev.stk.got ≠ some (seqOf j) → s.dev.stk.judged ≠ some j →
      Does .stkMasterMiss s fun t => t.dev.rd F.STK_STAT_MISS = min (s.dev.rd F.STK_STAT_MISS + 1) 15 ∧ t.dev.rd F.STK_CNT_MISS_CNT = min (s.dev.rd F.STK_CNT_MISS_CNT + 1) 65535 ∧
        t.dev.stk = { s.dev.stk with judged := some j, alone := s.dev.stk.alone + 1 } ∧
        t.dev.yieldDue = (s.dev.yieldDue || (decide (s.dev.rd F.TWN_STAT_STATE = 4) && decide (1 ≤ s.dev.rd F.STK_STAT_MISS) && decide (s.dev.twn.pMiss = 0))) ∧ t.vault = s.vault ∧
        (∀ f : Fld, f.key ≠ F.STK_STAT_MISS.key → f.key ≠ F.STK_CNT_MISS_CNT.key → t.dev.rd f = s.dev.rd f)) ∧
    (r = 0 ∨ r = 1 ∨ r = 4 ∨ s.dev.stk.got = some (seqOf j) ∨ s.dev.stk.judged = some j → exec .stkMasterMiss s = .next s)) ∧
  (∀ s : State, s.dev.rd F.STK_STAT_ROLE = 2 → s.dev.rd F.STK_CTRL_DEP_EN = 1 → 4 ≤ s.dev.rd F.STK_STAT_MISS → s.dev.rd F.TWN_STAT_STATE = 0 ∨ 4 ≤ s.dev.twn.pMiss →
    Leaves .stkTakeover s fun d ms => d.rd F.STK_STAT_ROLE = 4 ∧ d.rd F.STK_EPOCH = (max (s.dev.rd F.STK_EPOCH) s.dev.stk.hi + 1) % 2 ^ 32 ∧ d.rd F.STK_STAT_MASTER_ID = s.dev.rd F.STK_ID ∧
      d.rd F.STK_STAT_MISS = 0 ∧ ms.map Msg.tag = [(42, 0, s.dev.rd F.STK_ID)] ∧ d.run = s.dev.run) ∧
  (∀ s : State, s.dev.rd F.STK_STAT_ROLE = 3 → s.dev.rd F.STK_CTRL_ORPHAN ≤ s.dev.stk.alone →
    Leaves .stkOrphan s fun d ms => d.rd F.STK_STAT_ROLE = 6 ∧ ms.map Msg.tag = [(15, 0, s.dev.rd F.STK_ID)] ∧ d.stk = { s.dev.stk with up := [], gone := [] } ∧ d.run = s.dev.run ∧
      ∀ f : Fld, f.key ≠ F.STK_STAT_ROLE.key → f.key ≠ F.TIM_STAT_TSRC.key → f.key ≠ F.TIM_STAT_LOCK.key → d.rd f = s.dev.rd f) ∧
  (∀ s : State, s.dev.rd F.STK_STAT_ROLE = 5 → 64 ≤ s.dev.stk.lockRun → s.dev.rd F.TIM_STAT_LOCK = 1 → exec .stkReturnedReady s = .next (s.withDev { s.dev with stk := { s.dev.stk with ready := true } })) ∧
  (∀ (s : State) (lane : Nat) (b : List Byte), (s.dev.role lane ≠ 3 ∨ s.dev.rd F.STK_CTRL_EN = 0 → exec (.cascadeFrameReceive lane ⟨b, false⟩) s = .next s) ∧
    (s.dev.role lane = 3 → s.dev.rd F.STK_CTRL_EN = 1 →
      (hdrOk 4 b = false → hdrOk 5 b = false →
        let c := s.dev.wr F.STK_CNT_CRC_ERR (min (s.dev.rd F.STK_CNT_CRC_ERR + 1) 65535)
        exec (.cascadeFrameReceive lane ⟨b, false⟩) s = .next (s.withDev (if s.dev.rd F.STK_STAT_ROLE = 1 ∨ s.dev.rd F.STK_STAT_ROLE = 4 then c else c.passAsIs lane b))) ∧
      let mine := le b 1 1 % 8 = s.dev.rd F.STK_ID ∧ (le b 1 1 / 16 % 2 = s.dev.rd F.TWN_STAT_UNIT ∨ s.dev.rd F.TWN_CTRL_EN = 0)
      (hdrOk 4 b = true ∨ hdrOk 5 b = true → mine → (hdrOk 4 b = false ∨ s.dev.ownCopy b = false) →
        Leaves (.cascadeFrameReceive lane ⟨b, false⟩) s fun d ms => d = s.dev ∧ ms.map Msg.tag = [(1, 0, s.dev.rd F.STK_ID)]) ∧
      (hdrOk 4 b = true → mine → s.dev.ownCopy b = true → exec (.cascadeFrameReceive lane ⟨b, false⟩) s = .next s) ∧
      (hdrOk 4 b = true → ¬ mine → s.dev.rd F.STK_EPOCH < le b 4 4 → (s.dev.rd F.STK_STAT_ROLE = 2 ∨ s.dev.rd F.STK_STAT_ROLE = 3 ∨ s.dev.rd F.STK_STAT_ROLE = 6) →
        Leaves (.cascadeFrameReceive lane ⟨b, false⟩) s fun d _ => d.rd F.STK_EPOCH = le b 4 4 ∧ d.rd F.STK_STAT_MASTER_ID = le b 1 1 % 8 ∧ d.rd F.STK_STAT_MISS = 0 ∧ d.stk.got = some (le b 2 2) ∧
          d.stk.unit = some (bits (le b 1 1) 4 1) ∧ d.stk.alone = 0 ∧ d.rd F.STK_STAT_ROLE = (if s.dev.rd F.STK_STAT_ROLE = 6 then 3 else s.dev.rd F.STK_STAT_ROLE) ∧
          (bitOf (le b 1 1) 3 = true → d.rd F.EDG_STAT_QUIESCED = 1) ∧ (bitOf (le b 1 1) 3 = false → d.run = s.dev.run))))

/-- LANE_LOS_ASSERT and LANE_LOL_ASSERT set their flag and its SEEN bit; on a lane in service with neither flag set
before, and with automatic retirement off, the lane goes down (PHASE 0), DOWN_CNT advances and LANE_DOWN is sent;
with a flag set before nothing else changes; when neither stood, the measured delay is lost (DLY 0), and a lane that
is up or rejoins goes down (PHASE 0) also out of service, where nothing is counted or sent. The DEASSERT rows clear
the flag alone. LANE_LOL_PERSIST of a lane with LOL, without LOS, whose near-end loop fails, gives its settings and
role to its SPARE lane, retires it and sends LANE_RETIRED; in every other case nothing changes. Rests on R67, R77,
R78, R79, R331, R484. -/
def Obligations.LossOfSignalTakesALaneDown : Prop :=
  (∀ (s : State) (n : Nat), n < 24 → let was := s.dev.rd (F.LANE_STAT_LOS n) = 1 ∨ s.dev.rd (F.LANE_STAT_LOL n) = 1
    (was → exec (.laneLosAssert n) s = .next (s.withDev ((s.dev.wr (F.LANE_STAT_LOS n) 1).wr (F.LANE_STAT_LOS_SEEN n) 1)) ∧
      exec (.laneLolAssert n) s = .next (s.withDev ((s.dev.wr (F.LANE_STAT_LOL n) 1).wr (F.LANE_STAT_LOL_SEEN n) 1))) ∧
    (¬ was → s.dev.inService n = false →
      let rests (t : State) : Prop := t.dev.rd (F.LANE_STAT_PHASE n) = (if s.dev.rd (F.LANE_STAT_PHASE n) = 2 ∨ s.dev.rd (F.LANE_STAT_PHASE n) = 3 then 0 else s.dev.rd (F.LANE_STAT_PHASE n)) ∧
        t.dev.rd (F.LANE_DLY n) = 0 ∧ (t.dev.lane n).dlys = [] ∧ (t.dev.lane n).rejoin = false ∧ t.vault = s.vault ∧ t.dev.run = s.dev.run ∧
        (∀ m < 24, t.dev.rd (F.LANE_ERR_DOWN_CNT m) = s.dev.rd (F.LANE_ERR_DOWN_CNT m)) ∧ ∀ m < 24, m ≠ n → t.dev.rd (F.LANE_STAT_PHASE m) = s.dev.rd (F.LANE_STAT_PHASE m) ∧ t.dev.lane m = s.dev.lane m
      Does (.laneLosAssert n) s (fun t => rests t ∧ t.dev.rd (F.LANE_STAT_LOS n) = 1 ∧ t.dev.rd (F.LANE_STAT_LOS_SEEN n) = 1 ∧ t.dev.rd (F.LANE_STAT_LOL n) = 0) ∧
      Does (.laneLolAssert n) s (fun t => rests t ∧ t.dev.rd (F.LANE_STAT_LOL n) = 1 ∧ t.dev.rd (F.LANE_STAT_LOL_SEEN n) = 1 ∧ t.dev.rd (F.LANE_STAT_LOS n) = 0)) ∧
    (¬ was → s.dev.inService n = true → s.dev.rd F.SYS_LRET_EN = 0 →
      let falls (d : Dev) (ms : List Msg) : Prop := d.rd (F.LANE_STAT_PHASE n) = 0 ∧ d.rd (F.LANE_ERR_DOWN_CNT n) = min (s.dev.rd (F.LANE_ERR_DOWN_CNT n) + 1) 65535 ∧
        ms.map Msg.tag = [(48, 0, n)] ∧ d.rd (F.LANE_DLY n) = 0 ∧ (d.lane n).dlys = [] ∧ d.run = s.dev.run ∧ ∀ m < 24, m ≠ n → d.rd (F.LANE_STAT_PHASE m) = s.dev.rd (F.LANE_STAT_PHASE m) ∧ d.lane m = s.dev.lane m
      Leaves (.laneLosAssert n) s (fun d ms => falls d ms ∧ d.rd (F.LANE_STAT_LOS n) = 1 ∧ d.rd (F.LANE_STAT_LOS_SEEN n) = 1 ∧ d.rd (F.LANE_STAT_LOL n) = 0) ∧
      Leaves (.laneLolAssert n) s (fun d ms => falls d ms ∧ d.rd (F.LANE_STAT_LOL n) = 1 ∧ d.rd (F.LANE_STAT_LOL_SEEN n) = 1 ∧ d.rd (F.LANE_STAT_LOS n) = 0))) ∧
  (∀ (s : State) (n : Nat), exec (.laneLosDeassert n) s = .next (s.withDev (s.dev.wr (F.LANE_STAT_LOS n) 0)) ∧ exec (.laneLolDeassert n) s = .next (s.withDev (s.dev.wr (F.LANE_STAT_LOL n) 0))) ∧
  (∀ (s : State) (n : Nat) (fail : Bool), n < 24 →
    let stays := fail = false ∨ s.dev.rd F.SYS_LRET_EN = 0 ∨ s.dev.rd (F.LANE_STAT_LOL n) = 0 ∨ s.dev.rd (F.LANE_STAT_LOS n) = 1 ∨ s.dev.spareOf n = none
    (stays → exec (.laneLolPersist n fail) s = .next s) ∧
    (∀ m, ¬ stays → s.dev.spareOf n = some m → Leaves (.laneLolPersist n fail) s fun d ms => (d.lane n).retired = true ∧ d.rd (F.LANE_STAT_PHASE n) = 0 ∧ d.role n = 0 ∧
      d.rd (F.LANE_CTRL_ROLE m) = s.dev.rd (F.LANE_CTRL_ROLE n) ∧ d.rd (F.LANE_CTRL_STR m) = s.dev.rd (F.LANE_CTRL_STR n) ∧ d.rd (F.LANE_CTRL_END m) = s.dev.rd (F.LANE_CTRL_END n) ∧
      (s.dev.inService n = true → d.rd (F.LANE_STAT_PHASE m) = 3 ∧ d.rd (F.LANE_STAT_RATE m) = s.dev.rd (F.LANE_STAT_RATE n)) ∧
      ∃ l : List Msg, (∀ x ∈ l, x.tag = (99, 0, 0)) ∧ ms.map Msg.tag = (35, 0, n) :: l.map Msg.tag))

/-- On every lane, each of the seven rows completes. LINK_BRING_UP on a STRAND, TWIN or CASCADE lane with light and
lock, whose link is not one that serves or will rejoin, starts at rate index 0 with no measured delay: an A end
sends an OFFER with PHASE 1, and takes the strand's B-end lane beside it along; a B end waits for it (PHASE 0 on a
strand). From the state before them: LANE_RATE_SWITCH brings the rate of the STEP, PRBS31_DWELL_START clears the
error count and sends PRBS31 (also for a rejoin, with PHASE 3), LANE_DWELL_END notes errors and outcome, and an A
end sends its REPORT, with PASS only when lock held and no more errors than ERR_LIM came; CAP_REPORT_TIMEOUT begins
the fall back, LANE_FALLBACK_END takes the rate one lower, where an A end sends a last OFFER and a B end waits.
LANE_STEP_FAIL of an OFFER starts again at rate 0 and sends LANE_STEP_FAIL. In every other state each changes
nothing. Rests on R55, R71, R72, R73, R74, R75, R76, Table 3-3. -/
def Obligations.BringUpStepsByTheLadder : Prop :=
  (∀ (s : State) (n : Nat), n < 24 →
    let x := s.dev.lane n
    let str := if s.dev.role n = 1 then s.dev.rd (F.LANE_CTRL_STR n) else 0
    let ready := (s.dev.role n = 1 ∨ s.dev.role n = 2 ∨ s.dev.role n = 3) ∧ s.dev.keepsRate n = false ∧ s.dev.rd (F.LANE_STAT_LOS n) = 0 ∧ s.dev.rd (F.LANE_STAT_LOL n) = 0
    let mate (m : Nat) : Prop := m = n ∨ (s.dev.role n = 1 ∧ s.dev.aEnd n = true ∧ s.dev.strandLane (s.dev.rd (F.LANE_CTRL_STR n)) true = some m)
    let starts (d : Dev) (cap : Nat) : Prop := d.rd (F.LANE_STAT_RATE n) = 0 ∧ d.rd (F.LANE_DLY n) = 0 ∧ (d.lane n).dlys = [] ∧ (d.lane n).out = .data ∧ (d.lane n).cap = cap ∧ (d.lane n).hops0 = none ∧
      (s.dev.aEnd n = true → d.rd (F.LANE_STAT_PHASE n) = 1 ∧ (d.lane n).bring = .offer false ∧ tget [] d.os n = capSet (s.dev.capType n) 15 0 0 str 0 false) ∧
      (s.dev.aEnd n = false → d.rd (F.LANE_STAT_PHASE n) = (if s.dev.role n = 1 then 0 else 1) ∧ (d.lane n).bring = .none ∧ d.os = s.dev.os) ∧
      (∀ m, mate m → m ≠ n → d.rd (F.LANE_STAT_RATE m) = 0 ∧ d.rd (F.LANE_STAT_PHASE m) = 0 ∧ (d.lane m).bring = .none) ∧
      d.run = s.dev.run ∧ ∀ f : Fld, (∀ m, mate m → f.key ≠ (F.LANE_STAT_RATE m).key ∧ f.key ≠ (F.LANE_STAT_PHASE m).key ∧ f.key ≠ (F.LANE_DLY m).key) → d.rd f = s.dev.rd f
    (ready → Does (.linkBringUp n) s fun t => starts t.dev (s.dev.rd (F.LANE_CTRL_MAX_RATE n)) ∧ t.vault = s.vault) ∧
    (¬ ready → exec (.linkBringUp n) s = .next s) ∧
    (∀ r, x.bring = .stepping r → Does (.laneRateSwitch n) s fun t => t.dev.rd (F.LANE_STAT_RATE n) = r % 4 ∧ t.dev.rd (F.LANE_DLY n) = 0 ∧
      t.dev.lane n = { x with bring := .settling r, dlys := [], ttSent := false } ∧ t.vault = s.vault ∧
      ∀ f : Fld, f.key ≠ (F.LANE_STAT_RATE n).key → f.key ≠ (F.LANE_DLY n).key → t.dev.rd f = s.dev.rd f) ∧
    ((∀ r, x.bring ≠ .stepping r) → exec (.laneRateSwitch n) s = .next s) ∧
    (∀ r, x.bring = .settling r → Does (.prbs31DwellStart n) s fun t => t.dev.rd (F.LANE_ERR_DWELL_ERR n) = 0 ∧ t.dev.lane n = { x with bring := .dwelling r, out := .prbs true } ∧ t.vault = s.vault ∧
      ∀ f : Fld, f.key ≠ (F.LANE_ERR_DWELL_ERR n).key → t.dev.rd f = s.dev.rd f) ∧
    (x.bring = .rejoinOffer → Does (.prbs31DwellStart n) s fun t => t.dev.rd (F.LANE_ERR_DWELL_ERR n) = 0 ∧ t.dev.rd (F.LANE_STAT_PHASE n) = 3 ∧ t.dev.lane n = { x with out := .prbs true } ∧ t.vault = s.vault ∧
      ∀ f : Fld, f.key ≠ (F.LANE_ERR_DWELL_ERR n).key → f.key ≠ (F.LANE_STAT_PHASE n).key → t.dev.rd f = s.dev.rd f) ∧
    ((∀ r, x.bring ≠ .settling r) → x.bring ≠ .rejoinOffer → exec (.prbs31DwellStart n) s = .next s) ∧
    (∀ (r errs : Nat) (lost : Bool), x.bring = .dwelling r → Does (.laneDwellEnd n errs lost) s fun t =>
      let ok := !lost && decide (errs ≤ s.dev.rd (F.LANE_BRING_ERR_LIM n))
      t.dev.rd (F.LANE_ERR_DWELL_ERR n) = min errs 255 ∧ t.dev.lane n = { x with bring := .reporting r, dwellOk := ok, out := .data } ∧ t.vault = s.vault ∧
        tget [] t.dev.os n = (if s.dev.aEnd n then capSet (s.dev.capType n) 15 0 r str 2 ok else tget [] s.dev.os n) ∧
        ∀ f : Fld, f.key ≠ (F.LANE_ERR_DWELL_ERR n).key → t.dev.rd f = s.dev.rd f) ∧
    (∀ (errs : Nat) (lost : Bool), (∀ r, x.bring ≠ .dwelling r) → exec (.laneDwellEnd n errs lost) s = .next s) ∧
    (∀ r, x.bring = .reporting r → exec (.capReportTimeout n) s = .next (s.withDev (s.dev.setLane n { x with bring := .falling }))) ∧
    ((∀ r, x.bring ≠ .reporting r) → exec (.capReportTimeout n) s = .next s) ∧
    (x.bring = .falling ∨ (s.dev.aEnd n = false ∧ ∃ r, x.bring = .reporting r) → Does (.laneFallbackEnd n) s fun t => t.dev.rd (F.LANE_STAT_RATE n) = s.dev.rd (F.LANE_STAT_RATE n) - 1 ∧
      t.dev.rd (F.LANE_DLY n) = 0 ∧ t.dev.lane n = { x with bring := if s.dev.aEnd n then .offer true else .none, dlys := [], ttSent := false } ∧ t.vault = s.vault ∧
      tget [] t.dev.os n = (if s.dev.aEnd n then capSet (s.dev.capType n) 15 0 (s.dev.rd (F.LANE_STAT_RATE n) - 1) str 0 false else tget [] s.dev.os n) ∧
      ∀ f : Fld, f.key ≠ (F.LANE_STAT_RATE n).key → f.key ≠ (F.LANE_DLY n).key → t.dev.rd f = s.dev.rd f) ∧
    (x.bring ≠ .falling → (s.dev.aEnd n = true ∨ ∀ r, x.bring ≠ .reporting r) → exec (.laneFallbackEnd n) s = .next s) ∧
    (∀ b, x.bring = .offer b → Leaves (.laneStepFail n) s fun d ms => starts d x.cap ∧ ms.map Msg.tag = [(49, 0, n)]) ∧
    ((∀ b, x.bring ≠ .offer b) → exec (.laneStepFail n) s = .next s))

/-- A set with a wrong length or check byte, or on a lane without such a role, changes nothing. At the A end a first
OFFER is recorded with RATES and HOPS, and a STEP to the next rate that both allow follows, or the link is up; a
last OFFER that has passed the same hops brings the link up, one that has not starts again at rate 0 with
LANE_STEP_FAIL; a REPORT with PASS and the same hops is confirmed, and the next STEP follows or the link is up;
another REPORT begins the fall back; any other set changes nothing. At the B end a set of another strand changes
nothing; its own is turned round with the same bytes, but for PASS where this end's dwell failed, and the lane has
turned one round: an OFFER gives HOPS, a STEP begins the step, and on a link with no strand PHASE is 1 from a STEP
to the CONFIRM or next OFFER and then 2; on a lane that is to rejoin an OFFER begins the rejoin and nothing else
changes. Rests on R71, R72, R73, R74, R75, R76, Table 3-3. -/
def Obligations.CapSetsAreJudgedAtTheirEnd : Prop :=
  (∀ (s : State) (n : Nat) (b : List Byte), b.length ≠ 6 ∨ crc8 (b.take 5) ≠ (b.getD 5 0).toNat ∨ ¬ (s.dev.role n = 1 ∨ s.dev.role n = 2 ∨ s.dev.role n = 3) → exec (.capReceive n b) s = .next s) ∧
  (∀ (s : State) (n : Nat) (b : List Byte), n < 24 → b.length = 6 → crc8 (b.take 5) = (b.getD 5 0).toNat → s.dev.role n = 1 ∨ s.dev.role n = 2 ∨ s.dev.role n = 3 → s.dev.aEnd n = true →
    let rates := (b.getD 1 0).toNat % 16
    let hops := (b.getD 2 0).toNat
    let st := (b.getD 4 0).toNat % 4
    let x := s.dev.lane n
    let r := s.dev.rd (F.LANE_STAT_RATE n)
    let str := if s.dev.role n = 1 then s.dev.rd (F.LANE_CTRL_STR n) else 0
    let goesOn (d : Dev) (rates : Nat) : Prop :=
      if r < x.cap ∧ bitOf rates (r + 1) = true then (d.lane n).bring = .stepping (r + 1) ∧ d.rd (F.LANE_STAT_PHASE n) = s.dev.rd (F.LANE_STAT_PHASE n) ∧
        tget [] d.os n = capSet (s.dev.capType n) 15 0 (r + 1) str 1 false
      else (d.lane n).bring = .none ∧ d.rd (F.LANE_STAT_PHASE n) = 2
    (st = 0 → x.bring = .offer false → Does (.capReceive n b) s fun t => t.dev.rd (F.LANE_STAT_RATES n) = rates ∧ t.dev.rd (F.LANE_STAT_HOPS n) = hops ∧
      (t.dev.lane n).hops0 = some hops ∧ goesOn t.dev rates ∧ t.vault = s.vault ∧ t.dev.run = s.dev.run) ∧
    (st = 0 → x.bring = .offer true → x.hops0 = some hops → Does (.capReceive n b) s fun t => t.dev.rd (F.LANE_STAT_RATES n) = rates ∧ t.dev.rd (F.LANE_STAT_HOPS n) = hops ∧
      (t.dev.lane n).bring = .none ∧ t.dev.rd (F.LANE_STAT_PHASE n) = 2 ∧ t.dev.rd (F.LANE_STAT_RATE n) = r ∧ t.vault = s.vault ∧ t.dev.run = s.dev.run) ∧
    (st = 0 → x.bring = .offer true → x.hops0 ≠ some hops → Leaves (.capReceive n b) s fun d ms => d = s.dev.bringUp n x.cap ∧ ms.map Msg.tag = [(49, 0, n)]) ∧
    (∀ q, st = 2 → x.bring = .reporting q → 128 ≤ (b.getD 4 0).toNat → x.hops0 = some hops → Does (.capReceive n b) s fun t => goesOn t.dev (s.dev.rd (F.LANE_STAT_RATES n)) ∧
      ((t.dev.lane n).bring = .none → tget [] t.dev.os n = capSet (s.dev.capType n) 15 0 q str 3 false) ∧ t.vault = s.vault ∧ t.dev.run = s.dev.run) ∧
    (∀ q, st = 2 → x.bring = .reporting q → (b.getD 4 0).toNat < 128 ∨ x.hops0 ≠ some hops → exec (.capReceive n b) s = .next (s.withDev (s.dev.setLane n { x with bring := .falling }))) ∧
    ((st ≠ 0 ∨ ∀ f, x.bring ≠ .offer f) → (st ≠ 2 ∨ ∀ q, x.bring ≠ .reporting q) → exec (.capReceive n b) s = .next s)) ∧
  (∀ (s : State) (n : Nat) (b : List Byte), n < 24 → b.length = 6 → crc8 (b.take 5) = (b.getD 5 0).toNat → s.dev.role n = 1 ∨ s.dev.role n = 2 ∨ s.dev.role n = 3 → s.dev.aEnd n = false →
    let st := (b.getD 4 0).toNat % 4
    let strand : Bool := decide (s.dev.role n = 1)
    let x := s.dev.lane n
    (strand = true → (b.getD 3 0).toNat / 16 ≠ s.dev.rd (F.LANE_CTRL_STR n) → exec (.capReceive n b) s = .next s) ∧
    (strand = false ∨ (b.getD 3 0).toNat / 16 = s.dev.rd (F.LANE_CTRL_STR n) → x.rejoin = true → Does (.capReceive n b) s fun t =>
      t.dev.lane n = { x with bring := if st = 0 then .rejoinOffer else x.bring } ∧ (st ≠ 2 ∨ x.dwellOk = true → tget [] t.dev.os n = b) ∧ t.dev.regs = s.dev.regs ∧ t.vault = s.vault ∧ t.dev.run = s.dev.run) ∧
    (strand = false ∨ (b.getD 3 0).toNat / 16 = s.dev.rd (F.LANE_CTRL_STR n) → x.rejoin = false → Does (.capReceive n b) s fun t =>
      t.dev.lane n = { x with turned := true, bring := if st = 1 then .stepping ((b.getD 3 0).toNat % 4) else if st = 2 then x.bring else .none } ∧
      (st ≠ 2 ∨ x.dwellOk = true → tget [] t.dev.os n = b) ∧
      (st = 2 → x.dwellOk = false → (tget [] t.dev.os n).take 4 = b.take 4 ∧ ((tget [] t.dev.os n).getD 4 0).toNat = 2) ∧
      (st = 0 → t.dev.rd (F.LANE_STAT_HOPS n) = (b.getD 2 0).toNat) ∧
      (strand = false → t.dev.rd (F.LANE_STAT_PHASE n) = (if st = 1 then 1 else if st = 2 then s.dev.rd (F.LANE_STAT_PHASE n) else 2)) ∧
      t.dev.rd (F.LANE_STAT_RATE n) = s.dev.rd (F.LANE_STAT_RATE n) ∧ t.vault = s.vault ∧ t.dev.run = s.dev.run))

/-- LINK_REJOIN of a lane in service, down, with light and lock, that waits for no retry, offers the link at its present
rate and holds its dwell: within ERR_LIM and without loss the lane waits for the boundary to serve again, else
REJOIN_FAIL advances and LINK_REJOIN_RETRY offers the link anew. LOOP_TEST_END, once its frames have run, ends the
test and replies bits, errors and loss; NO_ANSWER_TIMEOUT replies TIMEOUT to a far-end test or a MODULE_READ, no
sooner than 100 ms after it began. MODULE_POLL of a lane whose master polls reads byte 92 and then the diagnostics
by its switch's channel; without an answer it clears PRESENT; with one it sets PRESENT and DDM, and with diagnostics
keeps the ten bytes and sends the first alarm and the first warning flag. The time-transfer rows put out a request
with the next sequence number in the guard window of a link that is up, once a frame, an answer with the turn-round
time, and take the answer to the last request alone: 64 measurements make LANE_DLY their mean, fewer leave it 0.
Rests on R76, R80, R84, R125, R454, Table 4-9, Table 14-3. -/
def Obligations.RejoinTestsAndModules : Prop :=
  (∀ (s : State) (n errs : Nat) (lost : Bool), n < 24 →
    let stays := s.dev.inService n = false ∨ s.dev.rd (F.LANE_STAT_PHASE n) = 2 ∨ (s.dev.lane n).bring = .rejoinWait ∨ s.dev.rd (F.LANE_STAT_LOS n) = 1 ∨ s.dev.rd (F.LANE_STAT_LOL n) = 1
    (stays → exec (.linkRejoin n errs lost) s = .next s) ∧
    (¬ stays → Does (.linkRejoin n errs lost) s fun t => t.dev.rd (F.LANE_STAT_PHASE n) = 3 ∧ t.dev.rd (F.LANE_ERR_DWELL_ERR n) = min errs 255 ∧ t.vault = s.vault ∧
      tget [] t.dev.os n = (if (s.dev.lane n).bring = .rejoinOffer then tget [] s.dev.os n
        else capSet (s.dev.capType n) 15 0 (s.dev.rd (F.LANE_STAT_RATE n)) (if s.dev.role n = 1 then s.dev.rd (F.LANE_CTRL_STR n) else 0) 0 false) ∧
      (lost = false → errs ≤ s.dev.rd (F.LANE_BRING_ERR_LIM n) → (t.dev.lane n).bring = .rejoined ∧ t.dev.rd (F.LANE_ERR_REJOIN_FAIL n) = s.dev.rd (F.LANE_ERR_REJOIN_FAIL n)) ∧
      (lost = true ∨ s.dev.rd (F.LANE_BRING_ERR_LIM n) < errs → (t.dev.lane n).bring = .rejoinWait ∧ t.dev.rd (F.LANE_ERR_REJOIN_FAIL n) = min (s.dev.rd (F.LANE_ERR_REJOIN_FAIL n) + 1) 255))) ∧
  (∀ (s : State) (n : Nat), ((s.dev.lane n).bring = .rejoinWait → Does (.linkRejoinRetry n) s fun t => (t.dev.lane n).bring = .rejoinOffer ∧ t.dev.regs = s.dev.regs ∧ t.vault = s.vault ∧
      tget [] t.dev.os n = capSet (s.dev.capType n) 15 0 (s.dev.rd (F.LANE_STAT_RATE n)) (if s.dev.role n = 1 then s.dev.rd (F.LANE_CTRL_STR n) else 0) 0 false) ∧
    ((s.dev.lane n).bring ≠ .rejoinWait → exec (.linkRejoinRetry n) s = .next s)) ∧
  (∀ (s : State) (n b errs : Nat) (lost : Bool) (x : Wait), n < 24 → s.dev.waits = [x] → x.kind = .loopTest → x.arg.head? = some n →
    (s.dev.running = false ∨ (∀ k, x.due = some k → (s.dev.frame.k - k).toNat < 2 ^ 31) →
      exec (.loopTestEnd n b errs lost) s = .next (s.withDev ({ s.dev.testOver n with waits := [] }.replyOk x.hdr x.op [b % 2 ^ 32, b / 2 ^ 32, errs, b2n lost]))) ∧
    (s.dev.running = true → (∃ k, x.due = some k ∧ 2 ^ 31 ≤ (s.dev.frame.k - k).toNat) → exec (.loopTestEnd n b errs lost) s = .next s)) ∧
  (∀ (s : State) (p : Nat) (x : Wait), s.dev.waits = [x] → x.hdr.port = portNo p → x.hdr.locket = false → x.kind = .moduleRead ∨ (x.kind = .loopTest ∧ x.arg.getD 1 0 = 2) →
    Leaves (.noAnswerTimeout p) s fun d ms => d.waits = [] ∧ (d.port x.hdr.port).replies = (s.dev.port x.hdr.port).replies ++ [replyBytes x.hdr x.op .timeout 0 []] ∧
      x.since + 6400000000 ≤ d.time.rt ∧ (x.kind = .loopTest → x.arg.getD 0 0 < 24 → d.rd (F.LANE_STAT_TEST (x.arg.getD 0 0)) = 0 ∧
        (s.dev.rd (F.LANE_STAT_TEST (x.arg.getD 0 0)) = 1 → (d.lane (x.arg.getD 0 0)).out = s.dev.outAfter (x.arg.getD 0 0))) ∧ (∀ m ∈ ms, m.passing = true) ∧ d.run = s.dev.run) ∧
  (∀ (s : State) (n : Nat) (b : Option (List Byte)), n < 24 → let k := s.dev.rd (F.LANE_MOD_BUS n)
    (3 ≤ k ∨ s.dev.rd (F.SYS_MOD_BUS_POLL k) = 0 → exec (.modulePoll n b) s = .next s) ∧
    (k < 3 → s.dev.rd (F.SYS_MOD_BUS_POLL k) ≠ 0 → exec (.modulePoll n none) s = .next (s.withDev ((s.dev.busDo n [⟨0xA0, 92, 0⟩]).wr (F.LANE_MOD_PRESENT n) 0)))) ∧
  (∀ (s : State) (n : Nat) (b : List Byte), n < 24 → s.dev.rd (F.LANE_MOD_BUS n) < 3 → s.dev.rd (F.SYS_MOD_BUS_POLL (s.dev.rd (F.LANE_MOD_BUS n))) ≠ 0 → let ddm := bitOf (b.getD 0 0).toNat 6
    let first (x y : Byte) := (List.range 16).find? fun i => bitOf (x.toNat + 256 * y.toNat) i
    Leaves (.modulePoll n (some b)) s fun d ms => d.buses = (s.dev.busDo n (⟨0xA0, 92, 1⟩ :: if ddm then [⟨0xA2, 96, 10⟩, ⟨0xA2, 112, 2⟩, ⟨0xA2, 116, 2⟩] else [])).buses ∧ d.rd (F.LANE_MOD_PRESENT n) = 1 ∧ d.rd (F.LANE_MOD_DDM n) = b2n ddm ∧ (d.lane n).diag = (if ddm then slice b 1 10 else (s.dev.lane n).diag) ∧
      ms.map Msg.tag = (if ddm then ((first (b.getD 11 0) (b.getD 12 0)).toList.map fun k => (50, k, n)) ++ (first (b.getD 13 0) (b.getD 14 0)).toList.map fun k => (96, k, n) else []) ∧
      ∀ f : Fld, f.key ≠ (F.LANE_MOD_PRESENT n).key → f.key ≠ (F.LANE_MOD_DDM n).key → d.rd f = s.dev.rd f) ∧
  (∀ (s : State) (n seq turn : Nat), n < 24 →
    let up := s.dev.role n = 1 ∨ s.dev.role n = 2 ∨ s.dev.role n = 3
    let owed := s.dev.running = true ∧ s.dev.rd F.SYS_FRM_STAT_WINDOW = 3 ∧ up ∧ s.dev.rd (F.LANE_STAT_PHASE n) = 2 ∧ (s.dev.lane n).ttAt ≠ some s.dev.frame.k
    let q := ((s.dev.lane n).ttSeq + 1) % 16
    (owed → Leaves (.ttRequestSend n) s fun d ms => d.lane n = { s.dev.lane n with ttSeq := q, ttSent := true, ttAt := some s.dev.frame.k } ∧ tget [] d.os n = ttSet 1 q 0 ∧
      (∀ m ∈ ms, m.passing = true) ∧ d.run = s.dev.run ∧ d.frame = s.dev.frame ∧ ∀ f : Fld, f.still = true → d.rd f = s.dev.rd f) ∧
    (¬ owed → exec (.ttRequestSend n) s = .next s) ∧
    (up → exec (.ttRequestReceive n seq turn) s = .next (s.withDev (s.dev.sendSet n .tt (ttSet 2 seq turn)))) ∧
    (¬ up → exec (.ttRequestReceive n seq turn) s = .next s)) ∧
  (∀ (s : State) (n rtt seq turn : Nat), n < 24 →
    ((s.dev.lane n).ttSent = false ∨ (s.dev.lane n).ttSeq ≠ seq → exec (.ttResponseReceive n rtt seq turn) s = .next s) ∧
    ((s.dev.lane n).ttSent = true → (s.dev.lane n).ttSeq = seq → Does (.ttResponseReceive n rtt seq turn) s fun t =>
      let l := ((((rtt : Int) - (turn : Int)) / 2 - sext 16 (s.dev.rd (F.LANE_ASYM n)) / 2) :: (s.dev.lane n).dlys).take 64
      (t.dev.lane n).dlys = l ∧ (t.dev.lane n).ttSent = false ∧ t.dev.rd (F.LANE_DLY n) = (if l.length < 64 then 0 else ((l.foldl (· + ·) 0) / 64).toNat % 2 ^ 24) ∧ t.vault = s.vault ∧
      ∀ f : Fld, f.key ≠ (F.LANE_DLY n).key → t.dev.rd f = s.dev.rd f))

/-- NET_AUTONEGOTIATION brings a NET lane up at rate index 0. NET_FRAME_RECEIVE of a lane without a NET number, with a
bad FCS or a length outside 64 to 1,522 bytes, changes nothing; a good frame is added to the queue of each port
whose NETL bit names the lane and whose queue has room in entries and bytes, with its lane, TIM_EPOCH and the time
of arrival in steps of 800 ps less the receive delay (valid while NET_TS_EN is 1), and advances NET_DROP of a port
without room; nothing else changes. NET_FRAME_SENT puts the waiting frame on its lane with its FCS and replies, with
the egress time of an event message whose time was asked for, valid while NET_TS_EN is 1. Rests on R60, R61, R62,
R63, R69, R413, R455, R456. -/
def Obligations.NetFramesReachEveryPortThatTakesThem : Prop :=
  (∀ (s : State) (n : Nat), (s.dev.role n = 4 → exec (.netAutonegotiation n) s = .next (s.withDev (((s.dev.setLane n { s.dev.lane n with out := .data }).wr (F.LANE_STAT_RATE n) 0).wr (F.LANE_STAT_PHASE n) 2))) ∧
    (s.dev.role n ≠ 4 → exec (.netAutonegotiation n) s = .next s)) ∧
  (∀ (s : State) (n : Nat) (b : List Byte) (ts : BitVec 64), s.dev.netIndex n = none → exec (.netFrameReceive n true b ts) s = .next s) ∧
  (∀ (s : State) (n : Nat) (b : List Byte) (ts : BitVec 64), exec (.netFrameReceive n false b ts) s = .next s ∧ (b.length < 60 ∨ 1518 < b.length → exec (.netFrameReceive n true b ts) s = .next s)) ∧
  (∀ (s : State) (n i : Nat) (b : List Byte) (ts : BitVec 64), s.dev.netIndex n = some i → 60 ≤ b.length → b.length ≤ 1518 →
    Does (.netFrameReceive n true b ts) s fun t =>
      let fr : NetFrame := ⟨b, i, s.dev.rdB F.TIM_CTRL_NET_TS_EN, s.dev.rdB F.TIM_STAT_COARSE, BitVec.ofNat 64 (ts.toNat * 10 / 524288 * 524288 / 10) - BitVec.ofNat 64 (s.dev.rd (F.LANE_NET_RXD n) * 65536 / 1000), s.dev.rd F.TIM_EPOCH % 65536⟩
      (∀ p < 2, let q := (s.dev.port p).netq
        let room := q.length < 32 ∧ ((q.map fun x => 16 + (x.bytes.length + 3) / 4 * 4).foldl (· + ·) 0) + 16 + b.length ≤ 24576
        (bitOf (s.dev.rd (F.HST_CFG_NETL p)) i = false → t.dev.port p = s.dev.port p ∧ t.dev.rd (F.HST_NET_DROP p) = s.dev.rd (F.HST_NET_DROP p)) ∧
        (bitOf (s.dev.rd (F.HST_CFG_NETL p)) i = true → room → t.dev.port p = { s.dev.port p with netq := q ++ [fr] } ∧ t.dev.rd (F.HST_NET_DROP p) = s.dev.rd (F.HST_NET_DROP p)) ∧
        (bitOf (s.dev.rd (F.HST_CFG_NETL p)) i = true → ¬ room → t.dev.port p = s.dev.port p ∧ t.dev.rd (F.HST_NET_DROP p) = min (s.dev.rd (F.HST_NET_DROP p) + 1) 65535)) ∧
      (∀ f : Fld, f.key ≠ (F.HST_NET_DROP 0).key → f.key ≠ (F.HST_NET_DROP 1).key → t.dev.rd f = s.dev.rd f) ∧
      { t.dev with regs := s.dev.regs, hpa := s.dev.hpa, hpb := s.dev.hpb } = s.dev ∧ t.vault = s.vault) ∧
  (∀ (s : State) (n i : Nat) (ts : BitVec 64) (x : Wait) (b : List Byte) (h : Hdr) (tsreq : Bool), s.dev.waits = [x] → x.kind = .net → x.hdr.port < 2 → s.dev.netIndex n = some i →
    (s.dev.port x.hdr.port).netWait = some (i, b, h, tsreq) →
    let t := BitVec.ofNat 64 (ts.toNat * 10 / 524288 * 524288 / 10) + BitVec.ofNat 64 (s.dev.rd (F.LANE_NET_TXD n) * 65536 / 1000)
    exec (.netFrameSent n ts) s = .next (s.withDev ({ s.dev.upPort x.hdr.port fun q => { q with netWait := none } with waits := [], tx := tput [] s.dev.tx n (b ++ leBytes 4 (crc32 b)) }.replyOk h 0x0B00
      (if tsreq = true ∧ s.dev.ptpEvent b = true then [t.toNat % 2 ^ 32, t.toNat / 2 ^ 32, s.dev.rd F.TIM_EPOCH % 65536 + b2n (s.dev.rdB F.TIM_CTRL_NET_TS_EN) * 2 ^ 16 + b2n (s.dev.rdB F.TIM_STAT_COARSE) * 2 ^ 17] else []))))

/-- With the increment in its legal range: TIM_WRAP lets TIM clock edges pass until TIM_NOW has passed 2^64, advances
TIM_EPOCH by one, sets WRAP and sends TIM_WRAP; while the TIM clock stands none of the three rows does anything.
PULSE_OUT_FIRE of an armed output in MODE 1 or 2 lets device time reach its target (no further than one increment
beyond), makes the pin active from the tick nearest the target (or nearest the edge at which a step or a late write
had passed it, or, where it lay in the past, nearest this edge) on, and disarms a single output; a periodic one
takes the first later target of its grid, the targets passed over being added to SKIP. PULSE_WIDTH_END of an active
output lets WIDTH ns from the start pass and ends the pulse at the nearest tick; a target written meanwhile takes
effect. Outputs that are not armed, or not active, are left alone. TRIG_IN_CAPTURE of an edge that EDGE does not
choose, or after which the input was not stable for FILT × 8 ns, changes nothing. A chosen one, on an input that
triggers no sequence, is added to the FIFO with its time in whole steps of 78.125 ps (5,120 tu), the epoch, its
direction, and whether time was stepped since the last entry and COARSE; with eight entries waiting it is dropped
and OVF advances. With ACQ_TRIG it is besides an urgent trigger of every sequence whose TINM names the input. Rests
on R37, R43, R45, R48, R49, R51, R46, R53, R54, R195, Table 2-3. -/
def Obligations.PulsesWrapsAndCapturesOfDeviceTime : Prop :=
  ((∀ s : State, s.dev.timStopped = true → exec .timWrap s = .next s ∧ ∀ n, exec (.pulseOutFire n) s = .next s ∧ exec (.pulseWidthEnd n) s = .next s) ∧
  (∀ s : State, s.dev.timStopped = false → 524032 ≤ s.dev.time.incI → s.dev.time.incI ≤ 524543 → s.dev.time.incF < 2 ^ 32 →
    Leaves .timWrap s fun d ms => d.rd F.TIM_EPOCH = (s.dev.rd F.TIM_EPOCH + 1) % 2 ^ 32 ∧ d.rd F.TIM_STAT_WRAP = 1 ∧ d.time.now.toNat ≤ s.dev.time.incI ∧ d.run = s.dev.run ∧
      (∃ l : List Msg, ms.map Msg.tag = (97, 0, 0) :: l.map Msg.tag ∧ (∀ m ∈ l, m.passing = true ∧ m.fs = 17) ∧ (s.dev.noPin = true → l = [])) ∧
      ∀ f : Fld, f.still = true → d.rd f = s.dev.rd f) ∧
  (∀ (s : State) (n : Nat), s.dev.timStopped = false → 524032 ≤ s.dev.time.incI → s.dev.time.incI ≤ 524543 → s.dev.time.incF < 2 ^ 32 → n < 5 →
    let x := s.dev.out n
    let mode := s.dev.rd (F.TIM_OUT_CTRL_MODE n)
    (x.armed = false ∨ (mode ≠ 1 ∧ mode ≠ 2) → exec (.pulseOutFire n) s = .next s) ∧
    (x.armed = true → mode = 1 ∨ (mode = 2 ∧ 0 < x.per) → Leaves (.pulseOutFire n) s fun d ms =>
      0 ≤ d.behind x.target ∧ (s.dev.behind x.target < 0 → d.behind x.target ≤ s.dev.time.incI) ∧ (d.out n).active = true ∧
      (d.out n).start = x.passed.getD (if d.behind x.target ≤ s.dev.time.incI then x.target else d.time.now) ∧ (d.out n).passed = none ∧ (d.out n).edge = nearestTick (d.out n).start ∧ (∀ m ∈ ms, m.passing = true) ∧
      (mode = 1 → d.rd (F.TIM_OUT_CTRL_PEND n) = 0 ∧ (d.out n).armed = false ∧ d.rd F.TIM_STAT_SKIP = s.dev.rd F.TIM_STAT_SKIP) ∧
      (mode = 2 → ∃ m : Nat, 1 ≤ m ∧ (((m - 1) * x.per : Nat) : Int) ≤ d.behind x.target ∧ d.behind x.target < ((m * x.per : Nat) : Int) ∧
        (d.out n).target = x.target + BitVec.ofNat 64 (m * x.per) ∧ (d.out n).armed = true ∧ d.rd F.TIM_STAT_SKIP = min (s.dev.rd F.TIM_STAT_SKIP + (m - 1)) 255) ∧
      (∀ k, k ≠ n → d.out k = s.dev.out k) ∧ d.run = s.dev.run)) ∧
  (∀ (s : State) (n : Nat), s.dev.timStopped = false → 524032 ≤ s.dev.time.incI → s.dev.time.incI ≤ 524543 → s.dev.time.incF < 2 ^ 32 → n < 5 →
    let x := s.dev.out n
    (x.active = false → exec (.pulseWidthEnd n) s = .next s) ∧
    let stop := x.start + BitVec.ofNat 64 (s.dev.rd (F.TIM_OUT_WIDTH n) * 65536)
    (x.active = true → Leaves (.pulseWidthEnd n) s fun d ms => 0 ≤ d.behind stop ∧ (∀ m ∈ ms, m.passing = true) ∧
      d.out n = (match x.held with | some t => { x with active := false, edge := nearestTick stop, held := none, target := t, armed := true, passed := if 0 ≤ (stop - t).toInt then some stop else none } | none => { x with active := false, edge := nearestTick stop }) ∧
      (∀ k, k ≠ n → d.out k = s.dev.out k) ∧ d.run = s.dev.run))) ∧
  (∀ (s : State) (i : Nat) (rising : Bool) (t : BitVec 64) (stable : Nat), i < 4 →
    let chosen := bitOf (s.dev.rd (F.TIM_CAP_CTRL_EDGE i)) (if rising then 0 else 1) && decide (8 * s.dev.rd (F.TIM_CAP_CTRL_FILT i) ≤ stable)
    let e : Capture := ⟨BitVec.ofNat 64 (t.toNat / 5120 * 5120), s.dev.rd F.TIM_EPOCH % 65536, rising, tget false s.dev.time.stepped i, s.dev.rdB F.TIM_STAT_COARSE⟩
    let d1 := if (s.dev.caps i).length < 8 then { s.dev with time := { s.dev.time with caps := tput [] s.dev.time.caps i (s.dev.caps i ++ [e]), stepped := tput false s.dev.time.stepped i false } }
      else s.dev.wr (F.TIM_CAP_STAT_OVF i) (min (s.dev.rd (F.TIM_CAP_STAT_OVF i) + 1) 255)
    (chosen = false → exec (.trigInCapture i rising ⟨t, stable⟩) s = .next s) ∧
    (chosen = true → s.dev.rd (F.TIM_CAP_CTRL_ACQ_TRIG i) = 0 → exec (.trigInCapture i rising ⟨t, stable⟩) s = .next (s.withDev d1)) ∧
    (chosen = true → s.dev.rd (F.TIM_CAP_CTRL_ACQ_TRIG i) = 1 → Leaves (.trigInCapture i rising ⟨t, stable⟩) s fun d ms => d.time = d1.time ∧ d.rd (F.TIM_CAP_STAT_OVF i) = d1.rd (F.TIM_CAP_STAT_OVF i) ∧
      (∀ m ∈ ms, ∃ c < 4, m.tag = (56, 0, c)) ∧
      ∀ c < 4, bitOf (s.dev.rd (F.ADC_TRGU_TINM c)) i = true → s.dev.rd (F.ADC_CTRL_INJLEN c) ≠ 0 → d.rd (F.ADC_STAT_INJ_RUN c) = 1))

/-- A regular trigger counts in MODE 2 alone: with no pass running it begins one at slot 0 with the slots in force; with
one running it is queued; with one queued already it is lost, REG_OVR advances and the overrun is sent. An urgent
trigger does the same for the injected slots, whatever the MODE. At the end of a pass a queued one of its kind
begins; an injected pass hands back to the regular pass it interrupted, at its slot; MODE 1 begins again at once;
else the sequence is idle. Rests on R194, R196, R197, R198, R199, Table 7-1. -/
def Obligations.PassesBeginQueueAndEnd : Prop :=
  (∀ (s : State) (c : Nat), c < 4 →
    (s.dev.rd (F.ADC_CTRL_MODE c) ≠ 2 → exec (.acqRegularTrigger c) s = .next s) ∧
    (s.dev.rd (F.ADC_CTRL_MODE c) = 2 →
      (s.dev.rd (F.ADC_STAT_REG_RUN c) = 0 → s.dev.rd (F.ADC_STAT_INJ_RUN c) = 0 → Does (.acqRegularTrigger c) s fun t => t.dev.rd (F.ADC_STAT_REG_RUN c) = 1 ∧
        t.dev.seq c = { s.dev.seq c with reg := s.dev.regSlots c, pos := 0 } ∧ t.dev.rd (F.ADC_STAT_SLOT c) = 0 ∧ t.vault = s.vault ∧
        ∀ f : Fld, f.key ≠ (F.ADC_STAT_REG_RUN c).key → f.key ≠ (F.ADC_STAT_SLOT c).key → t.dev.rd f = s.dev.rd f) ∧
      (s.dev.rd (F.ADC_STAT_REG_RUN c) = 1 ∨ s.dev.rd (F.ADC_STAT_INJ_RUN c) = 1 →
        (s.dev.rd (F.ADC_STAT_REG_Q c) = 0 → exec (.acqRegularTrigger c) s = .next (s.withDev (s.dev.wr (F.ADC_STAT_REG_Q c) 1))) ∧
        (s.dev.rd (F.ADC_STAT_REG_Q c) = 1 → Leaves (.acqRegularTrigger c) s fun d ms => d = s.dev.inc (F.ADC_CNT_REG_OVR c) ∧ ms.map Msg.tag = [(55, 0, c)])))) ∧
  (∀ (s : State) (c : Nat), c < 4 →
    (s.dev.rd (F.ADC_CTRL_INJLEN c) = 0 → exec (.acqUrgentTrigger c) s = .next s) ∧
    (s.dev.rd (F.ADC_CTRL_INJLEN c) ≠ 0 →
      (s.dev.rd (F.ADC_STAT_INJ_RUN c) = 0 → Does (.acqUrgentTrigger c) s fun t => t.dev.rd (F.ADC_STAT_INJ_RUN c) = 1 ∧ t.dev.seq c = { s.dev.seq c with inj := s.dev.injSlots c, ipos := 0 } ∧ t.vault = s.vault ∧
        ∀ f : Fld, f.key ≠ (F.ADC_STAT_INJ_RUN c).key → f.key ≠ (F.ADC_STAT_SLOT c).key → t.dev.rd f = s.dev.rd f) ∧
      (s.dev.rd (F.ADC_STAT_INJ_RUN c) = 1 → s.dev.rd (F.ADC_STAT_INJ_Q c) = 0 → exec (.acqUrgentTrigger c) s = .next (s.withDev (s.dev.wr (F.ADC_STAT_INJ_Q c) 1))) ∧
      (s.dev.rd (F.ADC_STAT_INJ_RUN c) = 1 → s.dev.rd (F.ADC_STAT_INJ_Q c) = 1 →
        Leaves (.acqUrgentTrigger c) s fun d ms => d = s.dev.inc (F.ADC_CNT_INJ_OVR c) ∧ ms.map Msg.tag = [(56, 0, c)]))) ∧
  (∀ (s : State) (c : Nat), c < 4 →
    let again := s.dev.rd (F.ADC_CTRL_MODE c) = 1 ∨ (s.dev.rd (F.ADC_CTRL_MODE c) = 2 ∧ s.dev.rd (F.ADC_STAT_REG_Q c) = 1)
    let next (d : Dev) : Prop := d.rd (F.ADC_STAT_REG_Q c) = 0 ∧ (again → d.rd (F.ADC_STAT_REG_RUN c) = 1 ∧ (d.seq c).reg = s.dev.regSlots c ∧ (d.seq c).pos = 0) ∧ (¬ again → d.rd (F.ADC_STAT_REG_RUN c) = 0)
    (s.dev.rd (F.ADC_STAT_REG_RUN c) = 1 → s.dev.rd (F.ADC_STAT_INJ_RUN c) = 0 → Does (.acqPassEnd c false) s fun t => next t.dev ∧ t.vault = s.vault) ∧
    (s.dev.rd (F.ADC_STAT_REG_RUN c) = 0 ∨ s.dev.rd (F.ADC_STAT_INJ_RUN c) = 1 → exec (.acqPassEnd c false) s = .next s) ∧
    (s.dev.rd (F.ADC_STAT_INJ_RUN c) = 0 → exec (.acqPassEnd c true) s = .next s) ∧
    (s.dev.rd (F.ADC_STAT_INJ_RUN c) = 1 → s.dev.rd (F.ADC_STAT_INJ_Q c) = 1 → s.dev.rd (F.ADC_CTRL_INJLEN c) ≠ 0 → Does (.acqPassEnd c true) s fun t => t.dev.rd (F.ADC_STAT_INJ_RUN c) = 1 ∧
      t.dev.rd (F.ADC_STAT_INJ_Q c) = 0 ∧ (t.dev.seq c).inj = s.dev.injSlots c ∧ (t.dev.seq c).ipos = 0 ∧ (t.dev.seq c).reg = (s.dev.seq c).reg ∧ (t.dev.seq c).pos = (s.dev.seq c).pos) ∧
    (s.dev.rd (F.ADC_STAT_INJ_RUN c) = 1 → s.dev.rd (F.ADC_STAT_INJ_Q c) = 0 → Does (.acqPassEnd c true) s fun t => t.dev.rd (F.ADC_STAT_INJ_RUN c) = 0 ∧ t.dev.rd (F.ADC_STAT_INJ_Q c) = 0 ∧
      (s.dev.rd (F.ADC_STAT_REG_RUN c) = 1 → t.dev.rd (F.ADC_STAT_REG_RUN c) = 1 ∧ (t.dev.seq c).reg = (s.dev.seq c).reg ∧ (t.dev.seq c).pos = (s.dev.seq c).pos) ∧
      (s.dev.rd (F.ADC_STAT_REG_RUN c) = 0 → next t.dev)))

/-- ADC_RESULT of the next slot of the pass that runs, by the converter of its sequence, moves the pass on and enters
the window of its accumulator in which its sample lies: the open one, or the one that closed at the last boundary
when the sample was taken before it (then by the converter of that frame, and of the pass abandoned there, if one
was). The code saturated to 14 bits is added with the extremes; a DISC slot adds nothing; a result within three
conversions of an over-range one is counted as tainted (in TAINT of its sequence while its converter runs that, else
in the converter's own count) and adds nothing. An over-range code marks the window (that of a DISC or tainted
result too, entry 33's choice) and starts the taint; its message is sent once a window. A result of another slot,
converter or pass changes nothing. LONG_WINDOW_CLOSE in the guard window before the boundary with which the long
window has spanned LWIN frames lets that boundary come, gives the extremes and opens the next, once; else it changes
nothing. Rests on R190, R193, R200, R201, R202, R204, R207, R208. -/
def Obligations.ResultsEnterTheirAccumulator : Prop :=
  (∀ (s : State) (p c k : Nat) (code : Int) (t : BitVec 64) (x : SlotCfg) (r : List SlotCfg), c < 4 → p < 5 →
    let late : Bool := s.dev.running && decide ((t - s.dev.boundaryNow).toInt < 0)
    let q := s.dev.seq c
    let mine := p = (if late then q.wasPhys else s.dev.rd (F.ADC_STAT_PHYS c))
    let taken (slot : AdcSlot) (pos : SeqSt → Nat) : Prop := x.acc < 128 → Leaves (.adcResult p slot ⟨code, t⟩) s fun d ms =>
      let a := s.dev.acc x.acc
      let old := if late then a.old else a.win
      let new := if late then (d.acc x.acc).old else (d.acc x.acc).win
      let ov := code < -8192 ∨ 8191 < code
      let tn := 0 < (s.dev.conv p).taint
      let v : Int := max (-8192) (min code 8191)
      pos (d.seq c) = k + 1 ∧ (d.conv p).taint = (if ov then 3 else (s.dev.conv p).taint - 1) ∧
      d.rd (F.ADC_TAINT c) = (if tn ∧ s.dev.rd (F.ADC_STAT_PHYS c) = p then min (s.dev.rd (F.ADC_TAINT c) + 1) 65535 else s.dev.rd (F.ADC_TAINT c)) ∧
      (d.conv p).tnt = (if tn ∧ s.dev.rd (F.ADC_STAT_PHYS c) ≠ p then min 65535 ((s.dev.conv p).tnt + 1) else (s.dev.conv p).tnt) ∧ (d.conv p).ain = some (s.dev.input x.ain late) ∧
      new.sum = (if tn ∨ x.disc = true then old.sum else old.sum + v) ∧ new.cnt = (if tn ∨ x.disc = true then old.cnt else old.cnt + 1) ∧
      new.ext = (if tn ∨ x.disc = true then old.ext else widen old.ext v) ∧ new.tnt = (if tn then min 255 (old.tnt + 1) else old.tnt) ∧ new.ovr = (old.ovr || decide ov) ∧
      (if late then (d.acc x.acc).win = a.win else (d.acc x.acc).old = a.old) ∧
      (ov → d.rd (F.ACC_STAT_OVR_SEEN x.acc) = 1) ∧ ms.map Msg.tag = (if ov ∧ old.ovr = false then [(90, 0, x.acc)] else []) ∧
      (∀ b, b ≠ x.acc → d.acc b = s.dev.acc b) ∧ d.run = s.dev.run
    (mine → (late = true → q.was = []) → s.dev.rd (F.ADC_STAT_REG_RUN c) = 1 → k = q.pos → q.reg.drop k = x :: r → taken (.reg c k) (·.pos)) ∧
    (mine → late = true → q.was ≠ [] → k = q.wasPos → q.was.drop k = x :: r → taken (.reg c k) (·.wasPos)) ∧
    (mine → s.dev.rd (F.ADC_STAT_INJ_RUN c) = 1 → k = q.ipos → q.inj.drop k = x :: r → taken (.inj c k) (·.ipos)) ∧
    (¬ mine → exec (.adcResult p (.reg c k) ⟨code, t⟩) s = .next s ∧ exec (.adcResult p (.inj c k) ⟨code, t⟩) s = .next s) ∧
    ((late = true → q.was = []) → s.dev.rd (F.ADC_STAT_REG_RUN c) = 0 ∨ k ≠ q.pos → exec (.adcResult p (.reg c k) ⟨code, t⟩) s = .next s) ∧
    (s.dev.rd (F.ADC_STAT_INJ_RUN c) = 0 ∨ k ≠ q.ipos → exec (.adcResult p (.inj c k) ⟨code, t⟩) s = .next s)) ∧
  (∀ (s : State) (a : Nat), a < 128 →
    let ends := s.dev.running = true ∧ s.dev.rd F.SYS_FRM_STAT_WINDOW = 3 ∧ (s.dev.acc a).lnow = false ∧ s.dev.rd (F.ACC_CFG_LWIN a) ≠ 0 ∧ s.dev.rd (F.ACC_CFG_LWIN a) ≤ (s.dev.acc a).lfr + 1
    (¬ ends → exec (.longWindowClose a) s = .next s) ∧
    (ends → Leaves (.longWindowClose a) s fun d ms =>
      d.acc a = { s.dev.acc a with long := none, lfr := 0, lclr := false, lcut := some (s.dev.acc a).long, lnow := true } ∧
      (∀ mn mx, (s.dev.acc a).long = some (mn, mx) → d.rd (F.ACC_LEXT_LMIN a) = (mn % 65536).toNat ∧ d.rd (F.ACC_LEXT_LMAX a) = (mx % 65536).toNat) ∧
      ((s.dev.acc a).long = none → d.rd (F.ACC_LEXT_LMIN a) = s.dev.rd (F.ACC_LEXT_LMIN a) ∧ d.rd (F.ACC_LEXT_LMAX a) = s.dev.rd (F.ACC_LEXT_LMAX a)) ∧
      (∀ m ∈ ms, m.passing = true) ∧ d.run = s.dev.run ∧ d.frame = s.dev.frame ∧ (∀ b, b ≠ a → d.acc b = s.dev.acc b) ∧
      ∀ f : Fld, f.still = true → f.key ≠ (F.ACC_LEXT_LMIN a).key → f.key ≠ (F.ACC_LEXT_LMAX a).key → d.rd f = s.dev.rd f))

/-- With no TRIP input asserted: TIMEBASE_RELOAD takes the first planned reload of its timebase from the plan, transfers
its period and compares, counts its position from there, and reports a period that was refused. CHANNEL_TRANSITION
takes the first planned reload or compare of its channel: the channel stands at the planned level (a latched or
held-off local one at LEVEL 2 from its reload on; one whose pulse a trip has ended keeps its level at the compare),
and a pair that nothing holds off goes off on the outgoing side LOC_ADJ before the instant (a clock edge at or after
that makes the pin edge, and the transition then moves the pins no more) and turns on at the incoming one when MINT
has passed and, under the handshake, its feedback stands at its off level; a pin that waits turns on at the first
clock edge at which both hold, or, its complement being on, is dropped and reported as the interlock (the clock edge
that an empty queue passes is the model's choice of entry 3, the instants of pins its choice of entry 79). CMPX_FIRE
triggers the sequences that its routes and their fields name. A row of a unit with nothing planned changes nothing.
Rests on R128, R130, R133, R134, R135, R137, R141, R142, R147, R164, R195. -/
def Obligations.PlannedEventsHappenAtTheirInstant : Prop :=
  (∀ (s : State) (t : Nat) (l r : List Ev) (e : Ev), t < 64 → s.dev.noTrip = true → s.dev.edge.plan = l ++ e :: r → (∀ x ∈ l, ¬ (x.kind = .tbReload ∧ x.unit = t)) → e.kind = .tbReload → e.unit = t →
    (∀ x ∈ e.xfer, x.1 = (F.TB_PER t).key ∨ ∃ m < 4, x.1 = (F.TB_CMPX t m).key) → (e.xfer.map (·.1)).Nodup →
    Leaves (.timebaseReload t) s fun d ms => d.edge.plan = l ++ r ∧ (d.tb t).pos0 = -(e.off : Int) ∧
      (∀ v, ((F.TB_PER t).key, v) ∈ e.xfer → d.rd (F.TB_PER t) = v % 2 ^ 24) ∧ (∀ m < 4, ∀ v, ((F.TB_CMPX t m).key, v) ∈ e.xfer → d.rd (F.TB_CMPX t m) = v % 2 ^ 29) ∧
      d.rd (F.TB_STAT_PER_REJ t) = (if e.rej then 1 else s.dev.rd (F.TB_STAT_PER_REJ t)) ∧
      (∃ q : List Msg, (∀ m ∈ q, m.passing = true) ∧ ms.map Msg.tag = q.map Msg.tag ++ (if e.rej then [(52, 0, t)] else [])) ∧ d.run = s.dev.run) ∧
  (∀ (s : State) (t : Nat), (∀ x ∈ s.dev.edge.plan, ¬ (x.kind = .tbReload ∧ x.unit = t)) → exec (.timebaseReload t) s = .next s) ∧
  (∀ (s : State) (c : Nat) (l r : List Ev) (e : Ev), c < 256 → s.dev.noTrip = true → s.dev.edge.plan = l ++ e :: r → (∀ x ∈ l, ¬ ((x.kind = .reload ∨ x.kind = .compare) ∧ x.unit = c)) →
    e.kind = .reload ∨ e.kind = .compare → e.unit = c → (∀ x ∈ e.xfer, x.1 = (F.CH_CMP c).key ∨ x.1 = (F.CH_PHS c).key) → (e.xfer.map (·.1)).Nodup →
    Leaves (.channelTransition c) s fun d _ => d.edge.plan = l ++ r ∧ d.run = s.dev.run ∧
      (∀ v, ((F.CH_CMP c).key, v) ∈ e.xfer → d.rd (F.CH_CMP c) = v % 2 ^ 29) ∧ (∀ v, ((F.CH_PHS c).key, v) ∈ e.xfer → d.rd (F.CH_PHS c) = v % 2 ^ 29) ∧
      (e.kind = .reload → d.rd (F.CH_STAT_STEPPING c) = b2n e.step ∧ (d.ch c).inPer = true) ∧
      (let k := s.dev.rd (F.CH_ROUTE_PAIR c)
       let x := s.dev.pair k
       let off := s.dev.rd (F.CH_STAT_LATCHED c) = 1 ∨ s.dev.pairHeldOff k = true
       (s.dev.rd (F.CH_ROUTE_KIND c) ≠ 1 → (d.ch c).out = e.level) ∧
       (s.dev.rd (F.CH_ROUTE_KIND c) = 1 → e.kind = .reload → (d.ch c).out = if off then 2 else e.level) ∧
       (s.dev.rd (F.CH_ROUTE_KIND c) = 1 → e.kind = .compare → (d.ch c).out = if (s.dev.ch c).ended = true ∨ off then (s.dev.ch c).out else e.level) ∧
       (s.dev.rd (F.CH_ROUTE_KIND c) = 1 → s.dev.pairCh k = some c → s.dev.pairHeldOff k = false → s.dev.rd F.EDG_STAT_SAFE = 0 → e.kind = .reload ∨ (s.dev.ch c).ended = false →
        e.level ≤ 1 → x.ahead = [] →
        let lead := s.dev.leadAt k (s.dev.boundaryNow + BitVec.ofNat 64 (e.off * 5120))
        (∀ u, x.ledTo = some u → 0 ≤ (u - lead).toInt → x.want = none → d.pair k = { x with ahead := (d.pair k).ahead }) ∧
        (x.ledTo = none → let hi := decide (e.level = 1)
         let on (y : PairSt) : Bool := if hi then y.a else y.b
         let due := max (d.time.rt - d.since lead + d.tickRt (s.dev.rd (F.CH_MINT c))) (if s.dev.rd (F.GSV_PAIR_HS_EN k) = 1 then x.dfbAt + 320 else 0)
         (d.pair k).complement hi = false ∧
         (on x = true → on (d.pair k) = true ∧ (d.pair k).want = none) ∧
         (on x = false → (on (d.pair k) = true ∧ (d.pair k).want = none) ∨ (on (d.pair k) = false ∧ (d.pair k).want = some hi)) ∧
         (on x = false → x.want = none → if due ≤ d.time.rt ∧ (s.dev.rd (F.GSV_PAIR_HS_EN k) = 0 ∨ s.dev.dfbOff k = true) then on (d.pair k) = true
           else on (d.pair k) = false ∧ (d.pair k).due = due))))) ∧
  (∀ (s : State) (c : Nat), (∀ x ∈ s.dev.edge.plan, ¬ ((x.kind = .reload ∨ x.kind = .compare) ∧ x.unit = c)) → exec (.channelTransition c) s = .next s) ∧
  (∀ (s : State) (t m : Nat) (l r : List Ev) (e : Ev), t < 64 → m < 4 → s.dev.noTrip = true → s.dev.edge.plan = l ++ e :: r → (∀ x ∈ l, ¬ (x.kind = .cmpx m ∧ x.unit = t)) → e.kind = .cmpx m → e.unit = t →
    Leaves (.cmpxFire t m) s fun d ms => d.edge.plan = l ++ r ∧ d.run = s.dev.run ∧ (∀ x ∈ ms, x.passing = true ∨ ∃ c < 4, x.tag = (55, 0, c) ∨ x.tag = (56, 0, c)) ∧
      (let rt := s.dev.rd (F.TB_CMPX_RT_RT0 t) * (if m = 0 then 1 else 0) + s.dev.rd (F.TB_CMPX_RT_RT1 t) * (if m = 1 then 1 else 0) + s.dev.rd (F.TB_CMPX_RT_RT2 t) * (if m = 2 then 1 else 0) + s.dev.rd (F.TB_CMPX_RT_RT3 t) * (if m = 3 then 1 else 0)
       ∀ c < 4, (bitOf rt 1 = true → s.dev.rd (F.ADC_TRGU_UTB c) = t → bitOf (s.dev.rd (F.ADC_TRGU_UCM c)) m = true → s.dev.rd (F.ADC_CTRL_INJLEN c) ≠ 0 → d.rd (F.ADC_STAT_INJ_RUN c) = 1) ∧
        (bitOf rt 0 = true → s.dev.rd (F.ADC_TRG_RTB c) = t → bitOf (s.dev.rd (F.ADC_TRG_RCM c)) m = true → s.dev.rd (F.ADC_CTRL_MODE c) = 2 →
          d.rd (F.ADC_STAT_REG_RUN c) = 1 ∨ d.rd (F.ADC_STAT_REG_Q c) = 1))) ∧
  (∀ (s : State) (t m : Nat), (∀ x ∈ s.dev.edge.plan, ¬ (x.kind = .cmpx m ∧ x.unit = t)) → exec (.cmpxFire t m) s = .next s) ∧
  (∀ (s : State) (k : Nat), k < 16 → s.pending = [] → s.dev.noTrip = true → s.dev.work = .tick → s.dev.timStopped = false → s.dev.rd F.CLK_START_STEP ≠ 1 →
    ∃ w, step s = .next (s.settleWk s.vault w) ∧ w.d.time.rt = s.dev.time.rt + 512 ∧
      (let x := s.dev.pair k
       (x.ahead = [] → ∀ hi, x.want = some hi →
        (x.due ≤ s.dev.time.rt + 512 → s.dev.rd (F.GSV_PAIR_HS_EN k) = 0 ∨ s.dev.dfbOff k = true →
          (x.complement hi = false → w.d.pair k = x.on hi (s.dev.rdB (F.GSV_PAIR_DFB_POL k)) x.due) ∧
          (x.complement hi = true → w.d.pair k = { x with want := none, due := 0 } ∧ (17, 0, 0xF00 + k) ∈ w.ms.map Msg.tag)) ∧
        (s.dev.time.rt + 512 < x.due ∨ (s.dev.rd (F.GSV_PAIR_HS_EN k) = 1 ∧ s.dev.dfbOff k = false) → w.d.pair k = x)) ∧
       (∀ e, x.ahead = [e] → x.want = none → s.dev.rd F.EDG_STAT_SAFE = 0 → let t := w.d.time.rt - w.d.since e.at_
        ((w.d.time.now - e.at_).toInt < 0 → w.d.pair k = x) ∧
        (0 ≤ (w.d.time.now - e.at_).toInt → (w.d.pair k).ahead = [] ∧ (w.d.pair k).ledTo = some e.at_ ∧
          (e.level ≠ 1 → (w.d.pair k).a = false ∧ (w.d.pair k).aAt = (if x.a then t else x.aAt)) ∧ (e.level ≠ 0 → (w.d.pair k).b = false ∧ (w.d.pair k).bAt = (if x.b then t else x.bAt))))))

/-- TRIP_INPUT_ASSERT of TRIPk at its active level for at least FILT counts: a running local channel that watches the
input, stands at LEVEL 1 and is past its blanking ends its pulse: LEVEL 0, or LEVEL 2 with TRIP_ACT; the period
counts in CNT, TOTAL and clears the trip-free run; when CNT reaches N the channel latches at LEVEL 2 and sends
LOCAL_TRIP_LATCH. A channel that does not watch the input, is not at LEVEL 1 or is blanked stays as it is (that of a
pair whose desaturation input it is goes off, as GATE_DESAT says). A level shorter than FILT changes nothing, the
other level ends the assertion alone. DEBUG_HALT acts only while debug is open: every enable of the edge engine
clears, also one that has applied in the safe state, with the positions kept, the engine is in the safe state with
HALT set and every run state outside the safe state becomes QUIESCED; DEBUG_HALT_RELEASE clears HALT and nothing
else. DEN_TOGGLE_END of a toggle that has lasted LOW_FR frames (at least two) ends it: its TOGGLE bit clears, DEN
goes to its enabled level unless the twin holds the outputs, and the gate latch of a pair under it with no cause
left clears, with the trip latch and count of its channels; before its time nothing changes. Rests on R153, R154,
R155, R180, Table 5-4, R158, R161, R184, R446, R504, R565. -/
def Obligations.TripsDebugHaltsAndDenToggles : Prop :=
  ((∀ (s : State) (x : TripIn) (c : Nat), x.k < 16 → x.high ≠ s.dev.rdB (F.EDG_TRIP_POL x.k) → s.dev.rd (F.EDG_TRIP_FILT x.k) ≤ x.counts →
    (∀ p < 16, s.dev.rd (F.GSV_PAIR_DSAT_EN p) = 1 → s.dev.rd (F.GSV_PAIR_DSAT_TIN p) = x.k → s.dev.pairCh p ≠ some c) → c < 256 →
    let past := ∀ t, (s.dev.ch c).lastTr = some t → s.dev.rd (F.CH_TRIP_BLANK c) * 163840 ≤ (s.dev.time.now - t).toNat
    let acts := s.dev.rd (F.CH_ROUTE_KIND c) = 1 ∧ s.dev.rd (F.CH_TRIP_TEN c) = 1 ∧ s.dev.rd (F.CH_TRIP_TIN c) = x.k ∧ (s.dev.ch c).run = true ∧ (s.dev.ch c).out = 1 ∧ past
    (acts → (s.dev.ch c).ended = false → Leaves (.tripInputAssert x) s fun d ms =>
      let n := min (s.dev.rd (F.CH_TCNT_CNT c) + 1) 255
      let latches := s.dev.rd (F.CH_TRIP_N c) ≤ n ∧ s.dev.rd (F.CH_STAT_LATCHED c) = 0
      d.rd (F.EDG_TRIP_LEVEL x.k) = 1 ∧ (d.ch c).ended = true ∧ (d.ch c).lastTr = some s.dev.time.now ∧ d.rd (F.CH_TCNT_CNT c) = n ∧
        d.rd (F.CH_TCNT_TOTAL c) = min (s.dev.rd (F.CH_TCNT_TOTAL c) + 1) 65535 ∧ d.rd (F.CH_TCNT_CLEAN c) = 0 ∧
        (latches → (d.ch c).out = 2 ∧ d.rd (F.CH_STAT_LATCHED c) = 1) ∧ ((12, 0, c) ∈ ms.map Msg.tag ↔ latches) ∧
        (¬ latches → (d.ch c).out = (if s.dev.rd (F.CH_CTRL_TRIP_ACT c) = 1 then 2 else 0) ∧ d.rd (F.CH_STAT_LATCHED c) = s.dev.rd (F.CH_STAT_LATCHED c)) ∧ d.run = s.dev.run) ∧
    (¬ acts → Leaves (.tripInputAssert x) s fun d _ =>
      d.rd (F.EDG_TRIP_LEVEL x.k) = 1 ∧ d.ch c = s.dev.ch c ∧ d.rd (F.CH_TCNT_CNT c) = s.dev.rd (F.CH_TCNT_CNT c) ∧ d.rd (F.CH_TCNT_TOTAL c) = s.dev.rd (F.CH_TCNT_TOTAL c))) ∧
  (∀ (s : State) (x : TripIn), (16 ≤ x.k → exec (.tripInputAssert x) s = .next s) ∧
    (x.k < 16 → x.high ≠ s.dev.rdB (F.EDG_TRIP_POL x.k) → x.counts < s.dev.rd (F.EDG_TRIP_FILT x.k) → exec (.tripInputAssert x) s = .next s) ∧
    (x.k < 16 → x.high = s.dev.rdB (F.EDG_TRIP_POL x.k) → exec (.tripInputAssert x) s = .next (s.withDev (s.dev.wr (F.EDG_TRIP_LEVEL x.k) 0))))) ∧
  ((∀ s : State, s.dev.rd F.SEC_DBG_DEBUG = 0 → exec .debugHalt s = .next s) ∧
  (∀ s : State, s.dev.rd F.SEC_DBG_DEBUG = 1 → Leaves .debugHalt s fun d ms => ms = [] ∧ d.rd F.EDG_STAT_HALT = 1 ∧ d.rd F.EDG_STAT_QUIESCED = 1 ∧ d.run = s.dev.run.halted ∧
    (s.dev.rd F.EDG_STAT_QUIESCED = 0 → d.rd F.EDG_STAT_SAFE = 1) ∧ d.edge.plan = [] ∧ d.edge.next = [] ∧ (∀ t < 64, d.rd (F.TB_CTRL_EN t) = 0 ∧ d.rd (F.TB_STAT_RUN t) = 0 ∧
      (s.dev.rd (F.TB_STAT_RUN t) = 1 → d.rd (F.TB_POS t) = s.dev.tbPos t % 2 ^ (F.TB_POS t).width)) ∧ ∀ c < 256, d.rd (F.CH_CTRL_EN c) = 0) ∧
  (∀ s : State, exec .debugHaltRelease s = .next (s.withDev (s.dev.wr F.EDG_STAT_HALT 0))) ∧
  (∀ (s : State) (m : Nat), (∀ n, tget none s.dev.edge.den m = some n → n ≤ max 2 (s.dev.rd F.GSV_DEN_LOW_FR)) → exec (.denToggleEnd m) s = .next s) ∧
  (∀ (s : State) (m n : Nat), m < 8 → tget none s.dev.edge.den m = some n → max 2 (s.dev.rd F.GSV_DEN_LOW_FR) < n → s.dev.noTrip = true →
    Leaves (.denToggleEnd m) s fun d _ => tget none d.edge.den m = none ∧ bitOf (d.rd F.GSV_DEN_TOGGLE) m = false ∧
      bitOf (d.rd F.GSV_DEN_LVL) m = (bitOf (s.dev.rd F.GSV_DEN_EN) m && !s.dev.outputsHeld && !s.dev.timStopped) ∧
      (∀ k < 16, s.dev.rd (F.GSV_PAIR_DEN k) = m → (∀ j < 16, bitOf (s.dev.rd F.GSV_GSM_STAT_BELOW) j = true → s.dev.rd (F.GSV_GSM_PAIR j) ≠ k) → bitOf (d.rd F.GSV_STAT_LATCHED) k = false ∧
        ∀ c < 256, s.dev.rd (F.CH_ROUTE_KIND c) = 1 → s.dev.rd (F.CH_ROUTE_PAIR c) = k → d.rd (F.CH_STAT_LATCHED c) = 0 ∧ d.rd (F.CH_TCNT_CNT c) = 0) ∧
      (∀ k < 16, s.dev.rd (F.GSV_PAIR_DEN k) ≠ m → bitOf (d.rd F.GSV_STAT_LATCHED) k = bitOf (s.dev.rd F.GSV_STAT_LATCHED) k) ∧ d.run = s.dev.run))

/-- GATE_DESAT of the inputs that assert in one cycle (each at its active level for FILT counts) latches every pair that
names one and sends one message each, all in that cycle, and acts as their trip; GATE_HS_TIMEOUT of a pair whose pin
went off HS_TO ns ago and whose feedback has not come to its off level latches it, counts and reports; both leave
the pair's switches off while the pins are not forced safe. DFB_OFF_LEVEL moves the feedback to a level: at its off
level a turn-on that the handshake holds goes ahead 5 ns later at the earliest. DFB_STUCK of a driven pair whose
feedback has not been seen away from its off level for HS_TO ns, since the pin went on or since it came back, is
reported and the handshake goes on. GSMON_FALL of a supply's monitor below TH for FILT sets UVLO_SEEN and BELOW,
drops HELD of a bootstrap supply, and latches and reports a pair that is in use; GSMON_RISE above TH and HYST for
FILT clears BELOW and sets HELD of a bootstrap supply. Shorter or smaller moves change nothing (that both bounds are
strict is entry 43's reading). Rests on R164, R167, R168, R169, R170, R171, R172, R180, R181, R182, Table 6-1, Table
6-2. -/
def Obligations.GateFaultsLatchTheirPair : Prop :=
  (∀ (s : State) (l : List TripIn),
    let on (k : Nat) : Bool := l.any fun x => x.k = k && decide (x.k < 16) && (x.high != s.dev.rdB (F.EDG_TRIP_POL x.k)) && decide (s.dev.rd (F.EDG_TRIP_FILT x.k) ≤ x.counts)
    let named (p : Nat) : Bool := decide (s.dev.rd (F.GSV_PAIR_DSAT_EN p) = 1) && on (s.dev.rd (F.GSV_PAIR_DSAT_TIN p))
    Leaves (.gateDesat l) s fun d ms =>
    (∀ k < 16, on k = true → d.rd (F.EDG_TRIP_LEVEL k) = 1) ∧ (∀ p < 16, bitOf (d.rd F.GSV_STAT_LATCHED) p = (bitOf (s.dev.rd F.GSV_STAT_LATCHED) p || named p)) ∧
    (∀ p < 16, named p = true → s.dev.rd F.EDG_STAT_SAFE = 0 → (d.pair p).a = false ∧ (d.pair p).b = false ∧ (d.pair p).want = none) ∧
    (∀ p < 16, named p = false → (∀ c < 256, s.dev.rd (F.CH_ROUTE_KIND c) = 1 → s.dev.rd (F.CH_TRIP_TEN c) = 1 → on (s.dev.rd (F.CH_TRIP_TIN c)) = true → s.dev.rd (F.CH_ROUTE_PAIR c) ≠ p) → d.pair p = s.dev.pair p) ∧
    (∀ m ∈ ms, m.cyc = 0) ∧
    ∃ q : List Msg, (∀ m ∈ q, ∃ c < 256, m.tag = (56, 0, c) ∨ m.tag = (12, 0, c)) ∧ ms.map Msg.tag = (((List.range 16).filter named).map fun p => (9, 0, p)) ++ q.map Msg.tag) ∧
  (∀ (s : State) (k : Nat) (high : Bool), k < 16 → let x := s.dev.pair k
    let pol := s.dev.rdB (F.GSV_PAIR_DFB_POL k)
    let off := (high != pol) = true
    let same := off ∧ x.dfb = high ∧ x.stuck = false ∧ x.moved = false
    let y := if off then
        { x with dfb := high, dfbAt := s.dev.time.rt, stuck := false, moved := false, offAt := none, due := if s.dev.rd (F.GSV_PAIR_HS_EN k) = 1 ∧ x.want.isSome = true then max x.due (s.dev.time.rt + 320) else x.due }
      else { x with dfb := high, stuck := false, moved := true }
    (same → exec (.dfbOffLevel ⟨k, high⟩) s = .next s) ∧
    (¬ same → ¬ off ∨ x.want = none ∨ s.dev.rd (F.GSV_PAIR_HS_EN k) = 1 ∨ s.dev.time.rt < x.due → exec (.dfbOffLevel ⟨k, high⟩) s = .next (s.withDev (s.dev.setPair k y))) ∧
    (∀ hi, ¬ same → off → x.want = some hi → s.dev.rd (F.GSV_PAIR_HS_EN k) = 0 → x.due ≤ s.dev.time.rt →
      (x.complement hi = false → Does (.dfbOffLevel ⟨k, high⟩) s fun t => t.dev.pair k = y.on hi pol x.due) ∧
      (x.complement hi = true → Leaves (.dfbOffLevel ⟨k, high⟩) s fun d ms => d.pair k = { y with want := none, due := 0 } ∧
        d.rd F.GSV_CNT_ILK = min (s.dev.rd F.GSV_CNT_ILK + 1) 65535 ∧ ms.map Msg.tag = [(17, 0, 0xF00 + k)]))) ∧
  (∀ (s : State) (k : Nat), k < 16 → let x := s.dev.pair k
    let waits := x.offAt.isSome = true ∧ s.dev.rd (F.GSV_PAIR_HS_EN k) = 1 ∧ s.dev.dfbOff k = false
    (¬ waits → exec (.gateHsTimeout k) s = .next s) ∧
    (∀ t, waits → x.offAt = some t → Leaves (.gateHsTimeout k) s fun d ms => bitOf (d.rd F.GSV_STAT_LATCHED) k = true ∧ d.rd F.GSV_CNT_HST = min (s.dev.rd F.GSV_CNT_HST + 1) 65535 ∧
      t + 64 * s.dev.rd (F.GSV_PAIR_HS_TO k) ≤ d.time.rt ∧ (∃ l : List Msg, (∀ m ∈ l, m.passing = true) ∧ ms.map Msg.tag = l.map Msg.tag ++ [(11, 0, k)]) ∧
      (s.dev.rd F.EDG_STAT_SAFE = 0 → (d.pair k).a = false ∧ (d.pair k).b = false ∧ (d.pair k).want = none) ∧
      ∀ f : Fld, f.key ≠ F.GSV_STAT_LATCHED.key → f.key ≠ F.GSV_CNT_HST.key → f.still = true → d.rd f = s.dev.rd f)) ∧
  (∀ (s : State) (k : Nat), k < 16 → let x := s.dev.pair k
    ((x.a || x.b) = false ∨ x.moved = true → exec (.dfbStuck k) s = .next s) ∧
    ((x.a || x.b) = true → x.moved = false → Leaves (.dfbStuck k) s fun d ms => (d.pair k).dfb = !s.dev.rdB (F.GSV_PAIR_DFB_POL k) ∧ (d.pair k).stuck = true ∧ s.dev.rd (F.GSV_PAIR_HS_EN k) = d.rd (F.GSV_PAIR_HS_EN k) ∧
      max (if x.a then x.aAt else x.bAt) x.dfbAt + 64 * s.dev.rd (F.GSV_PAIR_HS_TO k) ≤ d.time.rt ∧ (∃ l : List Msg, (∀ m ∈ l, m.passing = true) ∧ ms.map Msg.tag = l.map Msg.tag ++ [(53, 0, k)]) ∧
      (x.want = none → x.ahead = [] → d.pair k = { x with dfb := !s.dev.rdB (F.GSV_PAIR_DFB_POL k), stuck := true }) ∧ ∀ f : Fld, f.still = true → d.rd f = s.dev.rd f)) ∧
  (∀ (s : State) (m dmv us : Nat), m < 16 → let kind := s.dev.rd (F.GSV_GSM_KIND m)
    let k := s.dev.rd (F.GSV_GSM_PAIR m)
    let low := (kind = 1 ∨ kind = 2) ∧ dmv < 12 * s.dev.rd (F.GSV_GSM_TH m) ∧ s.dev.rd (F.GSV_GSM_FILT m) ≤ us
    let high := (kind = 1 ∨ kind = 2) ∧ 12 * (s.dev.rd (F.GSV_GSM_TH m) + s.dev.rd (F.GSV_GSM_HYST m)) < dmv ∧ s.dev.rd (F.GSV_GSM_FILT m) ≤ us
    let charging := match s.dev.edge.pc with | some p => p.pairs.contains k && !p.doneP.contains k && !p.failP.contains k | none => false
    let used : Bool := (s.dev.pairCh k).isSome || charging
    (¬ low → exec (.gsmonFall ⟨m, dmv, us⟩) s = .next s) ∧ (¬ high → exec (.gsmonRise ⟨m, dmv, us⟩) s = .next s) ∧
    (low → Leaves (.gsmonFall ⟨m, dmv, us⟩) s (fun d ms => bitOf (d.rd F.GSV_GSM_STAT_UVLO_SEEN) m = true ∧ bitOf (d.rd F.GSV_GSM_STAT_BELOW) m = true ∧
        bitOf (d.rd F.GSV_STAT_HELD) k = (bitOf (s.dev.rd F.GSV_STAT_HELD) k && decide (kind ≠ 2)) ∧ bitOf (d.rd F.GSV_STAT_LATCHED) k = (bitOf (s.dev.rd F.GSV_STAT_LATCHED) k || used) ∧
        ms.map Msg.tag = (if used then [(10, 0, m)] else []) ∧ (used = true → s.dev.rd F.EDG_STAT_SAFE = 0 → (d.pair k).a = false ∧ (d.pair k).b = false))) ∧
    (high → Does (.gsmonRise ⟨m, dmv, us⟩) s (fun t => bitOf (t.dev.rd F.GSV_GSM_STAT_BELOW) m = false ∧ bitOf (t.dev.rd F.GSV_STAT_HELD) k = (bitOf (s.dev.rd F.GSV_STAT_HELD) k || decide (kind = 2)) ∧ t.vault = s.vault ∧
        ∀ f : Fld, f.key ≠ F.GSV_GSM_STAT_BELOW.key → f.key ≠ F.GSV_STAT_HELD.key → t.dev.rd f = s.dev.rd f)))

/-- While the frame generator stands, none of the four instants changes anything; while it runs, an instant whose window
is not the present one changes nothing. UPL_END opens the compute window and starts the loop engine only where RUN
is applied; every placed bead of an enabled strand whose record did not come is reported, and after the third miss
as silent. The plan instant, of the compute window alone, plans the next frame and counts the frames in a row that
have been planned in the safe state. DNL_END begins the guard window when device time has come to it. FRAME_BOUNDARY
begins the next frame in the uplink window with nothing planned and no record taken: an accepted set that is due has
closed, the states decided for the beads are in force, and every row remap that waited is applied and reported.
Rests on R16, R21, R22, R23, R120, R253, R301, R326, R443. -/
def Obligations.FramesPassThroughTheirWindows : Prop :=
  (∀ s : State, s.dev.running = false → exec .frameBoundary s = .next s ∧ exec .uplEnd s = .next s ∧ exec .planInstant s = .next s ∧ exec .dnlEnd s = .next s) ∧
  (∀ s : State, s.dev.rd F.SYS_FRM_STAT_WINDOW ≠ 0 → exec .uplEnd s = .next s) ∧
  (∀ s : State, s.dev.rd F.SYS_FRM_STAT_WINDOW ≠ 1 → exec .planInstant s = .next s) ∧
  (∀ s : State, s.dev.rd F.SYS_FRM_STAT_WINDOW ≠ 2 → exec .dnlEnd s = .next s) ∧
  (∀ s : State, s.dev.rd F.SYS_FRM_STAT_WINDOW ≠ 3 → exec .frameBoundary s = .next s) ∧
  (∀ s : State, s.dev.running = true → s.dev.rd F.SYS_FRM_STAT_WINDOW = 0 → Leaves .uplEnd s fun d ms => d.rd F.SYS_FRM_STAT_WINDOW = 1 ∧ d.frame.k = s.dev.frame.k ∧
    d.rd F.LPE_STAT_RUNNING = b2n d.lpe.active ∧ (d.lpe.active = true → d.rd F.LPE_CTRL_RUN = 1) ∧
    ∀ b st p, (b, st, p) ∈ s.dev.placed → s.dev.rd (F.STR_CTRL_EN st) = 1 → (s.dev.bead b).got = false →
      (88, 0, b) ∈ ms.map Msg.tag ∧ ((s.dev.bead b).missRun = 2 → (22, 0, b) ∈ ms.map Msg.tag)) ∧
  (∀ s : State, s.dev.running = true → s.dev.rd F.SYS_FRM_STAT_WINDOW = 1 → Leaves .planInstant s fun d _ => d.frame.planned = true ∧ d.rd F.SYS_FRM_STAT_WINDOW = 2 ∧ d.frame.k = s.dev.frame.k ∧
    (s.dev.rd F.TWN_CTRL_EN = 0 → d.frame.safeRecs = if s.dev.rd F.EDG_STAT_QUIESCED = 1 then min 3 (s.dev.frame.safeRecs + 1) else 0)) ∧
  (∀ s : State, s.dev.running = true → s.dev.rd F.SYS_FRM_STAT_WINDOW = 2 → s.dev.timStopped = false → 524032 ≤ s.dev.time.incI → s.dev.time.incI ≤ 524543 → s.dev.time.incF < 2 ^ 32 →
    Leaves .dnlEnd s fun d _ => d.rd F.SYS_FRM_STAT_WINDOW = 3 ∧ d.frame = s.dev.frame ∧ 0 ≤ d.behind (s.dev.inFrame s.dev.dnlEnd)) ∧
  (∀ s : State, s.dev.running = true → s.dev.rd F.SYS_FRM_STAT_WINDOW = 3 → Leaves .frameBoundary s fun d ms => d.frame.k = s.dev.frame.k + 1 ∧ d.frame.planned = false ∧ d.rd F.SYS_FRM_STAT_WINDOW = 0 ∧
    (∀ b < 96, (d.bead b).got = false) ∧ (s.dev.stageDue = true → d.stage = none ∧ d.stg = []) ∧ d.lpe.remapNow = [] ∧ (∀ r ∈ s.dev.lpe.remapNow, (28, 0, r) ∈ ms.map Msg.tag) ∧
    (s.dev.stageDue = false → s.dev.twn.sched = [] → s.dev.twn.held = [] → ∀ b < 96, ∀ st < 8, (s.dev.bead b).nxt = some st → d.rd (F.BDT_STATE b) = st ∧ (d.bead b).nxt = none))

/-- The frame that FRAME_BOUNDARY begins in the guard window, and the first frame of the frame generator, report k
modulo 65,536 in SYS_FRM_STAT.SEQ, and so does a frame that has been aligned with another unit's. In a planned
record of frame k + 1, the bits 63 to 48 of every edge descriptor are (k + 1) modulo 65,536. Formalises R17. -/
def Obligations.FramesAreNumberedModulo65536 : Prop :=
  (∀ s : State, s.dev.running = true → s.dev.rd F.SYS_FRM_STAT_WINDOW = 3 → Leaves .frameBoundary s fun d _ => d.frame.k = s.dev.frame.k + 1 ∧ d.rd F.SYS_FRM_STAT_SEQ = (s.dev.frame.k + 1).toNat % 65536) ∧
  (∀ s : State, s.dev.running = false → s.dev.rd F.CLK_START_STEP = 6 → s.dev.linksUp = true → Leaves .frameGeneratorStart s fun d _ => d.frame.k = 0 ∧ d.rd F.SYS_FRM_STAT_SEQ = 0) ∧
  (∀ (d : Dev) (k1 : BitVec 32) (seq : Nat) (tgt : BitVec 64), d.rd F.SYS_FRM_STAT_SEQ = d.frame.k.toNat % 65536 →
    (d.alignFrames k1 seq tgt).rd F.SYS_FRM_STAT_SEQ = (d.alignFrames k1 seq tgt).frame.k.toNat % 65536) ∧
  (∀ (p : Plan) (b pos : Nat) (r : Rec) (i : Nat) (e : Desc), i < 16 → r.descs[i]? = some e → e.off < 2 ^ 24 → e.sw < 16 → e.level < 4 →
    le (p.recBytes b pos r) (16 + 8 * i + 6) 2 = (p.d.frame.k + 1).toNat % 65536 ∧ le (p.recBytes b pos r) (16 + 8 * i + 3) 3 = e.off)

/-- In the guard window, at the boundary that comes (a set or a frame value also at once while no frames run),
STAGED_SET_APPLY of an accepted set that is due gives every staged field its value, closes the set and answers the
STAGE_APPLY; FRM_APPLY gives every field the value due for it and leaves every other field as it was (but for what
passing time counts); ARM_APPLY, without lockout and, of a port's ARM, once the safe state has held in three plans
in a row, leaves the safe state in ARMED with RUN set; SOFT_START_APPLY at its planned boundary enters SOFT_STARTING
and starts the ramps; COEF_SWAP_APPLY swaps the banks and shows SWAPPED; AUTORUN_COMPLETE of a SOFT_START with
AUTORUN enters RUN when every ramp has ended. Each of them changes nothing in another window, and nothing where
nothing is due. Rests on R242, R440, R443, R445, R446, R462, R463, Table 16-10. -/
def Obligations.ValuesApplyAtTheirBoundary : Prop :=
  (∀ s : State, s.dev.stageDue = false ∨ s.dev.boundaryNext = false → exec .stagedSetApply s = .next s) ∧
  (∀ s : State, s.dev.stageDue = true → s.dev.boundaryNext = true → Leaves .stagedSetApply s fun d _ => d.stage = none ∧ d.stg = [] ∧ (∀ x ∈ d.waits, ¬ (x.kind = .stageApply ∧ x.due = some (s.dev.frame.k + 1))) ∧
    (twf none s.dev.stg = true → ∀ f v, fldOf f.key = some f → f.app = .stg → tget none s.dev.stg f.key = some v → d.rd f = v % 2 ^ f.width)) ∧
  (∀ s : State, s.dev.boundaryNext = false ∨ (∀ e ∈ s.dev.frm, ∀ x ∈ e.2, s.dev.dueBy x.2 = false) → exec .frmApply s = .next s) ∧
  (∀ (s : State) (k : Nat) (v : Nat) (b : BitVec 32), s.dev.boundaryNext = true → twf [] s.dev.frm = true → tget [] s.dev.frm k = [(v, b)] → s.dev.dueBy b = true → Leaves .frmApply s fun d _ =>
    (∀ f, fldOf k = some f → d.rd f = v % 2 ^ f.width) ∧ tget [] d.frm k = [] ∧ d.run = s.dev.run ∧
    (∀ f, fldOf f.key = some f → tget [] s.dev.frm f.key = [] → f.still = true → d.rd f = s.dev.rd f)) ∧
  (∀ s : State, s.vault.lockout = true ∨ s.dev.running = false ∨ s.dev.rd F.SYS_FRM_STAT_WINDOW ≠ 3 ∨ s.dev.waiting .arm = none → exec .armApply s = .next s) ∧
  (∀ (s : State) (x : Wait), s.dev.waiting .arm = some x → (x.due = none ∨ ∃ b, x.due = some b ∧ 2 ^ 31 ≤ (s.dev.frame.k + 1 - b).toNat) ∨
    (x.hdr.port < 2 ∧ (s.dev.rd F.EDG_STAT_QUIESCED = 0 ∨ s.dev.frame.safeRecs < 3)) → exec .armApply s = .next s) ∧
  (∀ (s : State) (x : Wait) (b : BitVec 32), s.vault.lockout = false → s.dev.running = true → s.dev.rd F.SYS_FRM_STAT_WINDOW = 3 → s.dev.waiting .arm = some x → x.due = some b → (s.dev.frame.k + 1 - b).toNat < 2 ^ 31 →
      2 ≤ x.hdr.port ∨ (s.dev.rd F.EDG_STAT_QUIESCED = 1 ∧ 3 ≤ s.dev.frame.safeRecs) → Leaves .armApply s fun d _ =>
    d.rd F.EDG_STAT_QUIESCED = 0 ∧ d.rd F.LPE_CTRL_RUN = 1 ∧ d.run = .armed ∧ d.frame.safeRecs = 0 ∧ ∀ x ∈ d.waits, ¬ (x.kind = .arm ∧ x.due = some (s.dev.frame.k + 1))) ∧
  (∀ s : State, s.dev.waiting .softStart = none ∨ s.dev.running = false ∨ s.dev.rd F.SYS_FRM_STAT_WINDOW ≠ 3 → exec .softStartApply s = .next s) ∧
  (∀ (s : State) (x : Wait), s.dev.waiting .softStart = some x → x.due ≠ some (s.dev.frame.k + 1) → exec .softStartApply s = .next s) ∧
  (∀ (s : State) (x : Wait), s.dev.waiting .softStart = some x → x.due = some (s.dev.frame.k + 1) → s.dev.running = true → s.dev.rd F.SYS_FRM_STAT_WINDOW = 3 → Leaves .softStartApply s fun d _ =>
    d.run = .softStarting ∧ d.frame.autorun = decide (x.arg.getD 0 0 = 1) ∧ d.lpe.rampDue = true ∧ ∀ y ∈ d.waits, ¬ (y.kind = .softStart ∧ y.due = some (s.dev.frame.k + 1))) ∧
  (∀ s : State, s.dev.rd F.LPE_COEF_SWAP_PEND = 0 ∨ s.dev.running = false ∨ s.dev.rd F.SYS_FRM_STAT_WINDOW ≠ 3 → exec .coefSwapApply s = .next s) ∧
  (∀ s : State, s.dev.rd F.LPE_COEF_SWAP_PEND = 1 → s.dev.running = true → s.dev.rd F.SYS_FRM_STAT_WINDOW = 3 → Leaves .coefSwapApply s fun d _ => d.rd F.LPE_COEF_BANK = 1 - s.dev.rd F.LPE_COEF_BANK ∧ d.rd F.LPE_COEF_SWAP_PEND = 0 ∧
    d.rd F.LPE_STAT_SWAPPED = 1 ∧ d.lpe.mem = s.dev.lpe.mem ∧ d.run = s.dev.run ∧ ∀ x ∈ d.waits, x.kind ≠ .coefSwap) ∧
  (∀ s : State, let due : Prop := s.dev.running = true ∧ s.dev.rd F.SYS_FRM_STAT_WINDOW = 3 ∧ s.dev.run = .softStarting ∧ s.dev.frame.autorun = true ∧ s.dev.lpe.rampDue = false ∧ s.dev.rampsDone = true
    (¬ due → exec .autorunComplete s = .next s) ∧
    (due → Leaves .autorunComplete s fun d ms => d.run = .run ∧ d.lpe = s.dev.lpe ∧ (∀ m ∈ ms, m.passing = true) ∧
      ∀ f, fldOf f.key = some f → f.key ≠ F.CLK_STAT_PSTATE.key → f.still = true → d.rd f = s.dev.rd f))

/-- BYPASS_TIMEOUT, before bead service's plan instant of a frame, of a BYPASSING bead that has shown no confirmation in
BYP_TO records ends the bypass as unconfirmed, counts and reports it; at another time, before, or of another bead,
it changes nothing. After what bead service does of itself there, a waiting BEAD_BYPASS or BEAD_RETIRE acts at the
plan instant (once in a frame) and replies the state that follows, an insertion replies state and slot and waits
while the safe state holds, and one whose bead does not allow it replies STATE_INVALID. PRECHARGE_LIMIT fails a bead
or pair not through after MAXP frames; PRECHARGE_COMPLETE, with every bead and pair through, returns to ARMED and
replies the masks of those that failed. Rests on R177, R316, R318, R319, R321, R444, Table 11-1. -/
def Obligations.BeadServiceTimeoutsAndCommands : Prop :=
  (∀ (s : State) (b : Nat), b < 96 → let x := s.dev.bead b
    let lim := max 1 (match s.dev.stringOf b with | some g => s.dev.rd (F.BSV_CTRL_BYP_TO g) | none => 32)
    (s.dev.planAhead = false ∨ x.kb = none ∨ s.dev.rd (F.BDT_STATE b) ≠ 4 ∨ x.nxt.isSome = true → exec (.bypassTimeout b) s = .next s) ∧
    (∀ kb, x.kb = some kb → let age := (s.dev.frame.k - kb).toNat + 1
      (2 ^ 31 < age ∨ age < lim ∨ (x.got = true ∧ le x.last 2 1 = 5 ∧ age ≤ lim) → exec (.bypassTimeout b) s = .next s) ∧
      (s.dev.planAhead = true → s.dev.rd (F.BDT_STATE b) = 4 → x.nxt = none → lim ≤ age → age ≤ 2 ^ 31 → x.got = false ∨ le x.last 2 1 ≠ 5 ∨ lim < age →
        Leaves (.bypassTimeout b) s fun d ms => (∃ l : List Msg, (∀ m ∈ l, m.passing = true) ∧ ms.map Msg.tag = l.map Msg.tag ++ [(25, 0, b)]) ∧
          d.rd (F.BDT_STATE_UNCONF b) = 1 ∧ d.rd (F.BDT_STATE_FAILED b) = 0 ∧ (d.bead b).kb = none ∧
          (d.bead b).nxt = some (if x.retire then 6 else 5) ∧ d.rd (F.BDT_CNT_BYPASSES b) = min (s.dev.rd (F.BDT_CNT_BYPASSES b) + 1) 65535))) ∧
  (∀ s : State, s.dev.planAhead = false → exec .beadCommandAct s = .next s) ∧
  (∀ (s : State) (x : Wait), s.dev.planAhead = true → let a := ((s.wk.advanceTo (s.dev.inFrame s.dev.cmpEnd)).beadAuto).d
    (a.waits.filter fun y => y.kind = .bypass || y.kind = .retire || y.kind = .insert) = [x] → x.hdr.port < 2 → x.bead < 96 →
    let b := x.bead
    let st := a.rd (F.BDT_STATE b)
    let gone (d : Dev) : Prop := ∀ y ∈ d.waits, y ≠ x
    let reply (d : Dev) (t : Status) (det : Nat) (ws : List Nat) : Prop := Replied (s.withDev d) x.hdr x.op t det ws
    (a.bead b).nxt = none → Leaves .beadCommandAct s fun d ms => d.frame.acted = true ∧
    (x.kind = .bypass → st = 3 → reply d .ok 0 [4] ∧ (d.bead b).nxt = some 4 ∧ (d.bead b).kb = some (s.dev.frame.k + 1) ∧ gone d) ∧
    (x.kind = .bypass → st ≠ 3 → (∃ det, reply d .stateInvalid det []) ∧ (d.bead b).nxt = none ∧ gone d) ∧
    (x.kind = .retire → st = 1 ∨ st = 2 ∨ st = 5 → reply d .ok 0 [6] ∧ (d.bead b).nxt = some 6 ∧ gone d) ∧
    (x.kind = .retire → st = 3 → x.arg.getD 1 0 = 1 → reply d .ok 0 [4] ∧ (d.bead b).nxt = some 4 ∧ (d.bead b).retire = true ∧ gone d) ∧
    (x.kind = .insert → a.safe = true → x ∈ d.waits ∧ (d.bead b).nxt = none) ∧
    (x.kind = .insert → a.safe = false → a.insertOk b = false → (∃ det, reply d .stateInvalid det []) ∧ (d.bead b).nxt = none ∧ gone d) ∧
    (x.kind = .insert → a.safe = false → a.insertOk b = true → reply d .ok 0 [3, d.rd (F.BDT_STATE_SLOT b)] ∧ (d.bead b).nxt = some 3 ∧ gone d ∧ (64, 0, b) ∈ ms.map Msg.tag)) ∧
  (∀ (s : State) (isPair : Bool) (i : Nat), s.dev.edge.pc = none → exec (.prechargeLimit isPair i) s = .next s ∧ exec .prechargeComplete s = .next s) ∧
  (∀ (s : State) (p : PcRun) (i : Nat), s.dev.edge.pc = some p →
    (∀ isPair, p.frames ≤ s.dev.rd F.GSV_PC_MAXP → exec (.prechargeLimit isPair i) s = .next s) ∧
    (s.dev.rd F.GSV_PC_MAXP < p.frames → i < 96 → i ∈ p.beads → i ∉ p.failB → s.dev.rd (F.GSV_BEAD_PC_DONE i) = 0 → Leaves (.prechargeLimit false i) s fun d ms =>
      ms.map Msg.tag = [(21, 0, i)] ∧ d.rd (F.GSV_BEAD_PC_FAIL i) = 1 ∧ d.edge = { s.dev.edge with pc := some { p with failB := p.failB ++ [i] } }) ∧
    (s.dev.rd F.GSV_PC_MAXP < p.frames → i ∈ p.pairs → s.dev.pairThrough p i = false → s.dev.bootMonitor i = true → Leaves (.prechargeLimit true i) s fun d ms =>
      ms.map Msg.tag = [(13, 0, i)] ∧ d = { s.dev with edge := { s.dev.edge with pc := some { p with failP := p.failP ++ [i] } } }) ∧
    ((p.beads.all (s.dev.beadThrough p) && p.pairs.all (s.dev.pairThrough p)) = false → exec .prechargeComplete s = .next s) ∧
    ((p.beads.all (s.dev.beadThrough p) && p.pairs.all (s.dev.pairThrough p)) = true → Does .prechargeComplete s fun t => t.dev.edge.pc = none ∧ t.dev.run = .armed ∧ t.vault = s.vault ∧
      (∀ y ∈ t.dev.waits, y.kind ≠ .precharge) ∧ ∀ x, (s.dev.waits.filter fun y => y.kind = .precharge) = [x] → x.hdr.port < 2 → Replied t x.hdr x.op .ok 0
        (((List.range 3).map fun i => ofBits ((p.failB.filter fun b => b / 32 = i).map (· % 32))) ++ [ofBits p.failP])))

/-- SENSOR_SILENT_TIMEOUT of an enabled, unbroken sensor of a bead in service that has given no reading for
THM_SILENT.FR frames in service breaks it: its BROKEN bit is set, the count advances, SENSOR_BROKEN is sent, and the
bead's held excess is the larger of the one held and the bead's excess, with no other message; in any other case
nothing changes. THM_HOLD_END lets the hold run out when no sensor of the bead is broken: the held excess is gone
and the bead's excess is that of its sensors alone. HOUSEKEEPING_ROUND breaks an unbroken die sensor in service that
reads a count of all zeros or all ones, leaves an unbroken die sensor that was not read as it was, gives a broken
one in service its substitute, and reports every rail found out of its limits. Rests on R283, R291, R292, R293,
R295, R524, Table 10-2. -/
def Obligations.SilentSensorsBreakAndHoldsEnd : Prop :=
  (∀ (st : State) (b s : Nat), let i := b * 8 + s
    let dk := st.dev.frame.n - max (st.dev.sens i).lastN (st.dev.bead b).svcN
    (8 ≤ s ∨ 96 ≤ b ∨ st.dev.rd (F.BDT_STATE b) ≠ 3 ∨ st.dev.sensOn i = false ∨ st.dev.broken i = true ∨ dk < st.dev.rd F.THM_SILENT_FR → exec (.sensorSilentTimeout b s) st = .next st) ∧
    (s < 8 → b < 96 → st.dev.rd (F.BDT_STATE b) = 3 → st.dev.sensOn i = true → st.dev.broken i = false → st.dev.rd F.THM_SILENT_FR ≤ dk → Leaves (.sensorSilentTimeout b s) st fun d ms =>
      ms.map Msg.tag = [(63, 0, i)] ∧ d.broken i = true ∧ d.rd F.THM_CNT_BRK = min (st.dev.rd F.THM_CNT_BRK + 1) 65535 ∧ (d.bead b).hold = none ∧
        d.rd (F.BTH_HELD b) = fmax (st.dev.rd (F.BTH_HELD b)) (st.dev.excess b) % 2 ^ 32 ∧ (∀ j, j ≠ i → d.sens j = st.dev.sens j ∧ d.broken j = st.dev.broken j) ∧ d.run = st.dev.run)) ∧
  (∀ (s : State) (b : Nat), b < 96 → ((s.dev.bead b).hold = none ∨ s.dev.rd (F.BTH_STAT_BROKEN b) ≠ 0 → exec (.thmHoldEnd b) s = .next s) ∧
    (∀ t, (s.dev.bead b).hold = some t → s.dev.rd (F.BTH_STAT_BROKEN b) = 0 → Leaves (.thmHoldEnd b) s fun d ms => (d.bead b).hold = none ∧ d.rd (F.BTH_HELD b) = 0 ∧
      d.rd (F.BTH_EXC_THM_BEXC b) = s.dev.rawExcess b % 2 ^ 32 ∧ t ≤ d.time.rt ∧ (∀ m ∈ ms, m.passing = true) ∧ d.run = s.dev.run)) ∧
  (∀ (s : State) (counts : List (Option Nat)) (rails : List (Nat × Bool)), Leaves (.housekeepingRound counts rails) s fun d ms =>
    (∃ l : List Msg, ms.map Msg.tag = l.map Msg.tag ++ rails.map fun r => (4, r.1 % 8 + b2n r.2 * 128, 0)) ∧
    (∀ k < 28, counts.getD k none = none → d.broken (768 + k) = s.dev.broken (768 + k) ∧
      ((s.dev.sensOn (768 + k) && s.dev.broken (768 + k)) = false → d.sens (768 + k) = s.dev.sens (768 + k)) ∧
      ((s.dev.sensOn (768 + k) && s.dev.broken (768 + k)) = true → (d.sens (768 + k)).last = (s.dev.time.rt * 1024 : Nat) ∧ (d.sens (768 + k)).seen = true)) ∧
    (∀ k < 28, ∀ c, counts.getD k none = some c → c % 2 ^ 24 = 0 ∨ c % 2 ^ 24 = 0xFFFFFF → s.dev.sensOn (768 + k) = true → s.dev.broken (768 + k) = false →
      (63, 0, 768 + k) ∈ ms.map Msg.tag ∧ d.broken (768 + k) = true) ∧ d.run = s.dev.run)

/-- PARTITION_COMPLETE of a cluster with work not yet done records the writes of its partition (with the one a fault of
the cluster changed) and commits nothing; when the checker has recomputed the same partition, a difference of the
writes is a mismatch: it is counted, reported, and put to a vote. LPE_SPARE_READY gives the waking spare the role
VOTE. MEM_SCRUB of a word with one wrong bit counts and reports a corrected error, in the WIN seconds that run, and
marks its row for remapping at ROW_TH; with more wrong bits it reports the word as not correctable, until it is
written. An error in a memory other than the loop engine's, which the row names by the model's own address coding
(log entry 75), is reported as corrected or not correctable with its memory and place. LPE_ROW_REMAP of a row that a
commit has made ready reserves a spare row for the next boundary, or reports that none is left.
ROW_COUNT_WINDOW_EXPIRE clears one row's count when WIN seconds have passed. Rests on R236, R244, R245, R249, R251,
R252, R253, Table 8-1. -/
def Obligations.ClustersAreCheckedAndMemoriesScrubbed : Prop :=
  (∀ (s : State) (c : Nat) (flt : Option (Nat × Word)), s.dev.lpe.active = false ∨ 6 ≤ c ∨ (s.dev.clRes c).isSome = true ∨ s.dev.partOf c = none → exec (.partitionComplete c flt) s = .next s) ∧
  (∀ (s : State) (c p : Nat) (flt : Option (Nat × Word)), s.dev.lpe.active = true → c < 6 → s.dev.clRes c = none → s.dev.partOf c = some p → Leaves (.partitionComplete c flt) s fun d ms =>
    let r := s.dev.runPart p
    let own := r.wr.reverse
    d.lpe.mem = s.dev.lpe.mem ∧ d.lpe.prog = s.dev.lpe.prog ∧ d.run = s.dev.run ∧ (∀ j, j ≠ c → d.clRes j = s.dev.clRes j) ∧
    (flt = none → d.clRes c = some ⟨own, r.evs⟩) ∧ (∀ k v w, flt = some (k, v) → own[k]? = some w → d.clRes c = some ⟨own.set k (w.1, v.toNat), r.evs⟩) ∧
    (s.dev.clRole c < 4 → d.rd F.LPE_CNT2_FPEV = min (s.dev.rd F.LPE_CNT2_FPEV + r.fpev) 65535) ∧
    (∀ a b x y, s.dev.lpe.vote = none → s.dev.lpe.mism = none → s.dev.checked = some p → s.dev.clWith p = some a → s.dev.clWith 8 = some b → d.clRes a = some x → d.clRes b = some y →
      (d.lpe.mism = some p ↔ x.writes ≠ y.writes) ∧ ((60, 0, p) ∈ ms.map Msg.tag ↔ x.writes ≠ y.writes))) ∧
  (∀ s : State, (s.dev.lpe.waking = false → exec .lpeSpareReady s = .next s) ∧
    (s.dev.lpe.waking = true → Does .lpeSpareReady s fun t => t.dev.lpe.waking = false ∧ t.vault = s.vault ∧
      ∀ c < 6, t.dev.clRole c = if s.dev.clWith 9 = some c then 10 else s.dev.clRole c)) ∧
  (∀ (s : State) (addr errs : Nat), (errs = 0 ∨ (memKey addr = none ∧ (addr < 2 ^ 28 ∨ 6 * 2 ^ 28 ≤ addr)) → exec (.memScrub addr errs) s = .next s) ∧
    (memKey addr = none → 2 ^ 28 ≤ addr → addr < 6 * 2 ^ 28 → 0 < errs → Leaves (.memScrub addr errs) s fun d ms =>
      d = s.dev ∧ ms.map Msg.tag = [(if errs = 1 then 101 else 16, addr / 2 ^ 28 - 1, addr % 2 ^ 28 / 4096)]) ∧
    (∀ k, memKey addr = some k → 2 ≤ errs ∨ (errs = 1 ∧ tget false s.dev.lpe.bad k = true) → Leaves (.memScrub addr errs) s fun d ms =>
      ms.map Msg.tag = [(6, 0, eccRow k)] ∧ d = s.dev.upLpe fun l => { l with bad := tput false l.bad k true }) ∧
    (∀ k, memKey addr = some k → errs = 1 → tget false s.dev.lpe.bad k = false → Leaves (.memScrub addr errs) s fun d ms =>
      let row := eccRow k
      ms.map Msg.tag = [(93, 0, row)] ∧ d.rd F.LPE_ECC_CNT_CORR = min (s.dev.rd F.LPE_ECC_CNT_CORR + 1) 65535 ∧ d.lpe.mem = s.dev.lpe.mem ∧ d.lpe.prog = s.dev.lpe.prog ∧ d.lpe.bad = s.dev.lpe.bad ∧
      let n := tget 0 (s.dev.rowWindow row).lpe.rows row + 1
      (row < 1024 → tget 0 d.lpe.rows row = n) ∧
      (row < 1024 → s.dev.rd F.LPE_ECC_ROW_TH ≤ n → row ∈ d.lpe.remap ∨ row ∈ d.lpe.remapRdy ∨ row ∈ d.lpe.remapNow) ∧
      (1024 ≤ row ∨ n < s.dev.rd F.LPE_ECC_ROW_TH → d.lpe.remap = s.dev.lpe.remap))) ∧
  (∀ (s : State) (row : Nat), (row ∉ s.dev.lpe.remapRdy → exec (.lpeRowRemap row) s = .next s) ∧
    (row ∈ s.dev.lpe.remapRdy → s.dev.rd F.LPE_ECC_SPARES_LEFT ≤ s.dev.lpe.remapNow.length → Leaves (.lpeRowRemap row) s fun d ms =>
      ms.map Msg.tag = [(61, 0, row)] ∧ d = s.dev.upLpe fun l => { l with remapRdy := l.remapRdy.filter (· ≠ row) }) ∧
    (row ∈ s.dev.lpe.remapRdy → s.dev.lpe.remapNow.length < s.dev.rd F.LPE_ECC_SPARES_LEFT →
      exec (.lpeRowRemap row) s = .next (s.withDev (s.dev.upLpe fun l => { l with remapRdy := l.remapRdy.filter (· ≠ row), remapNow := l.remapNow ++ [row] })))) ∧
  (∀ (s : State) (row : Nat), let ago := s.dev.time.rt - tget 0 s.dev.lpe.rowsAt row
    let win := rtSec (s.dev.rd F.LPE_ECC_WIN)
    (win = 0 ∨ ago < win → exec (.rowCountWindowExpire row) s = .next s) ∧
    (0 < win → win ≤ ago → exec (.rowCountWindowExpire row) s = .next (s.withDev (s.dev.upLpe fun l =>
      { l with rows := tput 0 l.rows row 0, rowsAt := tput 0 l.rowsAt row (tget 0 l.rowsAt row + ago / win * win) }))))

/-- A press that counts opens a window of LEN seconds on each port of PORTS, restarts one that is open, and leaves the
other port as it was; each opening is reported once. The end of a window's length closes it and reports it. Of the
seal loop, the third mismatch in a row breaks an unbroken seal (a record, the count, INTACT, the wake source, and
outside SLEEP the report), 256 matches in a row restore it with a record, and any other sample only moves the loop
on. A fitted or removed jumper enters the history of 8 records. The end of the debug access closes debug and loupe.
Rests on R487, R488, R493, R494, R505, Table 18-2. -/
def Obligations.PresenceSealAndDebugWindows : Prop :=
  (∀ s : State, Leaves .presWindowOpen s fun d ms => (∀ p < 2, bitOf (s.dev.rd F.SEC_PRES_CTRL_PORTS) p = true →
      (d.port p).presEnd = some (s.dev.time.rt + rtSec (s.dev.rd F.SEC_PRES_CTRL_LEN)) ∧ d.rd (presFlag p) = 1) ∧
    (∀ p < 2, bitOf (s.dev.rd F.SEC_PRES_CTRL_PORTS) p = false → (d.port p).presEnd = (s.dev.port p).presEnd ∧ d.rd (presFlag p) = s.dev.rd (presFlag p)) ∧
    ms.map Msg.tag = ((List.range 2).filter fun p => bitOf (s.dev.rd F.SEC_PRES_CTRL_PORTS) p && (s.dev.port p).presEnd.isNone).map fun _ => (81, 0, 0)) ∧
  (∀ (s : State) (p : Nat), p < 2 → ((s.dev.port p).presEnd = none → exec (.presWindowClose p) s = .next s) ∧
    (∀ t, (s.dev.port p).presEnd = some t → Leaves (.presWindowClose p) s fun d ms => (d.port p).presEnd = none ∧ d.rd (presFlag p) = 0 ∧ t ≤ d.time.rt ∧
      (∃ l : List Msg, (∀ m ∈ l, m.passing = true) ∧ ms.map Msg.tag = l.map Msg.tag ++ [(81, 0, 0)]) ∧ (d.port (1 - p)).presEnd = (s.dev.port (1 - p)).presEnd)) ∧
  (∀ (s : State) (x : Bool), let a := s.dev.aon
    let hit := x == Config.sealBit a.lfsr
    (hit = false → 2 ≤ a.bad → a.broken = false → Leaves (.sealCheck x) s fun d ms => d.aon.broken = true ∧ d.aon.intact = false ∧ d.aon.good = 0 ∧ d.rd F.SEC_SEAL_INTACT = 0 ∧
      d.rd F.SEC_SEAL_BREAKS = min (s.dev.rd F.SEC_SEAL_BREAKS + 1) 65535 ∧ (d.aon.hist.head?).map SealRec.kind = some 1 ∧ d.aon.hist.tail = a.hist.take 7 ∧
      bitOf (d.rd F.CLK_WAKE_STAT_WAKE) 4 = true ∧ ms.map Msg.tag = (if a.asleep then [] else [(80, 0, 0)])) ∧
    (hit = true → 255 ≤ a.good → a.intact = false → Does (.sealCheck x) s fun t => t.dev.aon.broken = false ∧ t.dev.aon.intact = true ∧ t.dev.aon.bad = 0 ∧ t.dev.rd F.SEC_SEAL_INTACT = 1 ∧
      (t.dev.aon.hist.head?).map SealRec.kind = some 2 ∧ t.dev.aon.hist.tail = a.hist.take 7 ∧ t.vault = s.vault) ∧
    ((hit = true ∨ a.bad < 2 ∨ a.broken = true) → (hit = false ∨ a.good < 255 ∨ a.intact = true) → exec (.sealCheck x) s = .next (s.withDev { s.dev with
      aon := { a with lfsr := Config.sealNext a.lfsr, bad := if hit then 0 else min 3 (a.bad + 1), good := if hit then min 256 (a.good + 1) else 0 } }))) ∧
  (∀ s : State, (s.dev.rd F.SEC_PRES_STAT_JUMPER = 0 → Does .jumperFitted s fun t => (t.dev.aon.hist.head?).map SealRec.kind = some 3 ∧ t.dev.aon.hist.tail = s.dev.aon.hist.take 7 ∧ t.dev.aon.hist.length ≤ 8) ∧
    (s.dev.rd F.SEC_PRES_STAT_JUMPER = 1 → Does .jumperRemoved s fun t => (t.dev.aon.hist.head?).map SealRec.kind = some 4 ∧ t.dev.aon.hist.tail = s.dev.aon.hist.take 7 ∧ t.dev.aon.hist.length ≤ 8)) ∧
  (∀ s : State, (s.dev.sec.dbgEnd = none → exec .debugWindowExpire s = .next s) ∧
    (∀ t, s.dev.sec.dbgEnd = some t → Leaves .debugWindowExpire s fun d ms => d.rd F.SEC_DBG_DEBUG = 0 ∧ d.rd F.SEC_DBG_LOUPE = 0 ∧ d.sec.dbgEnd = none ∧ t ≤ d.time.rt ∧ (∀ m ∈ ms, m.passing = true) ∧ d.run = s.dev.run))

/-- Once MAINT_JMP_N has been low for 10 ms (JUMPER_FITTED) SEC_PRES_STAT.JUMPER reads 1, and once it has been high for
10 ms (JUMPER_REMOVED) it reads 0, whatever it read before; neither changes any other register field but the number
of seal records. Formalises R490. -/
def Obligations.JumperStatusShowsTheFilteredLevel : Prop :=
  ∀ s : State, (Does .jumperFitted s fun t => t.dev.rd F.SEC_PRES_STAT_JUMPER = 1 ∧ t.vault = s.vault ∧
      ∀ f : Fld, f.key ≠ F.SEC_PRES_STAT_JUMPER.key → f.key ≠ F.SEC_SEAL_NHIST.key → t.dev.rd f = s.dev.rd f) ∧
    (Does .jumperRemoved s fun t => t.dev.rd F.SEC_PRES_STAT_JUMPER = 0 ∧ t.vault = s.vault ∧
      ∀ f : Fld, f.key ≠ F.SEC_PRES_STAT_JUMPER.key → f.key ≠ F.SEC_SEAL_NHIST.key → t.dev.rd f = s.dev.rd f)

/-- In one collector cycle, the messages are put in rank order (no message stands before one that ranks above it), each
once, and every one but the first carries SAME-CYCLE. A message has the class of its source, and one class more
(LOCKOUT at most) from the N-th message of an escalation window on; an injected message never escalates. CLASSMAX is
then at least every class of the cycle, and every source's count has advanced by its messages. A class 4 message
that reacts sets the lockout latch and leaves LOCKOUT with the safe state, RUN and DEN cleared; a class 3 message
leaves the safe state with TRIPPED; with no such message the run state, the latch and the safe state are as before.
The register fields named quiet are not changed by any reaction. Rests on R382, R383, R384, R385, R386, R388, R390,
R393, Table 14-4. -/
def Obligations.TheCollectorRanksEscalatesAndReacts : Prop :=
  (∀ ms : List Msg, (rankAll ms).Pairwise (fun a b => b.before a = false) ∧ (rankAll ms).length = ms.length ∧ (∀ m ∈ ms, ∃ x ∈ rankAll ms, x.tag = m.tag ∧ x.sev = m.sev ∧ x.inj = m.inj) ∧
    ∀ x ∈ (rankAll ms).tail, x.same = true) ∧
  (∀ (d : Dev) (m : Msg), let sev := d.rd (F.FLT_SEV m.fs)
    let n := d.rd (F.FLT_CFG_ESC_N m.fs)
    let len := d.rd (F.FLT_CFG_ESC_W m.fs) * (if d.rd (F.FLT_CFG_ESC_U m.fs) = 1 then 1000 else 1)
    (m.inj = true ∨ n < 2 ∨ tget none d.flt.win m.fs = none → (d.classify m).2.sev = sev) ∧ (m.inj = true → (d.classify m).1 = d) ∧
    (∀ w, m.inj = false → 2 ≤ n → tget none d.flt.win m.fs = some w → d.time.rt - w.start < len * 64000000 → n ≤ 255 → (d.classify m).2.sev = if n ≤ w.cnt + 1 then min (sev + 1) 4 else sev) ∧
    (∀ w, m.inj = false → 2 ≤ n → tget none d.flt.win m.fs = some w → len * 64000000 ≤ d.time.rt - w.start → (d.classify m).2.sev = sev)) ∧
  (∀ (v : Vault) (d : Dev) (ms : List Msg), let l := rankAll (classifyAll d ms).2
    let r := l.filter (·.react)
    let c := collectCycle v d ms
    (∀ m ∈ l, m.sev ≤ c.2.rd F.FLT_STAT_CLASSMAX) ∧ d.rd F.FLT_STAT_CLASSMAX ≤ c.2.rd F.FLT_STAT_CLASSMAX ∧
    (∀ n < 128, c.2.rd (F.FLT_CNT n) = min (d.rd (F.FLT_CNT n) + (ms.filter fun m => m.fs % 128 = n).length) (2 ^ (F.FLT_CNT n).width - 1)) ∧
    c.1.lockout = (v.lockout || r.any (·.sev = 4)) ∧ c.1.otp = v.otp ∧ c.1.prevLockout = v.prevLockout ∧
    (r.any (·.sev = 4) = true → c.2.run = .lockout ∧ c.2.rd F.EDG_STAT_QUIESCED = 1 ∧ c.2.rd F.FLT_STAT_TRIPPED = 1 ∧ c.2.rd F.LPE_CTRL_RUN = 0 ∧ c.2.rd F.GSV_DEN_EN = 0) ∧
    (r.any (·.sev = 4) = false → r.any (·.sev = 3) = true → c.2.run = d.run.tripped ∧ c.2.rd F.EDG_STAT_QUIESCED = 1 ∧ c.2.rd F.FLT_STAT_TRIPPED = 1) ∧
    (r.any (·.sev = 4) = false → r.any (·.sev = 3) = false → c.2.run = d.run ∧ c.2.rd F.EDG_STAT_QUIESCED = d.rd F.EDG_STAT_QUIESCED ∧ c.2.rd F.FLT_STAT_TRIPPED = d.rd F.FLT_STAT_TRIPPED)) ∧
  (∀ (s : State) (v : Vault) (w : Wk) (f : Fld), f.quiet = true → (s.settleWk v w).dev.rd f = w.d.rd f)

/-- From every state whose OTP table is in canonical form (words in rising order, none listed that equals what an
unlisted one reads as), every command and every step answers a state whose table is, and the state after reset has
it. A word written to state or program memory reads back, every other word of either memory reads as before, an
uncorrectable error in the word is gone, and both tables keep their canonical form. Rests on R223, R225, R252, R495,
R500. -/
def Obligations.MemoriesKeepTheirCanonicalForm : Prop :=
  (∀ (s t : State) (c : Instr), twf 0 s.vault.otp = true → exec c s = .next t → twf 0 t.vault.otp = true) ∧
  (∀ s t : State, twf 0 s.vault.otp = true → step s = .next t → twf 0 t.vault.otp = true) ∧ twf 0 State.reset.vault.otp = true ∧
  twf 0 State.reset.dev.lpe.mem = true ∧ twf 0 State.reset.dev.lpe.prog = true ∧
  (∀ (d : Dev) (a b v : Nat), (d.putS a v).smem a = v % 2 ^ 32 ∧ (b ≠ a → (d.putS a v).smem b = d.smem b) ∧ (d.putS a v).pmem b = d.pmem b ∧
    (d.putP a v).pmem a = v % 2 ^ 32 ∧ (b ≠ a → (d.putP a v).pmem b = d.pmem b) ∧ (d.putP a v).smem b = d.smem b ∧
    tget false (d.putS a v).lpe.bad (65536 + a) = false ∧ tget false (d.putP a v).lpe.bad a = false ∧ (d.putP a v).rd F.LPE_STAT_VERIFIED = 0 ∧
    (twf 0 d.lpe.mem = true → twf 0 (d.putS a v).lpe.mem = true) ∧ (twf 0 d.lpe.prog = true → twf 0 (d.putP a v).lpe.prog = true))
end

