-- ==== Sys2Proof/Decode.lean ====
section
/-! DEFINITION. The commands that words spell: the opcode table gives no row any bits, so no word spells a command. -/
namespace Sys2Proof

/-- The command a word of the table spells: none, because no row of the table has bits. [Log: DESIGN CHOICE 3] -/
def decodeTableWord (_nbits _w : Nat) : Option Instr := none

end Sys2Proof
end

