-- ==== Sys2Proof/Laws/Tab.lean ====
section
/-! SUPPORT. What a sparse table answers after a write, for every list: reading back the key gives the value written, and
every other key reads as before; the canonical form is kept. -/
namespace Sys2Proof.Machine

variable {α : Type}

theorem tget_tins_self (d : α) (t : Tab α) (k : Nat) (v : α) : tget d (tins t k v) k = v := by
  induction t with
  | nil => simp [tins, tget]
  | cons e r ih =>
    simp only [tins]
    split
    · simp [tget]
    · split
      · simp [tget]
      · rename_i h1 h2
        have : e.1 ≠ k := fun h => h2 h.symm
        simp [tget, this, ih]

theorem tget_tins_ne (d : α) (t : Tab α) {k j : Nat} (v : α) (h : j ≠ k) : tget d (tins t k v) j = tget d t j := by
  have h' : k ≠ j := fun e => h e.symm
  induction t with
  | nil => simp [tins, tget, h']
  | cons e r ih =>
    simp only [tins]
    split
    · simp [tget, h']
    · split
      · rename_i h2
        have : e.1 ≠ j := fun e2 => h (by omega)
        simp [tget, h', this]
      · simp [tget, ih]

theorem tget_tdel_self (d : α) (t : Tab α) (k : Nat) : tget d (tdel t k) k = d := by
  induction t with
  | nil => rfl
  | cons e r ih =>
    by_cases h : e.1 = k
    · simpa [tdel, h] using ih
    · simpa [tdel, h, tget] using ih

theorem tget_tdel_ne (d : α) (t : Tab α) {k j : Nat} (h : j ≠ k) : tget d (tdel t k) j = tget d t j := by
  induction t with
  | nil => rfl
  | cons e r ih =>
    by_cases hk : e.1 = k
    · have : e.1 ≠ j := fun e2 => h (by omega)
      simpa [tdel, hk, tget, this, h.symm] using ih
    · have : tdel (e :: r) k = e :: tdel r k := by simp [tdel, hk]
      rw [this]
      simp [tget, ih]

/-- Reading back a key gives the value written. -/
@[simp] theorem tget_tput_self [DecidableEq α] (d : α) (t : Tab α) (k : Nat) (v : α) : tget d (tput d t k v) k = v := by
  unfold tput
  split
  · rename_i h
    rw [tget_tdel_self, h]
  · exact tget_tins_self d t k v

/-- A write leaves every other key as it was, whatever the default that is read with. -/
theorem tget_tput_ne [DecidableEq α] (d d' : α) (t : Tab α) {k j : Nat} (v : α) (h : j ≠ k) :
    tget d' (tput d t k v) j = tget d' t j := by
  unfold tput
  split
  · exact tget_tdel_ne d' t h
  · exact tget_tins_ne d' t v h

/-- A write, read at any key. -/
theorem tget_tput [DecidableEq α] (d : α) (t : Tab α) (k j : Nat) (v : α) :
    tget d (tput d t k v) j = if j = k then v else tget d t j := by
  split
  · rename_i h
    rw [h, tget_tput_self]
  · exact tget_tput_ne d d t v (by assumption)

@[simp] theorem tget_nil (d : α) (k : Nat) : tget d [] k = d := rfl

theorem twf_tdel [DecidableEq α] (d : α) (t : Tab α) (k : Nat) (h : twf d t = true) : twf d (tdel t k) = true := by
  induction t with
  | nil => rfl
  | cons e r ih =>
    simp only [twf, Bool.and_eq_true, List.all_eq_true, decide_eq_true_eq] at h
    by_cases hk : e.1 = k
    · simpa [tdel, hk] using ih h.2
    · have hd : tdel (e :: r) k = e :: tdel r k := by simp [tdel, hk]
      rw [hd]
      simp only [twf, Bool.and_eq_true, List.all_eq_true, decide_eq_true_eq]
      refine ⟨⟨h.1.1, fun x hx => h.1.2 x ?_⟩, ih h.2⟩
      simp only [tdel, List.mem_filter] at hx
      exact hx.1

theorem mem_tins {t : Tab α} {k : Nat} {v : α} {e : Nat × α} (h : e ∈ tins t k v) : e = (k, v) ∨ e ∈ t := by
  induction t with
  | nil => simp [tins] at h; exact .inl h
  | cons x r ih =>
    simp only [tins] at h
    split at h
    · simp at h ⊢
      tauto
    · split at h
      · simp at h ⊢
        tauto
      · simp at h ⊢
        rcases h with h | h
        · tauto
        · rcases ih h with h | h <;> tauto

theorem twf_tins [DecidableEq α] (d : α) (t : Tab α) (k : Nat) (v : α) (hv : v ≠ d) (h : twf d t = true) :
    twf d (tins t k v) = true := by
  induction t with
  | nil => simp [tins, twf, hv]
  | cons e r ih =>
    obtain ⟨j, w⟩ := e
    simp only [twf, Bool.and_eq_true, List.all_eq_true, decide_eq_true_eq] at h
    simp only [tins]
    split
    · rename_i hk
      simp only [twf, Bool.and_eq_true, List.all_eq_true, decide_eq_true_eq]
      refine ⟨⟨hv, fun x hx => ?_⟩, h⟩
      rcases List.mem_cons.1 hx with rfl | hx
      · exact hk
      · exact Nat.lt_trans hk (h.1.2 x hx)
    · split
      · rename_i hk
        subst hk
        simp only [twf, Bool.and_eq_true, List.all_eq_true, decide_eq_true_eq]
        exact ⟨⟨hv, h.1.2⟩, h.2⟩
      · simp only [twf, Bool.and_eq_true, List.all_eq_true, decide_eq_true_eq]
        refine ⟨⟨h.1.1, fun x hx => ?_⟩, ih h.2⟩
        rcases mem_tins hx with rfl | hx
        · simp only
          omega
        · exact h.1.2 x hx

/-- A write keeps the canonical form. -/
theorem twf_tput [DecidableEq α] (d : α) (t : Tab α) (k : Nat) (v : α) (h : twf d t = true) : twf d (tput d t k v) = true := by
  unfold tput
  split
  · exact twf_tdel d t k h
  · exact twf_tins d t k v (by assumption) h

end Sys2Proof.Machine
end

