-- ==== Sys2Proof/Laws/State.lean ====
section
/-! SUPPORT. One lemma per field of the device and per update: an update of one component leaves the others as they were;
and what a register field reads after an update. -/
namespace Sys2Proof.Machine

/-! ## wr -/

@[simp] theorem Dev.wr_shad (d : Dev) (f : Fld) (v : Nat) : (d.wr f v).shad = d.shad := rfl
@[simp] theorem Dev.wr_frm (d : Dev) (f : Fld) (v : Nat) : (d.wr f v).frm = d.frm := rfl
@[simp] theorem Dev.wr_stg (d : Dev) (f : Fld) (v : Nat) : (d.wr f v).stg = d.stg := rfl
@[simp] theorem Dev.wr_stage (d : Dev) (f : Fld) (v : Nat) : (d.wr f v).stage = d.stage := rfl
@[simp] theorem Dev.wr_stgCopy (d : Dev) (f : Fld) (v : Nat) : (d.wr f v).stgCopy = d.stgCopy := rfl
@[simp] theorem Dev.wr_run (d : Dev) (f : Fld) (v : Nat) : (d.wr f v).run = d.run := rfl
@[simp] theorem Dev.wr_waits (d : Dev) (f : Fld) (v : Nat) : (d.wr f v).waits = d.waits := rfl
@[simp] theorem Dev.wr_time (d : Dev) (f : Fld) (v : Nat) : (d.wr f v).time = d.time := rfl
@[simp] theorem Dev.wr_frame (d : Dev) (f : Fld) (v : Nat) : (d.wr f v).frame = d.frame := rfl
@[simp] theorem Dev.wr_flt (d : Dev) (f : Fld) (v : Nat) : (d.wr f v).flt = d.flt := rfl
@[simp] theorem Dev.wr_adcMap (d : Dev) (f : Fld) (v : Nat) : (d.wr f v).adcMap = d.adcMap := rfl
@[simp] theorem Dev.wr_ainMap (d : Dev) (f : Fld) (v : Nat) : (d.wr f v).ainMap = d.ainMap := rfl
@[simp] theorem Dev.wr_rowMap (d : Dev) (f : Fld) (v : Nat) : (d.wr f v).rowMap = d.rowMap := rfl
@[simp] theorem Dev.wr_lanes (d : Dev) (f : Fld) (v : Nat) : (d.wr f v).lanes = d.lanes := rfl
@[simp] theorem Dev.wr_lines (d : Dev) (f : Fld) (v : Nat) : (d.wr f v).lines = d.lines := rfl
@[simp] theorem Dev.wr_buses (d : Dev) (f : Fld) (v : Nat) : (d.wr f v).buses = d.buses := rfl
@[simp] theorem Dev.wr_strands (d : Dev) (f : Fld) (v : Nat) : (d.wr f v).strands = d.strands := rfl
@[simp] theorem Dev.wr_beads (d : Dev) (f : Fld) (v : Nat) : (d.wr f v).beads = d.beads := rfl
@[simp] theorem Dev.wr_strings (d : Dev) (f : Fld) (v : Nat) : (d.wr f v).strings = d.strings := rfl
@[simp] theorem Dev.wr_edge (d : Dev) (f : Fld) (v : Nat) : (d.wr f v).edge = d.edge := rfl
@[simp] theorem Dev.wr_acq (d : Dev) (f : Fld) (v : Nat) : (d.wr f v).acq = d.acq := rfl
@[simp] theorem Dev.wr_twn (d : Dev) (f : Fld) (v : Nat) : (d.wr f v).twn = d.twn := rfl
@[simp] theorem Dev.wr_stk (d : Dev) (f : Fld) (v : Nat) : (d.wr f v).stk = d.stk := rfl
@[simp] theorem Dev.wr_thm (d : Dev) (f : Fld) (v : Nat) : (d.wr f v).thm = d.thm := rfl
@[simp] theorem Dev.wr_lpe (d : Dev) (f : Fld) (v : Nat) : (d.wr f v).lpe = d.lpe := rfl
@[simp] theorem Dev.wr_hpa (d : Dev) (f : Fld) (v : Nat) : (d.wr f v).hpa = d.hpa := rfl
@[simp] theorem Dev.wr_hpb (d : Dev) (f : Fld) (v : Nat) : (d.wr f v).hpb = d.hpb := rfl
@[simp] theorem Dev.wr_lastServed (d : Dev) (f : Fld) (v : Nat) : (d.wr f v).lastServed = d.lastServed := rfl
@[simp] theorem Dev.wr_frozen (d : Dev) (f : Fld) (v : Nat) : (d.wr f v).frozen = d.frozen := rfl
@[simp] theorem Dev.wr_aon (d : Dev) (f : Fld) (v : Nat) : (d.wr f v).aon = d.aon := rfl
@[simp] theorem Dev.wr_nv (d : Dev) (f : Fld) (v : Nat) : (d.wr f v).nv = d.nv := rfl
@[simp] theorem Dev.wr_sec (d : Dev) (f : Fld) (v : Nat) : (d.wr f v).sec = d.sec := rfl
@[simp] theorem Dev.wr_olg (d : Dev) (f : Fld) (v : Nat) : (d.wr f v).olg = d.olg := rfl
@[simp] theorem Dev.wr_loupe (d : Dev) (f : Fld) (v : Nat) : (d.wr f v).loupe = d.loupe := rfl
@[simp] theorem Dev.wr_tx (d : Dev) (f : Fld) (v : Nat) : (d.wr f v).tx = d.tx := rfl
@[simp] theorem Dev.wr_os (d : Dev) (f : Fld) (v : Nat) : (d.wr f v).os = d.os := rfl
@[simp] theorem Dev.wr_yieldDue (d : Dev) (f : Fld) (v : Nat) : (d.wr f v).yieldDue = d.yieldDue := rfl
@[simp] theorem Dev.wr_free (d : Dev) (f : Fld) (v : Nat) : (d.wr f v).free = d.free := rfl

/-! ## wrB -/

@[simp] theorem Dev.wrB_shad (d : Dev) (f : Fld) (b : Bool) : (d.wrB f b).shad = d.shad := rfl
@[simp] theorem Dev.wrB_frm (d : Dev) (f : Fld) (b : Bool) : (d.wrB f b).frm = d.frm := rfl
@[simp] theorem Dev.wrB_stg (d : Dev) (f : Fld) (b : Bool) : (d.wrB f b).stg = d.stg := rfl
@[simp] theorem Dev.wrB_stage (d : Dev) (f : Fld) (b : Bool) : (d.wrB f b).stage = d.stage := rfl
@[simp] theorem Dev.wrB_stgCopy (d : Dev) (f : Fld) (b : Bool) : (d.wrB f b).stgCopy = d.stgCopy := rfl
@[simp] theorem Dev.wrB_run (d : Dev) (f : Fld) (b : Bool) : (d.wrB f b).run = d.run := rfl
@[simp] theorem Dev.wrB_waits (d : Dev) (f : Fld) (b : Bool) : (d.wrB f b).waits = d.waits := rfl
@[simp] theorem Dev.wrB_time (d : Dev) (f : Fld) (b : Bool) : (d.wrB f b).time = d.time := rfl
@[simp] theorem Dev.wrB_frame (d : Dev) (f : Fld) (b : Bool) : (d.wrB f b).frame = d.frame := rfl
@[simp] theorem Dev.wrB_flt (d : Dev) (f : Fld) (b : Bool) : (d.wrB f b).flt = d.flt := rfl
@[simp] theorem Dev.wrB_adcMap (d : Dev) (f : Fld) (b : Bool) : (d.wrB f b).adcMap = d.adcMap := rfl
@[simp] theorem Dev.wrB_ainMap (d : Dev) (f : Fld) (b : Bool) : (d.wrB f b).ainMap = d.ainMap := rfl
@[simp] theorem Dev.wrB_rowMap (d : Dev) (f : Fld) (b : Bool) : (d.wrB f b).rowMap = d.rowMap := rfl
@[simp] theorem Dev.wrB_lanes (d : Dev) (f : Fld) (b : Bool) : (d.wrB f b).lanes = d.lanes := rfl
@[simp] theorem Dev.wrB_lines (d : Dev) (f : Fld) (b : Bool) : (d.wrB f b).lines = d.lines := rfl
@[simp] theorem Dev.wrB_buses (d : Dev) (f : Fld) (b : Bool) : (d.wrB f b).buses = d.buses := rfl
@[simp] theorem Dev.wrB_strands (d : Dev) (f : Fld) (b : Bool) : (d.wrB f b).strands = d.strands := rfl
@[simp] theorem Dev.wrB_beads (d : Dev) (f : Fld) (b : Bool) : (d.wrB f b).beads = d.beads := rfl
@[simp] theorem Dev.wrB_strings (d : Dev) (f : Fld) (b : Bool) : (d.wrB f b).strings = d.strings := rfl
@[simp] theorem Dev.wrB_edge (d : Dev) (f : Fld) (b : Bool) : (d.wrB f b).edge = d.edge := rfl
@[simp] theorem Dev.wrB_acq (d : Dev) (f : Fld) (b : Bool) : (d.wrB f b).acq = d.acq := rfl
@[simp] theorem Dev.wrB_twn (d : Dev) (f : Fld) (b : Bool) : (d.wrB f b).twn = d.twn := rfl
@[simp] theorem Dev.wrB_stk (d : Dev) (f : Fld) (b : Bool) : (d.wrB f b).stk = d.stk := rfl
@[simp] theorem Dev.wrB_thm (d : Dev) (f : Fld) (b : Bool) : (d.wrB f b).thm = d.thm := rfl
@[simp] theorem Dev.wrB_lpe (d : Dev) (f : Fld) (b : Bool) : (d.wrB f b).lpe = d.lpe := rfl
@[simp] theorem Dev.wrB_hpa (d : Dev) (f : Fld) (b : Bool) : (d.wrB f b).hpa = d.hpa := rfl
@[simp] theorem Dev.wrB_hpb (d : Dev) (f : Fld) (b : Bool) : (d.wrB f b).hpb = d.hpb := rfl
@[simp] theorem Dev.wrB_lastServed (d : Dev) (f : Fld) (b : Bool) : (d.wrB f b).lastServed = d.lastServed := rfl
@[simp] theorem Dev.wrB_frozen (d : Dev) (f : Fld) (b : Bool) : (d.wrB f b).frozen = d.frozen := rfl
@[simp] theorem Dev.wrB_aon (d : Dev) (f : Fld) (b : Bool) : (d.wrB f b).aon = d.aon := rfl
@[simp] theorem Dev.wrB_nv (d : Dev) (f : Fld) (b : Bool) : (d.wrB f b).nv = d.nv := rfl
@[simp] theorem Dev.wrB_sec (d : Dev) (f : Fld) (b : Bool) : (d.wrB f b).sec = d.sec := rfl
@[simp] theorem Dev.wrB_olg (d : Dev) (f : Fld) (b : Bool) : (d.wrB f b).olg = d.olg := rfl
@[simp] theorem Dev.wrB_loupe (d : Dev) (f : Fld) (b : Bool) : (d.wrB f b).loupe = d.loupe := rfl
@[simp] theorem Dev.wrB_tx (d : Dev) (f : Fld) (b : Bool) : (d.wrB f b).tx = d.tx := rfl
@[simp] theorem Dev.wrB_os (d : Dev) (f : Fld) (b : Bool) : (d.wrB f b).os = d.os := rfl
@[simp] theorem Dev.wrB_yieldDue (d : Dev) (f : Fld) (b : Bool) : (d.wrB f b).yieldDue = d.yieldDue := rfl
@[simp] theorem Dev.wrB_free (d : Dev) (f : Fld) (b : Bool) : (d.wrB f b).free = d.free := rfl

/-! ## addSat -/

@[simp] theorem Dev.addSat_shad (d : Dev) (f : Fld) (n : Nat) : (d.addSat f n).shad = d.shad := rfl
@[simp] theorem Dev.addSat_frm (d : Dev) (f : Fld) (n : Nat) : (d.addSat f n).frm = d.frm := rfl
@[simp] theorem Dev.addSat_stg (d : Dev) (f : Fld) (n : Nat) : (d.addSat f n).stg = d.stg := rfl
@[simp] theorem Dev.addSat_stage (d : Dev) (f : Fld) (n : Nat) : (d.addSat f n).stage = d.stage := rfl
@[simp] theorem Dev.addSat_stgCopy (d : Dev) (f : Fld) (n : Nat) : (d.addSat f n).stgCopy = d.stgCopy := rfl
@[simp] theorem Dev.addSat_run (d : Dev) (f : Fld) (n : Nat) : (d.addSat f n).run = d.run := rfl
@[simp] theorem Dev.addSat_waits (d : Dev) (f : Fld) (n : Nat) : (d.addSat f n).waits = d.waits := rfl
@[simp] theorem Dev.addSat_time (d : Dev) (f : Fld) (n : Nat) : (d.addSat f n).time = d.time := rfl
@[simp] theorem Dev.addSat_frame (d : Dev) (f : Fld) (n : Nat) : (d.addSat f n).frame = d.frame := rfl
@[simp] theorem Dev.addSat_flt (d : Dev) (f : Fld) (n : Nat) : (d.addSat f n).flt = d.flt := rfl
@[simp] theorem Dev.addSat_adcMap (d : Dev) (f : Fld) (n : Nat) : (d.addSat f n).adcMap = d.adcMap := rfl
@[simp] theorem Dev.addSat_ainMap (d : Dev) (f : Fld) (n : Nat) : (d.addSat f n).ainMap = d.ainMap := rfl
@[simp] theorem Dev.addSat_rowMap (d : Dev) (f : Fld) (n : Nat) : (d.addSat f n).rowMap = d.rowMap := rfl
@[simp] theorem Dev.addSat_lanes (d : Dev) (f : Fld) (n : Nat) : (d.addSat f n).lanes = d.lanes := rfl
@[simp] theorem Dev.addSat_lines (d : Dev) (f : Fld) (n : Nat) : (d.addSat f n).lines = d.lines := rfl
@[simp] theorem Dev.addSat_buses (d : Dev) (f : Fld) (n : Nat) : (d.addSat f n).buses = d.buses := rfl
@[simp] theorem Dev.addSat_strands (d : Dev) (f : Fld) (n : Nat) : (d.addSat f n).strands = d.strands := rfl
@[simp] theorem Dev.addSat_beads (d : Dev) (f : Fld) (n : Nat) : (d.addSat f n).beads = d.beads := rfl
@[simp] theorem Dev.addSat_strings (d : Dev) (f : Fld) (n : Nat) : (d.addSat f n).strings = d.strings := rfl
@[simp] theorem Dev.addSat_edge (d : Dev) (f : Fld) (n : Nat) : (d.addSat f n).edge = d.edge := rfl
@[simp] theorem Dev.addSat_acq (d : Dev) (f : Fld) (n : Nat) : (d.addSat f n).acq = d.acq := rfl
@[simp] theorem Dev.addSat_twn (d : Dev) (f : Fld) (n : Nat) : (d.addSat f n).twn = d.twn := rfl
@[simp] theorem Dev.addSat_stk (d : Dev) (f : Fld) (n : Nat) : (d.addSat f n).stk = d.stk := rfl
@[simp] theorem Dev.addSat_thm (d : Dev) (f : Fld) (n : Nat) : (d.addSat f n).thm = d.thm := rfl
@[simp] theorem Dev.addSat_lpe (d : Dev) (f : Fld) (n : Nat) : (d.addSat f n).lpe = d.lpe := rfl
@[simp] theorem Dev.addSat_hpa (d : Dev) (f : Fld) (n : Nat) : (d.addSat f n).hpa = d.hpa := rfl
@[simp] theorem Dev.addSat_hpb (d : Dev) (f : Fld) (n : Nat) : (d.addSat f n).hpb = d.hpb := rfl
@[simp] theorem Dev.addSat_lastServed (d : Dev) (f : Fld) (n : Nat) : (d.addSat f n).lastServed = d.lastServed := rfl
@[simp] theorem Dev.addSat_frozen (d : Dev) (f : Fld) (n : Nat) : (d.addSat f n).frozen = d.frozen := rfl
@[simp] theorem Dev.addSat_aon (d : Dev) (f : Fld) (n : Nat) : (d.addSat f n).aon = d.aon := rfl
@[simp] theorem Dev.addSat_nv (d : Dev) (f : Fld) (n : Nat) : (d.addSat f n).nv = d.nv := rfl
@[simp] theorem Dev.addSat_sec (d : Dev) (f : Fld) (n : Nat) : (d.addSat f n).sec = d.sec := rfl
@[simp] theorem Dev.addSat_olg (d : Dev) (f : Fld) (n : Nat) : (d.addSat f n).olg = d.olg := rfl
@[simp] theorem Dev.addSat_loupe (d : Dev) (f : Fld) (n : Nat) : (d.addSat f n).loupe = d.loupe := rfl
@[simp] theorem Dev.addSat_tx (d : Dev) (f : Fld) (n : Nat) : (d.addSat f n).tx = d.tx := rfl
@[simp] theorem Dev.addSat_os (d : Dev) (f : Fld) (n : Nat) : (d.addSat f n).os = d.os := rfl
@[simp] theorem Dev.addSat_yieldDue (d : Dev) (f : Fld) (n : Nat) : (d.addSat f n).yieldDue = d.yieldDue := rfl
@[simp] theorem Dev.addSat_free (d : Dev) (f : Fld) (n : Nat) : (d.addSat f n).free = d.free := rfl

/-! ## inc -/

@[simp] theorem Dev.inc_shad (d : Dev) (f : Fld) : (d.inc f).shad = d.shad := rfl
@[simp] theorem Dev.inc_frm (d : Dev) (f : Fld) : (d.inc f).frm = d.frm := rfl
@[simp] theorem Dev.inc_stg (d : Dev) (f : Fld) : (d.inc f).stg = d.stg := rfl
@[simp] theorem Dev.inc_stage (d : Dev) (f : Fld) : (d.inc f).stage = d.stage := rfl
@[simp] theorem Dev.inc_stgCopy (d : Dev) (f : Fld) : (d.inc f).stgCopy = d.stgCopy := rfl
@[simp] theorem Dev.inc_run (d : Dev) (f : Fld) : (d.inc f).run = d.run := rfl
@[simp] theorem Dev.inc_waits (d : Dev) (f : Fld) : (d.inc f).waits = d.waits := rfl
@[simp] theorem Dev.inc_time (d : Dev) (f : Fld) : (d.inc f).time = d.time := rfl
@[simp] theorem Dev.inc_frame (d : Dev) (f : Fld) : (d.inc f).frame = d.frame := rfl
@[simp] theorem Dev.inc_flt (d : Dev) (f : Fld) : (d.inc f).flt = d.flt := rfl
@[simp] theorem Dev.inc_adcMap (d : Dev) (f : Fld) : (d.inc f).adcMap = d.adcMap := rfl
@[simp] theorem Dev.inc_ainMap (d : Dev) (f : Fld) : (d.inc f).ainMap = d.ainMap := rfl
@[simp] theorem Dev.inc_rowMap (d : Dev) (f : Fld) : (d.inc f).rowMap = d.rowMap := rfl
@[simp] theorem Dev.inc_lanes (d : Dev) (f : Fld) : (d.inc f).lanes = d.lanes := rfl
@[simp] theorem Dev.inc_lines (d : Dev) (f : Fld) : (d.inc f).lines = d.lines := rfl
@[simp] theorem Dev.inc_buses (d : Dev) (f : Fld) : (d.inc f).buses = d.buses := rfl
@[simp] theorem Dev.inc_strands (d : Dev) (f : Fld) : (d.inc f).strands = d.strands := rfl
@[simp] theorem Dev.inc_beads (d : Dev) (f : Fld) : (d.inc f).beads = d.beads := rfl
@[simp] theorem Dev.inc_strings (d : Dev) (f : Fld) : (d.inc f).strings = d.strings := rfl
@[simp] theorem Dev.inc_edge (d : Dev) (f : Fld) : (d.inc f).edge = d.edge := rfl
@[simp] theorem Dev.inc_acq (d : Dev) (f : Fld) : (d.inc f).acq = d.acq := rfl
@[simp] theorem Dev.inc_twn (d : Dev) (f : Fld) : (d.inc f).twn = d.twn := rfl
@[simp] theorem Dev.inc_stk (d : Dev) (f : Fld) : (d.inc f).stk = d.stk := rfl
@[simp] theorem Dev.inc_thm (d : Dev) (f : Fld) : (d.inc f).thm = d.thm := rfl
@[simp] theorem Dev.inc_lpe (d : Dev) (f : Fld) : (d.inc f).lpe = d.lpe := rfl
@[simp] theorem Dev.inc_hpa (d : Dev) (f : Fld) : (d.inc f).hpa = d.hpa := rfl
@[simp] theorem Dev.inc_hpb (d : Dev) (f : Fld) : (d.inc f).hpb = d.hpb := rfl
@[simp] theorem Dev.inc_lastServed (d : Dev) (f : Fld) : (d.inc f).lastServed = d.lastServed := rfl
@[simp] theorem Dev.inc_frozen (d : Dev) (f : Fld) : (d.inc f).frozen = d.frozen := rfl
@[simp] theorem Dev.inc_aon (d : Dev) (f : Fld) : (d.inc f).aon = d.aon := rfl
@[simp] theorem Dev.inc_nv (d : Dev) (f : Fld) : (d.inc f).nv = d.nv := rfl
@[simp] theorem Dev.inc_sec (d : Dev) (f : Fld) : (d.inc f).sec = d.sec := rfl
@[simp] theorem Dev.inc_olg (d : Dev) (f : Fld) : (d.inc f).olg = d.olg := rfl
@[simp] theorem Dev.inc_loupe (d : Dev) (f : Fld) : (d.inc f).loupe = d.loupe := rfl
@[simp] theorem Dev.inc_tx (d : Dev) (f : Fld) : (d.inc f).tx = d.tx := rfl
@[simp] theorem Dev.inc_os (d : Dev) (f : Fld) : (d.inc f).os = d.os := rfl
@[simp] theorem Dev.inc_yieldDue (d : Dev) (f : Fld) : (d.inc f).yieldDue = d.yieldDue := rfl
@[simp] theorem Dev.inc_free (d : Dev) (f : Fld) : (d.inc f).free = d.free := rfl

/-! ## setBit -/

@[simp] theorem Dev.setBit_shad (d : Dev) (f : Fld) (i : Nat) : (d.setBit f i).shad = d.shad := rfl
@[simp] theorem Dev.setBit_frm (d : Dev) (f : Fld) (i : Nat) : (d.setBit f i).frm = d.frm := rfl
@[simp] theorem Dev.setBit_stg (d : Dev) (f : Fld) (i : Nat) : (d.setBit f i).stg = d.stg := rfl
@[simp] theorem Dev.setBit_stage (d : Dev) (f : Fld) (i : Nat) : (d.setBit f i).stage = d.stage := rfl
@[simp] theorem Dev.setBit_stgCopy (d : Dev) (f : Fld) (i : Nat) : (d.setBit f i).stgCopy = d.stgCopy := rfl
@[simp] theorem Dev.setBit_run (d : Dev) (f : Fld) (i : Nat) : (d.setBit f i).run = d.run := rfl
@[simp] theorem Dev.setBit_waits (d : Dev) (f : Fld) (i : Nat) : (d.setBit f i).waits = d.waits := rfl
@[simp] theorem Dev.setBit_time (d : Dev) (f : Fld) (i : Nat) : (d.setBit f i).time = d.time := rfl
@[simp] theorem Dev.setBit_frame (d : Dev) (f : Fld) (i : Nat) : (d.setBit f i).frame = d.frame := rfl
@[simp] theorem Dev.setBit_flt (d : Dev) (f : Fld) (i : Nat) : (d.setBit f i).flt = d.flt := rfl
@[simp] theorem Dev.setBit_adcMap (d : Dev) (f : Fld) (i : Nat) : (d.setBit f i).adcMap = d.adcMap := rfl
@[simp] theorem Dev.setBit_ainMap (d : Dev) (f : Fld) (i : Nat) : (d.setBit f i).ainMap = d.ainMap := rfl
@[simp] theorem Dev.setBit_rowMap (d : Dev) (f : Fld) (i : Nat) : (d.setBit f i).rowMap = d.rowMap := rfl
@[simp] theorem Dev.setBit_lanes (d : Dev) (f : Fld) (i : Nat) : (d.setBit f i).lanes = d.lanes := rfl
@[simp] theorem Dev.setBit_lines (d : Dev) (f : Fld) (i : Nat) : (d.setBit f i).lines = d.lines := rfl
@[simp] theorem Dev.setBit_buses (d : Dev) (f : Fld) (i : Nat) : (d.setBit f i).buses = d.buses := rfl
@[simp] theorem Dev.setBit_strands (d : Dev) (f : Fld) (i : Nat) : (d.setBit f i).strands = d.strands := rfl
@[simp] theorem Dev.setBit_beads (d : Dev) (f : Fld) (i : Nat) : (d.setBit f i).beads = d.beads := rfl
@[simp] theorem Dev.setBit_strings (d : Dev) (f : Fld) (i : Nat) : (d.setBit f i).strings = d.strings := rfl
@[simp] theorem Dev.setBit_edge (d : Dev) (f : Fld) (i : Nat) : (d.setBit f i).edge = d.edge := rfl
@[simp] theorem Dev.setBit_acq (d : Dev) (f : Fld) (i : Nat) : (d.setBit f i).acq = d.acq := rfl
@[simp] theorem Dev.setBit_twn (d : Dev) (f : Fld) (i : Nat) : (d.setBit f i).twn = d.twn := rfl
@[simp] theorem Dev.setBit_stk (d : Dev) (f : Fld) (i : Nat) : (d.setBit f i).stk = d.stk := rfl
@[simp] theorem Dev.setBit_thm (d : Dev) (f : Fld) (i : Nat) : (d.setBit f i).thm = d.thm := rfl
@[simp] theorem Dev.setBit_lpe (d : Dev) (f : Fld) (i : Nat) : (d.setBit f i).lpe = d.lpe := rfl
@[simp] theorem Dev.setBit_hpa (d : Dev) (f : Fld) (i : Nat) : (d.setBit f i).hpa = d.hpa := rfl
@[simp] theorem Dev.setBit_hpb (d : Dev) (f : Fld) (i : Nat) : (d.setBit f i).hpb = d.hpb := rfl
@[simp] theorem Dev.setBit_lastServed (d : Dev) (f : Fld) (i : Nat) : (d.setBit f i).lastServed = d.lastServed := rfl
@[simp] theorem Dev.setBit_frozen (d : Dev) (f : Fld) (i : Nat) : (d.setBit f i).frozen = d.frozen := rfl
@[simp] theorem Dev.setBit_aon (d : Dev) (f : Fld) (i : Nat) : (d.setBit f i).aon = d.aon := rfl
@[simp] theorem Dev.setBit_nv (d : Dev) (f : Fld) (i : Nat) : (d.setBit f i).nv = d.nv := rfl
@[simp] theorem Dev.setBit_sec (d : Dev) (f : Fld) (i : Nat) : (d.setBit f i).sec = d.sec := rfl
@[simp] theorem Dev.setBit_olg (d : Dev) (f : Fld) (i : Nat) : (d.setBit f i).olg = d.olg := rfl
@[simp] theorem Dev.setBit_loupe (d : Dev) (f : Fld) (i : Nat) : (d.setBit f i).loupe = d.loupe := rfl
@[simp] theorem Dev.setBit_tx (d : Dev) (f : Fld) (i : Nat) : (d.setBit f i).tx = d.tx := rfl
@[simp] theorem Dev.setBit_os (d : Dev) (f : Fld) (i : Nat) : (d.setBit f i).os = d.os := rfl
@[simp] theorem Dev.setBit_yieldDue (d : Dev) (f : Fld) (i : Nat) : (d.setBit f i).yieldDue = d.yieldDue := rfl
@[simp] theorem Dev.setBit_free (d : Dev) (f : Fld) (i : Nat) : (d.setBit f i).free = d.free := rfl

/-! ## clrBit -/

@[simp] theorem Dev.clrBit_shad (d : Dev) (f : Fld) (i : Nat) : (d.clrBit f i).shad = d.shad := rfl
@[simp] theorem Dev.clrBit_frm (d : Dev) (f : Fld) (i : Nat) : (d.clrBit f i).frm = d.frm := rfl
@[simp] theorem Dev.clrBit_stg (d : Dev) (f : Fld) (i : Nat) : (d.clrBit f i).stg = d.stg := rfl
@[simp] theorem Dev.clrBit_stage (d : Dev) (f : Fld) (i : Nat) : (d.clrBit f i).stage = d.stage := rfl
@[simp] theorem Dev.clrBit_stgCopy (d : Dev) (f : Fld) (i : Nat) : (d.clrBit f i).stgCopy = d.stgCopy := rfl
@[simp] theorem Dev.clrBit_run (d : Dev) (f : Fld) (i : Nat) : (d.clrBit f i).run = d.run := rfl
@[simp] theorem Dev.clrBit_waits (d : Dev) (f : Fld) (i : Nat) : (d.clrBit f i).waits = d.waits := rfl
@[simp] theorem Dev.clrBit_time (d : Dev) (f : Fld) (i : Nat) : (d.clrBit f i).time = d.time := rfl
@[simp] theorem Dev.clrBit_frame (d : Dev) (f : Fld) (i : Nat) : (d.clrBit f i).frame = d.frame := rfl
@[simp] theorem Dev.clrBit_flt (d : Dev) (f : Fld) (i : Nat) : (d.clrBit f i).flt = d.flt := rfl
@[simp] theorem Dev.clrBit_adcMap (d : Dev) (f : Fld) (i : Nat) : (d.clrBit f i).adcMap = d.adcMap := rfl
@[simp] theorem Dev.clrBit_ainMap (d : Dev) (f : Fld) (i : Nat) : (d.clrBit f i).ainMap = d.ainMap := rfl
@[simp] theorem Dev.clrBit_rowMap (d : Dev) (f : Fld) (i : Nat) : (d.clrBit f i).rowMap = d.rowMap := rfl
@[simp] theorem Dev.clrBit_lanes (d : Dev) (f : Fld) (i : Nat) : (d.clrBit f i).lanes = d.lanes := rfl
@[simp] theorem Dev.clrBit_lines (d : Dev) (f : Fld) (i : Nat) : (d.clrBit f i).lines = d.lines := rfl
@[simp] theorem Dev.clrBit_buses (d : Dev) (f : Fld) (i : Nat) : (d.clrBit f i).buses = d.buses := rfl
@[simp] theorem Dev.clrBit_strands (d : Dev) (f : Fld) (i : Nat) : (d.clrBit f i).strands = d.strands := rfl
@[simp] theorem Dev.clrBit_beads (d : Dev) (f : Fld) (i : Nat) : (d.clrBit f i).beads = d.beads := rfl
@[simp] theorem Dev.clrBit_strings (d : Dev) (f : Fld) (i : Nat) : (d.clrBit f i).strings = d.strings := rfl
@[simp] theorem Dev.clrBit_edge (d : Dev) (f : Fld) (i : Nat) : (d.clrBit f i).edge = d.edge := rfl
@[simp] theorem Dev.clrBit_acq (d : Dev) (f : Fld) (i : Nat) : (d.clrBit f i).acq = d.acq := rfl
@[simp] theorem Dev.clrBit_twn (d : Dev) (f : Fld) (i : Nat) : (d.clrBit f i).twn = d.twn := rfl
@[simp] theorem Dev.clrBit_stk (d : Dev) (f : Fld) (i : Nat) : (d.clrBit f i).stk = d.stk := rfl
@[simp] theorem Dev.clrBit_thm (d : Dev) (f : Fld) (i : Nat) : (d.clrBit f i).thm = d.thm := rfl
@[simp] theorem Dev.clrBit_lpe (d : Dev) (f : Fld) (i : Nat) : (d.clrBit f i).lpe = d.lpe := rfl
@[simp] theorem Dev.clrBit_hpa (d : Dev) (f : Fld) (i : Nat) : (d.clrBit f i).hpa = d.hpa := rfl
@[simp] theorem Dev.clrBit_hpb (d : Dev) (f : Fld) (i : Nat) : (d.clrBit f i).hpb = d.hpb := rfl
@[simp] theorem Dev.clrBit_lastServed (d : Dev) (f : Fld) (i : Nat) : (d.clrBit f i).lastServed = d.lastServed := rfl
@[simp] theorem Dev.clrBit_frozen (d : Dev) (f : Fld) (i : Nat) : (d.clrBit f i).frozen = d.frozen := rfl
@[simp] theorem Dev.clrBit_aon (d : Dev) (f : Fld) (i : Nat) : (d.clrBit f i).aon = d.aon := rfl
@[simp] theorem Dev.clrBit_nv (d : Dev) (f : Fld) (i : Nat) : (d.clrBit f i).nv = d.nv := rfl
@[simp] theorem Dev.clrBit_sec (d : Dev) (f : Fld) (i : Nat) : (d.clrBit f i).sec = d.sec := rfl
@[simp] theorem Dev.clrBit_olg (d : Dev) (f : Fld) (i : Nat) : (d.clrBit f i).olg = d.olg := rfl
@[simp] theorem Dev.clrBit_loupe (d : Dev) (f : Fld) (i : Nat) : (d.clrBit f i).loupe = d.loupe := rfl
@[simp] theorem Dev.clrBit_tx (d : Dev) (f : Fld) (i : Nat) : (d.clrBit f i).tx = d.tx := rfl
@[simp] theorem Dev.clrBit_os (d : Dev) (f : Fld) (i : Nat) : (d.clrBit f i).os = d.os := rfl
@[simp] theorem Dev.clrBit_yieldDue (d : Dev) (f : Fld) (i : Nat) : (d.clrBit f i).yieldDue = d.yieldDue := rfl
@[simp] theorem Dev.clrBit_free (d : Dev) (f : Fld) (i : Nat) : (d.clrBit f i).free = d.free := rfl

/-! ## setLane -/

@[simp] theorem Dev.setLane_regs (d : Dev) (n : Nat) (x : LaneSt) : (d.setLane n x).regs = d.regs := rfl
@[simp] theorem Dev.setLane_shad (d : Dev) (n : Nat) (x : LaneSt) : (d.setLane n x).shad = d.shad := rfl
@[simp] theorem Dev.setLane_frm (d : Dev) (n : Nat) (x : LaneSt) : (d.setLane n x).frm = d.frm := rfl
@[simp] theorem Dev.setLane_stg (d : Dev) (n : Nat) (x : LaneSt) : (d.setLane n x).stg = d.stg := rfl
@[simp] theorem Dev.setLane_stage (d : Dev) (n : Nat) (x : LaneSt) : (d.setLane n x).stage = d.stage := rfl
@[simp] theorem Dev.setLane_stgCopy (d : Dev) (n : Nat) (x : LaneSt) : (d.setLane n x).stgCopy = d.stgCopy := rfl
@[simp] theorem Dev.setLane_run (d : Dev) (n : Nat) (x : LaneSt) : (d.setLane n x).run = d.run := rfl
@[simp] theorem Dev.setLane_waits (d : Dev) (n : Nat) (x : LaneSt) : (d.setLane n x).waits = d.waits := rfl
@[simp] theorem Dev.setLane_time (d : Dev) (n : Nat) (x : LaneSt) : (d.setLane n x).time = d.time := rfl
@[simp] theorem Dev.setLane_frame (d : Dev) (n : Nat) (x : LaneSt) : (d.setLane n x).frame = d.frame := rfl
@[simp] theorem Dev.setLane_flt (d : Dev) (n : Nat) (x : LaneSt) : (d.setLane n x).flt = d.flt := rfl
@[simp] theorem Dev.setLane_adcMap (d : Dev) (n : Nat) (x : LaneSt) : (d.setLane n x).adcMap = d.adcMap := rfl
@[simp] theorem Dev.setLane_ainMap (d : Dev) (n : Nat) (x : LaneSt) : (d.setLane n x).ainMap = d.ainMap := rfl
@[simp] theorem Dev.setLane_rowMap (d : Dev) (n : Nat) (x : LaneSt) : (d.setLane n x).rowMap = d.rowMap := rfl
@[simp] theorem Dev.setLane_lines (d : Dev) (n : Nat) (x : LaneSt) : (d.setLane n x).lines = d.lines := rfl
@[simp] theorem Dev.setLane_buses (d : Dev) (n : Nat) (x : LaneSt) : (d.setLane n x).buses = d.buses := rfl
@[simp] theorem Dev.setLane_strands (d : Dev) (n : Nat) (x : LaneSt) : (d.setLane n x).strands = d.strands := rfl
@[simp] theorem Dev.setLane_beads (d : Dev) (n : Nat) (x : LaneSt) : (d.setLane n x).beads = d.beads := rfl
@[simp] theorem Dev.setLane_strings (d : Dev) (n : Nat) (x : LaneSt) : (d.setLane n x).strings = d.strings := rfl
@[simp] theorem Dev.setLane_edge (d : Dev) (n : Nat) (x : LaneSt) : (d.setLane n x).edge = d.edge := rfl
@[simp] theorem Dev.setLane_acq (d : Dev) (n : Nat) (x : LaneSt) : (d.setLane n x).acq = d.acq := rfl
@[simp] theorem Dev.setLane_twn (d : Dev) (n : Nat) (x : LaneSt) : (d.setLane n x).twn = d.twn := rfl
@[simp] theorem Dev.setLane_stk (d : Dev) (n : Nat) (x : LaneSt) : (d.setLane n x).stk = d.stk := rfl
@[simp] theorem Dev.setLane_thm (d : Dev) (n : Nat) (x : LaneSt) : (d.setLane n x).thm = d.thm := rfl
@[simp] theorem Dev.setLane_lpe (d : Dev) (n : Nat) (x : LaneSt) : (d.setLane n x).lpe = d.lpe := rfl
@[simp] theorem Dev.setLane_hpa (d : Dev) (n : Nat) (x : LaneSt) : (d.setLane n x).hpa = d.hpa := rfl
@[simp] theorem Dev.setLane_hpb (d : Dev) (n : Nat) (x : LaneSt) : (d.setLane n x).hpb = d.hpb := rfl
@[simp] theorem Dev.setLane_lastServed (d : Dev) (n : Nat) (x : LaneSt) : (d.setLane n x).lastServed = d.lastServed := rfl
@[simp] theorem Dev.setLane_frozen (d : Dev) (n : Nat) (x : LaneSt) : (d.setLane n x).frozen = d.frozen := rfl
@[simp] theorem Dev.setLane_aon (d : Dev) (n : Nat) (x : LaneSt) : (d.setLane n x).aon = d.aon := rfl
@[simp] theorem Dev.setLane_nv (d : Dev) (n : Nat) (x : LaneSt) : (d.setLane n x).nv = d.nv := rfl
@[simp] theorem Dev.setLane_sec (d : Dev) (n : Nat) (x : LaneSt) : (d.setLane n x).sec = d.sec := rfl
@[simp] theorem Dev.setLane_olg (d : Dev) (n : Nat) (x : LaneSt) : (d.setLane n x).olg = d.olg := rfl
@[simp] theorem Dev.setLane_loupe (d : Dev) (n : Nat) (x : LaneSt) : (d.setLane n x).loupe = d.loupe := rfl
@[simp] theorem Dev.setLane_tx (d : Dev) (n : Nat) (x : LaneSt) : (d.setLane n x).tx = d.tx := rfl
@[simp] theorem Dev.setLane_os (d : Dev) (n : Nat) (x : LaneSt) : (d.setLane n x).os = d.os := rfl
@[simp] theorem Dev.setLane_yieldDue (d : Dev) (n : Nat) (x : LaneSt) : (d.setLane n x).yieldDue = d.yieldDue := rfl
@[simp] theorem Dev.setLane_free (d : Dev) (n : Nat) (x : LaneSt) : (d.setLane n x).free = d.free := rfl
@[simp] theorem Dev.setLane_rd (d : Dev) (n : Nat) (x : LaneSt) (k : Fld) : (d.setLane n x).rd k = d.rd k := rfl

/-! ## setLine -/

@[simp] theorem Dev.setLine_regs (d : Dev) (n : Nat) (x : LineSt) : (d.setLine n x).regs = d.regs := rfl
@[simp] theorem Dev.setLine_shad (d : Dev) (n : Nat) (x : LineSt) : (d.setLine n x).shad = d.shad := rfl
@[simp] theorem Dev.setLine_frm (d : Dev) (n : Nat) (x : LineSt) : (d.setLine n x).frm = d.frm := rfl
@[simp] theorem Dev.setLine_stg (d : Dev) (n : Nat) (x : LineSt) : (d.setLine n x).stg = d.stg := rfl
@[simp] theorem Dev.setLine_stage (d : Dev) (n : Nat) (x : LineSt) : (d.setLine n x).stage = d.stage := rfl
@[simp] theorem Dev.setLine_stgCopy (d : Dev) (n : Nat) (x : LineSt) : (d.setLine n x).stgCopy = d.stgCopy := rfl
@[simp] theorem Dev.setLine_run (d : Dev) (n : Nat) (x : LineSt) : (d.setLine n x).run = d.run := rfl
@[simp] theorem Dev.setLine_waits (d : Dev) (n : Nat) (x : LineSt) : (d.setLine n x).waits = d.waits := rfl
@[simp] theorem Dev.setLine_time (d : Dev) (n : Nat) (x : LineSt) : (d.setLine n x).time = d.time := rfl
@[simp] theorem Dev.setLine_frame (d : Dev) (n : Nat) (x : LineSt) : (d.setLine n x).frame = d.frame := rfl
@[simp] theorem Dev.setLine_flt (d : Dev) (n : Nat) (x : LineSt) : (d.setLine n x).flt = d.flt := rfl
@[simp] theorem Dev.setLine_adcMap (d : Dev) (n : Nat) (x : LineSt) : (d.setLine n x).adcMap = d.adcMap := rfl
@[simp] theorem Dev.setLine_ainMap (d : Dev) (n : Nat) (x : LineSt) : (d.setLine n x).ainMap = d.ainMap := rfl
@[simp] theorem Dev.setLine_rowMap (d : Dev) (n : Nat) (x : LineSt) : (d.setLine n x).rowMap = d.rowMap := rfl
@[simp] theorem Dev.setLine_lanes (d : Dev) (n : Nat) (x : LineSt) : (d.setLine n x).lanes = d.lanes := rfl
@[simp] theorem Dev.setLine_buses (d : Dev) (n : Nat) (x : LineSt) : (d.setLine n x).buses = d.buses := rfl
@[simp] theorem Dev.setLine_strands (d : Dev) (n : Nat) (x : LineSt) : (d.setLine n x).strands = d.strands := rfl
@[simp] theorem Dev.setLine_beads (d : Dev) (n : Nat) (x : LineSt) : (d.setLine n x).beads = d.beads := rfl
@[simp] theorem Dev.setLine_strings (d : Dev) (n : Nat) (x : LineSt) : (d.setLine n x).strings = d.strings := rfl
@[simp] theorem Dev.setLine_edge (d : Dev) (n : Nat) (x : LineSt) : (d.setLine n x).edge = d.edge := rfl
@[simp] theorem Dev.setLine_acq (d : Dev) (n : Nat) (x : LineSt) : (d.setLine n x).acq = d.acq := rfl
@[simp] theorem Dev.setLine_twn (d : Dev) (n : Nat) (x : LineSt) : (d.setLine n x).twn = d.twn := rfl
@[simp] theorem Dev.setLine_stk (d : Dev) (n : Nat) (x : LineSt) : (d.setLine n x).stk = d.stk := rfl
@[simp] theorem Dev.setLine_thm (d : Dev) (n : Nat) (x : LineSt) : (d.setLine n x).thm = d.thm := rfl
@[simp] theorem Dev.setLine_lpe (d : Dev) (n : Nat) (x : LineSt) : (d.setLine n x).lpe = d.lpe := rfl
@[simp] theorem Dev.setLine_hpa (d : Dev) (n : Nat) (x : LineSt) : (d.setLine n x).hpa = d.hpa := rfl
@[simp] theorem Dev.setLine_hpb (d : Dev) (n : Nat) (x : LineSt) : (d.setLine n x).hpb = d.hpb := rfl
@[simp] theorem Dev.setLine_lastServed (d : Dev) (n : Nat) (x : LineSt) : (d.setLine n x).lastServed = d.lastServed := rfl
@[simp] theorem Dev.setLine_frozen (d : Dev) (n : Nat) (x : LineSt) : (d.setLine n x).frozen = d.frozen := rfl
@[simp] theorem Dev.setLine_aon (d : Dev) (n : Nat) (x : LineSt) : (d.setLine n x).aon = d.aon := rfl
@[simp] theorem Dev.setLine_nv (d : Dev) (n : Nat) (x : LineSt) : (d.setLine n x).nv = d.nv := rfl
@[simp] theorem Dev.setLine_sec (d : Dev) (n : Nat) (x : LineSt) : (d.setLine n x).sec = d.sec := rfl
@[simp] theorem Dev.setLine_olg (d : Dev) (n : Nat) (x : LineSt) : (d.setLine n x).olg = d.olg := rfl
@[simp] theorem Dev.setLine_loupe (d : Dev) (n : Nat) (x : LineSt) : (d.setLine n x).loupe = d.loupe := rfl
@[simp] theorem Dev.setLine_tx (d : Dev) (n : Nat) (x : LineSt) : (d.setLine n x).tx = d.tx := rfl
@[simp] theorem Dev.setLine_os (d : Dev) (n : Nat) (x : LineSt) : (d.setLine n x).os = d.os := rfl
@[simp] theorem Dev.setLine_yieldDue (d : Dev) (n : Nat) (x : LineSt) : (d.setLine n x).yieldDue = d.yieldDue := rfl
@[simp] theorem Dev.setLine_free (d : Dev) (n : Nat) (x : LineSt) : (d.setLine n x).free = d.free := rfl
@[simp] theorem Dev.setLine_rd (d : Dev) (n : Nat) (x : LineSt) (k : Fld) : (d.setLine n x).rd k = d.rd k := rfl

/-! ## setBead -/

@[simp] theorem Dev.setBead_regs (d : Dev) (n : Nat) (x : BeadSt) : (d.setBead n x).regs = d.regs := rfl
@[simp] theorem Dev.setBead_shad (d : Dev) (n : Nat) (x : BeadSt) : (d.setBead n x).shad = d.shad := rfl
@[simp] theorem Dev.setBead_frm (d : Dev) (n : Nat) (x : BeadSt) : (d.setBead n x).frm = d.frm := rfl
@[simp] theorem Dev.setBead_stg (d : Dev) (n : Nat) (x : BeadSt) : (d.setBead n x).stg = d.stg := rfl
@[simp] theorem Dev.setBead_stage (d : Dev) (n : Nat) (x : BeadSt) : (d.setBead n x).stage = d.stage := rfl
@[simp] theorem Dev.setBead_stgCopy (d : Dev) (n : Nat) (x : BeadSt) : (d.setBead n x).stgCopy = d.stgCopy := rfl
@[simp] theorem Dev.setBead_run (d : Dev) (n : Nat) (x : BeadSt) : (d.setBead n x).run = d.run := rfl
@[simp] theorem Dev.setBead_waits (d : Dev) (n : Nat) (x : BeadSt) : (d.setBead n x).waits = d.waits := rfl
@[simp] theorem Dev.setBead_time (d : Dev) (n : Nat) (x : BeadSt) : (d.setBead n x).time = d.time := rfl
@[simp] theorem Dev.setBead_frame (d : Dev) (n : Nat) (x : BeadSt) : (d.setBead n x).frame = d.frame := rfl
@[simp] theorem Dev.setBead_flt (d : Dev) (n : Nat) (x : BeadSt) : (d.setBead n x).flt = d.flt := rfl
@[simp] theorem Dev.setBead_adcMap (d : Dev) (n : Nat) (x : BeadSt) : (d.setBead n x).adcMap = d.adcMap := rfl
@[simp] theorem Dev.setBead_ainMap (d : Dev) (n : Nat) (x : BeadSt) : (d.setBead n x).ainMap = d.ainMap := rfl
@[simp] theorem Dev.setBead_rowMap (d : Dev) (n : Nat) (x : BeadSt) : (d.setBead n x).rowMap = d.rowMap := rfl
@[simp] theorem Dev.setBead_lanes (d : Dev) (n : Nat) (x : BeadSt) : (d.setBead n x).lanes = d.lanes := rfl
@[simp] theorem Dev.setBead_lines (d : Dev) (n : Nat) (x : BeadSt) : (d.setBead n x).lines = d.lines := rfl
@[simp] theorem Dev.setBead_buses (d : Dev) (n : Nat) (x : BeadSt) : (d.setBead n x).buses = d.buses := rfl
@[simp] theorem Dev.setBead_strands (d : Dev) (n : Nat) (x : BeadSt) : (d.setBead n x).strands = d.strands := rfl
@[simp] theorem Dev.setBead_strings (d : Dev) (n : Nat) (x : BeadSt) : (d.setBead n x).strings = d.strings := rfl
@[simp] theorem Dev.setBead_edge (d : Dev) (n : Nat) (x : BeadSt) : (d.setBead n x).edge = d.edge := rfl
@[simp] theorem Dev.setBead_acq (d : Dev) (n : Nat) (x : BeadSt) : (d.setBead n x).acq = d.acq := rfl
@[simp] theorem Dev.setBead_twn (d : Dev) (n : Nat) (x : BeadSt) : (d.setBead n x).twn = d.twn := rfl
@[simp] theorem Dev.setBead_stk (d : Dev) (n : Nat) (x : BeadSt) : (d.setBead n x).stk = d.stk := rfl
@[simp] theorem Dev.setBead_thm (d : Dev) (n : Nat) (x : BeadSt) : (d.setBead n x).thm = d.thm := rfl
@[simp] theorem Dev.setBead_lpe (d : Dev) (n : Nat) (x : BeadSt) : (d.setBead n x).lpe = d.lpe := rfl
@[simp] theorem Dev.setBead_hpa (d : Dev) (n : Nat) (x : BeadSt) : (d.setBead n x).hpa = d.hpa := rfl
@[simp] theorem Dev.setBead_hpb (d : Dev) (n : Nat) (x : BeadSt) : (d.setBead n x).hpb = d.hpb := rfl
@[simp] theorem Dev.setBead_lastServed (d : Dev) (n : Nat) (x : BeadSt) : (d.setBead n x).lastServed = d.lastServed := rfl
@[simp] theorem Dev.setBead_frozen (d : Dev) (n : Nat) (x : BeadSt) : (d.setBead n x).frozen = d.frozen := rfl
@[simp] theorem Dev.setBead_aon (d : Dev) (n : Nat) (x : BeadSt) : (d.setBead n x).aon = d.aon := rfl
@[simp] theorem Dev.setBead_nv (d : Dev) (n : Nat) (x : BeadSt) : (d.setBead n x).nv = d.nv := rfl
@[simp] theorem Dev.setBead_sec (d : Dev) (n : Nat) (x : BeadSt) : (d.setBead n x).sec = d.sec := rfl
@[simp] theorem Dev.setBead_olg (d : Dev) (n : Nat) (x : BeadSt) : (d.setBead n x).olg = d.olg := rfl
@[simp] theorem Dev.setBead_loupe (d : Dev) (n : Nat) (x : BeadSt) : (d.setBead n x).loupe = d.loupe := rfl
@[simp] theorem Dev.setBead_tx (d : Dev) (n : Nat) (x : BeadSt) : (d.setBead n x).tx = d.tx := rfl
@[simp] theorem Dev.setBead_os (d : Dev) (n : Nat) (x : BeadSt) : (d.setBead n x).os = d.os := rfl
@[simp] theorem Dev.setBead_yieldDue (d : Dev) (n : Nat) (x : BeadSt) : (d.setBead n x).yieldDue = d.yieldDue := rfl
@[simp] theorem Dev.setBead_free (d : Dev) (n : Nat) (x : BeadSt) : (d.setBead n x).free = d.free := rfl
@[simp] theorem Dev.setBead_rd (d : Dev) (n : Nat) (x : BeadSt) (k : Fld) : (d.setBead n x).rd k = d.rd k := rfl

/-! ## setPair -/

@[simp] theorem Dev.setPair_regs (d : Dev) (n : Nat) (x : PairSt) : (d.setPair n x).regs = d.regs := rfl
@[simp] theorem Dev.setPair_shad (d : Dev) (n : Nat) (x : PairSt) : (d.setPair n x).shad = d.shad := rfl
@[simp] theorem Dev.setPair_frm (d : Dev) (n : Nat) (x : PairSt) : (d.setPair n x).frm = d.frm := rfl
@[simp] theorem Dev.setPair_stg (d : Dev) (n : Nat) (x : PairSt) : (d.setPair n x).stg = d.stg := rfl
@[simp] theorem Dev.setPair_stage (d : Dev) (n : Nat) (x : PairSt) : (d.setPair n x).stage = d.stage := rfl
@[simp] theorem Dev.setPair_stgCopy (d : Dev) (n : Nat) (x : PairSt) : (d.setPair n x).stgCopy = d.stgCopy := rfl
@[simp] theorem Dev.setPair_run (d : Dev) (n : Nat) (x : PairSt) : (d.setPair n x).run = d.run := rfl
@[simp] theorem Dev.setPair_waits (d : Dev) (n : Nat) (x : PairSt) : (d.setPair n x).waits = d.waits := rfl
@[simp] theorem Dev.setPair_time (d : Dev) (n : Nat) (x : PairSt) : (d.setPair n x).time = d.time := rfl
@[simp] theorem Dev.setPair_frame (d : Dev) (n : Nat) (x : PairSt) : (d.setPair n x).frame = d.frame := rfl
@[simp] theorem Dev.setPair_flt (d : Dev) (n : Nat) (x : PairSt) : (d.setPair n x).flt = d.flt := rfl
@[simp] theorem Dev.setPair_adcMap (d : Dev) (n : Nat) (x : PairSt) : (d.setPair n x).adcMap = d.adcMap := rfl
@[simp] theorem Dev.setPair_ainMap (d : Dev) (n : Nat) (x : PairSt) : (d.setPair n x).ainMap = d.ainMap := rfl
@[simp] theorem Dev.setPair_rowMap (d : Dev) (n : Nat) (x : PairSt) : (d.setPair n x).rowMap = d.rowMap := rfl
@[simp] theorem Dev.setPair_lanes (d : Dev) (n : Nat) (x : PairSt) : (d.setPair n x).lanes = d.lanes := rfl
@[simp] theorem Dev.setPair_lines (d : Dev) (n : Nat) (x : PairSt) : (d.setPair n x).lines = d.lines := rfl
@[simp] theorem Dev.setPair_buses (d : Dev) (n : Nat) (x : PairSt) : (d.setPair n x).buses = d.buses := rfl
@[simp] theorem Dev.setPair_strands (d : Dev) (n : Nat) (x : PairSt) : (d.setPair n x).strands = d.strands := rfl
@[simp] theorem Dev.setPair_beads (d : Dev) (n : Nat) (x : PairSt) : (d.setPair n x).beads = d.beads := rfl
@[simp] theorem Dev.setPair_strings (d : Dev) (n : Nat) (x : PairSt) : (d.setPair n x).strings = d.strings := rfl
@[simp] theorem Dev.setPair_acq (d : Dev) (n : Nat) (x : PairSt) : (d.setPair n x).acq = d.acq := rfl
@[simp] theorem Dev.setPair_twn (d : Dev) (n : Nat) (x : PairSt) : (d.setPair n x).twn = d.twn := rfl
@[simp] theorem Dev.setPair_stk (d : Dev) (n : Nat) (x : PairSt) : (d.setPair n x).stk = d.stk := rfl
@[simp] theorem Dev.setPair_thm (d : Dev) (n : Nat) (x : PairSt) : (d.setPair n x).thm = d.thm := rfl
@[simp] theorem Dev.setPair_lpe (d : Dev) (n : Nat) (x : PairSt) : (d.setPair n x).lpe = d.lpe := rfl
@[simp] theorem Dev.setPair_hpa (d : Dev) (n : Nat) (x : PairSt) : (d.setPair n x).hpa = d.hpa := rfl
@[simp] theorem Dev.setPair_hpb (d : Dev) (n : Nat) (x : PairSt) : (d.setPair n x).hpb = d.hpb := rfl
@[simp] theorem Dev.setPair_lastServed (d : Dev) (n : Nat) (x : PairSt) : (d.setPair n x).lastServed = d.lastServed := rfl
@[simp] theorem Dev.setPair_frozen (d : Dev) (n : Nat) (x : PairSt) : (d.setPair n x).frozen = d.frozen := rfl
@[simp] theorem Dev.setPair_aon (d : Dev) (n : Nat) (x : PairSt) : (d.setPair n x).aon = d.aon := rfl
@[simp] theorem Dev.setPair_nv (d : Dev) (n : Nat) (x : PairSt) : (d.setPair n x).nv = d.nv := rfl
@[simp] theorem Dev.setPair_sec (d : Dev) (n : Nat) (x : PairSt) : (d.setPair n x).sec = d.sec := rfl
@[simp] theorem Dev.setPair_olg (d : Dev) (n : Nat) (x : PairSt) : (d.setPair n x).olg = d.olg := rfl
@[simp] theorem Dev.setPair_loupe (d : Dev) (n : Nat) (x : PairSt) : (d.setPair n x).loupe = d.loupe := rfl
@[simp] theorem Dev.setPair_tx (d : Dev) (n : Nat) (x : PairSt) : (d.setPair n x).tx = d.tx := rfl
@[simp] theorem Dev.setPair_os (d : Dev) (n : Nat) (x : PairSt) : (d.setPair n x).os = d.os := rfl
@[simp] theorem Dev.setPair_yieldDue (d : Dev) (n : Nat) (x : PairSt) : (d.setPair n x).yieldDue = d.yieldDue := rfl
@[simp] theorem Dev.setPair_free (d : Dev) (n : Nat) (x : PairSt) : (d.setPair n x).free = d.free := rfl
@[simp] theorem Dev.setPair_rd (d : Dev) (n : Nat) (x : PairSt) (k : Fld) : (d.setPair n x).rd k = d.rd k := rfl

/-! ## setTb -/

@[simp] theorem Dev.setTb_regs (d : Dev) (n : Nat) (x : TbSt) : (d.setTb n x).regs = d.regs := rfl
@[simp] theorem Dev.setTb_shad (d : Dev) (n : Nat) (x : TbSt) : (d.setTb n x).shad = d.shad := rfl
@[simp] theorem Dev.setTb_frm (d : Dev) (n : Nat) (x : TbSt) : (d.setTb n x).frm = d.frm := rfl
@[simp] theorem Dev.setTb_stg (d : Dev) (n : Nat) (x : TbSt) : (d.setTb n x).stg = d.stg := rfl
@[simp] theorem Dev.setTb_stage (d : Dev) (n : Nat) (x : TbSt) : (d.setTb n x).stage = d.stage := rfl
@[simp] theorem Dev.setTb_stgCopy (d : Dev) (n : Nat) (x : TbSt) : (d.setTb n x).stgCopy = d.stgCopy := rfl
@[simp] theorem Dev.setTb_run (d : Dev) (n : Nat) (x : TbSt) : (d.setTb n x).run = d.run := rfl
@[simp] theorem Dev.setTb_waits (d : Dev) (n : Nat) (x : TbSt) : (d.setTb n x).waits = d.waits := rfl
@[simp] theorem Dev.setTb_time (d : Dev) (n : Nat) (x : TbSt) : (d.setTb n x).time = d.time := rfl
@[simp] theorem Dev.setTb_frame (d : Dev) (n : Nat) (x : TbSt) : (d.setTb n x).frame = d.frame := rfl
@[simp] theorem Dev.setTb_flt (d : Dev) (n : Nat) (x : TbSt) : (d.setTb n x).flt = d.flt := rfl
@[simp] theorem Dev.setTb_adcMap (d : Dev) (n : Nat) (x : TbSt) : (d.setTb n x).adcMap = d.adcMap := rfl
@[simp] theorem Dev.setTb_ainMap (d : Dev) (n : Nat) (x : TbSt) : (d.setTb n x).ainMap = d.ainMap := rfl
@[simp] theorem Dev.setTb_rowMap (d : Dev) (n : Nat) (x : TbSt) : (d.setTb n x).rowMap = d.rowMap := rfl
@[simp] theorem Dev.setTb_lanes (d : Dev) (n : Nat) (x : TbSt) : (d.setTb n x).lanes = d.lanes := rfl
@[simp] theorem Dev.setTb_lines (d : Dev) (n : Nat) (x : TbSt) : (d.setTb n x).lines = d.lines := rfl
@[simp] theorem Dev.setTb_buses (d : Dev) (n : Nat) (x : TbSt) : (d.setTb n x).buses = d.buses := rfl
@[simp] theorem Dev.setTb_strands (d : Dev) (n : Nat) (x : TbSt) : (d.setTb n x).strands = d.strands := rfl
@[simp] theorem Dev.setTb_beads (d : Dev) (n : Nat) (x : TbSt) : (d.setTb n x).beads = d.beads := rfl
@[simp] theorem Dev.setTb_strings (d : Dev) (n : Nat) (x : TbSt) : (d.setTb n x).strings = d.strings := rfl
@[simp] theorem Dev.setTb_acq (d : Dev) (n : Nat) (x : TbSt) : (d.setTb n x).acq = d.acq := rfl
@[simp] theorem Dev.setTb_twn (d : Dev) (n : Nat) (x : TbSt) : (d.setTb n x).twn = d.twn := rfl
@[simp] theorem Dev.setTb_stk (d : Dev) (n : Nat) (x : TbSt) : (d.setTb n x).stk = d.stk := rfl
@[simp] theorem Dev.setTb_thm (d : Dev) (n : Nat) (x : TbSt) : (d.setTb n x).thm = d.thm := rfl
@[simp] theorem Dev.setTb_lpe (d : Dev) (n : Nat) (x : TbSt) : (d.setTb n x).lpe = d.lpe := rfl
@[simp] theorem Dev.setTb_hpa (d : Dev) (n : Nat) (x : TbSt) : (d.setTb n x).hpa = d.hpa := rfl
@[simp] theorem Dev.setTb_hpb (d : Dev) (n : Nat) (x : TbSt) : (d.setTb n x).hpb = d.hpb := rfl
@[simp] theorem Dev.setTb_lastServed (d : Dev) (n : Nat) (x : TbSt) : (d.setTb n x).lastServed = d.lastServed := rfl
@[simp] theorem Dev.setTb_frozen (d : Dev) (n : Nat) (x : TbSt) : (d.setTb n x).frozen = d.frozen := rfl
@[simp] theorem Dev.setTb_aon (d : Dev) (n : Nat) (x : TbSt) : (d.setTb n x).aon = d.aon := rfl
@[simp] theorem Dev.setTb_nv (d : Dev) (n : Nat) (x : TbSt) : (d.setTb n x).nv = d.nv := rfl
@[simp] theorem Dev.setTb_sec (d : Dev) (n : Nat) (x : TbSt) : (d.setTb n x).sec = d.sec := rfl
@[simp] theorem Dev.setTb_olg (d : Dev) (n : Nat) (x : TbSt) : (d.setTb n x).olg = d.olg := rfl
@[simp] theorem Dev.setTb_loupe (d : Dev) (n : Nat) (x : TbSt) : (d.setTb n x).loupe = d.loupe := rfl
@[simp] theorem Dev.setTb_tx (d : Dev) (n : Nat) (x : TbSt) : (d.setTb n x).tx = d.tx := rfl
@[simp] theorem Dev.setTb_os (d : Dev) (n : Nat) (x : TbSt) : (d.setTb n x).os = d.os := rfl
@[simp] theorem Dev.setTb_yieldDue (d : Dev) (n : Nat) (x : TbSt) : (d.setTb n x).yieldDue = d.yieldDue := rfl
@[simp] theorem Dev.setTb_free (d : Dev) (n : Nat) (x : TbSt) : (d.setTb n x).free = d.free := rfl
@[simp] theorem Dev.setTb_rd (d : Dev) (n : Nat) (x : TbSt) (k : Fld) : (d.setTb n x).rd k = d.rd k := rfl

/-! ## setCh -/

@[simp] theorem Dev.setCh_regs (d : Dev) (n : Nat) (x : ChSt) : (d.setCh n x).regs = d.regs := rfl
@[simp] theorem Dev.setCh_shad (d : Dev) (n : Nat) (x : ChSt) : (d.setCh n x).shad = d.shad := rfl
@[simp] theorem Dev.setCh_frm (d : Dev) (n : Nat) (x : ChSt) : (d.setCh n x).frm = d.frm := rfl
@[simp] theorem Dev.setCh_stg (d : Dev) (n : Nat) (x : ChSt) : (d.setCh n x).stg = d.stg := rfl
@[simp] theorem Dev.setCh_stage (d : Dev) (n : Nat) (x : ChSt) : (d.setCh n x).stage = d.stage := rfl
@[simp] theorem Dev.setCh_stgCopy (d : Dev) (n : Nat) (x : ChSt) : (d.setCh n x).stgCopy = d.stgCopy := rfl
@[simp] theorem Dev.setCh_run (d : Dev) (n : Nat) (x : ChSt) : (d.setCh n x).run = d.run := rfl
@[simp] theorem Dev.setCh_waits (d : Dev) (n : Nat) (x : ChSt) : (d.setCh n x).waits = d.waits := rfl
@[simp] theorem Dev.setCh_time (d : Dev) (n : Nat) (x : ChSt) : (d.setCh n x).time = d.time := rfl
@[simp] theorem Dev.setCh_frame (d : Dev) (n : Nat) (x : ChSt) : (d.setCh n x).frame = d.frame := rfl
@[simp] theorem Dev.setCh_flt (d : Dev) (n : Nat) (x : ChSt) : (d.setCh n x).flt = d.flt := rfl
@[simp] theorem Dev.setCh_adcMap (d : Dev) (n : Nat) (x : ChSt) : (d.setCh n x).adcMap = d.adcMap := rfl
@[simp] theorem Dev.setCh_ainMap (d : Dev) (n : Nat) (x : ChSt) : (d.setCh n x).ainMap = d.ainMap := rfl
@[simp] theorem Dev.setCh_rowMap (d : Dev) (n : Nat) (x : ChSt) : (d.setCh n x).rowMap = d.rowMap := rfl
@[simp] theorem Dev.setCh_lanes (d : Dev) (n : Nat) (x : ChSt) : (d.setCh n x).lanes = d.lanes := rfl
@[simp] theorem Dev.setCh_lines (d : Dev) (n : Nat) (x : ChSt) : (d.setCh n x).lines = d.lines := rfl
@[simp] theorem Dev.setCh_buses (d : Dev) (n : Nat) (x : ChSt) : (d.setCh n x).buses = d.buses := rfl
@[simp] theorem Dev.setCh_strands (d : Dev) (n : Nat) (x : ChSt) : (d.setCh n x).strands = d.strands := rfl
@[simp] theorem Dev.setCh_beads (d : Dev) (n : Nat) (x : ChSt) : (d.setCh n x).beads = d.beads := rfl
@[simp] theorem Dev.setCh_strings (d : Dev) (n : Nat) (x : ChSt) : (d.setCh n x).strings = d.strings := rfl
@[simp] theorem Dev.setCh_acq (d : Dev) (n : Nat) (x : ChSt) : (d.setCh n x).acq = d.acq := rfl
@[simp] theorem Dev.setCh_twn (d : Dev) (n : Nat) (x : ChSt) : (d.setCh n x).twn = d.twn := rfl
@[simp] theorem Dev.setCh_stk (d : Dev) (n : Nat) (x : ChSt) : (d.setCh n x).stk = d.stk := rfl
@[simp] theorem Dev.setCh_thm (d : Dev) (n : Nat) (x : ChSt) : (d.setCh n x).thm = d.thm := rfl
@[simp] theorem Dev.setCh_lpe (d : Dev) (n : Nat) (x : ChSt) : (d.setCh n x).lpe = d.lpe := rfl
@[simp] theorem Dev.setCh_hpa (d : Dev) (n : Nat) (x : ChSt) : (d.setCh n x).hpa = d.hpa := rfl
@[simp] theorem Dev.setCh_hpb (d : Dev) (n : Nat) (x : ChSt) : (d.setCh n x).hpb = d.hpb := rfl
@[simp] theorem Dev.setCh_lastServed (d : Dev) (n : Nat) (x : ChSt) : (d.setCh n x).lastServed = d.lastServed := rfl
@[simp] theorem Dev.setCh_frozen (d : Dev) (n : Nat) (x : ChSt) : (d.setCh n x).frozen = d.frozen := rfl
@[simp] theorem Dev.setCh_aon (d : Dev) (n : Nat) (x : ChSt) : (d.setCh n x).aon = d.aon := rfl
@[simp] theorem Dev.setCh_nv (d : Dev) (n : Nat) (x : ChSt) : (d.setCh n x).nv = d.nv := rfl
@[simp] theorem Dev.setCh_sec (d : Dev) (n : Nat) (x : ChSt) : (d.setCh n x).sec = d.sec := rfl
@[simp] theorem Dev.setCh_olg (d : Dev) (n : Nat) (x : ChSt) : (d.setCh n x).olg = d.olg := rfl
@[simp] theorem Dev.setCh_loupe (d : Dev) (n : Nat) (x : ChSt) : (d.setCh n x).loupe = d.loupe := rfl
@[simp] theorem Dev.setCh_tx (d : Dev) (n : Nat) (x : ChSt) : (d.setCh n x).tx = d.tx := rfl
@[simp] theorem Dev.setCh_os (d : Dev) (n : Nat) (x : ChSt) : (d.setCh n x).os = d.os := rfl
@[simp] theorem Dev.setCh_yieldDue (d : Dev) (n : Nat) (x : ChSt) : (d.setCh n x).yieldDue = d.yieldDue := rfl
@[simp] theorem Dev.setCh_free (d : Dev) (n : Nat) (x : ChSt) : (d.setCh n x).free = d.free := rfl
@[simp] theorem Dev.setCh_rd (d : Dev) (n : Nat) (x : ChSt) (k : Fld) : (d.setCh n x).rd k = d.rd k := rfl

/-! ## setConv -/

@[simp] theorem Dev.setConv_regs (d : Dev) (n : Nat) (x : ConvSt) : (d.setConv n x).regs = d.regs := rfl
@[simp] theorem Dev.setConv_shad (d : Dev) (n : Nat) (x : ConvSt) : (d.setConv n x).shad = d.shad := rfl
@[simp] theorem Dev.setConv_frm (d : Dev) (n : Nat) (x : ConvSt) : (d.setConv n x).frm = d.frm := rfl
@[simp] theorem Dev.setConv_stg (d : Dev) (n : Nat) (x : ConvSt) : (d.setConv n x).stg = d.stg := rfl
@[simp] theorem Dev.setConv_stage (d : Dev) (n : Nat) (x : ConvSt) : (d.setConv n x).stage = d.stage := rfl
@[simp] theorem Dev.setConv_stgCopy (d : Dev) (n : Nat) (x : ConvSt) : (d.setConv n x).stgCopy = d.stgCopy := rfl
@[simp] theorem Dev.setConv_run (d : Dev) (n : Nat) (x : ConvSt) : (d.setConv n x).run = d.run := rfl
@[simp] theorem Dev.setConv_waits (d : Dev) (n : Nat) (x : ConvSt) : (d.setConv n x).waits = d.waits := rfl
@[simp] theorem Dev.setConv_time (d : Dev) (n : Nat) (x : ConvSt) : (d.setConv n x).time = d.time := rfl
@[simp] theorem Dev.setConv_frame (d : Dev) (n : Nat) (x : ConvSt) : (d.setConv n x).frame = d.frame := rfl
@[simp] theorem Dev.setConv_flt (d : Dev) (n : Nat) (x : ConvSt) : (d.setConv n x).flt = d.flt := rfl
@[simp] theorem Dev.setConv_adcMap (d : Dev) (n : Nat) (x : ConvSt) : (d.setConv n x).adcMap = d.adcMap := rfl
@[simp] theorem Dev.setConv_ainMap (d : Dev) (n : Nat) (x : ConvSt) : (d.setConv n x).ainMap = d.ainMap := rfl
@[simp] theorem Dev.setConv_rowMap (d : Dev) (n : Nat) (x : ConvSt) : (d.setConv n x).rowMap = d.rowMap := rfl
@[simp] theorem Dev.setConv_lanes (d : Dev) (n : Nat) (x : ConvSt) : (d.setConv n x).lanes = d.lanes := rfl
@[simp] theorem Dev.setConv_lines (d : Dev) (n : Nat) (x : ConvSt) : (d.setConv n x).lines = d.lines := rfl
@[simp] theorem Dev.setConv_buses (d : Dev) (n : Nat) (x : ConvSt) : (d.setConv n x).buses = d.buses := rfl
@[simp] theorem Dev.setConv_strands (d : Dev) (n : Nat) (x : ConvSt) : (d.setConv n x).strands = d.strands := rfl
@[simp] theorem Dev.setConv_beads (d : Dev) (n : Nat) (x : ConvSt) : (d.setConv n x).beads = d.beads := rfl
@[simp] theorem Dev.setConv_strings (d : Dev) (n : Nat) (x : ConvSt) : (d.setConv n x).strings = d.strings := rfl
@[simp] theorem Dev.setConv_edge (d : Dev) (n : Nat) (x : ConvSt) : (d.setConv n x).edge = d.edge := rfl
@[simp] theorem Dev.setConv_twn (d : Dev) (n : Nat) (x : ConvSt) : (d.setConv n x).twn = d.twn := rfl
@[simp] theorem Dev.setConv_stk (d : Dev) (n : Nat) (x : ConvSt) : (d.setConv n x).stk = d.stk := rfl
@[simp] theorem Dev.setConv_thm (d : Dev) (n : Nat) (x : ConvSt) : (d.setConv n x).thm = d.thm := rfl
@[simp] theorem Dev.setConv_lpe (d : Dev) (n : Nat) (x : ConvSt) : (d.setConv n x).lpe = d.lpe := rfl
@[simp] theorem Dev.setConv_hpa (d : Dev) (n : Nat) (x : ConvSt) : (d.setConv n x).hpa = d.hpa := rfl
@[simp] theorem Dev.setConv_hpb (d : Dev) (n : Nat) (x : ConvSt) : (d.setConv n x).hpb = d.hpb := rfl
@[simp] theorem Dev.setConv_lastServed (d : Dev) (n : Nat) (x : ConvSt) : (d.setConv n x).lastServed = d.lastServed := rfl
@[simp] theorem Dev.setConv_frozen (d : Dev) (n : Nat) (x : ConvSt) : (d.setConv n x).frozen = d.frozen := rfl
@[simp] theorem Dev.setConv_aon (d : Dev) (n : Nat) (x : ConvSt) : (d.setConv n x).aon = d.aon := rfl
@[simp] theorem Dev.setConv_nv (d : Dev) (n : Nat) (x : ConvSt) : (d.setConv n x).nv = d.nv := rfl
@[simp] theorem Dev.setConv_sec (d : Dev) (n : Nat) (x : ConvSt) : (d.setConv n x).sec = d.sec := rfl
@[simp] theorem Dev.setConv_olg (d : Dev) (n : Nat) (x : ConvSt) : (d.setConv n x).olg = d.olg := rfl
@[simp] theorem Dev.setConv_loupe (d : Dev) (n : Nat) (x : ConvSt) : (d.setConv n x).loupe = d.loupe := rfl
@[simp] theorem Dev.setConv_tx (d : Dev) (n : Nat) (x : ConvSt) : (d.setConv n x).tx = d.tx := rfl
@[simp] theorem Dev.setConv_os (d : Dev) (n : Nat) (x : ConvSt) : (d.setConv n x).os = d.os := rfl
@[simp] theorem Dev.setConv_yieldDue (d : Dev) (n : Nat) (x : ConvSt) : (d.setConv n x).yieldDue = d.yieldDue := rfl
@[simp] theorem Dev.setConv_free (d : Dev) (n : Nat) (x : ConvSt) : (d.setConv n x).free = d.free := rfl
@[simp] theorem Dev.setConv_rd (d : Dev) (n : Nat) (x : ConvSt) (k : Fld) : (d.setConv n x).rd k = d.rd k := rfl

/-! ## setAcc -/

@[simp] theorem Dev.setAcc_regs (d : Dev) (n : Nat) (x : AccSt) : (d.setAcc n x).regs = d.regs := rfl
@[simp] theorem Dev.setAcc_shad (d : Dev) (n : Nat) (x : AccSt) : (d.setAcc n x).shad = d.shad := rfl
@[simp] theorem Dev.setAcc_frm (d : Dev) (n : Nat) (x : AccSt) : (d.setAcc n x).frm = d.frm := rfl
@[simp] theorem Dev.setAcc_stg (d : Dev) (n : Nat) (x : AccSt) : (d.setAcc n x).stg = d.stg := rfl
@[simp] theorem Dev.setAcc_stage (d : Dev) (n : Nat) (x : AccSt) : (d.setAcc n x).stage = d.stage := rfl
@[simp] theorem Dev.setAcc_stgCopy (d : Dev) (n : Nat) (x : AccSt) : (d.setAcc n x).stgCopy = d.stgCopy := rfl
@[simp] theorem Dev.setAcc_run (d : Dev) (n : Nat) (x : AccSt) : (d.setAcc n x).run = d.run := rfl
@[simp] theorem Dev.setAcc_waits (d : Dev) (n : Nat) (x : AccSt) : (d.setAcc n x).waits = d.waits := rfl
@[simp] theorem Dev.setAcc_time (d : Dev) (n : Nat) (x : AccSt) : (d.setAcc n x).time = d.time := rfl
@[simp] theorem Dev.setAcc_frame (d : Dev) (n : Nat) (x : AccSt) : (d.setAcc n x).frame = d.frame := rfl
@[simp] theorem Dev.setAcc_flt (d : Dev) (n : Nat) (x : AccSt) : (d.setAcc n x).flt = d.flt := rfl
@[simp] theorem Dev.setAcc_adcMap (d : Dev) (n : Nat) (x : AccSt) : (d.setAcc n x).adcMap = d.adcMap := rfl
@[simp] theorem Dev.setAcc_ainMap (d : Dev) (n : Nat) (x : AccSt) : (d.setAcc n x).ainMap = d.ainMap := rfl
@[simp] theorem Dev.setAcc_rowMap (d : Dev) (n : Nat) (x : AccSt) : (d.setAcc n x).rowMap = d.rowMap := rfl
@[simp] theorem Dev.setAcc_lanes (d : Dev) (n : Nat) (x : AccSt) : (d.setAcc n x).lanes = d.lanes := rfl
@[simp] theorem Dev.setAcc_lines (d : Dev) (n : Nat) (x : AccSt) : (d.setAcc n x).lines = d.lines := rfl
@[simp] theorem Dev.setAcc_buses (d : Dev) (n : Nat) (x : AccSt) : (d.setAcc n x).buses = d.buses := rfl
@[simp] theorem Dev.setAcc_strands (d : Dev) (n : Nat) (x : AccSt) : (d.setAcc n x).strands = d.strands := rfl
@[simp] theorem Dev.setAcc_beads (d : Dev) (n : Nat) (x : AccSt) : (d.setAcc n x).beads = d.beads := rfl
@[simp] theorem Dev.setAcc_strings (d : Dev) (n : Nat) (x : AccSt) : (d.setAcc n x).strings = d.strings := rfl
@[simp] theorem Dev.setAcc_edge (d : Dev) (n : Nat) (x : AccSt) : (d.setAcc n x).edge = d.edge := rfl
@[simp] theorem Dev.setAcc_twn (d : Dev) (n : Nat) (x : AccSt) : (d.setAcc n x).twn = d.twn := rfl
@[simp] theorem Dev.setAcc_stk (d : Dev) (n : Nat) (x : AccSt) : (d.setAcc n x).stk = d.stk := rfl
@[simp] theorem Dev.setAcc_thm (d : Dev) (n : Nat) (x : AccSt) : (d.setAcc n x).thm = d.thm := rfl
@[simp] theorem Dev.setAcc_lpe (d : Dev) (n : Nat) (x : AccSt) : (d.setAcc n x).lpe = d.lpe := rfl
@[simp] theorem Dev.setAcc_hpa (d : Dev) (n : Nat) (x : AccSt) : (d.setAcc n x).hpa = d.hpa := rfl
@[simp] theorem Dev.setAcc_hpb (d : Dev) (n : Nat) (x : AccSt) : (d.setAcc n x).hpb = d.hpb := rfl
@[simp] theorem Dev.setAcc_lastServed (d : Dev) (n : Nat) (x : AccSt) : (d.setAcc n x).lastServed = d.lastServed := rfl
@[simp] theorem Dev.setAcc_frozen (d : Dev) (n : Nat) (x : AccSt) : (d.setAcc n x).frozen = d.frozen := rfl
@[simp] theorem Dev.setAcc_aon (d : Dev) (n : Nat) (x : AccSt) : (d.setAcc n x).aon = d.aon := rfl
@[simp] theorem Dev.setAcc_nv (d : Dev) (n : Nat) (x : AccSt) : (d.setAcc n x).nv = d.nv := rfl
@[simp] theorem Dev.setAcc_sec (d : Dev) (n : Nat) (x : AccSt) : (d.setAcc n x).sec = d.sec := rfl
@[simp] theorem Dev.setAcc_olg (d : Dev) (n : Nat) (x : AccSt) : (d.setAcc n x).olg = d.olg := rfl
@[simp] theorem Dev.setAcc_loupe (d : Dev) (n : Nat) (x : AccSt) : (d.setAcc n x).loupe = d.loupe := rfl
@[simp] theorem Dev.setAcc_tx (d : Dev) (n : Nat) (x : AccSt) : (d.setAcc n x).tx = d.tx := rfl
@[simp] theorem Dev.setAcc_os (d : Dev) (n : Nat) (x : AccSt) : (d.setAcc n x).os = d.os := rfl
@[simp] theorem Dev.setAcc_yieldDue (d : Dev) (n : Nat) (x : AccSt) : (d.setAcc n x).yieldDue = d.yieldDue := rfl
@[simp] theorem Dev.setAcc_free (d : Dev) (n : Nat) (x : AccSt) : (d.setAcc n x).free = d.free := rfl
@[simp] theorem Dev.setAcc_rd (d : Dev) (n : Nat) (x : AccSt) (k : Fld) : (d.setAcc n x).rd k = d.rd k := rfl

/-! ## setSens -/

@[simp] theorem Dev.setSens_regs (d : Dev) (n : Nat) (x : SensSt) : (d.setSens n x).regs = d.regs := rfl
@[simp] theorem Dev.setSens_shad (d : Dev) (n : Nat) (x : SensSt) : (d.setSens n x).shad = d.shad := rfl
@[simp] theorem Dev.setSens_frm (d : Dev) (n : Nat) (x : SensSt) : (d.setSens n x).frm = d.frm := rfl
@[simp] theorem Dev.setSens_stg (d : Dev) (n : Nat) (x : SensSt) : (d.setSens n x).stg = d.stg := rfl
@[simp] theorem Dev.setSens_stage (d : Dev) (n : Nat) (x : SensSt) : (d.setSens n x).stage = d.stage := rfl
@[simp] theorem Dev.setSens_stgCopy (d : Dev) (n : Nat) (x : SensSt) : (d.setSens n x).stgCopy = d.stgCopy := rfl
@[simp] theorem Dev.setSens_run (d : Dev) (n : Nat) (x : SensSt) : (d.setSens n x).run = d.run := rfl
@[simp] theorem Dev.setSens_waits (d : Dev) (n : Nat) (x : SensSt) : (d.setSens n x).waits = d.waits := rfl
@[simp] theorem Dev.setSens_time (d : Dev) (n : Nat) (x : SensSt) : (d.setSens n x).time = d.time := rfl
@[simp] theorem Dev.setSens_frame (d : Dev) (n : Nat) (x : SensSt) : (d.setSens n x).frame = d.frame := rfl
@[simp] theorem Dev.setSens_flt (d : Dev) (n : Nat) (x : SensSt) : (d.setSens n x).flt = d.flt := rfl
@[simp] theorem Dev.setSens_adcMap (d : Dev) (n : Nat) (x : SensSt) : (d.setSens n x).adcMap = d.adcMap := rfl
@[simp] theorem Dev.setSens_ainMap (d : Dev) (n : Nat) (x : SensSt) : (d.setSens n x).ainMap = d.ainMap := rfl
@[simp] theorem Dev.setSens_rowMap (d : Dev) (n : Nat) (x : SensSt) : (d.setSens n x).rowMap = d.rowMap := rfl
@[simp] theorem Dev.setSens_lanes (d : Dev) (n : Nat) (x : SensSt) : (d.setSens n x).lanes = d.lanes := rfl
@[simp] theorem Dev.setSens_lines (d : Dev) (n : Nat) (x : SensSt) : (d.setSens n x).lines = d.lines := rfl
@[simp] theorem Dev.setSens_buses (d : Dev) (n : Nat) (x : SensSt) : (d.setSens n x).buses = d.buses := rfl
@[simp] theorem Dev.setSens_strands (d : Dev) (n : Nat) (x : SensSt) : (d.setSens n x).strands = d.strands := rfl
@[simp] theorem Dev.setSens_beads (d : Dev) (n : Nat) (x : SensSt) : (d.setSens n x).beads = d.beads := rfl
@[simp] theorem Dev.setSens_strings (d : Dev) (n : Nat) (x : SensSt) : (d.setSens n x).strings = d.strings := rfl
@[simp] theorem Dev.setSens_edge (d : Dev) (n : Nat) (x : SensSt) : (d.setSens n x).edge = d.edge := rfl
@[simp] theorem Dev.setSens_acq (d : Dev) (n : Nat) (x : SensSt) : (d.setSens n x).acq = d.acq := rfl
@[simp] theorem Dev.setSens_twn (d : Dev) (n : Nat) (x : SensSt) : (d.setSens n x).twn = d.twn := rfl
@[simp] theorem Dev.setSens_stk (d : Dev) (n : Nat) (x : SensSt) : (d.setSens n x).stk = d.stk := rfl
@[simp] theorem Dev.setSens_lpe (d : Dev) (n : Nat) (x : SensSt) : (d.setSens n x).lpe = d.lpe := rfl
@[simp] theorem Dev.setSens_hpa (d : Dev) (n : Nat) (x : SensSt) : (d.setSens n x).hpa = d.hpa := rfl
@[simp] theorem Dev.setSens_hpb (d : Dev) (n : Nat) (x : SensSt) : (d.setSens n x).hpb = d.hpb := rfl
@[simp] theorem Dev.setSens_lastServed (d : Dev) (n : Nat) (x : SensSt) : (d.setSens n x).lastServed = d.lastServed := rfl
@[simp] theorem Dev.setSens_frozen (d : Dev) (n : Nat) (x : SensSt) : (d.setSens n x).frozen = d.frozen := rfl
@[simp] theorem Dev.setSens_aon (d : Dev) (n : Nat) (x : SensSt) : (d.setSens n x).aon = d.aon := rfl
@[simp] theorem Dev.setSens_nv (d : Dev) (n : Nat) (x : SensSt) : (d.setSens n x).nv = d.nv := rfl
@[simp] theorem Dev.setSens_sec (d : Dev) (n : Nat) (x : SensSt) : (d.setSens n x).sec = d.sec := rfl
@[simp] theorem Dev.setSens_olg (d : Dev) (n : Nat) (x : SensSt) : (d.setSens n x).olg = d.olg := rfl
@[simp] theorem Dev.setSens_loupe (d : Dev) (n : Nat) (x : SensSt) : (d.setSens n x).loupe = d.loupe := rfl
@[simp] theorem Dev.setSens_tx (d : Dev) (n : Nat) (x : SensSt) : (d.setSens n x).tx = d.tx := rfl
@[simp] theorem Dev.setSens_os (d : Dev) (n : Nat) (x : SensSt) : (d.setSens n x).os = d.os := rfl
@[simp] theorem Dev.setSens_yieldDue (d : Dev) (n : Nat) (x : SensSt) : (d.setSens n x).yieldDue = d.yieldDue := rfl
@[simp] theorem Dev.setSens_free (d : Dev) (n : Nat) (x : SensSt) : (d.setSens n x).free = d.free := rfl
@[simp] theorem Dev.setSens_rd (d : Dev) (n : Nat) (x : SensSt) (k : Fld) : (d.setSens n x).rd k = d.rd k := rfl

/-! ## setOut -/

@[simp] theorem Dev.setOut_regs (d : Dev) (n : Nat) (x : PulseOut) : (d.setOut n x).regs = d.regs := rfl
@[simp] theorem Dev.setOut_shad (d : Dev) (n : Nat) (x : PulseOut) : (d.setOut n x).shad = d.shad := rfl
@[simp] theorem Dev.setOut_frm (d : Dev) (n : Nat) (x : PulseOut) : (d.setOut n x).frm = d.frm := rfl
@[simp] theorem Dev.setOut_stg (d : Dev) (n : Nat) (x : PulseOut) : (d.setOut n x).stg = d.stg := rfl
@[simp] theorem Dev.setOut_stage (d : Dev) (n : Nat) (x : PulseOut) : (d.setOut n x).stage = d.stage := rfl
@[simp] theorem Dev.setOut_stgCopy (d : Dev) (n : Nat) (x : PulseOut) : (d.setOut n x).stgCopy = d.stgCopy := rfl
@[simp] theorem Dev.setOut_run (d : Dev) (n : Nat) (x : PulseOut) : (d.setOut n x).run = d.run := rfl
@[simp] theorem Dev.setOut_waits (d : Dev) (n : Nat) (x : PulseOut) : (d.setOut n x).waits = d.waits := rfl
@[simp] theorem Dev.setOut_frame (d : Dev) (n : Nat) (x : PulseOut) : (d.setOut n x).frame = d.frame := rfl
@[simp] theorem Dev.setOut_flt (d : Dev) (n : Nat) (x : PulseOut) : (d.setOut n x).flt = d.flt := rfl
@[simp] theorem Dev.setOut_adcMap (d : Dev) (n : Nat) (x : PulseOut) : (d.setOut n x).adcMap = d.adcMap := rfl
@[simp] theorem Dev.setOut_ainMap (d : Dev) (n : Nat) (x : PulseOut) : (d.setOut n x).ainMap = d.ainMap := rfl
@[simp] theorem Dev.setOut_rowMap (d : Dev) (n : Nat) (x : PulseOut) : (d.setOut n x).rowMap = d.rowMap := rfl
@[simp] theorem Dev.setOut_lanes (d : Dev) (n : Nat) (x : PulseOut) : (d.setOut n x).lanes = d.lanes := rfl
@[simp] theorem Dev.setOut_lines (d : Dev) (n : Nat) (x : PulseOut) : (d.setOut n x).lines = d.lines := rfl
@[simp] theorem Dev.setOut_buses (d : Dev) (n : Nat) (x : PulseOut) : (d.setOut n x).buses = d.buses := rfl
@[simp] theorem Dev.setOut_strands (d : Dev) (n : Nat) (x : PulseOut) : (d.setOut n x).strands = d.strands := rfl
@[simp] theorem Dev.setOut_beads (d : Dev) (n : Nat) (x : PulseOut) : (d.setOut n x).beads = d.beads := rfl
@[simp] theorem Dev.setOut_strings (d : Dev) (n : Nat) (x : PulseOut) : (d.setOut n x).strings = d.strings := rfl
@[simp] theorem Dev.setOut_edge (d : Dev) (n : Nat) (x : PulseOut) : (d.setOut n x).edge = d.edge := rfl
@[simp] theorem Dev.setOut_acq (d : Dev) (n : Nat) (x : PulseOut) : (d.setOut n x).acq = d.acq := rfl
@[simp] theorem Dev.setOut_twn (d : Dev) (n : Nat) (x : PulseOut) : (d.setOut n x).twn = d.twn := rfl
@[simp] theorem Dev.setOut_stk (d : Dev) (n : Nat) (x : PulseOut) : (d.setOut n x).stk = d.stk := rfl
@[simp] theorem Dev.setOut_thm (d : Dev) (n : Nat) (x : PulseOut) : (d.setOut n x).thm = d.thm := rfl
@[simp] theorem Dev.setOut_lpe (d : Dev) (n : Nat) (x : PulseOut) : (d.setOut n x).lpe = d.lpe := rfl
@[simp] theorem Dev.setOut_hpa (d : Dev) (n : Nat) (x : PulseOut) : (d.setOut n x).hpa = d.hpa := rfl
@[simp] theorem Dev.setOut_hpb (d : Dev) (n : Nat) (x : PulseOut) : (d.setOut n x).hpb = d.hpb := rfl
@[simp] theorem Dev.setOut_lastServed (d : Dev) (n : Nat) (x : PulseOut) : (d.setOut n x).lastServed = d.lastServed := rfl
@[simp] theorem Dev.setOut_frozen (d : Dev) (n : Nat) (x : PulseOut) : (d.setOut n x).frozen = d.frozen := rfl
@[simp] theorem Dev.setOut_aon (d : Dev) (n : Nat) (x : PulseOut) : (d.setOut n x).aon = d.aon := rfl
@[simp] theorem Dev.setOut_nv (d : Dev) (n : Nat) (x : PulseOut) : (d.setOut n x).nv = d.nv := rfl
@[simp] theorem Dev.setOut_sec (d : Dev) (n : Nat) (x : PulseOut) : (d.setOut n x).sec = d.sec := rfl
@[simp] theorem Dev.setOut_olg (d : Dev) (n : Nat) (x : PulseOut) : (d.setOut n x).olg = d.olg := rfl
@[simp] theorem Dev.setOut_loupe (d : Dev) (n : Nat) (x : PulseOut) : (d.setOut n x).loupe = d.loupe := rfl
@[simp] theorem Dev.setOut_tx (d : Dev) (n : Nat) (x : PulseOut) : (d.setOut n x).tx = d.tx := rfl
@[simp] theorem Dev.setOut_os (d : Dev) (n : Nat) (x : PulseOut) : (d.setOut n x).os = d.os := rfl
@[simp] theorem Dev.setOut_yieldDue (d : Dev) (n : Nat) (x : PulseOut) : (d.setOut n x).yieldDue = d.yieldDue := rfl
@[simp] theorem Dev.setOut_free (d : Dev) (n : Nat) (x : PulseOut) : (d.setOut n x).free = d.free := rfl
@[simp] theorem Dev.setOut_rd (d : Dev) (n : Nat) (x : PulseOut) (k : Fld) : (d.setOut n x).rd k = d.rd k := rfl

/-! ## upLpe -/

@[simp] theorem Dev.upLpe_regs (d : Dev) (g : LpeSt → LpeSt) : (d.upLpe g).regs = d.regs := rfl
@[simp] theorem Dev.upLpe_shad (d : Dev) (g : LpeSt → LpeSt) : (d.upLpe g).shad = d.shad := rfl
@[simp] theorem Dev.upLpe_frm (d : Dev) (g : LpeSt → LpeSt) : (d.upLpe g).frm = d.frm := rfl
@[simp] theorem Dev.upLpe_stg (d : Dev) (g : LpeSt → LpeSt) : (d.upLpe g).stg = d.stg := rfl
@[simp] theorem Dev.upLpe_stage (d : Dev) (g : LpeSt → LpeSt) : (d.upLpe g).stage = d.stage := rfl
@[simp] theorem Dev.upLpe_stgCopy (d : Dev) (g : LpeSt → LpeSt) : (d.upLpe g).stgCopy = d.stgCopy := rfl
@[simp] theorem Dev.upLpe_run (d : Dev) (g : LpeSt → LpeSt) : (d.upLpe g).run = d.run := rfl
@[simp] theorem Dev.upLpe_waits (d : Dev) (g : LpeSt → LpeSt) : (d.upLpe g).waits = d.waits := rfl
@[simp] theorem Dev.upLpe_time (d : Dev) (g : LpeSt → LpeSt) : (d.upLpe g).time = d.time := rfl
@[simp] theorem Dev.upLpe_frame (d : Dev) (g : LpeSt → LpeSt) : (d.upLpe g).frame = d.frame := rfl
@[simp] theorem Dev.upLpe_flt (d : Dev) (g : LpeSt → LpeSt) : (d.upLpe g).flt = d.flt := rfl
@[simp] theorem Dev.upLpe_adcMap (d : Dev) (g : LpeSt → LpeSt) : (d.upLpe g).adcMap = d.adcMap := rfl
@[simp] theorem Dev.upLpe_ainMap (d : Dev) (g : LpeSt → LpeSt) : (d.upLpe g).ainMap = d.ainMap := rfl
@[simp] theorem Dev.upLpe_rowMap (d : Dev) (g : LpeSt → LpeSt) : (d.upLpe g).rowMap = d.rowMap := rfl
@[simp] theorem Dev.upLpe_lanes (d : Dev) (g : LpeSt → LpeSt) : (d.upLpe g).lanes = d.lanes := rfl
@[simp] theorem Dev.upLpe_lines (d : Dev) (g : LpeSt → LpeSt) : (d.upLpe g).lines = d.lines := rfl
@[simp] theorem Dev.upLpe_buses (d : Dev) (g : LpeSt → LpeSt) : (d.upLpe g).buses = d.buses := rfl
@[simp] theorem Dev.upLpe_strands (d : Dev) (g : LpeSt → LpeSt) : (d.upLpe g).strands = d.strands := rfl
@[simp] theorem Dev.upLpe_beads (d : Dev) (g : LpeSt → LpeSt) : (d.upLpe g).beads = d.beads := rfl
@[simp] theorem Dev.upLpe_strings (d : Dev) (g : LpeSt → LpeSt) : (d.upLpe g).strings = d.strings := rfl
@[simp] theorem Dev.upLpe_edge (d : Dev) (g : LpeSt → LpeSt) : (d.upLpe g).edge = d.edge := rfl
@[simp] theorem Dev.upLpe_acq (d : Dev) (g : LpeSt → LpeSt) : (d.upLpe g).acq = d.acq := rfl
@[simp] theorem Dev.upLpe_twn (d : Dev) (g : LpeSt → LpeSt) : (d.upLpe g).twn = d.twn := rfl
@[simp] theorem Dev.upLpe_stk (d : Dev) (g : LpeSt → LpeSt) : (d.upLpe g).stk = d.stk := rfl
@[simp] theorem Dev.upLpe_thm (d : Dev) (g : LpeSt → LpeSt) : (d.upLpe g).thm = d.thm := rfl
@[simp] theorem Dev.upLpe_hpa (d : Dev) (g : LpeSt → LpeSt) : (d.upLpe g).hpa = d.hpa := rfl
@[simp] theorem Dev.upLpe_hpb (d : Dev) (g : LpeSt → LpeSt) : (d.upLpe g).hpb = d.hpb := rfl
@[simp] theorem Dev.upLpe_lastServed (d : Dev) (g : LpeSt → LpeSt) : (d.upLpe g).lastServed = d.lastServed := rfl
@[simp] theorem Dev.upLpe_frozen (d : Dev) (g : LpeSt → LpeSt) : (d.upLpe g).frozen = d.frozen := rfl
@[simp] theorem Dev.upLpe_aon (d : Dev) (g : LpeSt → LpeSt) : (d.upLpe g).aon = d.aon := rfl
@[simp] theorem Dev.upLpe_nv (d : Dev) (g : LpeSt → LpeSt) : (d.upLpe g).nv = d.nv := rfl
@[simp] theorem Dev.upLpe_sec (d : Dev) (g : LpeSt → LpeSt) : (d.upLpe g).sec = d.sec := rfl
@[simp] theorem Dev.upLpe_olg (d : Dev) (g : LpeSt → LpeSt) : (d.upLpe g).olg = d.olg := rfl
@[simp] theorem Dev.upLpe_loupe (d : Dev) (g : LpeSt → LpeSt) : (d.upLpe g).loupe = d.loupe := rfl
@[simp] theorem Dev.upLpe_tx (d : Dev) (g : LpeSt → LpeSt) : (d.upLpe g).tx = d.tx := rfl
@[simp] theorem Dev.upLpe_os (d : Dev) (g : LpeSt → LpeSt) : (d.upLpe g).os = d.os := rfl
@[simp] theorem Dev.upLpe_yieldDue (d : Dev) (g : LpeSt → LpeSt) : (d.upLpe g).yieldDue = d.yieldDue := rfl
@[simp] theorem Dev.upLpe_free (d : Dev) (g : LpeSt → LpeSt) : (d.upLpe g).free = d.free := rfl
@[simp] theorem Dev.upLpe_rd (d : Dev) (g : LpeSt → LpeSt) (k : Fld) : (d.upLpe g).rd k = d.rd k := rfl

/-! ## upTwn -/

@[simp] theorem Dev.upTwn_regs (d : Dev) (g : TwnSt → TwnSt) : (d.upTwn g).regs = d.regs := rfl
@[simp] theorem Dev.upTwn_shad (d : Dev) (g : TwnSt → TwnSt) : (d.upTwn g).shad = d.shad := rfl
@[simp] theorem Dev.upTwn_frm (d : Dev) (g : TwnSt → TwnSt) : (d.upTwn g).frm = d.frm := rfl
@[simp] theorem Dev.upTwn_stg (d : Dev) (g : TwnSt → TwnSt) : (d.upTwn g).stg = d.stg := rfl
@[simp] theorem Dev.upTwn_stage (d : Dev) (g : TwnSt → TwnSt) : (d.upTwn g).stage = d.stage := rfl
@[simp] theorem Dev.upTwn_stgCopy (d : Dev) (g : TwnSt → TwnSt) : (d.upTwn g).stgCopy = d.stgCopy := rfl
@[simp] theorem Dev.upTwn_run (d : Dev) (g : TwnSt → TwnSt) : (d.upTwn g).run = d.run := rfl
@[simp] theorem Dev.upTwn_waits (d : Dev) (g : TwnSt → TwnSt) : (d.upTwn g).waits = d.waits := rfl
@[simp] theorem Dev.upTwn_time (d : Dev) (g : TwnSt → TwnSt) : (d.upTwn g).time = d.time := rfl
@[simp] theorem Dev.upTwn_frame (d : Dev) (g : TwnSt → TwnSt) : (d.upTwn g).frame = d.frame := rfl
@[simp] theorem Dev.upTwn_flt (d : Dev) (g : TwnSt → TwnSt) : (d.upTwn g).flt = d.flt := rfl
@[simp] theorem Dev.upTwn_adcMap (d : Dev) (g : TwnSt → TwnSt) : (d.upTwn g).adcMap = d.adcMap := rfl
@[simp] theorem Dev.upTwn_ainMap (d : Dev) (g : TwnSt → TwnSt) : (d.upTwn g).ainMap = d.ainMap := rfl
@[simp] theorem Dev.upTwn_rowMap (d : Dev) (g : TwnSt → TwnSt) : (d.upTwn g).rowMap = d.rowMap := rfl
@[simp] theorem Dev.upTwn_lanes (d : Dev) (g : TwnSt → TwnSt) : (d.upTwn g).lanes = d.lanes := rfl
@[simp] theorem Dev.upTwn_lines (d : Dev) (g : TwnSt → TwnSt) : (d.upTwn g).lines = d.lines := rfl
@[simp] theorem Dev.upTwn_buses (d : Dev) (g : TwnSt → TwnSt) : (d.upTwn g).buses = d.buses := rfl
@[simp] theorem Dev.upTwn_strands (d : Dev) (g : TwnSt → TwnSt) : (d.upTwn g).strands = d.strands := rfl
@[simp] theorem Dev.upTwn_beads (d : Dev) (g : TwnSt → TwnSt) : (d.upTwn g).beads = d.beads := rfl
@[simp] theorem Dev.upTwn_strings (d : Dev) (g : TwnSt → TwnSt) : (d.upTwn g).strings = d.strings := rfl
@[simp] theorem Dev.upTwn_edge (d : Dev) (g : TwnSt → TwnSt) : (d.upTwn g).edge = d.edge := rfl
@[simp] theorem Dev.upTwn_acq (d : Dev) (g : TwnSt → TwnSt) : (d.upTwn g).acq = d.acq := rfl
@[simp] theorem Dev.upTwn_stk (d : Dev) (g : TwnSt → TwnSt) : (d.upTwn g).stk = d.stk := rfl
@[simp] theorem Dev.upTwn_thm (d : Dev) (g : TwnSt → TwnSt) : (d.upTwn g).thm = d.thm := rfl
@[simp] theorem Dev.upTwn_lpe (d : Dev) (g : TwnSt → TwnSt) : (d.upTwn g).lpe = d.lpe := rfl
@[simp] theorem Dev.upTwn_hpa (d : Dev) (g : TwnSt → TwnSt) : (d.upTwn g).hpa = d.hpa := rfl
@[simp] theorem Dev.upTwn_hpb (d : Dev) (g : TwnSt → TwnSt) : (d.upTwn g).hpb = d.hpb := rfl
@[simp] theorem Dev.upTwn_lastServed (d : Dev) (g : TwnSt → TwnSt) : (d.upTwn g).lastServed = d.lastServed := rfl
@[simp] theorem Dev.upTwn_frozen (d : Dev) (g : TwnSt → TwnSt) : (d.upTwn g).frozen = d.frozen := rfl
@[simp] theorem Dev.upTwn_aon (d : Dev) (g : TwnSt → TwnSt) : (d.upTwn g).aon = d.aon := rfl
@[simp] theorem Dev.upTwn_nv (d : Dev) (g : TwnSt → TwnSt) : (d.upTwn g).nv = d.nv := rfl
@[simp] theorem Dev.upTwn_sec (d : Dev) (g : TwnSt → TwnSt) : (d.upTwn g).sec = d.sec := rfl
@[simp] theorem Dev.upTwn_olg (d : Dev) (g : TwnSt → TwnSt) : (d.upTwn g).olg = d.olg := rfl
@[simp] theorem Dev.upTwn_loupe (d : Dev) (g : TwnSt → TwnSt) : (d.upTwn g).loupe = d.loupe := rfl
@[simp] theorem Dev.upTwn_tx (d : Dev) (g : TwnSt → TwnSt) : (d.upTwn g).tx = d.tx := rfl
@[simp] theorem Dev.upTwn_os (d : Dev) (g : TwnSt → TwnSt) : (d.upTwn g).os = d.os := rfl
@[simp] theorem Dev.upTwn_yieldDue (d : Dev) (g : TwnSt → TwnSt) : (d.upTwn g).yieldDue = d.yieldDue := rfl
@[simp] theorem Dev.upTwn_free (d : Dev) (g : TwnSt → TwnSt) : (d.upTwn g).free = d.free := rfl
@[simp] theorem Dev.upTwn_rd (d : Dev) (g : TwnSt → TwnSt) (k : Fld) : (d.upTwn g).rd k = d.rd k := rfl

/-! ## upStk -/

@[simp] theorem Dev.upStk_regs (d : Dev) (g : StkSt → StkSt) : (d.upStk g).regs = d.regs := rfl
@[simp] theorem Dev.upStk_shad (d : Dev) (g : StkSt → StkSt) : (d.upStk g).shad = d.shad := rfl
@[simp] theorem Dev.upStk_frm (d : Dev) (g : StkSt → StkSt) : (d.upStk g).frm = d.frm := rfl
@[simp] theorem Dev.upStk_stg (d : Dev) (g : StkSt → StkSt) : (d.upStk g).stg = d.stg := rfl
@[simp] theorem Dev.upStk_stage (d : Dev) (g : StkSt → StkSt) : (d.upStk g).stage = d.stage := rfl
@[simp] theorem Dev.upStk_stgCopy (d : Dev) (g : StkSt → StkSt) : (d.upStk g).stgCopy = d.stgCopy := rfl
@[simp] theorem Dev.upStk_run (d : Dev) (g : StkSt → StkSt) : (d.upStk g).run = d.run := rfl
@[simp] theorem Dev.upStk_waits (d : Dev) (g : StkSt → StkSt) : (d.upStk g).waits = d.waits := rfl
@[simp] theorem Dev.upStk_time (d : Dev) (g : StkSt → StkSt) : (d.upStk g).time = d.time := rfl
@[simp] theorem Dev.upStk_frame (d : Dev) (g : StkSt → StkSt) : (d.upStk g).frame = d.frame := rfl
@[simp] theorem Dev.upStk_flt (d : Dev) (g : StkSt → StkSt) : (d.upStk g).flt = d.flt := rfl
@[simp] theorem Dev.upStk_adcMap (d : Dev) (g : StkSt → StkSt) : (d.upStk g).adcMap = d.adcMap := rfl
@[simp] theorem Dev.upStk_ainMap (d : Dev) (g : StkSt → StkSt) : (d.upStk g).ainMap = d.ainMap := rfl
@[simp] theorem Dev.upStk_rowMap (d : Dev) (g : StkSt → StkSt) : (d.upStk g).rowMap = d.rowMap := rfl
@[simp] theorem Dev.upStk_lanes (d : Dev) (g : StkSt → StkSt) : (d.upStk g).lanes = d.lanes := rfl
@[simp] theorem Dev.upStk_lines (d : Dev) (g : StkSt → StkSt) : (d.upStk g).lines = d.lines := rfl
@[simp] theorem Dev.upStk_buses (d : Dev) (g : StkSt → StkSt) : (d.upStk g).buses = d.buses := rfl
@[simp] theorem Dev.upStk_strands (d : Dev) (g : StkSt → StkSt) : (d.upStk g).strands = d.strands := rfl
@[simp] theorem Dev.upStk_beads (d : Dev) (g : StkSt → StkSt) : (d.upStk g).beads = d.beads := rfl
@[simp] theorem Dev.upStk_strings (d : Dev) (g : StkSt → StkSt) : (d.upStk g).strings = d.strings := rfl
@[simp] theorem Dev.upStk_edge (d : Dev) (g : StkSt → StkSt) : (d.upStk g).edge = d.edge := rfl
@[simp] theorem Dev.upStk_acq (d : Dev) (g : StkSt → StkSt) : (d.upStk g).acq = d.acq := rfl
@[simp] theorem Dev.upStk_twn (d : Dev) (g : StkSt → StkSt) : (d.upStk g).twn = d.twn := rfl
@[simp] theorem Dev.upStk_thm (d : Dev) (g : StkSt → StkSt) : (d.upStk g).thm = d.thm := rfl
@[simp] theorem Dev.upStk_lpe (d : Dev) (g : StkSt → StkSt) : (d.upStk g).lpe = d.lpe := rfl
@[simp] theorem Dev.upStk_hpa (d : Dev) (g : StkSt → StkSt) : (d.upStk g).hpa = d.hpa := rfl
@[simp] theorem Dev.upStk_hpb (d : Dev) (g : StkSt → StkSt) : (d.upStk g).hpb = d.hpb := rfl
@[simp] theorem Dev.upStk_lastServed (d : Dev) (g : StkSt → StkSt) : (d.upStk g).lastServed = d.lastServed := rfl
@[simp] theorem Dev.upStk_frozen (d : Dev) (g : StkSt → StkSt) : (d.upStk g).frozen = d.frozen := rfl
@[simp] theorem Dev.upStk_aon (d : Dev) (g : StkSt → StkSt) : (d.upStk g).aon = d.aon := rfl
@[simp] theorem Dev.upStk_nv (d : Dev) (g : StkSt → StkSt) : (d.upStk g).nv = d.nv := rfl
@[simp] theorem Dev.upStk_sec (d : Dev) (g : StkSt → StkSt) : (d.upStk g).sec = d.sec := rfl
@[simp] theorem Dev.upStk_olg (d : Dev) (g : StkSt → StkSt) : (d.upStk g).olg = d.olg := rfl
@[simp] theorem Dev.upStk_loupe (d : Dev) (g : StkSt → StkSt) : (d.upStk g).loupe = d.loupe := rfl
@[simp] theorem Dev.upStk_tx (d : Dev) (g : StkSt → StkSt) : (d.upStk g).tx = d.tx := rfl
@[simp] theorem Dev.upStk_os (d : Dev) (g : StkSt → StkSt) : (d.upStk g).os = d.os := rfl
@[simp] theorem Dev.upStk_yieldDue (d : Dev) (g : StkSt → StkSt) : (d.upStk g).yieldDue = d.yieldDue := rfl
@[simp] theorem Dev.upStk_free (d : Dev) (g : StkSt → StkSt) : (d.upStk g).free = d.free := rfl
@[simp] theorem Dev.upStk_rd (d : Dev) (g : StkSt → StkSt) (k : Fld) : (d.upStk g).rd k = d.rd k := rfl

/-! ## wait -/

@[simp] theorem Dev.wait_regs (d : Dev) (x : Wait) : (d.wait x).regs = d.regs := rfl
@[simp] theorem Dev.wait_shad (d : Dev) (x : Wait) : (d.wait x).shad = d.shad := rfl
@[simp] theorem Dev.wait_frm (d : Dev) (x : Wait) : (d.wait x).frm = d.frm := rfl
@[simp] theorem Dev.wait_stg (d : Dev) (x : Wait) : (d.wait x).stg = d.stg := rfl
@[simp] theorem Dev.wait_stage (d : Dev) (x : Wait) : (d.wait x).stage = d.stage := rfl
@[simp] theorem Dev.wait_stgCopy (d : Dev) (x : Wait) : (d.wait x).stgCopy = d.stgCopy := rfl
@[simp] theorem Dev.wait_run (d : Dev) (x : Wait) : (d.wait x).run = d.run := rfl
@[simp] theorem Dev.wait_time (d : Dev) (x : Wait) : (d.wait x).time = d.time := rfl
@[simp] theorem Dev.wait_frame (d : Dev) (x : Wait) : (d.wait x).frame = d.frame := rfl
@[simp] theorem Dev.wait_flt (d : Dev) (x : Wait) : (d.wait x).flt = d.flt := rfl
@[simp] theorem Dev.wait_adcMap (d : Dev) (x : Wait) : (d.wait x).adcMap = d.adcMap := rfl
@[simp] theorem Dev.wait_ainMap (d : Dev) (x : Wait) : (d.wait x).ainMap = d.ainMap := rfl
@[simp] theorem Dev.wait_rowMap (d : Dev) (x : Wait) : (d.wait x).rowMap = d.rowMap := rfl
@[simp] theorem Dev.wait_lanes (d : Dev) (x : Wait) : (d.wait x).lanes = d.lanes := rfl
@[simp] theorem Dev.wait_lines (d : Dev) (x : Wait) : (d.wait x).lines = d.lines := rfl
@[simp] theorem Dev.wait_buses (d : Dev) (x : Wait) : (d.wait x).buses = d.buses := rfl
@[simp] theorem Dev.wait_strands (d : Dev) (x : Wait) : (d.wait x).strands = d.strands := rfl
@[simp] theorem Dev.wait_beads (d : Dev) (x : Wait) : (d.wait x).beads = d.beads := rfl
@[simp] theorem Dev.wait_strings (d : Dev) (x : Wait) : (d.wait x).strings = d.strings := rfl
@[simp] theorem Dev.wait_edge (d : Dev) (x : Wait) : (d.wait x).edge = d.edge := rfl
@[simp] theorem Dev.wait_acq (d : Dev) (x : Wait) : (d.wait x).acq = d.acq := rfl
@[simp] theorem Dev.wait_twn (d : Dev) (x : Wait) : (d.wait x).twn = d.twn := rfl
@[simp] theorem Dev.wait_stk (d : Dev) (x : Wait) : (d.wait x).stk = d.stk := rfl
@[simp] theorem Dev.wait_thm (d : Dev) (x : Wait) : (d.wait x).thm = d.thm := rfl
@[simp] theorem Dev.wait_lpe (d : Dev) (x : Wait) : (d.wait x).lpe = d.lpe := rfl
@[simp] theorem Dev.wait_hpa (d : Dev) (x : Wait) : (d.wait x).hpa = d.hpa := rfl
@[simp] theorem Dev.wait_hpb (d : Dev) (x : Wait) : (d.wait x).hpb = d.hpb := rfl
@[simp] theorem Dev.wait_lastServed (d : Dev) (x : Wait) : (d.wait x).lastServed = d.lastServed := rfl
@[simp] theorem Dev.wait_frozen (d : Dev) (x : Wait) : (d.wait x).frozen = d.frozen := rfl
@[simp] theorem Dev.wait_aon (d : Dev) (x : Wait) : (d.wait x).aon = d.aon := rfl
@[simp] theorem Dev.wait_nv (d : Dev) (x : Wait) : (d.wait x).nv = d.nv := rfl
@[simp] theorem Dev.wait_sec (d : Dev) (x : Wait) : (d.wait x).sec = d.sec := rfl
@[simp] theorem Dev.wait_olg (d : Dev) (x : Wait) : (d.wait x).olg = d.olg := rfl
@[simp] theorem Dev.wait_loupe (d : Dev) (x : Wait) : (d.wait x).loupe = d.loupe := rfl
@[simp] theorem Dev.wait_tx (d : Dev) (x : Wait) : (d.wait x).tx = d.tx := rfl
@[simp] theorem Dev.wait_os (d : Dev) (x : Wait) : (d.wait x).os = d.os := rfl
@[simp] theorem Dev.wait_yieldDue (d : Dev) (x : Wait) : (d.wait x).yieldDue = d.yieldDue := rfl
@[simp] theorem Dev.wait_free (d : Dev) (x : Wait) : (d.wait x).free = d.free := rfl
@[simp] theorem Dev.wait_rd (d : Dev) (x : Wait) (k : Fld) : (d.wait x).rd k = d.rd k := rfl

/-! ## Components that are kept in a table or a structure -/

@[simp] theorem Dev.setLane_lane (d : Dev) (n : Nat) (x : LaneSt) : (d.setLane n x).lane n = x := tget_tput_self _ _ _ _
theorem Dev.setLane_lane_ne (d : Dev) (n m : Nat) (x : LaneSt) (h : m ≠ n) : (d.setLane n x).lane m = d.lane m := tget_tput_ne _ _ _ _ h
@[simp] theorem Dev.setLine_line (d : Dev) (n : Nat) (x : LineSt) : (d.setLine n x).line n = x := tget_tput_self _ _ _ _
theorem Dev.setLine_line_ne (d : Dev) (n m : Nat) (x : LineSt) (h : m ≠ n) : (d.setLine n x).line m = d.line m := tget_tput_ne _ _ _ _ h
@[simp] theorem Dev.setBead_bead (d : Dev) (n : Nat) (x : BeadSt) : (d.setBead n x).bead n = x := tget_tput_self _ _ _ _
theorem Dev.setBead_bead_ne (d : Dev) (n m : Nat) (x : BeadSt) (h : m ≠ n) : (d.setBead n x).bead m = d.bead m := tget_tput_ne _ _ _ _ h
@[simp] theorem Dev.setPair_pair (d : Dev) (n : Nat) (x : PairSt) : (d.setPair n x).pair n = x := tget_tput_self _ _ _ _
theorem Dev.setPair_pair_ne (d : Dev) (n m : Nat) (x : PairSt) (h : m ≠ n) : (d.setPair n x).pair m = d.pair m := tget_tput_ne _ _ _ _ h
@[simp] theorem Dev.setTb_tb (d : Dev) (n : Nat) (x : TbSt) : (d.setTb n x).tb n = x := tget_tput_self _ _ _ _
theorem Dev.setTb_tb_ne (d : Dev) (n m : Nat) (x : TbSt) (h : m ≠ n) : (d.setTb n x).tb m = d.tb m := tget_tput_ne _ _ _ _ h
@[simp] theorem Dev.setCh_ch (d : Dev) (n : Nat) (x : ChSt) : (d.setCh n x).ch n = x := tget_tput_self _ _ _ _
theorem Dev.setCh_ch_ne (d : Dev) (n m : Nat) (x : ChSt) (h : m ≠ n) : (d.setCh n x).ch m = d.ch m := tget_tput_ne _ _ _ _ h
@[simp] theorem Dev.setConv_conv (d : Dev) (n : Nat) (x : ConvSt) : (d.setConv n x).conv n = x := tget_tput_self _ _ _ _
theorem Dev.setConv_conv_ne (d : Dev) (n m : Nat) (x : ConvSt) (h : m ≠ n) : (d.setConv n x).conv m = d.conv m := tget_tput_ne _ _ _ _ h
@[simp] theorem Dev.setAcc_acc (d : Dev) (n : Nat) (x : AccSt) : (d.setAcc n x).acc n = x := tget_tput_self _ _ _ _
theorem Dev.setAcc_acc_ne (d : Dev) (n m : Nat) (x : AccSt) (h : m ≠ n) : (d.setAcc n x).acc m = d.acc m := tget_tput_ne _ _ _ _ h
@[simp] theorem Dev.setSens_sens (d : Dev) (n : Nat) (x : SensSt) : (d.setSens n x).sens n = x := tget_tput_self _ _ _ _
theorem Dev.setSens_sens_ne (d : Dev) (n m : Nat) (x : SensSt) (h : m ≠ n) : (d.setSens n x).sens m = d.sens m := tget_tput_ne _ _ _ _ h
@[simp] theorem Dev.setOut_out (d : Dev) (n : Nat) (x : PulseOut) : (d.setOut n x).out n = x := tget_tput_self _ _ _ _
theorem Dev.setOut_out_ne (d : Dev) (n m : Nat) (x : PulseOut) (h : m ≠ n) : (d.setOut n x).out m = d.out m := tget_tput_ne _ _ _ _ h
@[simp] theorem Dev.upLpe_lpe (d : Dev) (g : LpeSt → LpeSt) : (d.upLpe g).lpe = g d.lpe := rfl
@[simp] theorem Dev.upTwn_twn (d : Dev) (g : TwnSt → TwnSt) : (d.upTwn g).twn = g d.twn := rfl
@[simp] theorem Dev.upStk_stk (d : Dev) (g : StkSt → StkSt) : (d.upStk g).stk = g d.stk := rfl
@[simp] theorem Dev.wait_waits (d : Dev) (x : Wait) : (d.wait x).waits = d.waits ++ [x] := rfl

/-! ## Ports -/

@[simp] theorem Dev.upPort_regs (d : Dev) (p : Nat) (g : Port → Port) : (d.upPort p g).regs = d.regs := by unfold Dev.upPort; split <;> rfl
@[simp] theorem Dev.upPort_shad (d : Dev) (p : Nat) (g : Port → Port) : (d.upPort p g).shad = d.shad := by unfold Dev.upPort; split <;> rfl
@[simp] theorem Dev.upPort_frm (d : Dev) (p : Nat) (g : Port → Port) : (d.upPort p g).frm = d.frm := by unfold Dev.upPort; split <;> rfl
@[simp] theorem Dev.upPort_stg (d : Dev) (p : Nat) (g : Port → Port) : (d.upPort p g).stg = d.stg := by unfold Dev.upPort; split <;> rfl
@[simp] theorem Dev.upPort_stage (d : Dev) (p : Nat) (g : Port → Port) : (d.upPort p g).stage = d.stage := by unfold Dev.upPort; split <;> rfl
@[simp] theorem Dev.upPort_stgCopy (d : Dev) (p : Nat) (g : Port → Port) : (d.upPort p g).stgCopy = d.stgCopy := by unfold Dev.upPort; split <;> rfl
@[simp] theorem Dev.upPort_run (d : Dev) (p : Nat) (g : Port → Port) : (d.upPort p g).run = d.run := by unfold Dev.upPort; split <;> rfl
@[simp] theorem Dev.upPort_waits (d : Dev) (p : Nat) (g : Port → Port) : (d.upPort p g).waits = d.waits := by unfold Dev.upPort; split <;> rfl
@[simp] theorem Dev.upPort_time (d : Dev) (p : Nat) (g : Port → Port) : (d.upPort p g).time = d.time := by unfold Dev.upPort; split <;> rfl
@[simp] theorem Dev.upPort_frame (d : Dev) (p : Nat) (g : Port → Port) : (d.upPort p g).frame = d.frame := by unfold Dev.upPort; split <;> rfl
@[simp] theorem Dev.upPort_flt (d : Dev) (p : Nat) (g : Port → Port) : (d.upPort p g).flt = d.flt := by unfold Dev.upPort; split <;> rfl
@[simp] theorem Dev.upPort_adcMap (d : Dev) (p : Nat) (g : Port → Port) : (d.upPort p g).adcMap = d.adcMap := by unfold Dev.upPort; split <;> rfl
@[simp] theorem Dev.upPort_ainMap (d : Dev) (p : Nat) (g : Port → Port) : (d.upPort p g).ainMap = d.ainMap := by unfold Dev.upPort; split <;> rfl
@[simp] theorem Dev.upPort_rowMap (d : Dev) (p : Nat) (g : Port → Port) : (d.upPort p g).rowMap = d.rowMap := by unfold Dev.upPort; split <;> rfl
@[simp] theorem Dev.upPort_lanes (d : Dev) (p : Nat) (g : Port → Port) : (d.upPort p g).lanes = d.lanes := by unfold Dev.upPort; split <;> rfl
@[simp] theorem Dev.upPort_lines (d : Dev) (p : Nat) (g : Port → Port) : (d.upPort p g).lines = d.lines := by unfold Dev.upPort; split <;> rfl
@[simp] theorem Dev.upPort_buses (d : Dev) (p : Nat) (g : Port → Port) : (d.upPort p g).buses = d.buses := by unfold Dev.upPort; split <;> rfl
@[simp] theorem Dev.upPort_strands (d : Dev) (p : Nat) (g : Port → Port) : (d.upPort p g).strands = d.strands := by unfold Dev.upPort; split <;> rfl
@[simp] theorem Dev.upPort_beads (d : Dev) (p : Nat) (g : Port → Port) : (d.upPort p g).beads = d.beads := by unfold Dev.upPort; split <;> rfl
@[simp] theorem Dev.upPort_strings (d : Dev) (p : Nat) (g : Port → Port) : (d.upPort p g).strings = d.strings := by unfold Dev.upPort; split <;> rfl
@[simp] theorem Dev.upPort_edge (d : Dev) (p : Nat) (g : Port → Port) : (d.upPort p g).edge = d.edge := by unfold Dev.upPort; split <;> rfl
@[simp] theorem Dev.upPort_acq (d : Dev) (p : Nat) (g : Port → Port) : (d.upPort p g).acq = d.acq := by unfold Dev.upPort; split <;> rfl
@[simp] theorem Dev.upPort_twn (d : Dev) (p : Nat) (g : Port → Port) : (d.upPort p g).twn = d.twn := by unfold Dev.upPort; split <;> rfl
@[simp] theorem Dev.upPort_stk (d : Dev) (p : Nat) (g : Port → Port) : (d.upPort p g).stk = d.stk := by unfold Dev.upPort; split <;> rfl
@[simp] theorem Dev.upPort_thm (d : Dev) (p : Nat) (g : Port → Port) : (d.upPort p g).thm = d.thm := by unfold Dev.upPort; split <;> rfl
@[simp] theorem Dev.upPort_lpe (d : Dev) (p : Nat) (g : Port → Port) : (d.upPort p g).lpe = d.lpe := by unfold Dev.upPort; split <;> rfl
@[simp] theorem Dev.upPort_lastServed (d : Dev) (p : Nat) (g : Port → Port) : (d.upPort p g).lastServed = d.lastServed := by unfold Dev.upPort; split <;> rfl
@[simp] theorem Dev.upPort_frozen (d : Dev) (p : Nat) (g : Port → Port) : (d.upPort p g).frozen = d.frozen := by unfold Dev.upPort; split <;> rfl
@[simp] theorem Dev.upPort_aon (d : Dev) (p : Nat) (g : Port → Port) : (d.upPort p g).aon = d.aon := by unfold Dev.upPort; split <;> rfl
@[simp] theorem Dev.upPort_nv (d : Dev) (p : Nat) (g : Port → Port) : (d.upPort p g).nv = d.nv := by unfold Dev.upPort; split <;> rfl
@[simp] theorem Dev.upPort_sec (d : Dev) (p : Nat) (g : Port → Port) : (d.upPort p g).sec = d.sec := by unfold Dev.upPort; split <;> rfl
@[simp] theorem Dev.upPort_olg (d : Dev) (p : Nat) (g : Port → Port) : (d.upPort p g).olg = d.olg := by unfold Dev.upPort; split <;> rfl
@[simp] theorem Dev.upPort_loupe (d : Dev) (p : Nat) (g : Port → Port) : (d.upPort p g).loupe = d.loupe := by unfold Dev.upPort; split <;> rfl
@[simp] theorem Dev.upPort_tx (d : Dev) (p : Nat) (g : Port → Port) : (d.upPort p g).tx = d.tx := by unfold Dev.upPort; split <;> rfl
@[simp] theorem Dev.upPort_os (d : Dev) (p : Nat) (g : Port → Port) : (d.upPort p g).os = d.os := by unfold Dev.upPort; split <;> rfl
@[simp] theorem Dev.upPort_yieldDue (d : Dev) (p : Nat) (g : Port → Port) : (d.upPort p g).yieldDue = d.yieldDue := by unfold Dev.upPort; split <;> rfl
@[simp] theorem Dev.upPort_free (d : Dev) (p : Nat) (g : Port → Port) : (d.upPort p g).free = d.free := by unfold Dev.upPort; split <;> rfl
@[simp] theorem Dev.upPort_rd (d : Dev) (p : Nat) (g : Port → Port) (k : Fld) : (d.upPort p g).rd k = d.rd k := by unfold Dev.upPort; split <;> rfl

@[simp] theorem Dev.upPort_port (d : Dev) (p : Nat) (g : Port → Port) : (d.upPort p g).port p = g (d.port p) := by
  unfold Dev.upPort Dev.port
  split <;> simp_all

/-- The other port is left alone: one of them is port 0 and the other is not. -/
theorem Dev.upPort_port_ne (d : Dev) {p q : Nat} (g : Port → Port) (h : (p = 0) ≠ (q = 0)) : (d.upPort p g).port q = d.port q := by
  unfold Dev.upPort Dev.port
  split <;> split <;> simp_all

/-! ## Register fields -/

/-- A field reads the value written, cut to its width. -/
@[simp] theorem Dev.wr_rd (d : Dev) (f : Fld) (v : Nat) : (d.wr f v).rd f = v % 2 ^ f.width := by
  unfold Dev.rd Dev.wr
  rw [tget_tput_self, Nat.mod_mod]

/-- Another field reads as before. -/
theorem Dev.wr_rd_ne (d : Dev) {f k : Fld} (v : Nat) (h : k.key ≠ f.key) : (d.wr f v).rd k = d.rd k :=
  congrArg (· % 2 ^ k.width) (tget_tput_ne _ _ _ _ h)

/-- A field reads a value of its width. -/
theorem Dev.rd_lt (d : Dev) (f : Fld) : d.rd f < 2 ^ f.width := Nat.mod_lt _ (Nat.two_pow_pos _)

theorem Dev.addSat_rd_ne (d : Dev) {f k : Fld} (n : Nat) (h : k.key ≠ f.key) : (d.addSat f n).rd k = d.rd k := Dev.wr_rd_ne _ _ h
theorem Dev.inc_rd_ne (d : Dev) {f k : Fld} (h : k.key ≠ f.key) : (d.inc f).rd k = d.rd k := Dev.wr_rd_ne _ _ h
theorem Dev.setBit_rd_ne (d : Dev) {f k : Fld} (i : Nat) (h : k.key ≠ f.key) : (d.setBit f i).rd k = d.rd k := Dev.wr_rd_ne _ _ h
theorem Dev.clrBit_rd_ne (d : Dev) {f k : Fld} (i : Nat) (h : k.key ≠ f.key) : (d.clrBit f i).rd k = d.rd k := Dev.wr_rd_ne _ _ h
theorem Dev.wrB_rd_ne (d : Dev) {f k : Fld} (b : Bool) (h : k.key ≠ f.key) : (d.wrB f b).rd k = d.rd k := Dev.wr_rd_ne _ _ h

/-! ## A command in progress -/

@[simp] theorem Wk.up_d (w : Wk) (f : Dev → Dev) : (w.up f).d = f w.d := rfl
@[simp] theorem Wk.up_v (w : Wk) (f : Dev → Dev) : (w.up f).v = w.v := rfl
@[simp] theorem Wk.up_ms (w : Wk) (f : Dev → Dev) : (w.up f).ms = w.ms := rfl
@[simp] theorem Wk.up_cyc (w : Wk) (f : Dev → Dev) : (w.up f).cyc = w.cyc := rfl
@[simp] theorem Wk.on_true (w : Wk) (f : Wk → Wk) : w.on true f = f w := rfl
@[simp] theorem Wk.on_false (w : Wk) (f : Wk → Wk) : w.on false f = w := rfl
@[simp] theorem Wk.each_nil {α : Type} (w : Wk) (f : α → Wk → Wk) : w.each [] f = w := rfl
@[simp] theorem Wk.raise_d (w : Wk) (fs kind inst : Nat) : (w.raise fs kind inst).d = w.d := rfl
@[simp] theorem Wk.raise_v (w : Wk) (fs kind inst : Nat) : (w.raise fs kind inst).v = w.v := rfl
@[simp] theorem Wk.raiseAt_d (w : Wk) (fs kind inst t : Nat) : (w.raiseAt fs kind inst t).d = w.d := rfl
@[simp] theorem Wk.raiseAt_v (w : Wk) (fs kind inst t : Nat) : (w.raiseAt fs kind inst t).v = w.v := rfl
@[simp] theorem Wk.nextCycle_d (w : Wk) : w.nextCycle.d = w.d := rfl

end Sys2Proof.Machine
end

