-- ==== Sys2Proof/Laws/Collect.lean ====
section
/-! SUPPORT. What the reactions of the fault collector (R382 to R394) leave alone, said once: `Calm d d'` holds between the
device a command's work leaves and the device after the collector has taken its messages. -/
namespace Sys2Proof.Machine

/-- What of a port the collector leaves alone: all but its replies, notifications, and the locket buffers that replies use. -/
structure PortCalm (q q' : Port) : Prop where
  rings : q'.rings = q.rings
  netq : q'.netq = q.netq
  inb : q'.inb = q.inb
  send : q'.send = q.send
  mbx : q'.mbx = q.mbx
  kaLast : q'.kaLast = q.kaLast
  half : q'.half = q.half
  mmWin : q'.mmWin = q.mmWin
  wide : q'.wide = q.wide
  guarded : q'.guarded = q.guarded
  frag : q'.frag = q.frag
  netWait : q'.netWait = q.netWait
  presEnd : q'.presEnd = q.presEnd
  io : q'.io = q.io
  replies : ∀ b, b ∈ q.replies → b ∈ q'.replies

/-- What of the device the collector leaves alone. -/
structure Calm (d d' : Dev) : Prop where
  rd : ∀ f : Fld, f.quiet = true → d'.rd f = d.rd f
  time : d'.time = d.time
  k : d'.frame.k = d.frame.k
  origin : d'.frame.origin = d.frame.origin
  base : d'.frame.base = d.frame.base
  planned : d'.frame.planned = d.frame.planned
  lanes : d'.lanes = d.lanes
  acq : d'.acq = d.acq
  thm : d'.thm = d.thm
  lpe : d'.lpe = d.lpe
  aon : d'.aon = d.aon
  nv : d'.nv = d.nv
  sec : d'.sec = d.sec
  olg : d'.olg = d.olg
  tx : d'.tx = d.tx
  frozen : d'.frozen = d.frozen
  shad : d'.shad = d.shad
  mail : d'.stk.mailq = d.stk.mailq
  adcMap : d'.adcMap = d.adcMap
  ainMap : d'.ainMap = d.ainMap
  rowMap : d'.rowMap = d.rowMap
  buses : d'.buses = d.buses
  strands : d'.strands = d.strands
  port : ∀ p, PortCalm (d.port p) (d'.port p)

theorem PortCalm.refl (q : Port) : PortCalm q q := by constructor <;> simp
theorem PortCalm.trans {a b c : Port} (h : PortCalm a b) (g : PortCalm b c) : PortCalm a c := by
  constructor
  case replies => exact fun x hx => g.replies x (h.replies x hx)
  all_goals first
    | exact g.rings.trans h.rings | exact g.netq.trans h.netq | exact g.inb.trans h.inb | exact g.send.trans h.send | exact g.mbx.trans h.mbx
    | exact g.kaLast.trans h.kaLast | exact g.half.trans h.half | exact g.mmWin.trans h.mmWin | exact g.wide.trans h.wide
    | exact g.guarded.trans h.guarded | exact g.frag.trans h.frag | exact g.netWait.trans h.netWait | exact g.presEnd.trans h.presEnd | exact g.io.trans h.io

theorem Calm.refl (d : Dev) : Calm d d := by
  constructor
  case port => exact fun p => PortCalm.refl _
  all_goals simp

theorem Calm.trans {a b c : Dev} (h : Calm a b) (g : Calm b c) : Calm a c := by
  constructor
  case rd => exact fun f q => (g.rd f q).trans (h.rd f q)
  case port => exact fun p => (h.port p).trans (g.port p)
  case time => exact g.time.trans h.time
  case k => exact g.k.trans h.k
  case origin => exact g.origin.trans h.origin
  case base => exact g.base.trans h.base
  case planned => exact g.planned.trans h.planned
  case lanes => exact g.lanes.trans h.lanes
  case acq => exact g.acq.trans h.acq
  case thm => exact g.thm.trans h.thm
  case lpe => exact g.lpe.trans h.lpe
  case aon => exact g.aon.trans h.aon
  case nv => exact g.nv.trans h.nv
  case sec => exact g.sec.trans h.sec
  case olg => exact g.olg.trans h.olg
  case tx => exact g.tx.trans h.tx
  case frozen => exact g.frozen.trans h.frozen
  case shad => exact g.shad.trans h.shad
  case mail => exact g.mail.trans h.mail
  case adcMap => exact g.adcMap.trans h.adcMap
  case ainMap => exact g.ainMap.trans h.ainMap
  case rowMap => exact g.rowMap.trans h.rowMap
  case buses => exact g.buses.trans h.buses
  case strands => exact g.strands.trans h.strands

/-- A loop of calm steps is calm. -/
theorem Calm.foldl {β : Type} (f : Dev → β → Dev) (h : ∀ d b, Calm d (f d b)) (l : List β) (d : Dev) : Calm d (l.foldl f d) := by
  induction l generalizing d with
  | nil => exact Calm.refl d
  | cons b r ih => exact (h d b).trans (ih _)

theorem Calm.ite {c : Prop} [Decidable c] {d a b : Dev} (ha : Calm d a) (hb : Calm d b) : Calm d (if c then a else b) := by
  split <;> assumption

/-- The device without the components that the collector may write, its registers apart. -/
def Dev.still (d : Dev) : Dev :=
  { d with
    frm := [], stg := [], stage := none, stgCopy := none, run := .boot, waits := [], flt := {}, beads := [], edge := {}, twn := {}, stk := { mailq := d.stk.mailq },
    frame := { d.frame with safeRecs := 0, autorun := false }, lines := [], loupe := {}, os := [], yieldDue := false, free := 0, lastServed := 0, strings := [] }

/-- A device that differs only in those components. -/
theorem Calm.of_still {d d' : Dev} (h : d'.still = d.still) : Calm d d' := by
  have r : ∀ {β : Type} (f : Dev → β), f d'.still = f d.still := fun f => congrArg f h
  refine ⟨fun f _ => ?_, r (·.time), r (·.frame.k), r (·.frame.origin), r (·.frame.base), r (·.frame.planned), r (·.lanes), r (·.acq), r (·.thm), r (·.lpe), r (·.aon),
    r (·.nv), r (·.sec), r (·.olg), r (·.tx), r (·.frozen), r (·.shad), r (·.stk.mailq), r (·.adcMap), r (·.ainMap), r (·.rowMap), r (·.buses), r (·.strands), fun p => ?_⟩
  · have hr : d'.regs = d.regs := r (·.regs)
    simp only [Dev.rd, hr]
  · have ha : d'.hpa = d.hpa := r (·.hpa)
    have hb : d'.hpb = d.hpb := r (·.hpb)
    simp only [Dev.port, ha, hb]
    exact PortCalm.refl _

/-- A write of a field outside the quiet ones. -/
theorem Calm.wr (d : Dev) {g : Fld} (v : Nat) (h : ∀ f : Fld, f.quiet = true → f.key ≠ g.key) : Calm d (d.wr g v) := by
  refine ⟨fun f q => Dev.wr_rd_ne d v (h f q), ?_, ?_, ?_, ?_, ?_, ?_, ?_, ?_, ?_, ?_, ?_, ?_, ?_, ?_, ?_, ?_, ?_, ?_, ?_, ?_, ?_, ?_, fun p => PortCalm.refl _⟩ <;> rfl

/-- A field from 0x60000 on. -/
theorem Fld.loud_high {g : Fld} (h : 0x60000 ≤ g.addr) (f : Fld) (q : f.quiet = true) : f.key ≠ g.key := by
  simp only [Fld.quiet, Bool.and_eq_true, Bool.or_eq_true, decide_eq_true_eq] at q
  simp only [Fld.key]
  omega

/-- A field of the fault page. -/
theorem Fld.loud_flt {g : Fld} (h : 0x9000 ≤ g.addr) (h' : g.addr < 0xA000) (hl : g.lo < 32) (f : Fld) (q : f.quiet = true) : f.key ≠ g.key := by
  simp only [Fld.quiet, Bool.and_eq_true, Bool.or_eq_true, decide_eq_true_eq] at q
  simp only [Fld.key]
  omega

theorem Fld.loud_failed (b : Nat) (hb : b < 128) (f : Fld) (q : f.quiet = true) : f.key ≠ (F.BDT_STATE_FAILED b).key := by
  simp only [Fld.quiet, Bool.and_eq_true, Bool.or_eq_true, decide_eq_true_eq] at q
  simp only [Fld.key, F.BDT_STATE_FAILED]
  omega

theorem Fld.loud_pstate (f : Fld) (q : f.quiet = true) : f.key ≠ F.CLK_STAT_PSTATE.key := by
  intro e
  simp [Fld.quiet, e] at q
  simp only [Fld.key, F.CLK_STAT_PSTATE] at e
  omega

theorem Fld.loud_hbkPend (f : Fld) (q : f.quiet = true) : f.key ≠ F.TWN_STAT_HBK_PEND.key := by
  intro e
  simp [Fld.quiet, e] at q
  simp only [Fld.key, F.TWN_STAT_HBK_PEND] at e
  omega

theorem Fld.loud_hbkSeq (f : Fld) (q : f.quiet = true) : f.key ≠ F.TWN_HBK_HBK_SEQ.key := by
  intro e
  simp [Fld.quiet, e] at q
  simp only [Fld.key, F.TWN_HBK_HBK_SEQ] at e
  omega

/-- A change of one port that keeps what a port keeps. -/
theorem Calm.upPort (d : Dev) (p : Nat) {g : Port → Port} (h : ∀ q, PortCalm q (g q)) : Calm d (d.upPort p g) := by
  unfold Dev.upPort
  split
  · refine ⟨fun f _ => rfl, ?_, ?_, ?_, ?_, ?_, ?_, ?_, ?_, ?_, ?_, ?_, ?_, ?_, ?_, ?_, ?_, ?_, ?_, ?_, ?_, ?_, ?_, fun q => ?_⟩ <;> try rfl
    unfold Dev.port
    split
    · exact h _
    · exact PortCalm.refl _
  · refine ⟨fun f _ => rfl, ?_, ?_, ?_, ?_, ?_, ?_, ?_, ?_, ?_, ?_, ?_, ?_, ?_, ?_, ?_, ?_, ?_, ?_, ?_, ?_, ?_, ?_, fun q => ?_⟩ <;> try rfl
    unfold Dev.port
    split
    · exact PortCalm.refl _
    · exact h _

theorem PortCalm.notes (q : Port) (n : Tab NoteQ) : PortCalm q { q with notes := n } := by constructor <;> simp

theorem Calm.noteTo (d : Dev) (p m t : Nat) (x : Note) : Calm d (d.noteTo p m t x) :=
  Calm.ite (Calm.upPort d p fun q => PortCalm.notes q _) (Calm.refl d)

theorem Calm.notify (d : Dev) (t : Nat) (ws : List Nat) : Calm d (d.notify t ws) :=
  (((Calm.noteTo d 0 0 t _).trans (Calm.noteTo _ 0 1 t _)).trans (Calm.noteTo _ 1 0 t _)).trans (Calm.noteTo _ 1 1 t _)

theorem Calm.reply (d : Dev) (h : Hdr) (op : Nat) (st : Status) (det : Nat) (ws : List Word) : Calm d (d.reply h op st det ws) := by
  unfold Dev.reply
  split
  · exact Calm.refl d
  · refine Calm.upPort d h.port fun q => ?_
    split
    · constructor <;> simp
    · constructor <;> simp +contextual

theorem Calm.setWaits (d : Dev) (l : List Wait) : Calm d { d with waits := l } := Calm.of_still rfl
theorem Calm.setRunField (d : Dev) (r : RunState) : Calm d { d with run := r } := Calm.of_still rfl
theorem Calm.setEdge (d : Dev) (e : EdgeSt) : Calm d { d with edge := e } := Calm.of_still rfl
theorem Calm.setEdgeFrm (d : Dev) (e : EdgeSt) (l : Tab (List (Nat × BitVec 32))) : Calm d { d with edge := e, frm := l } := Calm.of_still rfl
theorem Calm.setEdgeRecs (d : Dev) (e : EdgeSt) (n : Nat) : Calm d { d with edge := e, frame := { d.frame with safeRecs := n } } := Calm.of_still rfl
theorem Calm.setOs (d : Dev) (t : Tab (List Byte)) : Calm d { d with os := t } := Calm.of_still rfl
theorem Calm.setLines (d : Dev) (l : Tab LineSt) (t : Tab (List Byte)) : Calm d { d with lines := l, os := t } := Calm.of_still rfl
theorem Calm.setLoupe (d : Dev) (x : LoupeSt) : Calm d { d with loupe := x } := Calm.of_still rfl
theorem Calm.setFlt (d : Dev) (x : FltSt) : Calm d { d with flt := x } := Calm.of_still rfl
theorem Calm.setBeads (d : Dev) (x : Tab BeadSt) : Calm d { d with beads := x } := Calm.of_still rfl
theorem Calm.setTwn (d : Dev) (x : TwnSt) : Calm d { d with twn := x } := Calm.of_still rfl
theorem Calm.setRcl (d : Dev) (x : Option Nat) : Calm d { d with stk := { d.stk with rcl := x } } := Calm.of_still rfl
theorem Calm.closeSet (d : Dev) : Calm d d.closeSet := Calm.of_still rfl
theorem Calm.setFrmTwn (d : Dev) (l : Tab (List (Nat × BitVec 32))) (t : TwnSt) : Calm d { d with frm := l, twn := t } := Calm.of_still rfl
theorem Calm.noteRun (d o : Dev) : Calm d (d.noteRun o) := Calm.ite (Calm.refl d) (Calm.notify d _ _)
theorem Calm.setYield (d : Dev) (b : Bool) : Calm d { d with yieldDue := b } := Calm.of_still rfl

theorem Calm.settle (d : Dev) (sel : Wait → Bool) (rep : Wait → Status × Nat × List Nat) : Calm d (d.settle sel rep) :=
  (Calm.setWaits d _).trans (Calm.foldl (fun e x => e.reply x.hdr x.op (rep x).1 (rep x).2.1 ((rep x).2.2.map (BitVec.ofNat 32 ·))) (fun e _ => Calm.reply e _ _ _ _ _) _ _)

theorem Calm.abandon (d : Dev) (l : List WaitKind) (c : Nat) : Calm d (d.abandon l c) := Calm.settle d _ _

theorem Calm.setRun (d : Dev) (r : RunState) : Calm d (d.setRun r) := by
  unfold Dev.setRun
  split
  · exact Calm.refl d
  · exact (Calm.setRunField d r).trans ((Calm.wr _ _ Fld.loud_pstate).trans (Calm.noteRun _ _))

theorem Calm.high (d : Dev) {g : Fld} (v : Nat) (h : 0x60000 ≤ g.addr) : Calm d (d.wr g v) := Calm.wr d v (Fld.loud_high h)

theorem Calm.flt (d : Dev) {g : Fld} (v : Nat) (h : 0x9000 ≤ g.addr) (h' : g.addr < 0xA000) (hl : g.lo < 32) : Calm d (d.wr g v) :=
  Calm.wr d v (Fld.loud_flt h h' hl)

theorem Calm.clearTbs (d : Dev) : Calm d d.clearTbs :=
  Calm.foldl _ (fun e t => ((Calm.high e _ (by simp [F.TB_CTRL_EN])).trans (Calm.high _ _ (by simp only [F.TB_STAT_RUN]; omega))).trans (Calm.setEdge _ _)) _ _

theorem Calm.clearChs (d : Dev) : Calm d d.clearChs :=
  Calm.foldl _ (fun e t => (Calm.high e _ (by simp only [F.CH_CTRL_EN]; omega)).trans (Calm.setEdge _ _)) _ _

theorem Calm.clearEnables (d : Dev) : Calm d d.clearEnables := ((Calm.clearTbs d).trans (Calm.clearChs _)).trans (Calm.setEdgeFrm _ _ _)

theorem Calm.pinsSafe (d : Dev) : Calm d d.pinsSafe := Calm.foldl _ (fun e _ => Calm.setEdge e _) _ _

theorem Calm.sendNow (d : Dev) (n : Nat) (b : List Byte) : Calm d (d.sendNow n b) := by
  unfold Dev.sendNow Dev.setLine
  exact Calm.setLines d _ _

theorem Calm.sendQs (d : Dev) : Calm d d.sendQs := Calm.ite (Calm.foldl _ (fun e n => Calm.sendNow e n _) _ _) (Calm.refl d)

theorem Calm.toSafe (d : Dev) : Calm d d.toSafe :=
  ((Calm.clearEnables _).trans <| (Calm.high _ _ (by simp [F.EDG_STAT_QUIESCED])).trans <| (Calm.high _ _ (by simp [F.EDG_STAT_SAFE])).trans <|
    (Calm.pinsSafe _).trans (Calm.sendQs _)).trans (Calm.setEdgeRecs _ _ _)

theorem Calm.enterSafe (d : Dev) (c : Nat) : Calm d (d.enterSafe c) :=
  (Calm.abandon d _ _).trans (Calm.ite (Calm.refl _) (Calm.toSafe _))

theorem Calm.trip (d : Dev) : Calm d d.trip := by
  unfold Dev.trip
  exact ((Calm.enterSafe d 3).trans (Calm.flt _ _ (by simp [F.FLT_STAT_TRIPPED]) (by simp [F.FLT_STAT_TRIPPED]) (by simp [F.FLT_STAT_TRIPPED]))).trans (Calm.setRun _ _)

theorem Calm.lock (d : Dev) : Calm d d.lock := by
  unfold Dev.lock
  refine Calm.trans ?_ (Calm.setRun _ _)
  refine Calm.trans ?_ (Calm.ite (Calm.closeSet _) (Calm.refl _))
  refine Calm.trans ?_ (Calm.abandon _ _ _)
  refine Calm.trans ?_ (Calm.ite (Calm.setRcl _ _) (Calm.refl _))
  refine Calm.trans ?_ (Calm.ite ((Calm.setTwn _ _).trans ((Calm.wr _ _ Fld.loud_hbkPend).trans (Calm.wr _ _ Fld.loud_hbkSeq))) (Calm.refl _))
  refine Calm.trans ?_ (Calm.ite (Calm.high _ _ (by simp [F.LPE_COEF_SWAP_PEND])) (Calm.refl _))
  refine Calm.trans ?_ (Calm.high _ _ (by simp [F.GSV_DEN_LVL]))
  refine Calm.trans ?_ (Calm.setFrmTwn _ _ _)
  refine Calm.trans ?_ (Calm.high _ _ (by simp [F.GSV_DEN_EN]))
  refine Calm.trans ?_ (Calm.high _ _ (by simp [F.LPE_STAT_RUNNING]))
  refine Calm.trans ?_ (Calm.high _ _ (by simp [F.LPE_CTRL_RUN]))
  exact (Calm.enterSafe d 3).trans (Calm.flt _ _ (by simp [F.FLT_STAT_TRIPPED]) (by simp [F.FLT_STAT_TRIPPED]) (by simp [F.FLT_STAT_TRIPPED]))

/-! ## The collector's own work -/

theorem Calm.classify (d : Dev) (m : Msg) : Calm d (d.classify m).1 := by
  unfold Dev.classify
  simp only
  split
  · exact Calm.refl d
  · refine (Calm.setFlt d _).trans ((Calm.flt _ _ ?_ ?_ ?_).trans (Calm.flt _ _ ?_ ?_ ?_)) <;> simp [F.FLT_CNT_WCNT, F.FLT_CNT_WCLASS] <;> omega

theorem Calm.announce (d : Dev) (m : Msg) : Calm d (d.announce m) := by
  unfold Dev.announce
  simp only
  have one (e : Dev) (p b lim : Nat) (x : Note) : Calm e (if lim ≤ m.sev then e.noteTo p b 2 x else e) :=
    Calm.ite (Calm.noteTo e p b 2 x) (Calm.refl e)
  refine Calm.trans ?_ ((one _ 0 0 _ _).trans <| (one _ 0 1 _ _).trans <| (one _ 1 0 _ _).trans (one _ 1 1 _ _))
  refine Calm.trans ?_ (Calm.ite (Calm.flt _ _ (by simp only [F.FLT_PEND_B]; omega) (by simp only [F.FLT_PEND_B]; omega) (by simp [F.FLT_PEND_B])) (Calm.refl _))
  refine Calm.trans ?_ (Calm.ite (Calm.flt _ _ (by simp only [F.FLT_PEND_A]; omega) (by simp only [F.FLT_PEND_A]; omega) (by simp [F.FLT_PEND_A])) (Calm.refl _))
  refine Calm.trans ?_ (Calm.ite (Calm.refl _) (Calm.ite (Calm.setFlt _ _) (Calm.flt _ _ (by simp [F.FLT_STAT_LOST]) (by simp [F.FLT_STAT_LOST]) (by simp [F.FLT_STAT_LOST]))))
  exact Calm.ite (Calm.flt _ _ (by simp [F.FLT_STAT_CLASSMAX]) (by simp [F.FLT_STAT_CLASSMAX]) (by simp [F.FLT_STAT_CLASSMAX])) (Calm.refl _)

theorem Calm.report (d : Dev) (m : Msg) : Calm d (d.report m) :=
  ((Calm.flt _ _ (by simp only [F.FLT_CNT]; omega) (by simp only [F.FLT_CNT]; omega) (by simp [F.FLT_CNT])).trans (Calm.setFlt _ _)).trans (Calm.announce _ m)

theorem Msg.bead_lt {m : Msg} {b : Nat} (h : m.bead = some b) : b < 128 := by
  unfold Msg.bead at h
  split at h
  · cases h
  · split at h
    · simp only [Option.some.injEq] at h; omega
    · split at h
      · simp only [Option.some.injEq] at h; omega
      · cases h

theorem Calm.beadFails (d : Dev) (b : Nat) (hb : b < 128) : Calm d (d.beadFails b) := by
  unfold Dev.beadFails
  simp only
  split
  · exact Calm.ite (Calm.setBeads _ _) (Calm.wr _ _ (Fld.loud_failed b hb))
  · exact Calm.refl d

theorem Calm.owner (d : Dev) (m : Msg) : Calm d (d.owner m) := by
  unfold Dev.owner
  split
  · split
    · rename_i b hb
      exact Calm.beadFails d b (Msg.bead_lt hb)
    · exact Calm.refl d
  · exact Calm.refl d

theorem Calm.noteYield (d : Dev) (m : Msg) : Calm d (d.noteYield m) := by
  unfold Dev.noteYield
  exact Calm.ite (Calm.setYield d _) (Calm.refl d)

theorem Calm.noteChanges (d old : Dev) : Calm d (d.noteChanges old) := by
  unfold Dev.noteChanges
  simp only
  exact (Calm.ite (Calm.refl _) (Calm.notify _ _ _)).trans (Calm.ite (Calm.refl _) (Calm.notify _ _ _))

/-- Classifying a list of messages. -/
theorem Calm.classifyAll (d : Dev) (ms : List Msg) : Calm d (classifyAll d ms).1 := by
  have h : ∀ (ms : List Msg) (a : Dev × List Msg), Calm a.1
      (ms.foldl (fun (a : Dev × List Msg) m => ((a.1.classify m).1, a.2 ++ [(a.1.classify m).2])) a).1 := by
    intro ms
    induction ms with
    | nil => exact fun a => Calm.refl _
    | cons m r ih => exact fun a => (Calm.classify a.1 m).trans (ih ((a.1.classify m).1, a.2 ++ [(a.1.classify m).2]))
  exact h ms (d, [])

theorem Calm.owners (d : Dev) (r : List Msg) : Calm d (d.owners r) :=
  (Calm.foldl Dev.owner Calm.owner r d).trans (Calm.foldl Dev.noteYield Calm.noteYield r _)

theorem Calm.loupeTake (d : Dev) (n : Nat) (l : List (BitVec 64)) : Calm d (d.loupeTake n l) := Calm.ite (Calm.setLoupe d _) (Calm.refl d)

theorem Calm.reactTo (d : Dev) (r : List Msg) : Calm d (d.reactTo r) := Calm.ite (Calm.lock d) (Calm.ite (Calm.trip d) (Calm.refl d))

/-- One collector cycle. -/
theorem Calm.cycle (v : Vault) (d : Dev) (ms : List Msg) : Calm d (collectCycle v d ms).2 :=
  (Calm.classifyAll d ms).trans <| (Calm.foldl Dev.report Calm.report _ _).trans <| (Calm.loupeTake _ _ _).trans <| (Calm.owners _ _).trans (Calm.reactTo _ _)

/-- All of the collector. -/
theorem Calm.collectAll (n c : Nat) (v : Vault) (d : Dev) (ms : List Msg) : Calm d (collectAll n c v d ms).2 := by
  induction n generalizing c v d ms with
  | zero => exact Calm.refl d
  | succ n ih =>
    unfold Machine.collectAll
    split
    · exact Calm.refl d
    · split
      · exact ih _ _ _ _
      · exact (Calm.cycle v d _).trans (ih _ _ _ _)

/-! ## The protected part -/

/-- The collector never clears the lockout latch, and changes nothing else of the protected part but the first-fault pair
(R391, R392). -/
structure VaultStep (v v' : Vault) : Prop where
  lockout : v.lockout = true → v'.lockout = true
  prev : v'.prevLockout = v.prevLockout
  otp : v'.otp = v.otp
  fused : v'.fused = v.fused
  first : v.first.isSome = true → v'.first = v.first
  comp : v.comp.isSome = true → v.first.isSome = true → v'.comp = v.comp

theorem VaultStep.refl (v : Vault) : VaultStep v v := by constructor <;> simp

theorem VaultStep.trans {a b c : Vault} (h : VaultStep a b) (g : VaultStep b c) : VaultStep a c := by
  refine ⟨fun x => g.lockout (h.lockout x), g.prev.trans h.prev, g.otp.trans h.otp, g.fused.trans h.fused, fun x => ?_, fun x y => ?_⟩
  · rw [g.first (by rw [h.first x]; exact x), h.first x]
  · rw [g.comp (by rw [h.comp x y]; exact x) (by rw [h.first y]; exact y), h.comp x y]

theorem VaultStep.firstFault (v : Vault) (l : List Msg) (ff lg : Nat) : VaultStep v (v.firstFault l ff lg) := by
  unfold Vault.firstFault
  split
  · rename_i h
    split
    · exact VaultStep.refl v
    · constructor <;> simp [h]
  · rename_i h g
    constructor <;> simp [g]
  · exact VaultStep.refl v

theorem VaultStep.latch (v : Vault) (b : Bool) : VaultStep v { v with lockout := v.lockout || b } := by
  constructor <;> simp +contextual

theorem VaultStep.cycle (v : Vault) (d : Dev) (ms : List Msg) : VaultStep v (collectCycle v d ms).1 :=
  (VaultStep.firstFault v _ _ _).trans (VaultStep.latch _ _)

theorem VaultStep.collectAll (n c : Nat) (v : Vault) (d : Dev) (ms : List Msg) : VaultStep v (collectAll n c v d ms).1 := by
  induction n generalizing c v d ms with
  | zero => exact VaultStep.refl v
  | succ n ih =>
    unfold Machine.collectAll
    split
    · exact VaultStep.refl v
    · split
      · exact ih _ _ _ _
      · exact (VaultStep.cycle v d _).trans (ih _ _ _ _)

/-! ## A command's work as a whole -/

/-- A command always answers a next state; the queue is as it was. -/
theorem State.run_next (s : State) (f : Wk → Wk) : s.run f = .next (s.settleWk s.vault (f s.wk)) := rfl
theorem State.runV_next (s : State) (f : Wk → Wk) :
    s.runV f = .next (s.settleWk { (f s.wk).v with lockout := s.vault.lockout } (f s.wk)) := rfl

@[simp] theorem State.settleWk_pending (s : State) (v : Vault) (w : Wk) : (s.settleWk v w).pending = s.pending := rfl

/-- The collector's part of a command, as the two relations see it. -/
theorem State.settleWk_calm (s : State) (v : Vault) (w : Wk) : Calm w.d (s.settleWk v w).dev :=
  (Calm.collectAll _ _ _ _ _).trans (Calm.noteChanges _ _)
theorem State.settleWk_vault (s : State) (v : Vault) (w : Wk) : VaultStep v (s.settleWk v w).vault := VaultStep.collectAll _ _ _ _ _

/-- With no message the protected part is as it was, and the device is as the work left it, but for the notifications of
R424. -/
theorem State.settleWk_quiet (s : State) (v : Vault) (w : Wk) (h : w.ms = []) :
    s.settleWk v w = { s with vault := v, dev := w.d.noteChanges s.dev } := by
  unfold State.settleWk
  simp only [h]
  unfold Machine.collectAll
  simp

@[simp] theorem Dev.noteTo_rd (d : Dev) (p m t : Nat) (x : Note) (f : Fld) : (d.noteTo p m t x).rd f = d.rd f := by
  unfold Dev.noteTo
  split <;> simp

@[simp] theorem Dev.notify_rd (d : Dev) (t : Nat) (ws : List Nat) (f : Fld) : (d.notify t ws).rd f = d.rd f := by
  simp [Dev.notify]

@[simp] theorem Dev.noteChanges_rd (d old : Dev) (f : Fld) : (d.noteChanges old).rd f = d.rd f := by
  unfold Dev.noteChanges
  simp only
  split <;> split <;> simp

/-- A component that notifications do not touch. -/
theorem Dev.notify_keeps {β : Type} (g : Dev → β) (hg : ∀ (d : Dev) (p : Nat) (f : Port → Port), g (d.upPort p f) = g d) (d : Dev) (t : Nat) (ws : List Nat) :
    g (d.notify t ws) = g d := by
  have one (e : Dev) (p m : Nat) (x : Note) : g (e.noteTo p m t x) = g e := by
    unfold Dev.noteTo
    split
    · exact hg e p _
    · rfl
  simp only [Dev.notify, one]

theorem Dev.noteChanges_keeps {β : Type} (g : Dev → β) (hg : ∀ (d : Dev) (p : Nat) (f : Port → Port), g (d.upPort p f) = g d) (d old : Dev) :
    g (d.noteChanges old) = g d := by
  unfold Dev.noteChanges
  simp only
  split <;> split <;> simp [Dev.notify_keeps g hg]

end Sys2Proof.Machine
end

