-- ==== Sys2Proof/Laws/Fields.lean ====
section
/-! SUPPORT. The register map (17_registers.md): every field of the register at an address has that address and lies within 32 bits. -/
namespace Sys2Proof.Machine

/-- What holds of the members of both branches. -/
theorem forall_mem_ite {c : Prop} [Decidable c] {P : Fld → Prop} {a b : List Fld} (h1 : c → ∀ f ∈ a, P f) (h2 : ∀ f ∈ b, P f) :
    ∀ f ∈ (if c then a else b), P f := by
  split
  · exact h1 ‹_›
  · exact h2

set_option linter.unusedSimpArgs false in
theorem fieldsSYS0_addr (o : Nat) : ∀ f ∈ fieldsSYS0 o, f.addr = 0x4100 + o ∧ f.lo < 32 := by
  unfold fieldsSYS0
  repeat' refine forall_mem_ite (fun _ => ?_) ?_
  all_goals first
    | exact List.forall_mem_nil _
    | (simp only [List.forall_mem_cons, List.not_mem_nil, false_implies, implies_true, and_true,
        F.SYS_FRM_LEN]; omega)

set_option linter.unusedSimpArgs false in
theorem fieldsSYS1_addr (o : Nat) : ∀ f ∈ fieldsSYS1 o, f.addr = 0x4104 + o ∧ f.lo < 32 := by
  unfold fieldsSYS1
  repeat' refine forall_mem_ite (fun _ => ?_) ?_
  all_goals first
    | exact List.forall_mem_nil _
    | (simp only [List.forall_mem_cons, List.not_mem_nil, false_implies, implies_true, and_true,
        F.SYS_FRM_UPL_END]; omega)

set_option linter.unusedSimpArgs false in
theorem fieldsSYS2_addr (o : Nat) : ∀ f ∈ fieldsSYS2 o, f.addr = 0x4108 + o ∧ f.lo < 32 := by
  unfold fieldsSYS2
  repeat' refine forall_mem_ite (fun _ => ?_) ?_
  all_goals first
    | exact List.forall_mem_nil _
    | (simp only [List.forall_mem_cons, List.not_mem_nil, false_implies, implies_true, and_true,
        F.SYS_FRM_CMP_END]; omega)

set_option linter.unusedSimpArgs false in
theorem fieldsSYS3_addr (o : Nat) : ∀ f ∈ fieldsSYS3 o, f.addr = 0x410c + o ∧ f.lo < 32 := by
  unfold fieldsSYS3
  repeat' refine forall_mem_ite (fun _ => ?_) ?_
  all_goals first
    | exact List.forall_mem_nil _
    | (simp only [List.forall_mem_cons, List.not_mem_nil, false_implies, implies_true, and_true,
        F.SYS_FRM_DNL_END]; omega)

set_option linter.unusedSimpArgs false in
theorem fieldsSYS4_addr (o : Nat) : ∀ f ∈ fieldsSYS4 o, f.addr = 0x4110 + o ∧ f.lo < 32 := by
  unfold fieldsSYS4
  repeat' refine forall_mem_ite (fun _ => ?_) ?_
  all_goals first
    | exact List.forall_mem_nil _
    | (simp only [List.forall_mem_cons, List.not_mem_nil, false_implies, implies_true, and_true,
        F.SYS_FRM_CTRL_AUTO, F.SYS_FRM_CTRL_RUNNING]; omega)

set_option linter.unusedSimpArgs false in
theorem fieldsSYS5_addr (o : Nat) : ∀ f ∈ fieldsSYS5 o, f.addr = 0x4114 + o ∧ f.lo < 32 := by
  unfold fieldsSYS5
  repeat' refine forall_mem_ite (fun _ => ?_) ?_
  all_goals first
    | exact List.forall_mem_nil _
    | (simp only [List.forall_mem_cons, List.not_mem_nil, false_implies, implies_true, and_true,
        F.SYS_FRM_STAT_SEQ, F.SYS_FRM_STAT_WINDOW]; omega)

set_option linter.unusedSimpArgs false in
theorem fieldsSYS6_addr (o : Nat) : ∀ f ∈ fieldsSYS6 o, f.addr = 0x4200 + o ∧ f.lo < 32 := by
  unfold fieldsSYS6
  repeat' refine forall_mem_ite (fun _ => ?_) ?_
  all_goals first
    | exact List.forall_mem_nil _
    | (simp only [List.forall_mem_cons, List.not_mem_nil, false_implies, implies_true, and_true,
        F.SYS_MOD_BUS_FAST, F.SYS_MOD_BUS_MUX_ADDR, F.SYS_MOD_BUS_POLL]; omega)

set_option linter.unusedSimpArgs false in
theorem fieldsSYS7_addr (o : Nat) : ∀ f ∈ fieldsSYS7 o, f.addr = 0x4300 + o ∧ f.lo < 32 := by
  unfold fieldsSYS7
  repeat' refine forall_mem_ite (fun _ => ?_) ?_
  all_goals first
    | exact List.forall_mem_nil _
    | (simp only [List.forall_mem_cons, List.not_mem_nil, false_implies, implies_true, and_true,
        F.SYS_LRET_DOWN_TH, F.SYS_LRET_EN, F.SYS_LRET_WIN, F.SYS_MCORE_MISMATCH, F.SYS_MCORE_ROLE, F.SYS_MCORE_SINGLE];
        omega)

set_option linter.unusedSimpArgs false in
theorem fieldsCLK_addr (o : Nat) : ∀ f ∈ fieldsCLK o, f.addr = 0x5000 + o ∧ f.lo < 32 := by
  unfold fieldsCLK
  repeat' refine forall_mem_ite (fun _ => ?_) ?_
  all_goals first
    | exact List.forall_mem_nil _
    | (simp only [List.forall_mem_cons, List.not_mem_nil, false_implies, implies_true, and_true,
        F.CLK_ALARM_HI, F.CLK_ALARM_HI_ALARM_ARM, F.CLK_ALARM_LO, F.CLK_MON_FAILS, F.CLK_PWR_REQ, F.CLK_START_NOLOCK,
        F.CLK_START_STEP, F.CLK_STAT_INTOSC, F.CLK_STAT_LOCK, F.CLK_STAT_ON, F.CLK_STAT_PSTATE, F.CLK_STAT_VSENSE,
        F.CLK_STAT_XTAL, F.CLK_WAKE_EN, F.CLK_WAKE_STAT_VAON_POR, F.CLK_WAKE_STAT_WAKE]; omega)

set_option linter.unusedSimpArgs false in
theorem fieldsTIM0_addr (o : Nat) : ∀ f ∈ fieldsTIM0 o, f.addr = 0x6000 + o ∧ f.lo < 32 := by
  unfold fieldsTIM0
  repeat' refine forall_mem_ite (fun _ => ?_) ?_
  all_goals first
    | exact List.forall_mem_nil _
    | (simp only [List.forall_mem_cons, List.not_mem_nil, false_implies, implies_true, and_true,
        F.TIM_CTRL_HOLD_SEED, F.TIM_CTRL_NET_TS_EN, F.TIM_CTRL_NET_VLAN, F.TIM_INC_FRAC, F.TIM_INC_INT, F.TIM_TAI_HI_BASE,
        F.TIM_TAI_LO_BASE]; omega)

set_option linter.unusedSimpArgs false in
theorem fieldsTIM1_addr (o : Nat) : ∀ f ∈ fieldsTIM1 o, f.addr = 0x6004 + o ∧ f.lo < 32 := by
  unfold fieldsTIM1
  repeat' refine forall_mem_ite (fun _ => ?_) ?_
  all_goals first
    | exact List.forall_mem_nil _
    | (simp only [List.forall_mem_cons, List.not_mem_nil, false_implies, implies_true, and_true,
        F.TIM_STAT_COARSE, F.TIM_STAT_INC_REJ, F.TIM_STAT_LOCK, F.TIM_STAT_SKIP, F.TIM_STAT_STEPPED, F.TIM_STAT_TSRC,
        F.TIM_STAT_WRAP]; omega)

set_option linter.unusedSimpArgs false in
theorem fieldsTIM2_addr (o : Nat) : ∀ f ∈ fieldsTIM2 o, f.addr = 0x6008 + o ∧ f.lo < 32 := by
  unfold fieldsTIM2
  repeat' refine forall_mem_ite (fun _ => ?_) ?_
  all_goals first
    | exact List.forall_mem_nil _
    | (simp only [List.forall_mem_cons, List.not_mem_nil, false_implies, implies_true, and_true,
        F.TIM_EPOCH]; omega)

set_option linter.unusedSimpArgs false in
theorem fieldsTIM3_addr (n o : Nat) : ∀ f ∈ fieldsTIM3 n o, f.addr = 0x6100 + 32 * n + o ∧ f.lo < 32 := by
  unfold fieldsTIM3
  repeat' refine forall_mem_ite (fun _ => ?_) ?_
  all_goals first
    | exact List.forall_mem_nil _
    | (simp only [List.forall_mem_cons, List.not_mem_nil, false_implies, implies_true, and_true,
        F.TIM_OUT_CTRL_MODE, F.TIM_OUT_CTRL_PEND, F.TIM_OUT_CTRL_POL, F.TIM_OUT_CTRL_REJ, F.TIM_OUT_PER_HI,
        F.TIM_OUT_PER_LO, F.TIM_OUT_TGT_HI, F.TIM_OUT_TGT_LO, F.TIM_OUT_WIDTH]; omega)

set_option linter.unusedSimpArgs false in
theorem fieldsTIM4_addr (n o : Nat) : ∀ f ∈ fieldsTIM4 n o, f.addr = 0x6200 + 16 * n + o ∧ f.lo < 32 := by
  unfold fieldsTIM4
  repeat' refine forall_mem_ite (fun _ => ?_) ?_
  all_goals first
    | exact List.forall_mem_nil _
    | (simp only [List.forall_mem_cons, List.not_mem_nil, false_implies, implies_true, and_true,
        F.TIM_CAP_CTRL_ACQ_TRIG, F.TIM_CAP_CTRL_EDGE, F.TIM_CAP_CTRL_FILT, F.TIM_CAP_STAT_LEVEL, F.TIM_CAP_STAT_OVF]; omega)

set_option linter.unusedSimpArgs false in
theorem fieldsHST0_addr (p o : Nat) : ∀ f ∈ fieldsHST0 p o, f.addr = 0x7000 + 256 * p + o ∧ f.lo < 32 := by
  unfold fieldsHST0
  repeat' refine forall_mem_ite (fun _ => ?_) ?_
  all_goals first
    | exact List.forall_mem_nil _
    | (simp only [List.forall_mem_cons, List.not_mem_nil, false_implies, implies_true, and_true,
        F.HST_CFG_DUMMY, F.HST_CFG_NETL, F.HST_CFG_NOTE_MIN, F.HST_DB_PEND, F.HST_DB_SET, F.HST_ERR2_CLASP_DENY,
        F.HST_ERR2_PKT_DROP, F.HST_ERRLAST_OPCODE, F.HST_ERRLAST_REASON, F.HST_ERRLAST_RING, F.HST_ERR_BAD_INSTR,
        F.HST_ERR_MBX_BUSY, F.HST_ERR_MBX_ERR, F.HST_ERR_PKT_BAD, F.HST_IRQ_EN, F.HST_IRQ_STAT_CLASP_FREED,
        F.HST_IRQ_STAT_DOORBELL, F.HST_IRQ_STAT_ERR, F.HST_IRQ_STAT_KA_WARN, F.HST_IRQ_STAT_LAPSED, F.HST_IRQ_STAT_LOCKET,
        F.HST_IRQ_STAT_MBX, F.HST_IRQ_STAT_NET, F.HST_IRQ_STAT_REPLY, F.HST_KA_KICK, F.HST_KA_PERIOD, F.HST_NET_DROP,
        F.HST_NOTE0, F.HST_NOTE1, F.HST_PSTAT_KA, F.HST_PSTAT_LOCKET_FULL, F.HST_PSTAT_MBX_FULL, F.HST_PSTAT_NETQ,
        F.HST_PSTAT_REPLIES, F.HST_PSTAT_SEND_GO]; omega)

set_option linter.unusedSimpArgs false in
theorem fieldsHST1_addr (o : Nat) : ∀ f ∈ fieldsHST1 o, f.addr = 0x7200 + o ∧ f.lo < 32 := by
  unfold fieldsHST1
  repeat' refine forall_mem_ite (fun _ => ?_) ?_
  all_goals first
    | exact List.forall_mem_nil _
    | (simp only [List.forall_mem_cons, List.not_mem_nil, false_implies, implies_true, and_true,
        F.HST_CLASP_OWNER, F.HST_TIE]; omega)

set_option linter.unusedSimpArgs false in
theorem fieldsMBX_addr (p k o : Nat) : ∀ f ∈ fieldsMBX p k o, f.addr = 0x8000 + 1024 * p + 256 * k + o ∧ f.lo < 32 := by
  unfold fieldsMBX
  repeat' refine forall_mem_ite (fun _ => ?_) ?_
  all_goals first
    | exact List.forall_mem_nil _
    | (simp only [List.forall_mem_cons, List.not_mem_nil, false_implies, implies_true, and_true,
        F.MBX_NSEQ, F.MBX_STAT_FULL, F.MBX_STAT_LEN, F.MBX_WORD]; omega)

set_option linter.unusedSimpArgs false in
theorem fieldsFLT_addr (o : Nat) : ∀ f ∈ fieldsFLT o, f.addr = 0x9000 + o ∧ f.lo < 32 := by
  unfold fieldsFLT
  repeat' refine forall_mem_ite (fun _ => ?_) ?_
  all_goals first
    | exact List.forall_mem_nil _
    | (simp only [List.forall_mem_cons, List.not_mem_nil, false_implies, implies_true, and_true,
        F.FLT_AONRD, F.FLT_AON_SEQ, F.FLT_CFG_ESC_N, F.FLT_CFG_ESC_U, F.FLT_CFG_ESC_W, F.FLT_CFG_IRQA, F.FLT_CFG_IRQB,
        F.FLT_CNT, F.FLT_CNT_WCLASS, F.FLT_CNT_WCNT, F.FLT_CTRL_AON_MIN, F.FLT_CTRL_FF_MIN, F.FLT_CTRL_LOG_MIN, F.FLT_LOGRD,
        F.FLT_LOG_SEQ, F.FLT_PEND_A, F.FLT_PEND_B, F.FLT_SEV, F.FLT_STAT_CLASSMAX, F.FLT_STAT_COMP_VALID,
        F.FLT_STAT_FF_VALID, F.FLT_STAT_LOCKOUT, F.FLT_STAT_LOST, F.FLT_STAT_PREV_LOCKOUT, F.FLT_STAT_TRIPPED]; omega)

set_option linter.unusedSimpArgs false in
theorem fieldsSEC0_addr (o : Nat) : ∀ f ∈ fieldsSEC0 o, f.addr = 0xa080 + o ∧ f.lo < 32 := by
  unfold fieldsSEC0
  repeat' refine forall_mem_ite (fun _ => ?_) ?_
  all_goals first
    | exact List.forall_mem_nil _
    | (simp only [List.forall_mem_cons, List.not_mem_nil, false_implies, implies_true, and_true,
        F.SEC_GUARD_LOCK_A, F.SEC_GUARD_LOCK_B, F.SEC_GUARD_MISM_A, F.SEC_GUARD_MISM_B]; omega)

set_option linter.unusedSimpArgs false in
theorem fieldsSEC1_addr (o : Nat) : ∀ f ∈ fieldsSEC1 o, f.addr = 0xa000 + o ∧ f.lo < 32 := by
  unfold fieldsSEC1
  repeat' refine forall_mem_ite (fun _ => ?_) ?_
  all_goals first
    | exact List.forall_mem_nil _
    | (simp only [List.forall_mem_cons, List.not_mem_nil, false_implies, implies_true, and_true,
        F.SEC_BOOT_FALLBACK, F.SEC_BOOT_IMAGE, F.SEC_BOOT_TRIES, F.SEC_DBG_CLOSE, F.SEC_DBG_DBG_DIS, F.SEC_DBG_DEBUG,
        F.SEC_DBG_LOUPE, F.SEC_DBG_LOUPE_DIS, F.SEC_DBG_REM, F.SEC_DBG_SINCE, F.SEC_FLOOR, F.SEC_FW_FW_VER, F.SEC_HIST,
        F.SEC_KEY_FAILED, F.SEC_KEY_OWNER, F.SEC_KEY_OWRIT, F.SEC_KEY_SLOT, F.SEC_KEY_USED, F.SEC_KEY_VALID,
        F.SEC_PRES_CLOSE, F.SEC_PRES_CTRL_LEN, F.SEC_PRES_CTRL_PORTS, F.SEC_PRES_REM_REM_A, F.SEC_PRES_REM_REM_B,
        F.SEC_PRES_STAT_BUTTON, F.SEC_PRES_STAT_JUMPER, F.SEC_PRES_STAT_OPEN_A, F.SEC_PRES_STAT_OPEN_B, F.SEC_SEAL_BREAKS,
        F.SEC_SEAL_INTACT, F.SEC_SEAL_NHIST, F.SEC_SVN]; omega)

set_option linter.unusedSimpArgs false in
theorem fieldsTHM_addr (o : Nat) : ∀ f ∈ fieldsTHM o, f.addr = 0xb000 + o ∧ f.lo < 32 := by
  unfold fieldsTHM
  repeat' refine forall_mem_ite (fun _ => ?_) ?_
  all_goals first
    | exact List.forall_mem_nil _
    | (simp only [List.forall_mem_cons, List.not_mem_nil, false_implies, implies_true, and_true,
        F.THM_BAND, F.THM_CNT_BRK, F.THM_CNT_OVER, F.THM_CTRL_BEAD_EN, F.THM_CTRL_DWELL, F.THM_CTRL_FAST_EN,
        F.THM_CTRL_HYST, F.THM_DBRK_BROKEN, F.THM_DHOT, F.THM_DLSET_LSET, F.THM_DOVER, F.THM_DSVC_SVC, F.THM_RK, F.THM_RLIM,
        F.THM_SILENT_FR, F.THM_SUB_HOLD, F.THM_SUB_SUBM, F.THM_THR, F.THM_TRIP, F.THM_WIN_FMGN, F.THM_WIN_RWIN]; omega)

set_option linter.unusedSimpArgs false in
theorem fieldsTWN_addr (o : Nat) : ∀ f ∈ fieldsTWN o, f.addr = 0xc000 + o ∧ f.lo < 32 := by
  unfold fieldsTWN
  repeat' refine forall_mem_ite (fun _ => ?_) ?_
  all_goals first
    | exact List.forall_mem_nil _
    | (simp only [List.forall_mem_cons, List.not_mem_nil, false_implies, implies_true, and_true,
        F.TWN_CNT_DEMOTIONS, F.TWN_CNT_HANDBACKS, F.TWN_CNT_TAKEOVERS, F.TWN_CNT_YIELDS, F.TWN_CTRL_EN, F.TWN_CTRL_PREF,
        F.TWN_CTRL_REVERT, F.TWN_CTRL_WIT_MIN, F.TWN_CTRL_YIELD_EN, F.TWN_D_TW, F.TWN_EPOCH, F.TWN_HBK_HBK_SEQ, F.TWN_HOLD,
        F.TWN_STAT_H1_MISS, F.TWN_STAT_H1_UP, F.TWN_STAT_H2_MISS, F.TWN_STAT_H2_UP, F.TWN_STAT_HBK_PEND, F.TWN_STAT_STATE,
        F.TWN_STAT_SYNCED, F.TWN_STAT_UNIT, F.TWN_STAT_WIT_SILENT, F.TWN_SYNCW, F.TWN_YMASK]; omega)

set_option linter.unusedSimpArgs false in
theorem fieldsSTK_addr (o : Nat) : ∀ f ∈ fieldsSTK o, f.addr = 0xd000 + o ∧ f.lo < 32 := by
  unfold fieldsSTK
  repeat' refine forall_mem_ite (fun _ => ?_) ?_
  all_goals first
    | exact List.forall_mem_nil _
    | (simp only [List.forall_mem_cons, List.not_mem_nil, false_implies, implies_true, and_true,
        F.STK_CNT_CRC_ERR, F.STK_CNT_MISS_CNT, F.STK_CTRL_DEP_EN, F.STK_CTRL_EN, F.STK_CTRL_NDEV, F.STK_CTRL_ORPHAN,
        F.STK_CTRL_QPROP, F.STK_CTRL_RING, F.STK_D_MAX, F.STK_EPOCH, F.STK_ID, F.STK_MRX, F.STK_MRX_STAT_FULL,
        F.STK_MRX_STAT_LEN, F.STK_MRX_STAT_SRC, F.STK_MTX, F.STK_MTX_CTRL_DST, F.STK_MTX_CTRL_GO, F.STK_MTX_CTRL_LEN,
        F.STK_MTX_CTRL_MSEQ, F.STK_RBASE, F.STK_RSRC, F.STK_SBASE, F.STK_STAT_BROKEN, F.STK_STAT_MASTER_ID, F.STK_STAT_MISS,
        F.STK_STAT_PRESENT, F.STK_STAT_ROLE, F.STK_STAT_RSTALE, F.STK_STAT_SP_STALE]; omega)

set_option linter.unusedSimpArgs false in
theorem fieldsWIDE_addr (p o : Nat) : ∀ f ∈ fieldsWIDE p o, f.addr = 0xe000 + 256 * p + o ∧ f.lo < 32 := by
  unfold fieldsWIDE
  repeat' refine forall_mem_ite (fun _ => ?_) ?_
  all_goals first
    | exact List.forall_mem_nil _
    | (simp only [List.forall_mem_cons, List.not_mem_nil, false_implies, implies_true, and_true,
        F.WIDE_SEL, F.WIDE_STAT_BADSEL, F.WIDE_STAT_VALID, F.WIDE_W0_WIDE0, F.WIDE_W1_WIDE1, F.WIDE_W2_WIDE2,
        F.WIDE_W3_WIDE3]; omega)

set_option linter.unusedSimpArgs false in
theorem fieldsLANE_addr (n o : Nat) : ∀ f ∈ fieldsLANE n o, f.addr = 0x20000 + 4096 * n + o ∧ f.lo < 32 := by
  unfold fieldsLANE
  repeat' refine forall_mem_ite (fun _ => ?_) ?_
  all_goals first
    | exact List.forall_mem_nil _
    | (simp only [List.forall_mem_cons, List.not_mem_nil, false_implies, implies_true, and_true,
        F.LANE_ASYM, F.LANE_BRING_DWELL, F.LANE_BRING_ERR_LIM, F.LANE_CTRL_END, F.LANE_CTRL_MAX_RATE, F.LANE_CTRL_ROLE,
        F.LANE_CTRL_SPARE_FOR, F.LANE_CTRL_STR, F.LANE_DLY, F.LANE_ERR_DOWN_CNT, F.LANE_ERR_DWELL_ERR,
        F.LANE_ERR_REJOIN_FAIL, F.LANE_LOS_HYST, F.LANE_LOS_TH, F.LANE_MOD_BUS, F.LANE_MOD_CH, F.LANE_MOD_DDM,
        F.LANE_MOD_PRESENT, F.LANE_NET_RXD, F.LANE_NET_TXD, F.LANE_STAT_HOPS, F.LANE_STAT_LOL, F.LANE_STAT_LOL_SEEN,
        F.LANE_STAT_LOS, F.LANE_STAT_LOS_SEEN, F.LANE_STAT_PHASE, F.LANE_STAT_RATE, F.LANE_STAT_RATES, F.LANE_STAT_TEST];
        omega)

set_option linter.unusedSimpArgs false in
theorem fieldsSTR_addr (s o : Nat) : ∀ f ∈ fieldsSTR s o, f.addr = 0x40000 + 4096 * s + o ∧ f.lo < 32 := by
  unfold fieldsSTR
  repeat' refine forall_mem_ite (fun _ => ?_) ?_
  all_goals first
    | exact List.forall_mem_nil _
    | (simp only [List.forall_mem_cons, List.not_mem_nil, false_implies, implies_true, and_true,
        F.STR_CTRL_BEND, F.STR_CTRL_EN, F.STR_CTRL_NBEAD, F.STR_ERR_ID_ERR, F.STR_ERR_UPL_CRC, F.STR_MISS, F.STR_POS_BEAD,
        F.STR_POS_VALID, F.STR_STAT_BREAK, F.STR_STAT_BROKEN, F.STR_STAT_HEARD, F.STR_STAT_UP]; omega)

set_option linter.unusedSimpArgs false in
theorem fieldsBDT_addr (b o : Nat) : ∀ f ∈ fieldsBDT b o, f.addr = 0x50000 + 256 * b + o ∧ f.lo < 32 := by
  unfold fieldsBDT
  repeat' refine forall_mem_ite (fun _ => ?_) ?_
  all_goals first
    | exact List.forall_mem_nil _
    | (simp only [List.forall_mem_cons, List.not_mem_nil, false_implies, implies_true, and_true,
        F.BDT_ASYM, F.BDT_CFGW, F.BDT_CNT_BYPASSES, F.BDT_CNT_INSERTS, F.BDT_DT_DAB_DT_P, F.BDT_DT_DAB_DT_S, F.BDT_HPER,
        F.BDT_OC_LIM, F.BDT_OVP_BYP, F.BDT_STATE, F.BDT_STATE_FAILED, F.BDT_STATE_READY, F.BDT_STATE_ROLE, F.BDT_STATE_SLOT,
        F.BDT_STATE_STRING, F.BDT_STATE_UNCONF, F.BDT_T0, F.BDT_TCHG, F.BDT_UVLO]; omega)

set_option linter.unusedSimpArgs false in
theorem fieldsBTH_addr (b o : Nat) : ∀ f ∈ fieldsBTH b o, f.addr = 0x50000 + 256 * b + o ∧ f.lo < 32 := by
  unfold fieldsBTH
  repeat' refine forall_mem_ite (fun _ => ?_) ?_
  all_goals first
    | exact List.forall_mem_nil _
    | (simp only [List.forall_mem_cons, List.not_mem_nil, false_implies, implies_true, and_true,
        F.BTH_C0, F.BTH_C1, F.BTH_C2, F.BTH_CFG_HSG, F.BTH_CFG_LSET, F.BTH_EXC_THM_BEXC, F.BTH_HELD, F.BTH_STAT_BROKEN,
        F.BTH_STAT_EN, F.BTH_STAT_FAST, F.BTH_STAT_HOT, F.BTH_TMAX]; omega)

set_option linter.unusedSimpArgs false in
theorem fieldsBSV_addr (g o : Nat) : ∀ f ∈ fieldsBSV g o, f.addr = 0x5f000 + 32 * g + o ∧ f.lo < 32 := by
  unfold fieldsBSV
  repeat' refine forall_mem_ite (fun _ => ?_) ?_
  all_goals first
    | exact List.forall_mem_nil _
    | (simp only [List.forall_mem_cons, List.not_mem_nil, false_implies, implies_true, and_true,
        F.BSV_CHG_BAND, F.BSV_CHG_PHI, F.BSV_CHG_VT, F.BSV_CTRL_AUTO_BYP, F.BSV_CTRL_AUTO_INS, F.BSV_CTRL_BYP_TO,
        F.BSV_CTRL_EN, F.BSV_CTRL_NMIN, F.BSV_CTRL_NTGT, F.BSV_CTRL_PUMP_SPARE, F.BSV_RDY_BAND, F.BSV_STAT_DEGRADED,
        F.BSV_STAT_NSLOT, F.BSV_STAT_READY_SP, F.BSV_STAT_SHORT, F.BSV_STAT_STEPPING, F.BSV_TB]; omega)

set_option linter.unusedSimpArgs false in
theorem fieldsTB_addr (t o : Nat) : ∀ f ∈ fieldsTB t o, f.addr = 0x60000 + 256 * t + o ∧ f.lo < 32 := by
  unfold fieldsTB
  repeat' refine forall_mem_ite (fun _ => ?_) ?_
  all_goals first
    | exact List.forall_mem_nil _
    | (simp only [List.forall_mem_cons, List.not_mem_nil, false_implies, implies_true, and_true,
        F.TB_CMPX, F.TB_CMPX_RT_RT0, F.TB_CMPX_RT_RT1, F.TB_CMPX_RT_RT2, F.TB_CMPX_RT_RT3, F.TB_CTRL_AUTOARM, F.TB_CTRL_EN,
        F.TB_CTRL_GRP, F.TB_PER, F.TB_PHS, F.TB_POS, F.TB_PSTEP_PSTEP_MAX, F.TB_STAT_ARMED, F.TB_STAT_PER_REJ,
        F.TB_STAT_RUN, F.TB_STAT_UPDATE_LATE]; omega)

set_option linter.unusedSimpArgs false in
theorem fieldsCH_addr (c o : Nat) : ∀ f ∈ fieldsCH c o, f.addr = 0x64000 + 64 * c + o ∧ f.lo < 32 := by
  unfold fieldsCH
  repeat' refine forall_mem_ite (fun _ => ?_) ?_
  all_goals first
    | exact List.forall_mem_nil _
    | (simp only [List.forall_mem_cons, List.not_mem_nil, false_implies, implies_true, and_true,
        F.CH_CMP, F.CH_CTRL_EN, F.CH_CTRL_TB, F.CH_CTRL_TRIP_ACT, F.CH_DMAX, F.CH_DMIN, F.CH_MINT, F.CH_PHS,
        F.CH_ROUTE_BEAD, F.CH_ROUTE_KIND, F.CH_ROUTE_PAIR, F.CH_ROUTE_SW, F.CH_STAT_ARMED, F.CH_STAT_DESC_OVF,
        F.CH_STAT_DUTY_CLAMP, F.CH_STAT_LATCHED, F.CH_STAT_PHS_WRAP, F.CH_STAT_STEPPING, F.CH_STAT_UPDATE_LATE,
        F.CH_TCNT_CLEAN, F.CH_TCNT_CNT, F.CH_TCNT_TOTAL, F.CH_TRIP_BLANK, F.CH_TRIP_M, F.CH_TRIP_N, F.CH_TRIP_TEN,
        F.CH_TRIP_TIN]; omega)

set_option linter.unusedSimpArgs false in
theorem fieldsEDG_addr (o : Nat) : ∀ f ∈ fieldsEDG o, f.addr = 0x68000 + o ∧ f.lo < 32 := by
  unfold fieldsEDG
  repeat' refine forall_mem_ite (fun _ => ?_) ?_
  all_goals first
    | exact List.forall_mem_nil _
    | (simp only [List.forall_mem_cons, List.not_mem_nil, false_implies, implies_true, and_true,
        F.EDG_ARM, F.EDG_PAIR_LOC_ADJ, F.EDG_PAIR_POL_A, F.EDG_PAIR_POL_B, F.EDG_PAIR_SAFE_A, F.EDG_PAIR_SAFE_B,
        F.EDG_STAT_CLK_LOST, F.EDG_STAT_HALT, F.EDG_STAT_QUIESCED, F.EDG_STAT_SAFE, F.EDG_TRIP_FILT, F.EDG_TRIP_LEVEL,
        F.EDG_TRIP_POL]; omega)

set_option linter.unusedSimpArgs false in
theorem fieldsGSV_addr (o : Nat) : ∀ f ∈ fieldsGSV o, f.addr = 0x70000 + o ∧ f.lo < 32 := by
  unfold fieldsGSV
  repeat' refine forall_mem_ite (fun _ => ?_) ?_
  all_goals first
    | exact List.forall_mem_nil _
    | (simp only [List.forall_mem_cons, List.not_mem_nil, false_implies, implies_true, and_true,
        F.GSV_BEAD_HELD, F.GSV_BEAD_LATCH, F.GSV_BEAD_PCNT, F.GSV_BEAD_PC_DONE, F.GSV_BEAD_PC_FAIL, F.GSV_BEAD_TOGGLING,
        F.GSV_CNT_HST, F.GSV_CNT_ILK, F.GSV_DEN_EN, F.GSV_DEN_LOW_FR, F.GSV_DEN_LVL, F.GSV_DEN_TOGGLE, F.GSV_GSM_FILT,
        F.GSV_GSM_HYST, F.GSV_GSM_KIND, F.GSV_GSM_PAIR, F.GSV_GSM_STAT_BELOW, F.GSV_GSM_STAT_UVLO_SEEN, F.GSV_GSM_TH,
        F.GSV_PAIR_DEN, F.GSV_PAIR_DFB_POL, F.GSV_PAIR_DSAT_EN, F.GSV_PAIR_DSAT_TIN, F.GSV_PAIR_HS_EN, F.GSV_PAIR_HS_TO,
        F.GSV_PAIR_PC_EN, F.GSV_PC_MAXP, F.GSV_PC_OFS, F.GSV_PC_WIDTH, F.GSV_STAT_HELD, F.GSV_STAT_LATCHED]; omega)

set_option linter.unusedSimpArgs false in
theorem fieldsADC4_addr (o : Nat) : ∀ f ∈ fieldsADC4 o, f.addr = 0x80400 + o ∧ f.lo < 32 := by
  unfold fieldsADC4
  repeat' refine forall_mem_ite (fun _ => ?_) ?_
  all_goals first
    | exact List.forall_mem_nil _
    | (simp only [List.forall_mem_cons, List.not_mem_nil, false_implies, implies_true, and_true,
        F.ADC_CHK_GAIN, F.ADC_CHK_OFS, F.ADC_CST_CHECKS, F.ADC_CST_FAILED, F.ADC_CST_RETIRED]; omega)

set_option linter.unusedSimpArgs false in
theorem fieldsADC_addr (c o : Nat) : ∀ f ∈ fieldsADC c o, f.addr = 0x80000 + 256 * c + o ∧ f.lo < 32 := by
  unfold fieldsADC
  repeat' refine forall_mem_ite (fun _ => ?_) ?_
  all_goals first
    | exact List.forall_mem_nil _
    | (simp only [List.forall_mem_cons, List.not_mem_nil, false_implies, implies_true, and_true,
        F.ADC_CHK_GAIN, F.ADC_CHK_OFS, F.ADC_CNT_INJ_OVR, F.ADC_CNT_REG_OVR, F.ADC_CST_CHECKS, F.ADC_CST_FAILED,
        F.ADC_CST_RETIRED, F.ADC_CTRL_FSYNC, F.ADC_CTRL_GO, F.ADC_CTRL_INJLEN, F.ADC_CTRL_MODE, F.ADC_CTRL_SEQLEN,
        F.ADC_ISLOT_ACC, F.ADC_ISLOT_AIN, F.ADC_ISLOT_DISC, F.ADC_SLOT_ACC, F.ADC_SLOT_AIN, F.ADC_SLOT_DISC,
        F.ADC_STAT_INJ_Q, F.ADC_STAT_INJ_RUN, F.ADC_STAT_PHYS, F.ADC_STAT_REG_Q, F.ADC_STAT_REG_RUN, F.ADC_STAT_SLOT,
        F.ADC_TAINT, F.ADC_TRGU_TINM, F.ADC_TRGU_TRIPM, F.ADC_TRGU_UCM, F.ADC_TRGU_UTB, F.ADC_TRG_FRAME, F.ADC_TRG_RCM,
        F.ADC_TRG_RTB]; omega)

set_option linter.unusedSimpArgs false in
theorem fieldsACQ_addr (o : Nat) : ∀ f ∈ fieldsACQ o, f.addr = 0x80800 + o ∧ f.lo < 32 := by
  unfold fieldsACQ
  repeat' refine forall_mem_ite (fun _ => ?_) ?_
  all_goals first
    | exact List.forall_mem_nil _
    | (simp only [List.forall_mem_cons, List.not_mem_nil, false_implies, implies_true, and_true,
        F.ACQ_ALT_ACC, F.ACQ_ALT_AUTO, F.ACQ_ALT_EN, F.ACQ_ALT_PRIM, F.ACQ_ALT_SEL, F.ACQ_ALT_SPARE, F.ACQ_CHKLIM_GAIN,
        F.ACQ_CHKLIM_OFS, F.ACQ_CHK_DIV, F.ACQ_CHK_EN, F.ACQ_CHK_REF_FAULT]; omega)

set_option linter.unusedSimpArgs false in
theorem fieldsACC_addr (a o : Nat) : ∀ f ∈ fieldsACC a o, f.addr = 0x84000 + 32 * a + o ∧ f.lo < 32 := by
  unfold fieldsACC
  repeat' refine forall_mem_ite (fun _ => ?_) ?_
  all_goals first
    | exact List.forall_mem_nil _
    | (simp only [List.forall_mem_cons, List.not_mem_nil, false_implies, implies_true, and_true,
        F.ACC_CFG_LCLR, F.ACC_CFG_LWIN, F.ACC_CFG_MONE, F.ACC_EXT_MAX, F.ACC_EXT_MIN, F.ACC_GAIN, F.ACC_LEXT_LMAX,
        F.ACC_LEXT_LMIN, F.ACC_MEAN, F.ACC_OFS, F.ACC_STAT_COUNT, F.ACC_STAT_EMPTY, F.ACC_STAT_OVR, F.ACC_STAT_OVR_SEEN,
        F.ACC_STAT_TNT]; omega)

set_option linter.unusedSimpArgs false in
theorem fieldsLPE_addr (o : Nat) : ∀ f ∈ fieldsLPE o, f.addr = 0x90000 + o ∧ f.lo < 32 := by
  unfold fieldsLPE
  repeat' refine forall_mem_ite (fun _ => ?_) ?_
  all_goals first
    | exact List.forall_mem_nil _
    | (simp only [List.forall_mem_cons, List.not_mem_nil, false_implies, implies_true, and_true,
        F.LPE_ARMG, F.LPE_CNT2_FPEV, F.LPE_CNT2_TRANSIENT, F.LPE_CNT_MISMATCH, F.LPE_CNT_OVR, F.LPE_COEF_BANK,
        F.LPE_COEF_SWAP_PEND, F.LPE_COMMITS, F.LPE_CTRL_CHK_EN, F.LPE_CTRL_OVR_TRIP, F.LPE_CTRL_RUN, F.LPE_CTRL_SPARE_EN,
        F.LPE_ECC_CNT_CORR, F.LPE_ECC_CNT_REMAPS, F.LPE_ECC_ROW_TH, F.LPE_ECC_SPARES_LEFT, F.LPE_ECC_WIN, F.LPE_FCNT,
        F.LPE_PART_LEN, F.LPE_PART_START, F.LPE_PWC, F.LPE_RC_BASE, F.LPE_RC_DIV, F.LPE_RC_PHASE, F.LPE_ROLE, F.LPE_SETP,
        F.LPE_STAT_HELD, F.LPE_STAT_OVR, F.LPE_STAT_OVR_CONSEC, F.LPE_STAT_RUNNING, F.LPE_STAT_RUN_REJ, F.LPE_STAT_SWAPPED,
        F.LPE_STAT_VERIFIED, F.LPE_STAT_VOTE_P, F.LPE_STAT_VOTING, F.LPE_VFYCNT_WCET_CNT, F.LPE_VFYCYC_WCET_CYC,
        F.LPE_VFY_CODE, F.LPE_VFY_ENTRY]; omega)

/-- Every field of the register at an address has that address, and lies within 32 bits. -/
theorem fieldsAt_addr (a : Nat) : ∀ f ∈ fieldsAt a, f.addr = a ∧ f.lo < 32 := by
  have at_ {l : List Fld} {x : Nat} (h : ∀ f ∈ l, f.addr = x ∧ f.lo < 32) (e : x = a) : ∀ f ∈ l, f.addr = a ∧ f.lo < 32 := e ▸ h
  unfold fieldsAt
  refine forall_mem_ite (fun _ => ?_) ?_
  · refine forall_mem_ite (fun _ => ?_) ?_
    · exact at_ (fieldsSYS0_addr (a - 0x4100)) (by omega)
    refine forall_mem_ite (fun _ => ?_) ?_
    · exact at_ (fieldsSYS1_addr (a - 0x4104)) (by omega)
    refine forall_mem_ite (fun _ => ?_) ?_
    · exact at_ (fieldsSYS2_addr (a - 0x4108)) (by omega)
    refine forall_mem_ite (fun _ => ?_) ?_
    · exact at_ (fieldsSYS3_addr (a - 0x410c)) (by omega)
    refine forall_mem_ite (fun _ => ?_) ?_
    · exact at_ (fieldsSYS4_addr (a - 0x4110)) (by omega)
    refine forall_mem_ite (fun _ => ?_) ?_
    · exact at_ (fieldsSYS5_addr (a - 0x4114)) (by omega)
    refine forall_mem_ite (fun _ => ?_) ?_
    · exact at_ (fieldsTIM1_addr (a - 0x6004)) (by omega)
    refine forall_mem_ite (fun _ => ?_) ?_
    · exact at_ (fieldsTIM2_addr (a - 0x6008)) (by omega)
    refine forall_mem_ite (fun _ => ?_) ?_
    · exact at_ (fieldsSEC0_addr (a - 0xa080)) (by omega)
    refine forall_mem_ite (fun _ => ?_) ?_
    · exact at_ (fieldsSYS7_addr (a - 0x4300)) (by omega)
    refine forall_mem_ite (fun _ => ?_) ?_
    · exact at_ (fieldsTIM4_addr ((a - 0x6200) / 16) ((a - 0x6200) % 16)) (by omega)
    refine forall_mem_ite (fun _ => ?_) ?_
    · exact at_ (fieldsSYS6_addr (a - 0x4200)) (by omega)
    refine forall_mem_ite (fun _ => ?_) ?_
    · exact at_ (fieldsTIM3_addr ((a - 0x6100) / 32) ((a - 0x6100) % 32)) (by omega)
    refine forall_mem_ite (fun _ => ?_) ?_
    · exact at_ (fieldsCLK_addr (a - 0x5000)) (by omega)
    refine forall_mem_ite (fun _ => ?_) ?_
    · exact at_ (fieldsWIDE_addr ((a - 0xe000) / 256) ((a - 0xe000) % 256)) (by omega)
    refine forall_mem_ite (fun _ => ?_) ?_
    · exact at_ (fieldsTIM0_addr (a - 0x6000)) (by omega)
    refine forall_mem_ite (fun _ => ?_) ?_
    · exact at_ (fieldsHST0_addr ((a - 0x7000) / 256) ((a - 0x7000) % 256)) (by omega)
    refine forall_mem_ite (fun _ => ?_) ?_
    · exact at_ (fieldsTWN_addr (a - 0xc000)) (by omega)
    refine forall_mem_ite (fun _ => ?_) ?_
    · exact at_ (fieldsHST1_addr (a - 0x7200)) (by omega)
    refine forall_mem_ite (fun _ => ?_) ?_
    · exact at_ (fieldsMBX_addr ((a - 0x8000) / 1024) ((a - 0x8000) % 1024 / 256) ((a - 0x8000) % 256)) (by omega)
    refine forall_mem_ite (fun _ => ?_) ?_
    · exact at_ (fieldsSEC1_addr (a - 0xa000)) (by omega)
    refine forall_mem_ite (fun _ => ?_) ?_
    · exact at_ (fieldsSTK_addr (a - 0xd000)) (by omega)
    refine forall_mem_ite (fun _ => ?_) ?_
    · exact at_ (fieldsTHM_addr (a - 0xb000)) (by omega)
    refine forall_mem_ite (fun _ => ?_) ?_
    · exact at_ (fieldsFLT_addr (a - 0x9000)) (by omega)
    exact List.forall_mem_nil _
  · refine forall_mem_ite (fun _ => ?_) ?_
    · exact at_ (fieldsBSV_addr ((a - 0x5f000) / 32) ((a - 0x5f000) % 32)) (by omega)
    refine forall_mem_ite (fun _ => ?_) ?_
    · exact at_ (fieldsACC_addr ((a - 0x84000) / 32) ((a - 0x84000) % 32)) (by omega)
    refine forall_mem_ite (fun _ => ?_) ?_
    · exact at_ (fieldsLANE_addr ((a - 0x20000) / 4096) ((a - 0x20000) % 4096)) (by omega)
    refine forall_mem_ite (fun _ => ?_) ?_
    · exact at_ (fieldsCH_addr ((a - 0x64000) / 64) ((a - 0x64000) % 64)) (by omega)
    refine forall_mem_ite (fun _ => ?_) ?_
    · exact List.forall_mem_append.2 ⟨at_ (fieldsBDT_addr ((a - 0x50000) / 256) ((a - 0x50000) % 256)) (by omega), at_ (fieldsBTH_addr ((a - 0x50000) / 256) ((a - 0x50000) % 256)) (by omega)⟩
    refine forall_mem_ite (fun _ => ?_) ?_
    · exact at_ (fieldsTB_addr ((a - 0x60000) / 256) ((a - 0x60000) % 256)) (by omega)
    refine forall_mem_ite (fun _ => ?_) ?_
    · exact at_ (fieldsSTR_addr ((a - 0x40000) / 4096) ((a - 0x40000) % 4096)) (by omega)
    refine forall_mem_ite (fun _ => ?_) ?_
    · exact at_ (fieldsACQ_addr (a - 0x80800)) (by omega)
    refine forall_mem_ite (fun _ => ?_) ?_
    · exact at_ (fieldsEDG_addr (a - 0x68000)) (by omega)
    refine forall_mem_ite (fun _ => ?_) ?_
    · exact at_ (fieldsADC_addr ((a - 0x80000) / 256) ((a - 0x80000) % 256)) (by omega)
    refine forall_mem_ite (fun _ => ?_) ?_
    · exact at_ (fieldsADC4_addr (a - 0x80400)) (by omega)
    refine forall_mem_ite (fun _ => ?_) ?_
    · exact at_ (fieldsGSV_addr (a - 0x70000)) (by omega)
    refine forall_mem_ite (fun _ => ?_) ?_
    · exact at_ (fieldsLPE_addr (a - 0x90000)) (by omega)
    exact List.forall_mem_nil _

/-- The field that a key finds has that key. -/
theorem fldOf_key {k : Nat} {f : Fld} (h : fldOf k = some f) : f.key = k := by
  unfold fldOf at h
  obtain ⟨h1, _⟩ := fieldsAt_addr _ f (List.mem_of_find?_eq_some h)
  have h2 := List.find?_some h
  simp only [decide_eq_true_eq] at h2
  unfold Fld.key
  omega

/-- Two fields of one register, the first below the second. -/
def Fld.below (f g : Fld) : Prop := f.lo + f.width ≤ g.lo ∨ g.lo + g.width ≤ f.lo

theorem pairwise_ite {c : Prop} [Decidable c] {a b : List Fld} (h1 : a.Pairwise Fld.below) (h2 : b.Pairwise Fld.below) :
    (if c then a else b).Pairwise Fld.below := by
  split
  · exact h1
  · exact h2

set_option linter.unusedSimpArgs false in
theorem fieldsSYS0_apart (o : Nat) : (fieldsSYS0 o).Pairwise Fld.below := by
  unfold fieldsSYS0
  repeat' refine pairwise_ite ?_ ?_
  all_goals first
    | exact List.Pairwise.nil
    | (simp only [List.pairwise_cons, List.forall_mem_cons, List.not_mem_nil, false_implies, implies_true, List.Pairwise.nil, and_true, Fld.below,
        F.SYS_FRM_LEN] <;> omega)

set_option linter.unusedSimpArgs false in
theorem fieldsSYS1_apart (o : Nat) : (fieldsSYS1 o).Pairwise Fld.below := by
  unfold fieldsSYS1
  repeat' refine pairwise_ite ?_ ?_
  all_goals first
    | exact List.Pairwise.nil
    | (simp only [List.pairwise_cons, List.forall_mem_cons, List.not_mem_nil, false_implies, implies_true, List.Pairwise.nil, and_true, Fld.below,
        F.SYS_FRM_UPL_END] <;> omega)

set_option linter.unusedSimpArgs false in
theorem fieldsSYS2_apart (o : Nat) : (fieldsSYS2 o).Pairwise Fld.below := by
  unfold fieldsSYS2
  repeat' refine pairwise_ite ?_ ?_
  all_goals first
    | exact List.Pairwise.nil
    | (simp only [List.pairwise_cons, List.forall_mem_cons, List.not_mem_nil, false_implies, implies_true, List.Pairwise.nil, and_true, Fld.below,
        F.SYS_FRM_CMP_END] <;> omega)

set_option linter.unusedSimpArgs false in
theorem fieldsSYS3_apart (o : Nat) : (fieldsSYS3 o).Pairwise Fld.below := by
  unfold fieldsSYS3
  repeat' refine pairwise_ite ?_ ?_
  all_goals first
    | exact List.Pairwise.nil
    | (simp only [List.pairwise_cons, List.forall_mem_cons, List.not_mem_nil, false_implies, implies_true, List.Pairwise.nil, and_true, Fld.below,
        F.SYS_FRM_DNL_END] <;> omega)

set_option linter.unusedSimpArgs false in
theorem fieldsSYS4_apart (o : Nat) : (fieldsSYS4 o).Pairwise Fld.below := by
  unfold fieldsSYS4
  repeat' refine pairwise_ite ?_ ?_
  all_goals first
    | exact List.Pairwise.nil
    | (simp only [List.pairwise_cons, List.forall_mem_cons, List.not_mem_nil, false_implies, implies_true, List.Pairwise.nil, and_true, Fld.below,
        F.SYS_FRM_CTRL_AUTO, F.SYS_FRM_CTRL_RUNNING] <;> omega)

set_option linter.unusedSimpArgs false in
theorem fieldsSYS5_apart (o : Nat) : (fieldsSYS5 o).Pairwise Fld.below := by
  unfold fieldsSYS5
  repeat' refine pairwise_ite ?_ ?_
  all_goals first
    | exact List.Pairwise.nil
    | (simp only [List.pairwise_cons, List.forall_mem_cons, List.not_mem_nil, false_implies, implies_true, List.Pairwise.nil, and_true, Fld.below,
        F.SYS_FRM_STAT_SEQ, F.SYS_FRM_STAT_WINDOW] <;> omega)

set_option linter.unusedSimpArgs false in
theorem fieldsSYS6_apart (o : Nat) : (fieldsSYS6 o).Pairwise Fld.below := by
  unfold fieldsSYS6
  repeat' refine pairwise_ite ?_ ?_
  all_goals first
    | exact List.Pairwise.nil
    | (simp only [List.pairwise_cons, List.forall_mem_cons, List.not_mem_nil, false_implies, implies_true, List.Pairwise.nil, and_true, Fld.below,
        F.SYS_MOD_BUS_FAST, F.SYS_MOD_BUS_MUX_ADDR, F.SYS_MOD_BUS_POLL] <;> omega)

set_option linter.unusedSimpArgs false in
theorem fieldsSYS7_apart (o : Nat) : (fieldsSYS7 o).Pairwise Fld.below := by
  unfold fieldsSYS7
  repeat' refine pairwise_ite ?_ ?_
  all_goals first
    | exact List.Pairwise.nil
    | (simp only [List.pairwise_cons, List.forall_mem_cons, List.not_mem_nil, false_implies, implies_true, List.Pairwise.nil, and_true, Fld.below,
        F.SYS_LRET_DOWN_TH, F.SYS_LRET_EN, F.SYS_LRET_WIN, F.SYS_MCORE_MISMATCH, F.SYS_MCORE_ROLE, F.SYS_MCORE_SINGLE] <;>
        omega)

set_option linter.unusedSimpArgs false in
theorem fieldsCLK_apart (o : Nat) : (fieldsCLK o).Pairwise Fld.below := by
  unfold fieldsCLK
  repeat' refine pairwise_ite ?_ ?_
  all_goals first
    | exact List.Pairwise.nil
    | (simp only [List.pairwise_cons, List.forall_mem_cons, List.not_mem_nil, false_implies, implies_true, List.Pairwise.nil, and_true, Fld.below,
        F.CLK_ALARM_HI, F.CLK_ALARM_HI_ALARM_ARM, F.CLK_ALARM_LO, F.CLK_MON_FAILS, F.CLK_PWR_REQ, F.CLK_START_NOLOCK,
        F.CLK_START_STEP, F.CLK_STAT_INTOSC, F.CLK_STAT_LOCK, F.CLK_STAT_ON, F.CLK_STAT_PSTATE, F.CLK_STAT_VSENSE,
        F.CLK_STAT_XTAL, F.CLK_WAKE_EN, F.CLK_WAKE_STAT_VAON_POR, F.CLK_WAKE_STAT_WAKE] <;> omega)

set_option linter.unusedSimpArgs false in
theorem fieldsTIM0_apart (o : Nat) : (fieldsTIM0 o).Pairwise Fld.below := by
  unfold fieldsTIM0
  repeat' refine pairwise_ite ?_ ?_
  all_goals first
    | exact List.Pairwise.nil
    | (simp only [List.pairwise_cons, List.forall_mem_cons, List.not_mem_nil, false_implies, implies_true, List.Pairwise.nil, and_true, Fld.below,
        F.TIM_CTRL_HOLD_SEED, F.TIM_CTRL_NET_TS_EN, F.TIM_CTRL_NET_VLAN, F.TIM_INC_FRAC, F.TIM_INC_INT, F.TIM_TAI_HI_BASE,
        F.TIM_TAI_LO_BASE] <;> omega)

set_option linter.unusedSimpArgs false in
theorem fieldsTIM1_apart (o : Nat) : (fieldsTIM1 o).Pairwise Fld.below := by
  unfold fieldsTIM1
  repeat' refine pairwise_ite ?_ ?_
  all_goals first
    | exact List.Pairwise.nil
    | (simp only [List.pairwise_cons, List.forall_mem_cons, List.not_mem_nil, false_implies, implies_true, List.Pairwise.nil, and_true, Fld.below,
        F.TIM_STAT_COARSE, F.TIM_STAT_INC_REJ, F.TIM_STAT_LOCK, F.TIM_STAT_SKIP, F.TIM_STAT_STEPPED, F.TIM_STAT_TSRC,
        F.TIM_STAT_WRAP] <;> omega)

set_option linter.unusedSimpArgs false in
theorem fieldsTIM2_apart (o : Nat) : (fieldsTIM2 o).Pairwise Fld.below := by
  unfold fieldsTIM2
  repeat' refine pairwise_ite ?_ ?_
  all_goals first
    | exact List.Pairwise.nil
    | (simp only [List.pairwise_cons, List.forall_mem_cons, List.not_mem_nil, false_implies, implies_true, List.Pairwise.nil, and_true, Fld.below,
        F.TIM_EPOCH] <;> omega)

set_option linter.unusedSimpArgs false in
theorem fieldsTIM3_apart (n o : Nat) : (fieldsTIM3 n o).Pairwise Fld.below := by
  unfold fieldsTIM3
  repeat' refine pairwise_ite ?_ ?_
  all_goals first
    | exact List.Pairwise.nil
    | (simp only [List.pairwise_cons, List.forall_mem_cons, List.not_mem_nil, false_implies, implies_true, List.Pairwise.nil, and_true, Fld.below,
        F.TIM_OUT_CTRL_MODE, F.TIM_OUT_CTRL_PEND, F.TIM_OUT_CTRL_POL, F.TIM_OUT_CTRL_REJ, F.TIM_OUT_PER_HI,
        F.TIM_OUT_PER_LO, F.TIM_OUT_TGT_HI, F.TIM_OUT_TGT_LO, F.TIM_OUT_WIDTH] <;> omega)

set_option linter.unusedSimpArgs false in
theorem fieldsTIM4_apart (n o : Nat) : (fieldsTIM4 n o).Pairwise Fld.below := by
  unfold fieldsTIM4
  repeat' refine pairwise_ite ?_ ?_
  all_goals first
    | exact List.Pairwise.nil
    | (simp only [List.pairwise_cons, List.forall_mem_cons, List.not_mem_nil, false_implies, implies_true, List.Pairwise.nil, and_true, Fld.below,
        F.TIM_CAP_CTRL_ACQ_TRIG, F.TIM_CAP_CTRL_EDGE, F.TIM_CAP_CTRL_FILT, F.TIM_CAP_STAT_LEVEL, F.TIM_CAP_STAT_OVF] <;>
        omega)

set_option linter.unusedSimpArgs false in
theorem fieldsHST0_apart (p o : Nat) : (fieldsHST0 p o).Pairwise Fld.below := by
  unfold fieldsHST0
  repeat' refine pairwise_ite ?_ ?_
  all_goals first
    | exact List.Pairwise.nil
    | (simp only [List.pairwise_cons, List.forall_mem_cons, List.not_mem_nil, false_implies, implies_true, List.Pairwise.nil, and_true, Fld.below,
        F.HST_CFG_DUMMY, F.HST_CFG_NETL, F.HST_CFG_NOTE_MIN, F.HST_DB_PEND, F.HST_DB_SET, F.HST_ERR2_CLASP_DENY,
        F.HST_ERR2_PKT_DROP, F.HST_ERRLAST_OPCODE, F.HST_ERRLAST_REASON, F.HST_ERRLAST_RING, F.HST_ERR_BAD_INSTR,
        F.HST_ERR_MBX_BUSY, F.HST_ERR_MBX_ERR, F.HST_ERR_PKT_BAD, F.HST_IRQ_EN, F.HST_IRQ_STAT_CLASP_FREED,
        F.HST_IRQ_STAT_DOORBELL, F.HST_IRQ_STAT_ERR, F.HST_IRQ_STAT_KA_WARN, F.HST_IRQ_STAT_LAPSED, F.HST_IRQ_STAT_LOCKET,
        F.HST_IRQ_STAT_MBX, F.HST_IRQ_STAT_NET, F.HST_IRQ_STAT_REPLY, F.HST_KA_KICK, F.HST_KA_PERIOD, F.HST_NET_DROP,
        F.HST_NOTE0, F.HST_NOTE1, F.HST_PSTAT_KA, F.HST_PSTAT_LOCKET_FULL, F.HST_PSTAT_MBX_FULL, F.HST_PSTAT_NETQ,
        F.HST_PSTAT_REPLIES, F.HST_PSTAT_SEND_GO] <;> omega)

set_option linter.unusedSimpArgs false in
theorem fieldsHST1_apart (o : Nat) : (fieldsHST1 o).Pairwise Fld.below := by
  unfold fieldsHST1
  repeat' refine pairwise_ite ?_ ?_
  all_goals first
    | exact List.Pairwise.nil
    | (simp only [List.pairwise_cons, List.forall_mem_cons, List.not_mem_nil, false_implies, implies_true, List.Pairwise.nil, and_true, Fld.below,
        F.HST_CLASP_OWNER, F.HST_TIE] <;> omega)

set_option linter.unusedSimpArgs false in
theorem fieldsMBX_apart (p k o : Nat) : (fieldsMBX p k o).Pairwise Fld.below := by
  unfold fieldsMBX
  repeat' refine pairwise_ite ?_ ?_
  all_goals first
    | exact List.Pairwise.nil
    | (simp only [List.pairwise_cons, List.forall_mem_cons, List.not_mem_nil, false_implies, implies_true, List.Pairwise.nil, and_true, Fld.below,
        F.MBX_NSEQ, F.MBX_STAT_FULL, F.MBX_STAT_LEN, F.MBX_WORD] <;> omega)

set_option linter.unusedSimpArgs false in
theorem fieldsFLT_apart (o : Nat) : (fieldsFLT o).Pairwise Fld.below := by
  unfold fieldsFLT
  repeat' refine pairwise_ite ?_ ?_
  all_goals first
    | exact List.Pairwise.nil
    | (simp only [List.pairwise_cons, List.forall_mem_cons, List.not_mem_nil, false_implies, implies_true, List.Pairwise.nil, and_true, Fld.below,
        F.FLT_AONRD, F.FLT_AON_SEQ, F.FLT_CFG_ESC_N, F.FLT_CFG_ESC_U, F.FLT_CFG_ESC_W, F.FLT_CFG_IRQA, F.FLT_CFG_IRQB,
        F.FLT_CNT, F.FLT_CNT_WCLASS, F.FLT_CNT_WCNT, F.FLT_CTRL_AON_MIN, F.FLT_CTRL_FF_MIN, F.FLT_CTRL_LOG_MIN, F.FLT_LOGRD,
        F.FLT_LOG_SEQ, F.FLT_PEND_A, F.FLT_PEND_B, F.FLT_SEV, F.FLT_STAT_CLASSMAX, F.FLT_STAT_COMP_VALID,
        F.FLT_STAT_FF_VALID, F.FLT_STAT_LOCKOUT, F.FLT_STAT_LOST, F.FLT_STAT_PREV_LOCKOUT, F.FLT_STAT_TRIPPED] <;> omega)

set_option linter.unusedSimpArgs false in
theorem fieldsSEC0_apart (o : Nat) : (fieldsSEC0 o).Pairwise Fld.below := by
  unfold fieldsSEC0
  repeat' refine pairwise_ite ?_ ?_
  all_goals first
    | exact List.Pairwise.nil
    | (simp only [List.pairwise_cons, List.forall_mem_cons, List.not_mem_nil, false_implies, implies_true, List.Pairwise.nil, and_true, Fld.below,
        F.SEC_GUARD_LOCK_A, F.SEC_GUARD_LOCK_B, F.SEC_GUARD_MISM_A, F.SEC_GUARD_MISM_B] <;> omega)

set_option linter.unusedSimpArgs false in
theorem fieldsSEC1_apart (o : Nat) : (fieldsSEC1 o).Pairwise Fld.below := by
  unfold fieldsSEC1
  repeat' refine pairwise_ite ?_ ?_
  all_goals first
    | exact List.Pairwise.nil
    | (simp only [List.pairwise_cons, List.forall_mem_cons, List.not_mem_nil, false_implies, implies_true, List.Pairwise.nil, and_true, Fld.below,
        F.SEC_BOOT_FALLBACK, F.SEC_BOOT_IMAGE, F.SEC_BOOT_TRIES, F.SEC_DBG_CLOSE, F.SEC_DBG_DBG_DIS, F.SEC_DBG_DEBUG,
        F.SEC_DBG_LOUPE, F.SEC_DBG_LOUPE_DIS, F.SEC_DBG_REM, F.SEC_DBG_SINCE, F.SEC_FLOOR, F.SEC_FW_FW_VER, F.SEC_HIST,
        F.SEC_KEY_FAILED, F.SEC_KEY_OWNER, F.SEC_KEY_OWRIT, F.SEC_KEY_SLOT, F.SEC_KEY_USED, F.SEC_KEY_VALID,
        F.SEC_PRES_CLOSE, F.SEC_PRES_CTRL_LEN, F.SEC_PRES_CTRL_PORTS, F.SEC_PRES_REM_REM_A, F.SEC_PRES_REM_REM_B,
        F.SEC_PRES_STAT_BUTTON, F.SEC_PRES_STAT_JUMPER, F.SEC_PRES_STAT_OPEN_A, F.SEC_PRES_STAT_OPEN_B, F.SEC_SEAL_BREAKS,
        F.SEC_SEAL_INTACT, F.SEC_SEAL_NHIST, F.SEC_SVN] <;> omega)

set_option linter.unusedSimpArgs false in
theorem fieldsTHM_apart (o : Nat) : (fieldsTHM o).Pairwise Fld.below := by
  unfold fieldsTHM
  repeat' refine pairwise_ite ?_ ?_
  all_goals first
    | exact List.Pairwise.nil
    | (simp only [List.pairwise_cons, List.forall_mem_cons, List.not_mem_nil, false_implies, implies_true, List.Pairwise.nil, and_true, Fld.below,
        F.THM_BAND, F.THM_CNT_BRK, F.THM_CNT_OVER, F.THM_CTRL_BEAD_EN, F.THM_CTRL_DWELL, F.THM_CTRL_FAST_EN,
        F.THM_CTRL_HYST, F.THM_DBRK_BROKEN, F.THM_DHOT, F.THM_DLSET_LSET, F.THM_DOVER, F.THM_DSVC_SVC, F.THM_RK, F.THM_RLIM,
        F.THM_SILENT_FR, F.THM_SUB_HOLD, F.THM_SUB_SUBM, F.THM_THR, F.THM_TRIP, F.THM_WIN_FMGN, F.THM_WIN_RWIN] <;> omega)

set_option linter.unusedSimpArgs false in
theorem fieldsTWN_apart (o : Nat) : (fieldsTWN o).Pairwise Fld.below := by
  unfold fieldsTWN
  repeat' refine pairwise_ite ?_ ?_
  all_goals first
    | exact List.Pairwise.nil
    | (simp only [List.pairwise_cons, List.forall_mem_cons, List.not_mem_nil, false_implies, implies_true, List.Pairwise.nil, and_true, Fld.below,
        F.TWN_CNT_DEMOTIONS, F.TWN_CNT_HANDBACKS, F.TWN_CNT_TAKEOVERS, F.TWN_CNT_YIELDS, F.TWN_CTRL_EN, F.TWN_CTRL_PREF,
        F.TWN_CTRL_REVERT, F.TWN_CTRL_WIT_MIN, F.TWN_CTRL_YIELD_EN, F.TWN_D_TW, F.TWN_EPOCH, F.TWN_HBK_HBK_SEQ, F.TWN_HOLD,
        F.TWN_STAT_H1_MISS, F.TWN_STAT_H1_UP, F.TWN_STAT_H2_MISS, F.TWN_STAT_H2_UP, F.TWN_STAT_HBK_PEND, F.TWN_STAT_STATE,
        F.TWN_STAT_SYNCED, F.TWN_STAT_UNIT, F.TWN_STAT_WIT_SILENT, F.TWN_SYNCW, F.TWN_YMASK] <;> omega)

set_option linter.unusedSimpArgs false in
theorem fieldsSTK_apart (o : Nat) : (fieldsSTK o).Pairwise Fld.below := by
  unfold fieldsSTK
  repeat' refine pairwise_ite ?_ ?_
  all_goals first
    | exact List.Pairwise.nil
    | (simp only [List.pairwise_cons, List.forall_mem_cons, List.not_mem_nil, false_implies, implies_true, List.Pairwise.nil, and_true, Fld.below,
        F.STK_CNT_CRC_ERR, F.STK_CNT_MISS_CNT, F.STK_CTRL_DEP_EN, F.STK_CTRL_EN, F.STK_CTRL_NDEV, F.STK_CTRL_ORPHAN,
        F.STK_CTRL_QPROP, F.STK_CTRL_RING, F.STK_D_MAX, F.STK_EPOCH, F.STK_ID, F.STK_MRX, F.STK_MRX_STAT_FULL,
        F.STK_MRX_STAT_LEN, F.STK_MRX_STAT_SRC, F.STK_MTX, F.STK_MTX_CTRL_DST, F.STK_MTX_CTRL_GO, F.STK_MTX_CTRL_LEN,
        F.STK_MTX_CTRL_MSEQ, F.STK_RBASE, F.STK_RSRC, F.STK_SBASE, F.STK_STAT_BROKEN, F.STK_STAT_MASTER_ID, F.STK_STAT_MISS,
        F.STK_STAT_PRESENT, F.STK_STAT_ROLE, F.STK_STAT_RSTALE, F.STK_STAT_SP_STALE] <;> omega)

set_option linter.unusedSimpArgs false in
theorem fieldsWIDE_apart (p o : Nat) : (fieldsWIDE p o).Pairwise Fld.below := by
  unfold fieldsWIDE
  repeat' refine pairwise_ite ?_ ?_
  all_goals first
    | exact List.Pairwise.nil
    | (simp only [List.pairwise_cons, List.forall_mem_cons, List.not_mem_nil, false_implies, implies_true, List.Pairwise.nil, and_true, Fld.below,
        F.WIDE_SEL, F.WIDE_STAT_BADSEL, F.WIDE_STAT_VALID, F.WIDE_W0_WIDE0, F.WIDE_W1_WIDE1, F.WIDE_W2_WIDE2,
        F.WIDE_W3_WIDE3] <;> omega)

set_option linter.unusedSimpArgs false in
theorem fieldsLANE_apart (n o : Nat) : (fieldsLANE n o).Pairwise Fld.below := by
  unfold fieldsLANE
  repeat' refine pairwise_ite ?_ ?_
  all_goals first
    | exact List.Pairwise.nil
    | (simp only [List.pairwise_cons, List.forall_mem_cons, List.not_mem_nil, false_implies, implies_true, List.Pairwise.nil, and_true, Fld.below,
        F.LANE_ASYM, F.LANE_BRING_DWELL, F.LANE_BRING_ERR_LIM, F.LANE_CTRL_END, F.LANE_CTRL_MAX_RATE, F.LANE_CTRL_ROLE,
        F.LANE_CTRL_SPARE_FOR, F.LANE_CTRL_STR, F.LANE_DLY, F.LANE_ERR_DOWN_CNT, F.LANE_ERR_DWELL_ERR,
        F.LANE_ERR_REJOIN_FAIL, F.LANE_LOS_HYST, F.LANE_LOS_TH, F.LANE_MOD_BUS, F.LANE_MOD_CH, F.LANE_MOD_DDM,
        F.LANE_MOD_PRESENT, F.LANE_NET_RXD, F.LANE_NET_TXD, F.LANE_STAT_HOPS, F.LANE_STAT_LOL, F.LANE_STAT_LOL_SEEN,
        F.LANE_STAT_LOS, F.LANE_STAT_LOS_SEEN, F.LANE_STAT_PHASE, F.LANE_STAT_RATE, F.LANE_STAT_RATES, F.LANE_STAT_TEST] <;>
        omega)

set_option linter.unusedSimpArgs false in
theorem fieldsSTR_apart (s o : Nat) : (fieldsSTR s o).Pairwise Fld.below := by
  unfold fieldsSTR
  repeat' refine pairwise_ite ?_ ?_
  all_goals first
    | exact List.Pairwise.nil
    | (simp only [List.pairwise_cons, List.forall_mem_cons, List.not_mem_nil, false_implies, implies_true, List.Pairwise.nil, and_true, Fld.below,
        F.STR_CTRL_BEND, F.STR_CTRL_EN, F.STR_CTRL_NBEAD, F.STR_ERR_ID_ERR, F.STR_ERR_UPL_CRC, F.STR_MISS, F.STR_POS_BEAD,
        F.STR_POS_VALID, F.STR_STAT_BREAK, F.STR_STAT_BROKEN, F.STR_STAT_HEARD, F.STR_STAT_UP] <;> omega)

set_option linter.unusedSimpArgs false in
theorem fieldsBDT_apart (b o : Nat) : (fieldsBDT b o).Pairwise Fld.below := by
  unfold fieldsBDT
  repeat' refine pairwise_ite ?_ ?_
  all_goals first
    | exact List.Pairwise.nil
    | (simp only [List.pairwise_cons, List.forall_mem_cons, List.not_mem_nil, false_implies, implies_true, List.Pairwise.nil, and_true, Fld.below,
        F.BDT_ASYM, F.BDT_CFGW, F.BDT_CNT_BYPASSES, F.BDT_CNT_INSERTS, F.BDT_DT_DAB_DT_P, F.BDT_DT_DAB_DT_S, F.BDT_HPER,
        F.BDT_OC_LIM, F.BDT_OVP_BYP, F.BDT_STATE, F.BDT_STATE_FAILED, F.BDT_STATE_READY, F.BDT_STATE_ROLE, F.BDT_STATE_SLOT,
        F.BDT_STATE_STRING, F.BDT_STATE_UNCONF, F.BDT_T0, F.BDT_TCHG, F.BDT_UVLO] <;> omega)

set_option linter.unusedSimpArgs false in
theorem fieldsBTH_apart (b o : Nat) : (fieldsBTH b o).Pairwise Fld.below := by
  unfold fieldsBTH
  repeat' refine pairwise_ite ?_ ?_
  all_goals first
    | exact List.Pairwise.nil
    | (simp only [List.pairwise_cons, List.forall_mem_cons, List.not_mem_nil, false_implies, implies_true, List.Pairwise.nil, and_true, Fld.below,
        F.BTH_C0, F.BTH_C1, F.BTH_C2, F.BTH_CFG_HSG, F.BTH_CFG_LSET, F.BTH_EXC_THM_BEXC, F.BTH_HELD, F.BTH_STAT_BROKEN,
        F.BTH_STAT_EN, F.BTH_STAT_FAST, F.BTH_STAT_HOT, F.BTH_TMAX] <;> omega)

set_option linter.unusedSimpArgs false in
theorem fieldsBSV_apart (g o : Nat) : (fieldsBSV g o).Pairwise Fld.below := by
  unfold fieldsBSV
  repeat' refine pairwise_ite ?_ ?_
  all_goals first
    | exact List.Pairwise.nil
    | (simp only [List.pairwise_cons, List.forall_mem_cons, List.not_mem_nil, false_implies, implies_true, List.Pairwise.nil, and_true, Fld.below,
        F.BSV_CHG_BAND, F.BSV_CHG_PHI, F.BSV_CHG_VT, F.BSV_CTRL_AUTO_BYP, F.BSV_CTRL_AUTO_INS, F.BSV_CTRL_BYP_TO,
        F.BSV_CTRL_EN, F.BSV_CTRL_NMIN, F.BSV_CTRL_NTGT, F.BSV_CTRL_PUMP_SPARE, F.BSV_RDY_BAND, F.BSV_STAT_DEGRADED,
        F.BSV_STAT_NSLOT, F.BSV_STAT_READY_SP, F.BSV_STAT_SHORT, F.BSV_STAT_STEPPING, F.BSV_TB] <;> omega)

set_option linter.unusedSimpArgs false in
theorem fieldsTB_apart (t o : Nat) : (fieldsTB t o).Pairwise Fld.below := by
  unfold fieldsTB
  repeat' refine pairwise_ite ?_ ?_
  all_goals first
    | exact List.Pairwise.nil
    | (simp only [List.pairwise_cons, List.forall_mem_cons, List.not_mem_nil, false_implies, implies_true, List.Pairwise.nil, and_true, Fld.below,
        F.TB_CMPX, F.TB_CMPX_RT_RT0, F.TB_CMPX_RT_RT1, F.TB_CMPX_RT_RT2, F.TB_CMPX_RT_RT3, F.TB_CTRL_AUTOARM, F.TB_CTRL_EN,
        F.TB_CTRL_GRP, F.TB_PER, F.TB_PHS, F.TB_POS, F.TB_PSTEP_PSTEP_MAX, F.TB_STAT_ARMED, F.TB_STAT_PER_REJ,
        F.TB_STAT_RUN, F.TB_STAT_UPDATE_LATE] <;> omega)

set_option linter.unusedSimpArgs false in
theorem fieldsCH_apart (c o : Nat) : (fieldsCH c o).Pairwise Fld.below := by
  unfold fieldsCH
  repeat' refine pairwise_ite ?_ ?_
  all_goals first
    | exact List.Pairwise.nil
    | (simp only [List.pairwise_cons, List.forall_mem_cons, List.not_mem_nil, false_implies, implies_true, List.Pairwise.nil, and_true, Fld.below,
        F.CH_CMP, F.CH_CTRL_EN, F.CH_CTRL_TB, F.CH_CTRL_TRIP_ACT, F.CH_DMAX, F.CH_DMIN, F.CH_MINT, F.CH_PHS,
        F.CH_ROUTE_BEAD, F.CH_ROUTE_KIND, F.CH_ROUTE_PAIR, F.CH_ROUTE_SW, F.CH_STAT_ARMED, F.CH_STAT_DESC_OVF,
        F.CH_STAT_DUTY_CLAMP, F.CH_STAT_LATCHED, F.CH_STAT_PHS_WRAP, F.CH_STAT_STEPPING, F.CH_STAT_UPDATE_LATE,
        F.CH_TCNT_CLEAN, F.CH_TCNT_CNT, F.CH_TCNT_TOTAL, F.CH_TRIP_BLANK, F.CH_TRIP_M, F.CH_TRIP_N, F.CH_TRIP_TEN,
        F.CH_TRIP_TIN] <;> omega)

set_option linter.unusedSimpArgs false in
theorem fieldsEDG_apart (o : Nat) : (fieldsEDG o).Pairwise Fld.below := by
  unfold fieldsEDG
  repeat' refine pairwise_ite ?_ ?_
  all_goals first
    | exact List.Pairwise.nil
    | (simp only [List.pairwise_cons, List.forall_mem_cons, List.not_mem_nil, false_implies, implies_true, List.Pairwise.nil, and_true, Fld.below,
        F.EDG_ARM, F.EDG_PAIR_LOC_ADJ, F.EDG_PAIR_POL_A, F.EDG_PAIR_POL_B, F.EDG_PAIR_SAFE_A, F.EDG_PAIR_SAFE_B,
        F.EDG_STAT_CLK_LOST, F.EDG_STAT_HALT, F.EDG_STAT_QUIESCED, F.EDG_STAT_SAFE, F.EDG_TRIP_FILT, F.EDG_TRIP_LEVEL,
        F.EDG_TRIP_POL] <;> omega)

set_option linter.unusedSimpArgs false in
theorem fieldsGSV_apart (o : Nat) : (fieldsGSV o).Pairwise Fld.below := by
  unfold fieldsGSV
  repeat' refine pairwise_ite ?_ ?_
  all_goals first
    | exact List.Pairwise.nil
    | (simp only [List.pairwise_cons, List.forall_mem_cons, List.not_mem_nil, false_implies, implies_true, List.Pairwise.nil, and_true, Fld.below,
        F.GSV_BEAD_HELD, F.GSV_BEAD_LATCH, F.GSV_BEAD_PCNT, F.GSV_BEAD_PC_DONE, F.GSV_BEAD_PC_FAIL, F.GSV_BEAD_TOGGLING,
        F.GSV_CNT_HST, F.GSV_CNT_ILK, F.GSV_DEN_EN, F.GSV_DEN_LOW_FR, F.GSV_DEN_LVL, F.GSV_DEN_TOGGLE, F.GSV_GSM_FILT,
        F.GSV_GSM_HYST, F.GSV_GSM_KIND, F.GSV_GSM_PAIR, F.GSV_GSM_STAT_BELOW, F.GSV_GSM_STAT_UVLO_SEEN, F.GSV_GSM_TH,
        F.GSV_PAIR_DEN, F.GSV_PAIR_DFB_POL, F.GSV_PAIR_DSAT_EN, F.GSV_PAIR_DSAT_TIN, F.GSV_PAIR_HS_EN, F.GSV_PAIR_HS_TO,
        F.GSV_PAIR_PC_EN, F.GSV_PC_MAXP, F.GSV_PC_OFS, F.GSV_PC_WIDTH, F.GSV_STAT_HELD, F.GSV_STAT_LATCHED] <;> omega)

set_option linter.unusedSimpArgs false in
theorem fieldsADC4_apart (o : Nat) : (fieldsADC4 o).Pairwise Fld.below := by
  unfold fieldsADC4
  repeat' refine pairwise_ite ?_ ?_
  all_goals first
    | exact List.Pairwise.nil
    | (simp only [List.pairwise_cons, List.forall_mem_cons, List.not_mem_nil, false_implies, implies_true, List.Pairwise.nil, and_true, Fld.below,
        F.ADC_CHK_GAIN, F.ADC_CHK_OFS, F.ADC_CST_CHECKS, F.ADC_CST_FAILED, F.ADC_CST_RETIRED] <;> omega)

set_option linter.unusedSimpArgs false in
theorem fieldsADC_apart (c o : Nat) : (fieldsADC c o).Pairwise Fld.below := by
  unfold fieldsADC
  repeat' refine pairwise_ite ?_ ?_
  all_goals first
    | exact List.Pairwise.nil
    | (simp only [List.pairwise_cons, List.forall_mem_cons, List.not_mem_nil, false_implies, implies_true, List.Pairwise.nil, and_true, Fld.below,
        F.ADC_CHK_GAIN, F.ADC_CHK_OFS, F.ADC_CNT_INJ_OVR, F.ADC_CNT_REG_OVR, F.ADC_CST_CHECKS, F.ADC_CST_FAILED,
        F.ADC_CST_RETIRED, F.ADC_CTRL_FSYNC, F.ADC_CTRL_GO, F.ADC_CTRL_INJLEN, F.ADC_CTRL_MODE, F.ADC_CTRL_SEQLEN,
        F.ADC_ISLOT_ACC, F.ADC_ISLOT_AIN, F.ADC_ISLOT_DISC, F.ADC_SLOT_ACC, F.ADC_SLOT_AIN, F.ADC_SLOT_DISC,
        F.ADC_STAT_INJ_Q, F.ADC_STAT_INJ_RUN, F.ADC_STAT_PHYS, F.ADC_STAT_REG_Q, F.ADC_STAT_REG_RUN, F.ADC_STAT_SLOT,
        F.ADC_TAINT, F.ADC_TRGU_TINM, F.ADC_TRGU_TRIPM, F.ADC_TRGU_UCM, F.ADC_TRGU_UTB, F.ADC_TRG_FRAME, F.ADC_TRG_RCM,
        F.ADC_TRG_RTB] <;> omega)

set_option linter.unusedSimpArgs false in
theorem fieldsACQ_apart (o : Nat) : (fieldsACQ o).Pairwise Fld.below := by
  unfold fieldsACQ
  repeat' refine pairwise_ite ?_ ?_
  all_goals first
    | exact List.Pairwise.nil
    | (simp only [List.pairwise_cons, List.forall_mem_cons, List.not_mem_nil, false_implies, implies_true, List.Pairwise.nil, and_true, Fld.below,
        F.ACQ_ALT_ACC, F.ACQ_ALT_AUTO, F.ACQ_ALT_EN, F.ACQ_ALT_PRIM, F.ACQ_ALT_SEL, F.ACQ_ALT_SPARE, F.ACQ_CHKLIM_GAIN,
        F.ACQ_CHKLIM_OFS, F.ACQ_CHK_DIV, F.ACQ_CHK_EN, F.ACQ_CHK_REF_FAULT] <;> omega)

set_option linter.unusedSimpArgs false in
theorem fieldsACC_apart (a o : Nat) : (fieldsACC a o).Pairwise Fld.below := by
  unfold fieldsACC
  repeat' refine pairwise_ite ?_ ?_
  all_goals first
    | exact List.Pairwise.nil
    | (simp only [List.pairwise_cons, List.forall_mem_cons, List.not_mem_nil, false_implies, implies_true, List.Pairwise.nil, and_true, Fld.below,
        F.ACC_CFG_LCLR, F.ACC_CFG_LWIN, F.ACC_CFG_MONE, F.ACC_EXT_MAX, F.ACC_EXT_MIN, F.ACC_GAIN, F.ACC_LEXT_LMAX,
        F.ACC_LEXT_LMIN, F.ACC_MEAN, F.ACC_OFS, F.ACC_STAT_COUNT, F.ACC_STAT_EMPTY, F.ACC_STAT_OVR, F.ACC_STAT_OVR_SEEN,
        F.ACC_STAT_TNT] <;> omega)

set_option linter.unusedSimpArgs false in
theorem fieldsLPE_apart (o : Nat) : (fieldsLPE o).Pairwise Fld.below := by
  unfold fieldsLPE
  repeat' refine pairwise_ite ?_ ?_
  all_goals first
    | exact List.Pairwise.nil
    | (simp only [List.pairwise_cons, List.forall_mem_cons, List.not_mem_nil, false_implies, implies_true, List.Pairwise.nil, and_true, Fld.below,
        F.LPE_ARMG, F.LPE_CNT2_FPEV, F.LPE_CNT2_TRANSIENT, F.LPE_CNT_MISMATCH, F.LPE_CNT_OVR, F.LPE_COEF_BANK,
        F.LPE_COEF_SWAP_PEND, F.LPE_COMMITS, F.LPE_CTRL_CHK_EN, F.LPE_CTRL_OVR_TRIP, F.LPE_CTRL_RUN, F.LPE_CTRL_SPARE_EN,
        F.LPE_ECC_CNT_CORR, F.LPE_ECC_CNT_REMAPS, F.LPE_ECC_ROW_TH, F.LPE_ECC_SPARES_LEFT, F.LPE_ECC_WIN, F.LPE_FCNT,
        F.LPE_PART_LEN, F.LPE_PART_START, F.LPE_PWC, F.LPE_RC_BASE, F.LPE_RC_DIV, F.LPE_RC_PHASE, F.LPE_ROLE, F.LPE_SETP,
        F.LPE_STAT_HELD, F.LPE_STAT_OVR, F.LPE_STAT_OVR_CONSEC, F.LPE_STAT_RUNNING, F.LPE_STAT_RUN_REJ, F.LPE_STAT_SWAPPED,
        F.LPE_STAT_VERIFIED, F.LPE_STAT_VOTE_P, F.LPE_STAT_VOTING, F.LPE_VFYCNT_WCET_CNT, F.LPE_VFYCYC_WCET_CYC,
        F.LPE_VFY_CODE, F.LPE_VFY_ENTRY] <;> omega)

/-- An offset of a bead page that has fields of the bead table has none of its thermal part. -/
theorem bead_parts (b o : Nat) : fieldsBDT b o = [] ∨ fieldsBTH b o = [] := by
  by_cases h : o < 128
  · right
    unfold fieldsBTH
    repeat rw [if_neg (by omega)]
  · left
    unfold fieldsBDT
    repeat rw [if_neg (by omega)]

/-- The fields of one register do not overlap. -/
theorem fieldsAt_apart (a : Nat) : (fieldsAt a).Pairwise Fld.below := by
  unfold fieldsAt
  refine pairwise_ite ?_ ?_
  · refine pairwise_ite ?_ ?_
    · exact fieldsSYS0_apart (a - 0x4100)
    refine pairwise_ite ?_ ?_
    · exact fieldsSYS1_apart (a - 0x4104)
    refine pairwise_ite ?_ ?_
    · exact fieldsSYS2_apart (a - 0x4108)
    refine pairwise_ite ?_ ?_
    · exact fieldsSYS3_apart (a - 0x410c)
    refine pairwise_ite ?_ ?_
    · exact fieldsSYS4_apart (a - 0x4110)
    refine pairwise_ite ?_ ?_
    · exact fieldsSYS5_apart (a - 0x4114)
    refine pairwise_ite ?_ ?_
    · exact fieldsTIM1_apart (a - 0x6004)
    refine pairwise_ite ?_ ?_
    · exact fieldsTIM2_apart (a - 0x6008)
    refine pairwise_ite ?_ ?_
    · exact fieldsSEC0_apart (a - 0xa080)
    refine pairwise_ite ?_ ?_
    · exact fieldsSYS7_apart (a - 0x4300)
    refine pairwise_ite ?_ ?_
    · exact fieldsTIM4_apart ((a - 0x6200) / 16) ((a - 0x6200) % 16)
    refine pairwise_ite ?_ ?_
    · exact fieldsSYS6_apart (a - 0x4200)
    refine pairwise_ite ?_ ?_
    · exact fieldsTIM3_apart ((a - 0x6100) / 32) ((a - 0x6100) % 32)
    refine pairwise_ite ?_ ?_
    · exact fieldsCLK_apart (a - 0x5000)
    refine pairwise_ite ?_ ?_
    · exact fieldsWIDE_apart ((a - 0xe000) / 256) ((a - 0xe000) % 256)
    refine pairwise_ite ?_ ?_
    · exact fieldsTIM0_apart (a - 0x6000)
    refine pairwise_ite ?_ ?_
    · exact fieldsHST0_apart ((a - 0x7000) / 256) ((a - 0x7000) % 256)
    refine pairwise_ite ?_ ?_
    · exact fieldsTWN_apart (a - 0xc000)
    refine pairwise_ite ?_ ?_
    · exact fieldsHST1_apart (a - 0x7200)
    refine pairwise_ite ?_ ?_
    · exact fieldsMBX_apart ((a - 0x8000) / 1024) ((a - 0x8000) % 1024 / 256) ((a - 0x8000) % 256)
    refine pairwise_ite ?_ ?_
    · exact fieldsSEC1_apart (a - 0xa000)
    refine pairwise_ite ?_ ?_
    · exact fieldsSTK_apart (a - 0xd000)
    refine pairwise_ite ?_ ?_
    · exact fieldsTHM_apart (a - 0xb000)
    refine pairwise_ite ?_ ?_
    · exact fieldsFLT_apart (a - 0x9000)
    exact List.Pairwise.nil
  · refine pairwise_ite ?_ ?_
    · exact fieldsBSV_apart ((a - 0x5f000) / 32) ((a - 0x5f000) % 32)
    refine pairwise_ite ?_ ?_
    · exact fieldsACC_apart ((a - 0x84000) / 32) ((a - 0x84000) % 32)
    refine pairwise_ite ?_ ?_
    · exact fieldsLANE_apart ((a - 0x20000) / 4096) ((a - 0x20000) % 4096)
    refine pairwise_ite ?_ ?_
    · exact fieldsCH_apart ((a - 0x64000) / 64) ((a - 0x64000) % 64)
    refine pairwise_ite ?_ ?_
    · rcases bead_parts ((a - 0x50000) / 256) ((a - 0x50000) % 256) with h | h
      · rw [h, List.nil_append]
        exact fieldsBTH_apart _ _
      · rw [h, List.append_nil]
        exact fieldsBDT_apart _ _
    refine pairwise_ite ?_ ?_
    · exact fieldsTB_apart ((a - 0x60000) / 256) ((a - 0x60000) % 256)
    refine pairwise_ite ?_ ?_
    · exact fieldsSTR_apart ((a - 0x40000) / 4096) ((a - 0x40000) % 4096)
    refine pairwise_ite ?_ ?_
    · exact fieldsACQ_apart (a - 0x80800)
    refine pairwise_ite ?_ ?_
    · exact fieldsEDG_apart (a - 0x68000)
    refine pairwise_ite ?_ ?_
    · exact fieldsADC_apart ((a - 0x80000) / 256) ((a - 0x80000) % 256)
    refine pairwise_ite ?_ ?_
    · exact fieldsADC4_apart (a - 0x80400)
    refine pairwise_ite ?_ ?_
    · exact fieldsGSV_apart (a - 0x70000)
    refine pairwise_ite ?_ ?_
    · exact fieldsLPE_apart (a - 0x90000)
    exact List.Pairwise.nil

end Sys2Proof.Machine
end

