-- ==== Sys2Proof/Laws/Memory.lean ====
section
/-! SUPPORT. The loop engine's memories (R223, R225): a word that is written reads back, every other word reads as before, and
every operation on the memories keeps the canonical form of their tables. -/
namespace Sys2Proof.Machine

/-- Both memories are in canonical form: words in rising order, none listed that is 0. -/
def Dev.memWf (d : Dev) : Bool := twf 0 d.lpe.mem && twf 0 d.lpe.prog

theorem Dev.smem_putS (d : Dev) (a b v : Nat) : (d.putS a v).smem b = if b = a then v % 2 ^ 32 else d.smem b := by
  unfold Dev.smem Dev.putS Dev.upLpe
  exact tget_tput 0 d.lpe.mem a b _

theorem Dev.pmem_putP (d : Dev) (a b v : Nat) : (d.putP a v).pmem b = if b = a then v % 2 ^ 32 else d.pmem b := by
  unfold Dev.pmem Dev.putP Dev.upLpe
  exact tget_tput 0 d.lpe.prog a b _

@[simp] theorem Dev.pmem_putS (d : Dev) (a b v : Nat) : (d.putS a v).pmem b = d.pmem b := rfl
@[simp] theorem Dev.smem_putP (d : Dev) (a b v : Nat) : (d.putP a v).smem b = d.smem b := rfl

/-- A word of state memory that is written has no uncorrectable error any more (R252). -/
theorem Dev.putS_good (d : Dev) (a v : Nat) : tget false (d.putS a v).lpe.bad (65536 + a) = false := by
  exact tget_tput_self false d.lpe.bad (65536 + a) false

/-- The same for program memory. -/
theorem Dev.putP_good (d : Dev) (a v : Nat) : tget false (d.putP a v).lpe.bad a = false := by
  exact tget_tput_self false d.lpe.bad a false

theorem Dev.memWf_putS (d : Dev) (a v : Nat) (h : d.memWf = true) : (d.putS a v).memWf = true := by
  simp only [Dev.memWf, Bool.and_eq_true] at h ⊢
  exact ⟨twf_tput _ _ _ _ h.1, h.2⟩

theorem Dev.memWf_putP (d : Dev) (a v : Nat) (h : d.memWf = true) : (d.putP a v).memWf = true := by
  simp only [Dev.memWf, Bool.and_eq_true] at h ⊢
  exact ⟨h.1, twf_tput _ _ _ _ h.2⟩

/-- Storing consecutive words keeps the canonical form, whichever memory they go to. -/
theorem Dev.memWf_storeWords {put : Dev → Nat → Nat → Dev} (hput : ∀ d a v, d.memWf = true → (put d a v).memWf = true) (n : Nat) :
    ∀ (d : Dev) (w : Nat) (b : List Byte), d.memWf = true → (d.storeWords put n w b).memWf = true := by
  induction n with
  | zero => intro d w b h; exact h
  | succ n ih => intro d w b h; exact ih _ _ _ (hput _ _ _ h)

@[simp] theorem Dev.memWf_wr (d : Dev) (f : Fld) (v : Nat) : (d.wr f v).memWf = d.memWf := rfl

theorem Dev.memWf_foldl {α : Type} (l : List α) (f : Dev → α → Dev) (hf : ∀ d x, (f d x).memWf = d.memWf) (d : Dev) : (l.foldl f d).memWf = d.memWf := by
  induction l generalizing d with
  | nil => rfl
  | cons x r ih => exact (ih _).trans (hf d x)

theorem Dev.memWf_upLpe (d : Dev) (f : LpeSt → LpeSt) (hm : (f d.lpe).mem = d.lpe.mem) (hp : (f d.lpe).prog = d.lpe.prog) : (d.upLpe f).memWf = d.memWf := by
  unfold Dev.memWf Dev.upLpe
  dsimp only
  rw [hm, hp]

/-- So does a program image (R254). -/
theorem Dev.memWf_loadImage (d : Dev) (b : List Byte) (h : d.memWf = true) : (d.loadImage b).memWf = true := by
  unfold Dev.loadImage
  dsimp only
  rw [Dev.memWf_upLpe]
  · simp only [Dev.memWf_wr]
    rw [Dev.memWf_foldl _ _ (by intro d x; simp only [Dev.memWf_wr])]
    rw [Dev.memWf_foldl _ _ (by intro d x; simp only [Dev.memWf_wr])]
    exact memWf_storeWords memWf_putS _ _ _ _ (memWf_storeWords memWf_putS _ _ _ _ (memWf_storeWords memWf_putS _ _ _ _ (memWf_storeWords memWf_putP _ _ _ _ h)))
  · rfl
  · rfl

/-- What the loupe captures leaves the memories alone. -/
@[simp] theorem Dev.memWf_loupeTake (d : Dev) (n : Nat) (l : List (BitVec 64)) : (d.loupeTake n l).memWf = d.memWf := by
  unfold Dev.loupeTake
  split <;> rfl

/-- So does a committed write (R238). -/
theorem Dev.memWf_commitWrite (d : Dev) (ref v : Nat) (h : d.memWf = true) : (d.commitWrite ref v).memWf = true := by
  unfold Dev.commitWrite
  dsimp only
  split
  · exact memWf_putS _ _ _ h
  · split
    · split
      · exact h
      · split
        · exact (Dev.memWf_loupeTake _ _ _).trans h
        · exact h
    · split
      · exact h
      · exact h

theorem State.reset_memWf : State.reset.dev.memWf = true := rfl

end Sys2Proof.Machine
end

