-- ==== Sys2Proof/Laws/Packet.lean ====
section
/-! SUPPORT. What serving a command packet comes to (R431 to R433): an accepted packet runs its effect, a refused one replies
and does nothing else; what taking a packet and replying leave alone. -/
namespace Sys2Proof.Machine

/-! ## Taking and replying touch the ports only -/

/-- A component that changes of the ports and of the last port served do not touch. -/
structure OffPorts {β : Type} (g : Dev → β) : Prop where
  port : ∀ (d : Dev) (p : Nat) (f : Port → Port), g (d.upPort p f) = g d
  last : ∀ (d : Dev) (n : Nat), g { d with lastServed := n } = g d

theorem Dev.takePkt_keeps {β : Type} {g : Dev → β} (hg : OffPorts g) (d : Dev) (op : Nat) (h : Hdr) (ps : List Word) : g (d.takePkt op h ps) = g d := by
  unfold Dev.takePkt
  split
  · rfl
  · split
    · split
      · exact (hg.last _ _).trans (hg.port _ _ _)
      · rfl
    · rfl

theorem Dev.reply_keeps {β : Type} {g : Dev → β} (hg : OffPorts g) (d : Dev) (h : Hdr) (op : Nat) (st : Status) (det : Nat) (ws : List Word) : g (d.reply h op st det ws) = g d := by
  unfold Dev.reply
  split
  · rfl
  · exact hg.port _ _ _

theorem OffPorts.rd (f : Fld) : OffPorts (Dev.rd · f) := ⟨fun d p g => Dev.upPort_rd d p g f, fun _ _ => rfl⟩
theorem OffPorts.regs : OffPorts Dev.regs := ⟨fun d p g => by simp, fun _ _ => rfl⟩
theorem OffPorts.waits : OffPorts Dev.waits := ⟨fun d p g => by simp, fun _ _ => rfl⟩
theorem OffPorts.run : OffPorts Dev.run := ⟨fun d p g => by simp, fun _ _ => rfl⟩
theorem OffPorts.twn : OffPorts Dev.twn := ⟨fun d p g => by simp, fun _ _ => rfl⟩
theorem OffPorts.stk : OffPorts Dev.stk := ⟨fun d p g => by simp, fun _ _ => rfl⟩
theorem OffPorts.frame : OffPorts Dev.frame := ⟨fun d p g => by simp, fun _ _ => rfl⟩
theorem OffPorts.time : OffPorts Dev.time := ⟨fun d p g => by simp, fun _ _ => rfl⟩
theorem OffPorts.lanes : OffPorts Dev.lanes := ⟨fun d p g => by simp, fun _ _ => rfl⟩
theorem OffPorts.beads : OffPorts Dev.beads := ⟨fun d p g => by simp, fun _ _ => rfl⟩
theorem OffPorts.edge : OffPorts Dev.edge := ⟨fun d p g => by simp, fun _ _ => rfl⟩
theorem OffPorts.lpe : OffPorts Dev.lpe := ⟨fun d p g => by simp, fun _ _ => rfl⟩
theorem OffPorts.sec : OffPorts Dev.sec := ⟨fun d p g => by simp, fun _ _ => rfl⟩
theorem OffPorts.nv : OffPorts Dev.nv := ⟨fun d p g => by simp, fun _ _ => rfl⟩
theorem OffPorts.olg : OffPorts Dev.olg := ⟨fun d p g => by simp, fun _ _ => rfl⟩
theorem OffPorts.stage : OffPorts Dev.stage := ⟨fun d p g => by simp, fun _ _ => rfl⟩
theorem OffPorts.stg : OffPorts Dev.stg := ⟨fun d p g => by simp, fun _ _ => rfl⟩
theorem OffPorts.frozen : OffPorts Dev.frozen := ⟨fun d p g => by simp, fun _ _ => rfl⟩
theorem OffPorts.flt : OffPorts Dev.flt := ⟨fun d p g => by simp, fun _ _ => rfl⟩
theorem OffPorts.aon : OffPorts Dev.aon := ⟨fun d p g => by simp, fun _ _ => rfl⟩

@[simp] theorem Dev.takePkt_rd (d : Dev) (op : Nat) (h : Hdr) (ps : List Word) (f : Fld) : (d.takePkt op h ps).rd f = d.rd f := Dev.takePkt_keeps (OffPorts.rd f) d op h ps
@[simp] theorem Dev.reply_rd (d : Dev) (h : Hdr) (op : Nat) (st : Status) (det : Nat) (ws : List Word) (f : Fld) : (d.reply h op st det ws).rd f = d.rd f :=
  Dev.reply_keeps (OffPorts.rd f) d h op st det ws
@[simp] theorem Dev.replyOk_rd (d : Dev) (h : Hdr) (op : Nat) (ws : List Nat) (f : Fld) : (d.replyOk h op ws).rd f = d.rd f := Dev.reply_rd _ _ _ _ _ _ _

/-! ## Verdicts -/

theorem State.accepts_iff {s : State} {op : Nat} {h : Hdr} {ps : List Word} {c : Cmd} :
    s.accepts op h ps c = true ↔ h.port < 2 ∧ s.dev.takes op h = true ∧ (s.taking op h ps).d.holdsCmd op = false ∧
      s.verdict op h ps c = none := by
  simp only [State.accepts, State.judges, Bool.and_eq_true, decide_eq_true_eq, Bool.not_eq_true', Option.isNone_iff_eq_none]
  tauto

/-- Serving a packet that is judged now. -/
theorem Wk.command_judged {s : State} {op : Nat} {h : Hdr} {ps : List Word} (c : Cmd) (j : s.judges op h ps = true) :
    s.wk.on (decide (h.port < 2)) (·.command op h ps c) = (s.taking op h ps).judge op h ps c := by
  simp only [State.judges, Bool.and_eq_true, decide_eq_true_eq, Bool.not_eq_true'] at j
  obtain ⟨⟨hp, ht⟩, hh⟩ := j
  have ht' : s.wk.d.takes op h = true := ht
  simp only [hp, decide_true, Wk.on_true, Wk.command, ht', Bool.not_true, Bool.false_eq_true, if_false]
  rw [show (s.wk.up (·.takePkt op h ps)) = s.taking op h ps from rfl, hh]
  simp

theorem Wk.judge_accepted {s : State} {op : Nat} {h : Hdr} {ps : List Word} {c : Cmd} (a : s.verdict op h ps c = none) :
    (s.taking op h ps).judge op h ps c = c.act (s.taking op h ps) := by
  unfold Wk.judge
  rw [show ((s.taking op h ps).preCheck op h ps).or (c.check (s.taking op h ps)) = none from a]

theorem Wk.judge_refused {s : State} {op : Nat} {h : Hdr} {ps : List Word} {c : Cmd} {x : Status × Nat} (a : s.verdict op h ps c = some x) :
    (s.taking op h ps).judge op h ps c = (s.taking op h ps).refuse op h x := by
  unfold Wk.judge
  rw [show ((s.taking op h ps).preCheck op h ps).or (c.check (s.taking op h ps)) = some x from a]

/-- What serving a packet can come to: nothing, the packet held for the next boundary, a refusal, or the effect. -/
theorem Wk.command_ind {P : Wk → Prop} (w : Wk) (op : Nat) (h : Hdr) (ps : List Word) (c : Cmd) (h0 : P w)
    (held : P ((w.up (·.takePkt op h ps)).up (·.upTwn fun t => { t with held := t.held ++ [⟨op, h, ps⟩] })))
    (refused : ∀ x, P ((w.up (·.takePkt op h ps)).refuse op h x)) (act : P (c.act (w.up (·.takePkt op h ps)))) : P (w.command op h ps c) := by
  unfold Wk.command Wk.judge
  split
  · exact h0
  · dsimp only
    split
    · exact held
    · split
      · exact refused _
      · exact act

/-- The work of an accepted packet is its effect. -/
theorem Wk.command_accepted {s : State} {op : Nat} {h : Hdr} {ps : List Word} {c : Cmd} (a : s.accepts op h ps c = true) :
    s.wk.on (decide (h.port < 2)) (·.command op h ps c) = c.act (s.taking op h ps) := by
  simp only [State.accepts, Bool.and_eq_true, Option.isNone_iff_eq_none] at a
  rw [Wk.command_judged c a.1, Wk.judge_accepted a.2]

/-- An accepted packet runs its effect. -/
theorem State.command_accepted {s : State} {op : Nat} {h : Hdr} {ps : List Word} {c : Cmd} (a : s.accepts op h ps c = true) :
    s.command op h ps c = .next (s.settleWk s.vault (c.act (s.taking op h ps))) := by
  unfold State.command
  rw [State.run_next, Wk.command_accepted a]

/-- The same for a row that writes the protected part. -/
theorem State.commandV_accepted {s : State} {op : Nat} {h : Hdr} {ps : List Word} {c : Cmd} (a : s.accepts op h ps c = true) :
    s.commandV op h ps c = .next (s.settleWk { (c.act (s.taking op h ps)).v with lockout := s.vault.lockout } (c.act (s.taking op h ps))) := by
  unfold State.commandV
  rw [State.runV_next, Wk.command_accepted a]

/-- The same for a row with a MODE. -/
theorem State.modeCommand_accepted {s : State} {mine : Bool} {op : Nat} {h : Hdr} {ps : List Word} {c : Cmd} (m : mine = true) (a : s.accepts op h ps c = true) :
    s.modeCommand mine op h ps c = .next (s.settleWk s.vault (c.act (s.taking op h ps))) := by
  unfold State.modeCommand
  rw [State.run_next, m, Bool.true_and, Wk.command_accepted a]

/-! ## Work that raises no message and leaves STK_STAT.ROLE and TWN_STAT.STATE alone -/

theorem Dev.noteChanges_same (d old : Dev) (h1 : old.rd F.STK_STAT_ROLE = d.rd F.STK_STAT_ROLE) (h2 : old.rd F.TWN_STAT_STATE = d.rd F.TWN_STAT_STATE) :
    d.noteChanges old = d := by
  unfold Dev.noteChanges
  simp [h1, h2]

/-- Then the next state is the device that the work left. -/
theorem State.settleWk_plain (s : State) (v : Vault) (w : Wk) (h : w.ms = []) (h1 : w.d.rd F.STK_STAT_ROLE = s.dev.rd F.STK_STAT_ROLE)
    (h2 : w.d.rd F.TWN_STAT_STATE = s.dev.rd F.TWN_STAT_STATE) : s.settleWk v w = { s with vault := v, dev := w.d } := by
  rw [State.settleWk_quiet s v w h, Dev.noteChanges_same _ _ h1.symm h2.symm]

/-! ## Replies -/

theorem Dev.reply_replied (s : State) (d : Dev) (h : Hdr) (op : Nat) (st : Status) (det : Nat) (ws : List Nat) (hp : h.port < 2) (he : st = .ok ∨ ws = []) :
    Replied { s with dev := d.reply h op st det (ws.map (BitVec.ofNat 32 ·)) } h op st det ws := by
  have hw : (if st = .ok then ws.map (BitVec.ofNat 32 ·) else []) = ws.map (BitVec.ofNat 32 ·) := by
    rcases he with he | he <;> simp [he]
  unfold Replied Dev.reply
  simp only [Nat.not_le.2 hp, if_false, hw]
  split <;> simp_all

/-- The collector keeps a reply of a ring. -/
theorem Replied.calm {s t : State} {h : Hdr} {op : Nat} {st : Status} {det : Nat} {ws : List Nat} (hl : h.locket = false) (c : Calm s.dev t.dev)
    (r : Replied s h op st det ws) : Replied t h op st det ws := by
  unfold Replied at *
  simp only [hl, Bool.false_eq_true, if_false] at *
  exact (c.port h.port).replies _ r

@[simp] theorem State.taking_v (s : State) (op : Nat) (h : Hdr) (ps : List Word) : (s.taking op h ps).v = s.vault := rfl
@[simp] theorem State.taking_ms (s : State) (op : Nat) (h : Hdr) (ps : List Word) : (s.taking op h ps).ms = [] := rfl
@[simp] theorem State.taking_d (s : State) (op : Nat) (h : Hdr) (ps : List Word) : (s.taking op h ps).d = s.dev.takePkt op h ps := rfl
@[simp] theorem State.taking_cyc (s : State) (op : Nat) (h : Hdr) (ps : List Word) : (s.taking op h ps).cyc = 0 := rfl
@[simp] theorem Wk.ok_d (w : Wk) (op : Nat) (h : Hdr) (ws : List Nat) : (w.ok op h ws).d = w.d.replyOk h op ws := rfl
@[simp] theorem Wk.ok_ms (w : Wk) (op : Nat) (h : Hdr) (ws : List Nat) : (w.ok op h ws).ms = w.ms := rfl
@[simp] theorem Wk.ok_v (w : Wk) (op : Nat) (h : Hdr) (ws : List Nat) : (w.ok op h ws).v = w.v := rfl

/-- A command that only reads answers with the reply as the one change. -/
theorem State.command_reads {s : State} {op : Nat} {h : Hdr} {ps : List Word} {c : Cmd} {ws : List Nat} (a : s.accepts op h ps c = true)
    (hc : c.act (s.taking op h ps) = (s.taking op h ps).ok op h ws) :
    s.command op h ps c = .next { s with dev := (s.dev.takePkt op h ps).replyOk h op ws } := by
  rw [State.command_accepted a, hc, State.settleWk_plain _ _ _ (by simp) (by simp) (by simp)]
  rfl

/-- An accepted command that raises no message, and leaves STK_STAT.ROLE and TWN_STAT.STATE alone, answers the device its
effect leaves. -/
theorem State.command_did {s : State} {op : Nat} {h : Hdr} {ps : List Word} {c : Cmd} {d : Dev} (a : s.accepts op h ps c = true)
    (hd : (c.act (s.taking op h ps)).d = d) (hm : (c.act (s.taking op h ps)).ms = []) (h1 : d.rd F.STK_STAT_ROLE = s.dev.rd F.STK_STAT_ROLE)
    (h2 : d.rd F.TWN_STAT_STATE = s.dev.rd F.TWN_STAT_STATE) : s.command op h ps c = .next (s.withDev d) := by
  subst hd
  rw [State.command_accepted a, State.settleWk_plain _ _ _ hm h1 h2]

/-- The same for a row with a MODE. -/
theorem State.mode_did {s : State} {mine : Bool} {op : Nat} {h : Hdr} {ps : List Word} {c : Cmd} {d : Dev} (m : mine = true) (a : s.accepts op h ps c = true)
    (hd : (c.act (s.taking op h ps)).d = d) (hm : (c.act (s.taking op h ps)).ms = []) (h1 : d.rd F.STK_STAT_ROLE = s.dev.rd F.STK_STAT_ROLE)
    (h2 : d.rd F.TWN_STAT_STATE = s.dev.rd F.TWN_STAT_STATE) : s.modeCommand mine op h ps c = .next (s.withDev d) := by
  subst hd
  rw [State.modeCommand_accepted m a, State.settleWk_plain _ _ _ hm h1 h2]

@[simp] theorem Dev.mirror_rd (d : Dev) (m : Mgt) (f : Fld) : (d.mirror m).rd f = d.rd f := by unfold Dev.mirror; split <;> rfl
@[simp] theorem Wk.mirror_d (w : Wk) (op : Nat) (ps : List Word) (due : BitVec 32) : (w.mirror op ps due).d = w.d.mirror (.cmd op ps due) := rfl
@[simp] theorem Wk.mirror_ms (w : Wk) (op : Nat) (ps : List Word) (due : BitVec 32) : (w.mirror op ps due).ms = w.ms := rfl

end Sys2Proof.Machine
end

