-- ==== Sys2Proof/WellFormed.lean ====
section
/-! DEFINITION. Which commands are well-formed: the operands lie in the ranges the spec gives them. A command that is not
well-formed names no unit of the device (a third host port, a 25th lane, a 97th bead); no sender can send it. -/
namespace Sys2Proof

/-- A header names HPA or HPB, one of 16 rings or of 4 lockets, and one of 4 priorities (Table 16-1). -/
def Hdr.wf (h : Hdr) : Bool := decide (h.port < 2) && decide (h.ring < if h.locket then 4 else 16) && decide (h.prio < 4)

/-- A packet: its header, and parameter words that the 16-bit word count can give (Table 16-1). -/
def packetWf (h : Hdr) (ps : List Word) : Bool := h.wf && decide (ps.length < 65536)

/-- A slot of one of the four sequences, or a third of the reference (R194, R210). -/
def AdcSlot.wf : AdcSlot → Bool
  | .reg c k => decide (c < 4) && decide (k < 32)
  | .inj c k => decide (c < 4) && decide (k < 8)
  | .ref t => decide (t < 3)

/-- The operands of a command lie in their ranges. [Log: DESIGN CHOICE 22] -/
def Instr.wf : Instr → Bool
  | .frameBoundary => true
  | .longWindowClose a => decide (a < 128)
  | .uplEnd => true
  | .partitionComplete cl _ => decide (cl < 6)
  | .lpeSpareReady => true
  | .planInstant => true
  | .bypassTimeout b => decide (b < 96)
  | .prechargeLimit isPair n => decide (n < if isPair then 16 else 96)
  | .prechargeComplete => true
  | .timebaseReload t => decide (t < 64)
  | .channelTransition c => decide (c < 256)
  | .cmpxFire t m => decide (t < 64) && decide (m < 4)
  | .tripInputAssert x => decide (x.k < 16)
  | .gateDesat l => decide (l.length ≤ 16) && l.all fun x => decide (x.k < 16)
  | .dfbOffLevel x => decide (x.k < 16)
  | .gateHsTimeout k => decide (k < 16)
  | .dfbStuck k => decide (k < 16)
  | .gsmonFall x => decide (x.m < 16) && decide (x.dmv ≤ 12500)
  | .gsmonRise x => decide (x.m < 16) && decide (x.dmv ≤ 12500)
  | .edgeClkLost => true
  | .debugHalt => true
  | .denToggleEnd m => decide (m < 8)
  | .acqRegularTrigger c => decide (c < 4)
  | .acqUrgentTrigger c => decide (c < 4)
  | .acqPassEnd c _ => decide (c < 4)
  | .adcResult phys slot _ => decide (phys < 5) && slot.wf
  | .uplinkRecordReceive _ strand _ => decide (strand < 16)
  | .sensorSilentTimeout b n => decide (b < 96) && decide (n < 8)
  | .thmHoldEnd b => decide (b < 96)
  | .housekeepingRound counts rails => decide (counts.length ≤ 28) && counts.all (fun c => decide (c.getD 0 < 2 ^ 24)) && rails.all fun r => decide (r.1 < 8)
  | .timWrap => true
  | .pulseOutFire n => decide (n < 5)
  | .pulseWidthEnd n => decide (n < 5)
  | .trigInCapture n _ _ => decide (n < 4)
  | .ttRequestSend lane => decide (lane < 24)
  | .ttRequestReceive lane seq _ => decide (lane < 24) && decide (seq < 65536)
  | .ttResponseReceive lane _ seq _ => decide (lane < 24) && decide (seq < 65536)
  | .netFrameReceive lane _ _ _ => decide (lane < 24)
  | .laneLosAssert lane => decide (lane < 24)
  | .laneLosDeassert lane => decide (lane < 24)
  | .laneLolAssert lane => decide (lane < 24)
  | .laneLolDeassert lane => decide (lane < 24)
  | .laneLolPersist lane _ => decide (lane < 24)
  | .linkBringUp lane => decide (lane < 24)
  | .capReceive lane _ => decide (lane < 24)
  | .laneDwellEnd lane _ _ => decide (lane < 24)
  | .capReportTimeout lane => decide (lane < 24)
  | .laneFallbackEnd lane => decide (lane < 24)
  | .laneStepFail lane => decide (lane < 24)
  | .linkRejoin lane _ _ => decide (lane < 24)
  | .linkRejoinRetry lane => decide (lane < 24)
  | .loopTestEnd lane _ _ _ => decide (lane < 24)
  | .modulePoll lane page => decide (lane < 24) && (match page with | some b => decide (b.length = 15) | none => true)
  | .twinListenEnd => true
  | .twinFrameReceive lane _ => decide (lane < 24)
  | .h1Deadline => true
  | .twinSyncComplete => true
  | .h2WordSend => true
  | .h2WordReceive _ => true
  | .h2Deadline => true
  | .hbInDown => true
  | .twinYield => true
  | .twinHoldExpire => true
  | .mgmtLockstep => true
  | .mgmtSelftestDone _ _ => true
  | .cascadeFrameReceive lane _ => decide (lane < 24)
  | .stkMasterMiss => true
  | .stkTakeover => true
  | .stkOrphan => true
  | .stkReturnedReady => true
  | .logWrite => true
  | .notificationDeliver p mbx => decide (p < 2) && decide (mbx < 2)
  | .windowRead p _ _ => decide (p < 2)
  | .windowWrite p _ _ => decide (p < 2)
  | .statusRead p => decide (p < 2)
  | .ringPush p ring _ => decide (p < 2) && decide (ring < 16)
  | .replyPop p _ _ => decide (p < 2)
  | .mbxSend p idx _ _ => decide (p < 2) && decide (idx < 256)
  | .mbxRecv p idx _ => decide (p < 2) && decide (idx < 256)
  | .hostBadInstruction p => decide (p < 2)
  | .mbxCopy p idx => decide (p < 2) && decide (idx < 256)
  | .locketTake p l => decide (p < 2) && decide (l < 4)
  | .kaWarn p => decide (p < 2)
  | .hostKeepaliveLapse p => decide (p < 2)
  | .hstKick p => decide (p < 2)
  | .claspWrite p n _ => decide (p < 2) && decide (n < 32)
  | .doorbellSet p _ => decide (p < 2)
  | .nop h ps => packetWf h ps
  | .ident h ps => packetWf h ps
  | .descRead h ps => packetWf h ps
  | .status h ps => packetWf h ps
  | .keepalive h ps => packetWf h ps
  | .bulkWrite h ps => packetWf h ps
  | .bulkRead h ps => packetWf h ps
  | .regRd h ps => packetWf h ps
  | .regWr h ps => packetWf h ps
  | .regWrPair h ps => packetWf h ps
  | .regRdWide h ps => packetWf h ps
  | .stageOpen h ps => packetWf h ps
  | .stageApply h ps => packetWf h ps
  | .stageAbort h ps => packetWf h ps
  | .stagedSetApply => true
  | .frmApply => true
  | .arm h ps => packetWf h ps
  | .armApply => true
  | .precharge h ps => packetWf h ps
  | .softStart h ps => packetWf h ps
  | .softStartApply => true
  | .autorunComplete => true
  | .run h ps => packetWf h ps
  | .quiesce h ps => packetWf h ps
  | .stop h ps => packetWf h ps
  | .beadBypass h ps => packetWf h ps
  | .beadInsert h ps => packetWf h ps
  | .beadRetire h ps => packetWf h ps
  | .beadCommandAct => true
  | .beadEnableToggle h ps => packetWf h ps
  | .lpLoadOpen h ps => packetWf h ps
  | .lpLoadCommit h ps => packetWf h ps
  | .lpLoadAbort h ps => packetWf h ps
  | .lpVerify h ps => packetWf h ps
  | .coefSwap h ps => packetWf h ps
  | .coefSwapApply => true
  | .fltLog h ps => packetWf h ps
  | .fltInject h ps => packetWf h ps
  | .fltClear h ps => packetWf h ps
  | .timeStep h ps => packetWf h ps
  | .timeInc h ps => packetWf h ps
  | .pulseSet h ps => packetWf h ps
  | .captureRead h ps => packetWf h ps
  | .twinStatus h ps => packetWf h ps
  | .twinPrefer h ps => packetWf h ps
  | .twinHandback h ps => packetWf h ps
  | .stackStatus h ps => packetWf h ps
  | .stackReclaim h ps => packetWf h ps
  | .rate h ps => packetWf h ps
  | .loopTest h ps => packetWf h ps
  | .moduleRead h ps _ => packetWf h ps
  | .netSend h ps => packetWf h ps
  | .fwUpdateOpen h ps => packetWf h ps
  | .fwUpdateCommit h ps _ => packetWf h ps
  | .fwUpdateAbort h ps => packetWf h ps
  | .keyProvision h ps => packetWf h ps
  | .ownerKey h ps => packetWf h ps
  | .guardUnlock h ps => packetWf h ps
  | .hallmark h ps _ => packetWf h ps
  | .debugOpen h ps => packetWf h ps
  | .fuseWrite h ps => packetWf h ps
  | .registerWrite p _ _ => decide (p < 2)
  | .bitAliasWrite p _ _ => decide (p < 2)
  | .guardFirstHalf p _ _ => decide (p < 2)
  | .guardComplement p _ _ => decide (p < 2)
  | .holdRequest p => decide (p < 2)
  | .sleepRequest p => decide (p < 2)
  | .holdEntry => true
  | .sleepEntry => true
  | .wakeEvent bit => decide (bit < 5)
  | .holdWake => true
  | .sleepWake => true
  | .clkFail dom => decide (dom < 8)
  | .pllLockTimeout => true
  | .supplyFault rail _ => decide (rail < 8)
  | .vaonPowerOn => true
  | .corePowerOn => true
  | .porNRelease stackId _ _ _ => decide (stackId < 8)
  | .resetNRelease stackId _ => decide (stackId < 8)
  | .bistComplete mask rows => decide (mask < 64) && rows.all fun r => decide (r < 1024)
  | .frameGeneratorStart => true
  | .discoveryEnd => true
  | .timeLockStepEnd => true
  | .olgCrcUpdate => true
  | .wideSelWrite p _ => decide (p < 2)
  | .wideSnapshotReady p => decide (p < 2)
  | .wide3Read p => decide (p < 2)
  | .stkMrxRead w => decide (w < 16)
  | .stkMailSend => true
  | .edgArmWrite p _ => decide (p < 2)
  | .carShadowWrite p _ _ => decide (p < 2)
  | .timIncIntWrite p _ => decide (p < 2)
  | .timOutCtrlWrite p n _ => decide (p < 2) && decide (n < 5)
  | .timOutTgtHiWrite p n _ => decide (p < 2) && decide (n < 5)
  | .timOutPerHiWrite p n _ => decide (p < 2) && decide (n < 5)
  | .timOutWidthWrite p n _ => decide (p < 2) && decide (n < 5)
  | .gsvDenToggleWrite p _ => decide (p < 2)
  | .adcGoWrite p c => decide (p < 2) && decide (c < 4)
  | .accLclrWrite p a => decide (p < 2) && decide (a < 128)
  | .lpeRunWrite p _ => decide (p < 2)
  | .lpeMemWrite p _ _ => decide (p < 2)
  | .thmBrokenWrite p die b mask => decide (p < 2) && (if die then decide (b = 0) && decide (mask.toNat < 2 ^ 28) else decide (b < 96) && decide (mask.toNat < 256))
  | .secPresClose p => decide (p < 2)
  | .secDbgClose p => decide (p < 2)
  | .memScrub addr _ => decide (addr < 0x60000000)
  | .lpeRowRemap row => decide (row < 1024)
  | .rowCountWindowExpire row => decide (row < 1024)
  | .presWindowOpen => true
  | .presWindowClose p => decide (p < 2)
  | .jumperFitted => true
  | .jumperRemoved => true
  | .sealCheck _ => true
  | .debugWindowExpire => true
  | .downlinkHeaderReceive lane _ => decide (lane < 24)
  | .dnlEnd => true
  | .debugHaltRelease => true
  | .laneRateSwitch lane => decide (lane < 24)
  | .prbs31DwellStart lane => decide (lane < 24)
  | .netAutonegotiation lane => decide (lane < 24)
  | .netFrameSent lane _ => decide (lane < 24)
  | .noAnswerTimeout p => decide (p < 2)
  | .aonCrystalStable => true

end Sys2Proof
end

