-- ==== Sys2Proof/Laws/PerInstr.lean ====
section
/-! SUPPORT. What holds of every command as syntax, one lemma per constructor: a well-formed command that comes over a host
port names HPA or HPB, one of its rings or lockets, and a count of words that the header can give. -/
namespace Sys2Proof.Laws
open Sys2Proof.Machine

/-- A well-formed command comes from one of the two host ports, if it comes from a port at all. -/
def Senders.Statement (i : Instr) : Prop :=
  i.wf = true → (∀ r, packetRow i = some r → r.h.wf = true ∧ r.ps.length < 65536) ∧ ∀ p, hostRow i = some p → p < 2

theorem Senders.of_none {i : Instr} (hp : packetRow i = none) (hn : hostRow i = none) : Senders.Statement i :=
  fun _ => ⟨fun _ h => by simp [hp] at h, fun _ h => by simp [hn] at h⟩

theorem Senders.of_packet {i : Instr} {r0 : PacketRow} (hp : packetRow i = some r0) (hw : i.wf = packetWf r0.h r0.ps) (hn : hostRow i = none) :
    Senders.Statement i := by
  intro h
  rw [hw] at h
  simp only [packetWf, Bool.and_eq_true, decide_eq_true_eq] at h
  exact ⟨fun r hr => by rw [hp] at hr; cases hr; exact h, fun _ hq => by simp [hn] at hq⟩

theorem Senders.of_host {i : Instr} {q : Nat} (hp : packetRow i = none) (hn : hostRow i = some q) (hw : i.wf = true → decide (q < 2) = true) :
    Senders.Statement i :=
  fun h => ⟨fun _ hr => by simp [hp] at hr, fun _ hq => by rw [hn] at hq; cases hq; exact of_decide_eq_true (hw h)⟩

theorem Senders.left {a b : Bool} (h : (a && b) = true) : a = true := (Bool.and_eq_true_iff.mp h).1

theorem Senders.frameBoundary : Senders.Statement (.frameBoundary) :=
  Senders.of_none rfl rfl
theorem Senders.longWindowClose (a : Nat) : Senders.Statement (.longWindowClose a) :=
  Senders.of_none rfl rfl
theorem Senders.uplEnd : Senders.Statement (.uplEnd) :=
  Senders.of_none rfl rfl
theorem Senders.partitionComplete (cl : Nat) (flt : Option (Nat × Word)) : Senders.Statement (.partitionComplete cl flt) :=
  Senders.of_none rfl rfl
theorem Senders.lpeSpareReady : Senders.Statement (.lpeSpareReady) :=
  Senders.of_none rfl rfl
theorem Senders.planInstant : Senders.Statement (.planInstant) :=
  Senders.of_none rfl rfl
theorem Senders.bypassTimeout (b : Nat) : Senders.Statement (.bypassTimeout b) :=
  Senders.of_none rfl rfl
theorem Senders.prechargeLimit (isPair : Bool) (n : Nat) : Senders.Statement (.prechargeLimit isPair n) :=
  Senders.of_none rfl rfl
theorem Senders.prechargeComplete : Senders.Statement (.prechargeComplete) :=
  Senders.of_none rfl rfl
theorem Senders.timebaseReload (t : Nat) : Senders.Statement (.timebaseReload t) :=
  Senders.of_none rfl rfl
theorem Senders.channelTransition (c : Nat) : Senders.Statement (.channelTransition c) :=
  Senders.of_none rfl rfl
theorem Senders.cmpxFire (t m : Nat) : Senders.Statement (.cmpxFire t m) :=
  Senders.of_none rfl rfl
theorem Senders.tripInputAssert (x : TripIn) : Senders.Statement (.tripInputAssert x) :=
  Senders.of_none rfl rfl
theorem Senders.gateDesat (l : List TripIn) : Senders.Statement (.gateDesat l) :=
  Senders.of_none rfl rfl
theorem Senders.dfbOffLevel (x : DfbIn) : Senders.Statement (.dfbOffLevel x) :=
  Senders.of_none rfl rfl
theorem Senders.gateHsTimeout (k : Nat) : Senders.Statement (.gateHsTimeout k) :=
  Senders.of_none rfl rfl
theorem Senders.dfbStuck (k : Nat) : Senders.Statement (.dfbStuck k) :=
  Senders.of_none rfl rfl
theorem Senders.gsmonFall (x : GsmIn) : Senders.Statement (.gsmonFall x) :=
  Senders.of_none rfl rfl
theorem Senders.gsmonRise (x : GsmIn) : Senders.Statement (.gsmonRise x) :=
  Senders.of_none rfl rfl
theorem Senders.edgeClkLost : Senders.Statement (.edgeClkLost) :=
  Senders.of_none rfl rfl
theorem Senders.debugHalt : Senders.Statement (.debugHalt) :=
  Senders.of_none rfl rfl
theorem Senders.denToggleEnd (m : Nat) : Senders.Statement (.denToggleEnd m) :=
  Senders.of_none rfl rfl
theorem Senders.acqRegularTrigger (c : Nat) : Senders.Statement (.acqRegularTrigger c) :=
  Senders.of_none rfl rfl
theorem Senders.acqUrgentTrigger (c : Nat) : Senders.Statement (.acqUrgentTrigger c) :=
  Senders.of_none rfl rfl
theorem Senders.acqPassEnd (c : Nat) (inj : Bool) : Senders.Statement (.acqPassEnd c inj) :=
  Senders.of_none rfl rfl
theorem Senders.adcResult (phys : Nat) (slot : AdcSlot) (x : Sample) : Senders.Statement (.adcResult phys slot x) :=
  Senders.of_none rfl rfl
theorem Senders.uplinkRecordReceive (x : Rx) (strand : Nat) (fromB : Bool) : Senders.Statement (.uplinkRecordReceive x strand fromB) :=
  Senders.of_none rfl rfl
theorem Senders.sensorSilentTimeout (b n : Nat) : Senders.Statement (.sensorSilentTimeout b n) :=
  Senders.of_none rfl rfl
theorem Senders.thmHoldEnd (b : Nat) : Senders.Statement (.thmHoldEnd b) :=
  Senders.of_none rfl rfl
theorem Senders.housekeepingRound (counts : List (Option Nat)) (rails : List (Nat × Bool)) : Senders.Statement (.housekeepingRound counts rails) :=
  Senders.of_none rfl rfl
theorem Senders.timWrap : Senders.Statement (.timWrap) :=
  Senders.of_none rfl rfl
theorem Senders.pulseOutFire (n : Nat) : Senders.Statement (.pulseOutFire n) :=
  Senders.of_none rfl rfl
theorem Senders.pulseWidthEnd (n : Nat) : Senders.Statement (.pulseWidthEnd n) :=
  Senders.of_none rfl rfl
theorem Senders.trigInCapture (n : Nat) (rising : Bool) (x : TrigIn) : Senders.Statement (.trigInCapture n rising x) :=
  Senders.of_none rfl rfl
theorem Senders.ttRequestSend (lane : Nat) : Senders.Statement (.ttRequestSend lane) :=
  Senders.of_none rfl rfl
theorem Senders.ttRequestReceive (lane seq turn : Nat) : Senders.Statement (.ttRequestReceive lane seq turn) :=
  Senders.of_none rfl rfl
theorem Senders.ttResponseReceive (lane rtt seq turn : Nat) : Senders.Statement (.ttResponseReceive lane rtt seq turn) :=
  Senders.of_none rfl rfl
theorem Senders.netFrameReceive (lane : Nat) (fcsOk : Bool) (bytes : List Byte) (ts : BitVec 64) : Senders.Statement (.netFrameReceive lane fcsOk bytes ts) :=
  Senders.of_none rfl rfl
theorem Senders.laneLosAssert (lane : Nat) : Senders.Statement (.laneLosAssert lane) :=
  Senders.of_none rfl rfl
theorem Senders.laneLosDeassert (lane : Nat) : Senders.Statement (.laneLosDeassert lane) :=
  Senders.of_none rfl rfl
theorem Senders.laneLolAssert (lane : Nat) : Senders.Statement (.laneLolAssert lane) :=
  Senders.of_none rfl rfl
theorem Senders.laneLolDeassert (lane : Nat) : Senders.Statement (.laneLolDeassert lane) :=
  Senders.of_none rfl rfl
theorem Senders.laneLolPersist (lane : Nat) (testFail : Bool) : Senders.Statement (.laneLolPersist lane testFail) :=
  Senders.of_none rfl rfl
theorem Senders.linkBringUp (lane : Nat) : Senders.Statement (.linkBringUp lane) :=
  Senders.of_none rfl rfl
theorem Senders.capReceive (lane : Nat) (bytes : List Byte) : Senders.Statement (.capReceive lane bytes) :=
  Senders.of_none rfl rfl
theorem Senders.laneDwellEnd (lane errs : Nat) (lost : Bool) : Senders.Statement (.laneDwellEnd lane errs lost) :=
  Senders.of_none rfl rfl
theorem Senders.capReportTimeout (lane : Nat) : Senders.Statement (.capReportTimeout lane) :=
  Senders.of_none rfl rfl
theorem Senders.laneFallbackEnd (lane : Nat) : Senders.Statement (.laneFallbackEnd lane) :=
  Senders.of_none rfl rfl
theorem Senders.laneStepFail (lane : Nat) : Senders.Statement (.laneStepFail lane) :=
  Senders.of_none rfl rfl
theorem Senders.linkRejoin (lane errs : Nat) (lost : Bool) : Senders.Statement (.linkRejoin lane errs lost) :=
  Senders.of_none rfl rfl
theorem Senders.linkRejoinRetry (lane : Nat) : Senders.Statement (.linkRejoinRetry lane) :=
  Senders.of_none rfl rfl
theorem Senders.loopTestEnd (lane bits errs : Nat) (lost : Bool) : Senders.Statement (.loopTestEnd lane bits errs lost) :=
  Senders.of_none rfl rfl
theorem Senders.modulePoll (lane : Nat) (page : Option (List Byte)) : Senders.Statement (.modulePoll lane page) :=
  Senders.of_none rfl rfl
theorem Senders.twinListenEnd : Senders.Statement (.twinListenEnd) :=
  Senders.of_none rfl rfl
theorem Senders.twinFrameReceive (lane : Nat) (x : Rx) : Senders.Statement (.twinFrameReceive lane x) :=
  Senders.of_none rfl rfl
theorem Senders.h1Deadline : Senders.Statement (.h1Deadline) :=
  Senders.of_none rfl rfl
theorem Senders.twinSyncComplete : Senders.Statement (.twinSyncComplete) :=
  Senders.of_none rfl rfl
theorem Senders.h2WordSend : Senders.Statement (.h2WordSend) :=
  Senders.of_none rfl rfl
theorem Senders.h2WordReceive (w : Byte) : Senders.Statement (.h2WordReceive w) :=
  Senders.of_none rfl rfl
theorem Senders.h2Deadline : Senders.Statement (.h2Deadline) :=
  Senders.of_none rfl rfl
theorem Senders.hbInDown : Senders.Statement (.hbInDown) :=
  Senders.of_none rfl rfl
theorem Senders.twinYield : Senders.Statement (.twinYield) :=
  Senders.of_none rfl rfl
theorem Senders.twinHoldExpire : Senders.Statement (.twinHoldExpire) :=
  Senders.of_none rfl rfl
theorem Senders.mgmtLockstep : Senders.Statement (.mgmtLockstep) :=
  Senders.of_none rfl rfl
theorem Senders.mgmtSelftestDone (p0 p1 : Bool) : Senders.Statement (.mgmtSelftestDone p0 p1) :=
  Senders.of_none rfl rfl
theorem Senders.cascadeFrameReceive (lane : Nat) (x : Rx) : Senders.Statement (.cascadeFrameReceive lane x) :=
  Senders.of_none rfl rfl
theorem Senders.stkMasterMiss : Senders.Statement (.stkMasterMiss) :=
  Senders.of_none rfl rfl
theorem Senders.stkTakeover : Senders.Statement (.stkTakeover) :=
  Senders.of_none rfl rfl
theorem Senders.stkOrphan : Senders.Statement (.stkOrphan) :=
  Senders.of_none rfl rfl
theorem Senders.stkReturnedReady : Senders.Statement (.stkReturnedReady) :=
  Senders.of_none rfl rfl
theorem Senders.logWrite : Senders.Statement (.logWrite) :=
  Senders.of_none rfl rfl
theorem Senders.notificationDeliver (p mbx : Nat) : Senders.Statement (.notificationDeliver p mbx) :=
  Senders.of_none rfl rfl
theorem Senders.windowRead (p : Nat) (addr : Word) (n : Nat) : Senders.Statement (.windowRead p addr n) :=
  Senders.of_host rfl rfl fun h => h
theorem Senders.windowWrite (p : Nat) (addr : Word) (words : List Word) : Senders.Statement (.windowWrite p addr words) :=
  Senders.of_host rfl rfl fun h => h
theorem Senders.statusRead (p : Nat) : Senders.Statement (.statusRead p) :=
  Senders.of_host rfl rfl fun h => h
theorem Senders.ringPush (p ring : Nat) (bytes : List Byte) : Senders.Statement (.ringPush p ring bytes) :=
  Senders.of_host rfl rfl fun h => Senders.left h
theorem Senders.replyPop (p : Nat) (net : Bool) (n : Nat) : Senders.Statement (.replyPop p net n) :=
  Senders.of_host rfl rfl fun h => h
theorem Senders.mbxSend (p idx : Nat) (words : List Word) (cut : Bool) : Senders.Statement (.mbxSend p idx words cut) :=
  Senders.of_host rfl rfl fun h => Senders.left h
theorem Senders.mbxRecv (p idx n : Nat) : Senders.Statement (.mbxRecv p idx n) :=
  Senders.of_host rfl rfl fun h => Senders.left h
theorem Senders.hostBadInstruction (p : Nat) : Senders.Statement (.hostBadInstruction p) :=
  Senders.of_host rfl rfl fun h => h
theorem Senders.mbxCopy (p idx : Nat) : Senders.Statement (.mbxCopy p idx) :=
  Senders.of_none rfl rfl
theorem Senders.locketTake (p l : Nat) : Senders.Statement (.locketTake p l) :=
  Senders.of_none rfl rfl
theorem Senders.kaWarn (p : Nat) : Senders.Statement (.kaWarn p) :=
  Senders.of_none rfl rfl
theorem Senders.hostKeepaliveLapse (p : Nat) : Senders.Statement (.hostKeepaliveLapse p) :=
  Senders.of_none rfl rfl
theorem Senders.hstKick (p : Nat) : Senders.Statement (.hstKick p) :=
  Senders.of_host rfl rfl fun h => h
theorem Senders.claspWrite (p n : Nat) (v : Word) : Senders.Statement (.claspWrite p n v) :=
  Senders.of_host rfl rfl fun h => Senders.left h
theorem Senders.doorbellSet (p : Nat) (mask : BitVec 16) : Senders.Statement (.doorbellSet p mask) :=
  Senders.of_host rfl rfl fun h => h
theorem Senders.nop (h : Hdr) (ps : List Word) : Senders.Statement (.nop h ps) :=
  Senders.of_packet rfl rfl rfl
theorem Senders.ident (h : Hdr) (ps : List Word) : Senders.Statement (.ident h ps) :=
  Senders.of_packet rfl rfl rfl
theorem Senders.descRead (h : Hdr) (ps : List Word) : Senders.Statement (.descRead h ps) :=
  Senders.of_packet rfl rfl rfl
theorem Senders.status (h : Hdr) (ps : List Word) : Senders.Statement (.status h ps) :=
  Senders.of_packet rfl rfl rfl
theorem Senders.keepalive (h : Hdr) (ps : List Word) : Senders.Statement (.keepalive h ps) :=
  Senders.of_packet rfl rfl rfl
theorem Senders.bulkWrite (h : Hdr) (ps : List Word) : Senders.Statement (.bulkWrite h ps) :=
  Senders.of_packet rfl rfl rfl
theorem Senders.bulkRead (h : Hdr) (ps : List Word) : Senders.Statement (.bulkRead h ps) :=
  Senders.of_packet rfl rfl rfl
theorem Senders.regRd (h : Hdr) (ps : List Word) : Senders.Statement (.regRd h ps) :=
  Senders.of_packet rfl rfl rfl
theorem Senders.regWr (h : Hdr) (ps : List Word) : Senders.Statement (.regWr h ps) :=
  Senders.of_packet rfl rfl rfl
theorem Senders.regWrPair (h : Hdr) (ps : List Word) : Senders.Statement (.regWrPair h ps) :=
  Senders.of_packet rfl rfl rfl
theorem Senders.regRdWide (h : Hdr) (ps : List Word) : Senders.Statement (.regRdWide h ps) :=
  Senders.of_packet rfl rfl rfl
theorem Senders.stageOpen (h : Hdr) (ps : List Word) : Senders.Statement (.stageOpen h ps) :=
  Senders.of_packet rfl rfl rfl
theorem Senders.stageApply (h : Hdr) (ps : List Word) : Senders.Statement (.stageApply h ps) :=
  Senders.of_packet rfl rfl rfl
theorem Senders.stageAbort (h : Hdr) (ps : List Word) : Senders.Statement (.stageAbort h ps) :=
  Senders.of_packet rfl rfl rfl
theorem Senders.stagedSetApply : Senders.Statement (.stagedSetApply) :=
  Senders.of_none rfl rfl
theorem Senders.frmApply : Senders.Statement (.frmApply) :=
  Senders.of_none rfl rfl
theorem Senders.arm (h : Hdr) (ps : List Word) : Senders.Statement (.arm h ps) :=
  Senders.of_packet rfl rfl rfl
theorem Senders.armApply : Senders.Statement (.armApply) :=
  Senders.of_none rfl rfl
theorem Senders.precharge (h : Hdr) (ps : List Word) : Senders.Statement (.precharge h ps) :=
  Senders.of_packet rfl rfl rfl
theorem Senders.softStart (h : Hdr) (ps : List Word) : Senders.Statement (.softStart h ps) :=
  Senders.of_packet rfl rfl rfl
theorem Senders.softStartApply : Senders.Statement (.softStartApply) :=
  Senders.of_none rfl rfl
theorem Senders.autorunComplete : Senders.Statement (.autorunComplete) :=
  Senders.of_none rfl rfl
theorem Senders.run (h : Hdr) (ps : List Word) : Senders.Statement (.run h ps) :=
  Senders.of_packet rfl rfl rfl
theorem Senders.quiesce (h : Hdr) (ps : List Word) : Senders.Statement (.quiesce h ps) :=
  Senders.of_packet rfl rfl rfl
theorem Senders.stop (h : Hdr) (ps : List Word) : Senders.Statement (.stop h ps) :=
  Senders.of_packet rfl rfl rfl
theorem Senders.beadBypass (h : Hdr) (ps : List Word) : Senders.Statement (.beadBypass h ps) :=
  Senders.of_packet rfl rfl rfl
theorem Senders.beadInsert (h : Hdr) (ps : List Word) : Senders.Statement (.beadInsert h ps) :=
  Senders.of_packet rfl rfl rfl
theorem Senders.beadRetire (h : Hdr) (ps : List Word) : Senders.Statement (.beadRetire h ps) :=
  Senders.of_packet rfl rfl rfl
theorem Senders.beadCommandAct : Senders.Statement (.beadCommandAct) :=
  Senders.of_none rfl rfl
theorem Senders.beadEnableToggle (h : Hdr) (ps : List Word) : Senders.Statement (.beadEnableToggle h ps) :=
  Senders.of_packet rfl rfl rfl
theorem Senders.lpLoadOpen (h : Hdr) (ps : List Word) : Senders.Statement (.lpLoadOpen h ps) :=
  Senders.of_packet rfl rfl rfl
theorem Senders.lpLoadCommit (h : Hdr) (ps : List Word) : Senders.Statement (.lpLoadCommit h ps) :=
  Senders.of_packet rfl rfl rfl
theorem Senders.lpLoadAbort (h : Hdr) (ps : List Word) : Senders.Statement (.lpLoadAbort h ps) :=
  Senders.of_packet rfl rfl rfl
theorem Senders.lpVerify (h : Hdr) (ps : List Word) : Senders.Statement (.lpVerify h ps) :=
  Senders.of_packet rfl rfl rfl
theorem Senders.coefSwap (h : Hdr) (ps : List Word) : Senders.Statement (.coefSwap h ps) :=
  Senders.of_packet rfl rfl rfl
theorem Senders.coefSwapApply : Senders.Statement (.coefSwapApply) :=
  Senders.of_none rfl rfl
theorem Senders.fltLog (h : Hdr) (ps : List Word) : Senders.Statement (.fltLog h ps) :=
  Senders.of_packet rfl rfl rfl
theorem Senders.fltInject (h : Hdr) (ps : List Word) : Senders.Statement (.fltInject h ps) :=
  Senders.of_packet rfl rfl rfl
theorem Senders.fltClear (h : Hdr) (ps : List Word) : Senders.Statement (.fltClear h ps) :=
  Senders.of_packet rfl rfl rfl
theorem Senders.timeStep (h : Hdr) (ps : List Word) : Senders.Statement (.timeStep h ps) :=
  Senders.of_packet rfl rfl rfl
theorem Senders.timeInc (h : Hdr) (ps : List Word) : Senders.Statement (.timeInc h ps) :=
  Senders.of_packet rfl rfl rfl
theorem Senders.pulseSet (h : Hdr) (ps : List Word) : Senders.Statement (.pulseSet h ps) :=
  Senders.of_packet rfl rfl rfl
theorem Senders.captureRead (h : Hdr) (ps : List Word) : Senders.Statement (.captureRead h ps) :=
  Senders.of_packet rfl rfl rfl
theorem Senders.twinStatus (h : Hdr) (ps : List Word) : Senders.Statement (.twinStatus h ps) :=
  Senders.of_packet rfl rfl rfl
theorem Senders.twinPrefer (h : Hdr) (ps : List Word) : Senders.Statement (.twinPrefer h ps) :=
  Senders.of_packet rfl rfl rfl
theorem Senders.twinHandback (h : Hdr) (ps : List Word) : Senders.Statement (.twinHandback h ps) :=
  Senders.of_packet rfl rfl rfl
theorem Senders.stackStatus (h : Hdr) (ps : List Word) : Senders.Statement (.stackStatus h ps) :=
  Senders.of_packet rfl rfl rfl
theorem Senders.stackReclaim (h : Hdr) (ps : List Word) : Senders.Statement (.stackReclaim h ps) :=
  Senders.of_packet rfl rfl rfl
theorem Senders.rate (h : Hdr) (ps : List Word) : Senders.Statement (.rate h ps) :=
  Senders.of_packet rfl rfl rfl
theorem Senders.loopTest (h : Hdr) (ps : List Word) : Senders.Statement (.loopTest h ps) :=
  Senders.of_packet rfl rfl rfl
theorem Senders.moduleRead (h : Hdr) (ps : List Word) (ans : Option (List Byte)) : Senders.Statement (.moduleRead h ps ans) :=
  Senders.of_packet rfl rfl rfl
theorem Senders.netSend (h : Hdr) (ps : List Word) : Senders.Statement (.netSend h ps) :=
  Senders.of_packet rfl rfl rfl
theorem Senders.fwUpdateOpen (h : Hdr) (ps : List Word) : Senders.Statement (.fwUpdateOpen h ps) :=
  Senders.of_packet rfl rfl rfl
theorem Senders.fwUpdateCommit (h : Hdr) (ps : List Word) (flashFail : Option Nat) : Senders.Statement (.fwUpdateCommit h ps flashFail) :=
  Senders.of_packet rfl rfl rfl
theorem Senders.fwUpdateAbort (h : Hdr) (ps : List Word) : Senders.Statement (.fwUpdateAbort h ps) :=
  Senders.of_packet rfl rfl rfl
theorem Senders.keyProvision (h : Hdr) (ps : List Word) : Senders.Statement (.keyProvision h ps) :=
  Senders.of_packet rfl rfl rfl
theorem Senders.ownerKey (h : Hdr) (ps : List Word) : Senders.Statement (.ownerKey h ps) :=
  Senders.of_packet rfl rfl rfl
theorem Senders.guardUnlock (h : Hdr) (ps : List Word) : Senders.Statement (.guardUnlock h ps) :=
  Senders.of_packet rfl rfl rfl
theorem Senders.hallmark (h : Hdr) (ps : List Word) (selfCheck : Bool) : Senders.Statement (.hallmark h ps selfCheck) :=
  Senders.of_packet rfl rfl rfl
theorem Senders.debugOpen (h : Hdr) (ps : List Word) : Senders.Statement (.debugOpen h ps) :=
  Senders.of_packet rfl rfl rfl
theorem Senders.fuseWrite (h : Hdr) (ps : List Word) : Senders.Statement (.fuseWrite h ps) :=
  Senders.of_packet rfl rfl rfl
theorem Senders.registerWrite (p : Nat) (addr v : Word) : Senders.Statement (.registerWrite p addr v) :=
  Senders.of_host rfl rfl fun h => h
theorem Senders.bitAliasWrite (p : Nat) (addr v : Word) : Senders.Statement (.bitAliasWrite p addr v) :=
  Senders.of_host rfl rfl fun h => h
theorem Senders.guardFirstHalf (p : Nat) (addr v : Word) : Senders.Statement (.guardFirstHalf p addr v) :=
  Senders.of_host rfl rfl fun h => h
theorem Senders.guardComplement (p : Nat) (addr v : Word) : Senders.Statement (.guardComplement p addr v) :=
  Senders.of_host rfl rfl fun h => h
theorem Senders.holdRequest (p : Nat) : Senders.Statement (.holdRequest p) :=
  Senders.of_host rfl rfl fun h => h
theorem Senders.sleepRequest (p : Nat) : Senders.Statement (.sleepRequest p) :=
  Senders.of_host rfl rfl fun h => h
theorem Senders.holdEntry : Senders.Statement (.holdEntry) :=
  Senders.of_none rfl rfl
theorem Senders.sleepEntry : Senders.Statement (.sleepEntry) :=
  Senders.of_none rfl rfl
theorem Senders.wakeEvent (bit : Nat) : Senders.Statement (.wakeEvent bit) :=
  Senders.of_none rfl rfl
theorem Senders.holdWake : Senders.Statement (.holdWake) :=
  Senders.of_none rfl rfl
theorem Senders.sleepWake : Senders.Statement (.sleepWake) :=
  Senders.of_none rfl rfl
theorem Senders.clkFail (dom : Nat) : Senders.Statement (.clkFail dom) :=
  Senders.of_none rfl rfl
theorem Senders.pllLockTimeout : Senders.Statement (.pllLockTimeout) :=
  Senders.of_none rfl rfl
theorem Senders.supplyFault (rail : Nat) (ovr : Bool) : Senders.Statement (.supplyFault rail ovr) :=
  Senders.of_none rfl rfl
theorem Senders.vaonPowerOn : Senders.Statement (.vaonPowerOn) :=
  Senders.of_none rfl rfl
theorem Senders.corePowerOn : Senders.Statement (.corePowerOn) :=
  Senders.of_none rfl rfl
theorem Senders.porNRelease (stackId : Nat) (twinRole ioh33 testEn : Bool) : Senders.Statement (.porNRelease stackId twinRole ioh33 testEn) :=
  Senders.of_none rfl rfl
theorem Senders.resetNRelease (stackId : Nat) (twinRole : Bool) : Senders.Statement (.resetNRelease stackId twinRole) :=
  Senders.of_none rfl rfl
theorem Senders.bistComplete (mask : Nat) (rows : List Nat) : Senders.Statement (.bistComplete mask rows) :=
  Senders.of_none rfl rfl
theorem Senders.frameGeneratorStart : Senders.Statement (.frameGeneratorStart) :=
  Senders.of_none rfl rfl
theorem Senders.discoveryEnd : Senders.Statement (.discoveryEnd) :=
  Senders.of_none rfl rfl
theorem Senders.timeLockStepEnd : Senders.Statement (.timeLockStepEnd) :=
  Senders.of_none rfl rfl
theorem Senders.olgCrcUpdate : Senders.Statement (.olgCrcUpdate) :=
  Senders.of_none rfl rfl
theorem Senders.wideSelWrite (p : Nat) (sel : BitVec 16) : Senders.Statement (.wideSelWrite p sel) :=
  Senders.of_host rfl rfl fun h => h
theorem Senders.wideSnapshotReady (p : Nat) : Senders.Statement (.wideSnapshotReady p) :=
  Senders.of_none rfl rfl
theorem Senders.wide3Read (p : Nat) : Senders.Statement (.wide3Read p) :=
  Senders.of_none rfl rfl
theorem Senders.stkMrxRead (w : Nat) : Senders.Statement (.stkMrxRead w) :=
  Senders.of_none rfl rfl
theorem Senders.stkMailSend : Senders.Statement (.stkMailSend) :=
  Senders.of_none rfl rfl
theorem Senders.edgArmWrite (p : Nat) (v : Word) : Senders.Statement (.edgArmWrite p v) :=
  Senders.of_host rfl rfl fun h => h
theorem Senders.carShadowWrite (p : Nat) (addr v : Word) : Senders.Statement (.carShadowWrite p addr v) :=
  Senders.of_host rfl rfl fun h => h
theorem Senders.timIncIntWrite (p : Nat) (v : Word) : Senders.Statement (.timIncIntWrite p v) :=
  Senders.of_host rfl rfl fun h => h
theorem Senders.timOutCtrlWrite (p n : Nat) (v : Word) : Senders.Statement (.timOutCtrlWrite p n v) :=
  Senders.of_host rfl rfl fun h => Senders.left h
theorem Senders.timOutTgtHiWrite (p n : Nat) (v : Word) : Senders.Statement (.timOutTgtHiWrite p n v) :=
  Senders.of_host rfl rfl fun h => Senders.left h
theorem Senders.timOutPerHiWrite (p n : Nat) (v : Word) : Senders.Statement (.timOutPerHiWrite p n v) :=
  Senders.of_host rfl rfl fun h => Senders.left h
theorem Senders.timOutWidthWrite (p n : Nat) (v : Word) : Senders.Statement (.timOutWidthWrite p n v) :=
  Senders.of_host rfl rfl fun h => Senders.left h
theorem Senders.gsvDenToggleWrite (p : Nat) (mask : BitVec 8) : Senders.Statement (.gsvDenToggleWrite p mask) :=
  Senders.of_host rfl rfl fun h => h
theorem Senders.adcGoWrite (p c : Nat) : Senders.Statement (.adcGoWrite p c) :=
  Senders.of_host rfl rfl fun h => Senders.left h
theorem Senders.accLclrWrite (p a : Nat) : Senders.Statement (.accLclrWrite p a) :=
  Senders.of_host rfl rfl fun h => Senders.left h
theorem Senders.lpeRunWrite (p : Nat) (v : Bool) : Senders.Statement (.lpeRunWrite p v) :=
  Senders.of_host rfl rfl fun h => h
theorem Senders.lpeMemWrite (p : Nat) (addr v : Word) : Senders.Statement (.lpeMemWrite p addr v) :=
  Senders.of_host rfl rfl fun h => h
theorem Senders.thmBrokenWrite (p : Nat) (die : Bool) (b : Nat) (mask : Word) : Senders.Statement (.thmBrokenWrite p die b mask) :=
  Senders.of_host rfl rfl fun h => Senders.left h
theorem Senders.secPresClose (p : Nat) : Senders.Statement (.secPresClose p) :=
  Senders.of_host rfl rfl fun h => h
theorem Senders.secDbgClose (p : Nat) : Senders.Statement (.secDbgClose p) :=
  Senders.of_host rfl rfl fun h => h
theorem Senders.memScrub (addr : Nat) (errs : Nat) : Senders.Statement (.memScrub addr errs) :=
  Senders.of_none rfl rfl
theorem Senders.lpeRowRemap (row : Nat) : Senders.Statement (.lpeRowRemap row) :=
  Senders.of_none rfl rfl
theorem Senders.rowCountWindowExpire (row : Nat) : Senders.Statement (.rowCountWindowExpire row) :=
  Senders.of_none rfl rfl
theorem Senders.presWindowOpen : Senders.Statement (.presWindowOpen) :=
  Senders.of_none rfl rfl
theorem Senders.presWindowClose (p : Nat) : Senders.Statement (.presWindowClose p) :=
  Senders.of_none rfl rfl
theorem Senders.jumperFitted : Senders.Statement (.jumperFitted) :=
  Senders.of_none rfl rfl
theorem Senders.jumperRemoved : Senders.Statement (.jumperRemoved) :=
  Senders.of_none rfl rfl
theorem Senders.sealCheck (sample : Bool) : Senders.Statement (.sealCheck sample) :=
  Senders.of_none rfl rfl
theorem Senders.debugWindowExpire : Senders.Statement (.debugWindowExpire) :=
  Senders.of_none rfl rfl
theorem Senders.downlinkHeaderReceive (lane : Nat) (x : Rx) : Senders.Statement (.downlinkHeaderReceive lane x) :=
  Senders.of_none rfl rfl
theorem Senders.dnlEnd : Senders.Statement (.dnlEnd) :=
  Senders.of_none rfl rfl
theorem Senders.debugHaltRelease : Senders.Statement (.debugHaltRelease) :=
  Senders.of_none rfl rfl
theorem Senders.laneRateSwitch (lane : Nat) : Senders.Statement (.laneRateSwitch lane) :=
  Senders.of_none rfl rfl
theorem Senders.prbs31DwellStart (lane : Nat) : Senders.Statement (.prbs31DwellStart lane) :=
  Senders.of_none rfl rfl
theorem Senders.netAutonegotiation (lane : Nat) : Senders.Statement (.netAutonegotiation lane) :=
  Senders.of_none rfl rfl
theorem Senders.netFrameSent (lane : Nat) (ts : BitVec 64) : Senders.Statement (.netFrameSent lane ts) :=
  Senders.of_none rfl rfl
theorem Senders.noAnswerTimeout (p : Nat) : Senders.Statement (.noAnswerTimeout p) :=
  Senders.of_none rfl rfl
theorem Senders.aonCrystalStable : Senders.Statement (.aonCrystalStable) :=
  Senders.of_none rfl rfl

end Sys2Proof.Laws
end

