-- ==== Sys2Proof/Laws/Report.lean ====
section
/-! SUPPORT. Every message that reaches the collector is shown as the last one of its source (R385), unless a later one of the
same source follows it. -/
namespace Sys2Proof.Machine

/-- A message as the collector holds it: class, rank marks and reaction apart, the one that was sent. -/
structure Like (m x : Msg) : Prop where
  fs : x.fs = m.fs
  kind : x.kind = m.kind
  inst : x.inst = m.inst
  time : x.time = m.time
  inj : x.inj = m.inj

theorem Like.refl (m : Msg) : Like m m := ⟨rfl, rfl, rfl, rfl, rfl⟩
theorem Like.trans {a b c : Msg} (h : Like a b) (g : Like b c) : Like a c :=
  ⟨g.fs.trans h.fs, g.kind.trans h.kind, g.inst.trans h.inst, g.time.trans h.time, g.inj.trans h.inj⟩

/-- The last message of a source. -/
def Dev.lastOf (d : Dev) (fs : Nat) : Option Msg := tget none d.flt.last fs

/-! ## What leaves the last messages alone -/

/-- The two devices show the same last messages. -/
def SameLast (d e : Dev) : Prop := e.flt.last = d.flt.last

theorem SameLast.refl (d : Dev) : SameLast d d := rfl
theorem SameLast.trans {a b c : Dev} (h : SameLast a b) (g : SameLast b c) : SameLast a c := Eq.trans g h
theorem SameLast.foldl {β : Type} (f : Dev → β → Dev) (h : ∀ d b, SameLast d (f d b)) (l : List β) (d : Dev) : SameLast d (l.foldl f d) := by
  induction l generalizing d with
  | nil => exact SameLast.refl d
  | cons b r ih => exact (h d b).trans (ih _)
theorem SameLast.ite {c : Prop} [Decidable c] {d a b : Dev} (ha : SameLast d a) (hb : SameLast d b) : SameLast d (if c then a else b) := by
  split <;> assumption
theorem SameLast.wr (d : Dev) (f : Fld) (v : Nat) : SameLast d (d.wr f v) := rfl
theorem SameLast.upPort (d : Dev) (p : Nat) (g : Port → Port) : SameLast d (d.upPort p g) := by simp [SameLast]
theorem SameLast.noteTo (d : Dev) (p m t : Nat) (x : Note) : SameLast d (d.noteTo p m t x) := SameLast.ite (SameLast.upPort _ _ _) (SameLast.refl _)
theorem SameLast.notify (d : Dev) (t : Nat) (ws : List Nat) : SameLast d (d.notify t ws) :=
  (((SameLast.noteTo d 0 0 t _).trans (SameLast.noteTo _ 0 1 t _)).trans (SameLast.noteTo _ 1 0 t _)).trans (SameLast.noteTo _ 1 1 t _)
theorem SameLast.noteRun (d o : Dev) : SameLast d (d.noteRun o) := SameLast.ite (SameLast.refl d) (SameLast.notify d _ _)
theorem SameLast.setRunField (d : Dev) (r : RunState) : SameLast d { d with run := r } := rfl
theorem SameLast.setRun (d : Dev) (r : RunState) : SameLast d (d.setRun r) := by
  unfold Dev.setRun
  split
  · exact SameLast.refl d
  · exact (SameLast.setRunField d r).trans ((SameLast.wr _ _ _).trans (SameLast.noteRun _ _))
theorem SameLast.reply (d : Dev) (h : Hdr) (op : Nat) (st : Status) (det : Nat) (ws : List Word) : SameLast d (d.reply h op st det ws) := by
  unfold Dev.reply
  exact SameLast.ite (SameLast.refl d) (SameLast.upPort _ _ _)
theorem SameLast.setWaits (d : Dev) (l : List Wait) : SameLast d { d with waits := l } := rfl
theorem SameLast.setEdge (d : Dev) (e : EdgeSt) : SameLast d { d with edge := e } := rfl
theorem SameLast.setEdgeFrm (d : Dev) (e : EdgeSt) (l : Tab (List (Nat × BitVec 32))) : SameLast d { d with edge := e, frm := l } := rfl
theorem SameLast.setEdgeRecs (d : Dev) (e : EdgeSt) (n : Nat) : SameLast d { d with edge := e, frame := { d.frame with safeRecs := n } } := rfl
theorem SameLast.setOs (d : Dev) (t : Tab (List Byte)) : SameLast d { d with os := t } := rfl
theorem SameLast.setBeads (d : Dev) (x : Tab BeadSt) : SameLast d { d with beads := x } := rfl
theorem SameLast.setTwn (d : Dev) (x : TwnSt) : SameLast d { d with twn := x } := rfl
theorem SameLast.setRcl (d : Dev) (x : Option Nat) : SameLast d { d with stk := { d.stk with rcl := x } } := rfl
theorem SameLast.closeSet (d : Dev) : SameLast d d.closeSet := rfl
theorem SameLast.setFrmTwn (d : Dev) (l : Tab (List (Nat × BitVec 32))) (t : TwnSt) : SameLast d { d with frm := l, twn := t } := rfl
theorem SameLast.setYield (d : Dev) (b : Bool) : SameLast d { d with yieldDue := b } := rfl
theorem SameLast.settle (d : Dev) (sel : Wait → Bool) (rep : Wait → Status × Nat × List Nat) : SameLast d (d.settle sel rep) :=
  (SameLast.setWaits d _).trans
    (SameLast.foldl (fun e x => e.reply x.hdr x.op (rep x).1 (rep x).2.1 ((rep x).2.2.map (BitVec.ofNat 32 ·))) (fun e _ => SameLast.reply e _ _ _ _ _) _ _)
theorem SameLast.clearTbs (d : Dev) : SameLast d d.clearTbs :=
  SameLast.foldl _ (fun e _ => ((SameLast.wr e _ _).trans (SameLast.wr _ _ _)).trans (SameLast.setEdge _ _)) _ _
theorem SameLast.clearChs (d : Dev) : SameLast d d.clearChs := SameLast.foldl _ (fun e _ => (SameLast.wr e _ _).trans (SameLast.setEdge _ _)) _ _
theorem SameLast.clearEnables (d : Dev) : SameLast d d.clearEnables := ((SameLast.clearTbs d).trans (SameLast.clearChs _)).trans (SameLast.setEdgeFrm _ _ _)
theorem SameLast.pinsSafe (d : Dev) : SameLast d d.pinsSafe := SameLast.foldl _ (fun e _ => SameLast.setEdge e _) _ _
theorem SameLast.setLines (d : Dev) (l : Tab LineSt) (t : Tab (List Byte)) : SameLast d { d with lines := l, os := t } := rfl
theorem SameLast.sendNow (d : Dev) (n : Nat) (b : List Byte) : SameLast d (d.sendNow n b) := SameLast.setLines d _ _
theorem SameLast.sendQs (d : Dev) : SameLast d d.sendQs := SameLast.ite (SameLast.foldl _ (fun e n => SameLast.sendNow e n _) _ _) (SameLast.refl d)
theorem SameLast.loupeTake (d : Dev) (n : Nat) (l : List (BitVec 64)) : SameLast d (d.loupeTake n l) := by
  unfold Dev.loupeTake
  split <;> rfl
theorem SameLast.toSafe (d : Dev) : SameLast d d.toSafe :=
  ((SameLast.clearEnables _).trans <| (SameLast.wr _ _ _).trans <| (SameLast.wr _ _ _).trans <| (SameLast.pinsSafe _).trans (SameLast.sendQs _)).trans
    (SameLast.setEdgeRecs _ _ _)
theorem SameLast.enterSafe (d : Dev) (c : Nat) : SameLast d (d.enterSafe c) :=
  (SameLast.settle d _ _).trans (SameLast.ite (SameLast.refl _) (SameLast.toSafe _))
theorem SameLast.trip (d : Dev) : SameLast d d.trip :=
  ((SameLast.enterSafe d 3).trans (SameLast.wr _ F.FLT_STAT_TRIPPED 1)).trans (SameLast.setRun _ _)
theorem SameLast.lock (d : Dev) : SameLast d d.lock := by
  unfold Dev.lock
  refine SameLast.trans ?_ (SameLast.setRun _ _)
  refine SameLast.trans ?_ (SameLast.ite (SameLast.closeSet _) (SameLast.refl _))
  refine SameLast.trans ?_ (SameLast.settle _ _ _)
  refine SameLast.trans ?_ (SameLast.ite (SameLast.setRcl _ _) (SameLast.refl _))
  refine SameLast.trans ?_ (SameLast.ite ((SameLast.setTwn _ _).trans ((SameLast.wr _ _ _).trans (SameLast.wr _ _ _))) (SameLast.refl _))
  refine SameLast.trans ?_ (SameLast.ite (SameLast.wr _ _ _) (SameLast.refl _))
  refine SameLast.trans ?_ (SameLast.wr _ _ _)
  refine SameLast.trans ?_ (SameLast.setFrmTwn _ _ _)
  refine SameLast.trans ?_ (SameLast.wr _ _ _)
  refine SameLast.trans ?_ (SameLast.wr _ _ _)
  refine SameLast.trans ?_ (SameLast.wr _ _ _)
  exact (SameLast.enterSafe d 3).trans (SameLast.wr _ _ _)
theorem SameLast.reactTo (d : Dev) (r : List Msg) : SameLast d (d.reactTo r) := SameLast.ite (SameLast.lock d) (SameLast.ite (SameLast.trip d) (SameLast.refl d))
theorem SameLast.owner (d : Dev) (m : Msg) : SameLast d (d.owner m) := by
  unfold Dev.owner
  split
  · split
    · unfold Dev.beadFails
      exact SameLast.ite (SameLast.ite (SameLast.setBeads _ _) (SameLast.wr _ _ _)) (SameLast.refl d)
    · exact SameLast.refl d
  · exact SameLast.refl d
theorem SameLast.noteYield (d : Dev) (m : Msg) : SameLast d (d.noteYield m) := SameLast.ite (SameLast.setYield d true) (SameLast.refl d)
theorem SameLast.owners (d : Dev) (r : List Msg) : SameLast d (d.owners r) :=
  (SameLast.foldl Dev.owner SameLast.owner r d).trans (SameLast.foldl Dev.noteYield SameLast.noteYield r _)
theorem SameLast.classify (d : Dev) (m : Msg) : SameLast d (d.classify m).1 := by
  unfold Dev.classify
  dsimp only
  split <;> rfl
theorem SameLast.noteChanges (d old : Dev) : SameLast d (d.noteChanges old) := by
  unfold Dev.noteChanges
  exact (SameLast.ite (SameLast.refl _) (SameLast.notify _ _ _)).trans (SameLast.ite (SameLast.refl _) (SameLast.notify _ _ _))

/-! ## One cycle -/

theorem Dev.classify_like (d : Dev) (m : Msg) : Like m (d.classify m).2 := by
  unfold Dev.classify
  dsimp only
  split <;> exact ⟨rfl, rfl, rfl, rfl, rfl⟩

/-- The list shows every message of another, and no other, up to class and marks. -/
def Shows (ms l : List Msg) : Prop := (∀ m ∈ ms, ∃ x ∈ l, Like m x) ∧ ∀ x ∈ l, ∃ m ∈ ms, Like m x

theorem classifyAll_shows (d : Dev) (ms : List Msg) : SameLast d (classifyAll d ms).1 ∧ Shows ms (classifyAll d ms).2 := by
  have h : ∀ (ms : List Msg) (a : Dev × List Msg),
      let r := ms.foldl (fun (a : Dev × List Msg) m => ((a.1.classify m).1, a.2 ++ [(a.1.classify m).2])) a
      SameLast a.1 r.1 ∧ (∀ x ∈ a.2, x ∈ r.2) ∧ (∀ m ∈ ms, ∃ x ∈ r.2, Like m x) ∧ ∀ x ∈ r.2, x ∈ a.2 ∨ ∃ m ∈ ms, Like m x := by
    intro ms
    induction ms with
    | nil => exact fun a => ⟨rfl, fun x h => h, by simp, fun x h => .inl h⟩
    | cons m r ih =>
      intro a
      obtain ⟨h1, h2, h3, h4⟩ := ih ((a.1.classify m).1, a.2 ++ [(a.1.classify m).2])
      refine ⟨(SameLast.classify _ _).trans h1, fun x hx => h2 x (by simp [hx]), fun m' hm => ?_, fun x hx => ?_⟩
      · rcases List.mem_cons.1 hm with rfl | hm
        · exact ⟨(a.1.classify m').2, h2 _ (by simp), Dev.classify_like _ _⟩
        · exact h3 m' hm
      · rcases h4 x hx with hx | ⟨m', hm, hl⟩
        · rcases List.mem_append.1 hx with hx | hx
          · exact .inl hx
          · simp only [List.mem_singleton] at hx
            exact .inr ⟨m, by simp, hx ▸ Dev.classify_like _ _⟩
        · exact .inr ⟨m', by simp [hm], hl⟩
  obtain ⟨h1, h2, h3, h4⟩ := h ms (d, [])
  exact ⟨h1, h3, fun x hx => (h4 x hx).resolve_left (by simp)⟩

theorem mem_rank {m x : Msg} {l : List Msg} : x ∈ m.rank l ↔ x = m ∨ x ∈ l := by
  induction l with
  | nil => simp [Msg.rank]
  | cons y r ih =>
    simp only [Msg.rank]
    split
    · simp
    · simp only [List.mem_cons, ih]
      tauto

theorem mem_ranked {x : Msg} (l acc : List Msg) : x ∈ l.foldl (fun r m => m.rank r) acc ↔ x ∈ acc ∨ x ∈ l := by
  induction l generalizing acc with
  | nil => simp
  | cons m r ih =>
    simp only [List.foldl_cons, ih, mem_rank, List.mem_cons]
    tauto

theorem markSame_shows (l : List Msg) : Shows l (markSame l) := by
  cases l with
  | nil => exact ⟨by simp, by simp [markSame]⟩
  | cons m r =>
    constructor
    · intro x hx
      rcases List.mem_cons.1 hx with rfl | hx
      · exact ⟨x, by simp [markSame], Like.refl _⟩
      · exact ⟨{ x with same := true }, by simp only [markSame, List.mem_cons, List.mem_map]; exact .inr ⟨x, hx, rfl⟩, ⟨rfl, rfl, rfl, rfl, rfl⟩⟩
    · intro x hx
      simp only [markSame, List.mem_cons, List.mem_map] at hx
      rcases hx with rfl | ⟨y, hy, rfl⟩
      · exact ⟨x, by simp, Like.refl _⟩
      · exact ⟨y, by simp [hy], ⟨rfl, rfl, rfl, rfl, rfl⟩⟩

theorem Shows.trans {a b c : List Msg} (h : Shows a b) (g : Shows b c) : Shows a c := by
  constructor
  · intro m hm
    obtain ⟨x, hx, l⟩ := h.1 m hm
    obtain ⟨y, hy, k⟩ := g.1 x hx
    exact ⟨y, hy, l.trans k⟩
  · intro y hy
    obtain ⟨x, hx, k⟩ := g.2 y hy
    obtain ⟨m, hm, l⟩ := h.2 x hx
    exact ⟨m, hm, l.trans k⟩

theorem rankAll_shows (ms : List Msg) : Shows ms (rankAll ms) := by
  have h1 : Shows ms (ms.foldl (fun r m => m.rank r) []) :=
    ⟨fun m hm => ⟨m, (mem_ranked ms []).2 (.inr hm), Like.refl m⟩, fun x hx => ⟨x, ((mem_ranked ms []).1 hx).resolve_left (by simp), Like.refl x⟩⟩
  refine (h1.trans (markSame_shows _)).trans ?_
  unfold rankAll
  dsimp only
  have like (c : Prop) [Decidable c] (m : Msg) : Like m (if c then { m with react := false } else m) := by
    split
    · exact ⟨rfl, rfl, rfl, rfl, rfl⟩
    · exact Like.refl m
  constructor
  · intro m hm
    exact ⟨_, List.mem_map.2 ⟨m, hm, rfl⟩, like _ m⟩
  · intro x hx
    obtain ⟨m, hm, rfl⟩ := List.mem_map.1 hx
    exact ⟨m, hm, like _ m⟩

theorem SameLast.setQueue (d : Dev) (q : List LogReq) : SameLast d { d with flt := { d.flt with queue := q } } := rfl

theorem SameLast.announce (d : Dev) (m : Msg) : SameLast d (d.announce m) := by
  unfold Dev.announce
  dsimp only
  have one (e : Dev) (p b lim : Nat) (x : Note) : SameLast e (if lim ≤ m.sev then e.noteTo p b 2 x else e) := SameLast.ite (SameLast.noteTo _ _ _ _ _) (SameLast.refl _)
  refine SameLast.trans ?_ ((one _ 0 0 _ _).trans <| (one _ 0 1 _ _).trans <| (one _ 1 0 _ _).trans (one _ 1 1 _ _))
  refine SameLast.trans ?_ (SameLast.ite (SameLast.wr _ _ _) (SameLast.refl _))
  refine SameLast.trans ?_ (SameLast.ite (SameLast.wr _ _ _) (SameLast.refl _))
  refine SameLast.trans ?_ (SameLast.ite (SameLast.refl _) (SameLast.ite (SameLast.setQueue _ _) (SameLast.wr _ _ _)))
  exact SameLast.ite (SameLast.wr _ _ _) (SameLast.refl _)

theorem Dev.report_last (d : Dev) (m : Msg) : (d.report m).flt.last = tput none d.flt.last m.fs (some m) := SameLast.announce _ m

/-- Reporting a list: a source in it shows one of its messages, another source shows what it did. -/
theorem reportAll_last (l : List Msg) (d : Dev) (fs : Nat) :
    ((∀ m ∈ l, m.fs ≠ fs) → (l.foldl Dev.report d).lastOf fs = d.lastOf fs) ∧
    ((∃ m ∈ l, m.fs = fs) → ∃ m ∈ l, m.fs = fs ∧ (l.foldl Dev.report d).lastOf fs = some m) := by
  induction l generalizing d with
  | nil => simp
  | cons m r ih =>
    obtain ⟨h1, h2⟩ := ih (d.report m)
    have hl : (d.report m).lastOf fs = if fs = m.fs then some m else d.lastOf fs := by
      unfold Dev.lastOf
      rw [Dev.report_last, tget_tput]
    constructor
    · intro h
      have hm : fs ≠ m.fs := fun e => h m (by simp) e.symm
      simp only [List.foldl_cons]
      rw [h1 fun x hx => h x (by simp [hx]), hl, if_neg hm]
    · intro h
      by_cases hr : ∃ x ∈ r, x.fs = fs
      · obtain ⟨x, hx, hf, e⟩ := h2 hr
        exact ⟨x, by simp [hx], hf, e⟩
      · have hm : m.fs = fs := by
          obtain ⟨x, hx, hf⟩ := h
          rcases List.mem_cons.1 hx with rfl | hx
          · exact hf
          · exact absurd ⟨x, hx, hf⟩ hr
        refine ⟨m, by simp, hm, ?_⟩
        simp only [List.foldl_cons]
        rw [h1 fun x hx e => hr ⟨x, hx, e⟩, hl, if_pos hm.symm]

theorem cycle_last (v : Vault) (d : Dev) (ms : List Msg) (fs : Nat) :
    ((∀ m ∈ ms, m.fs ≠ fs) → (collectCycle v d ms).2.lastOf fs = d.lastOf fs) ∧
    ((∃ m ∈ ms, m.fs = fs) → ∃ m ∈ ms, m.fs = fs ∧ ∃ x, (collectCycle v d ms).2.lastOf fs = some x ∧ Like m x) := by
  obtain ⟨hs, sh⟩ := classifyAll_shows d ms
  have sh := sh.trans (rankAll_shows (classifyAll d ms).2)
  have he : (collectCycle v d ms).2.lastOf fs = ((rankAll (classifyAll d ms).2).foldl Dev.report (classifyAll d ms).1).lastOf fs := by
    have h : SameLast ((rankAll (classifyAll d ms).2).foldl Dev.report (classifyAll d ms).1) (collectCycle v d ms).2 :=
      (SameLast.loupeTake _ _ _).trans ((SameLast.owners _ _).trans (SameLast.reactTo _ _))
    unfold Dev.lastOf
    rw [show (collectCycle v d ms).2.flt.last = _ from h]
  obtain ⟨h1, h2⟩ := reportAll_last (rankAll (classifyAll d ms).2) (classifyAll d ms).1 fs
  constructor
  · intro h
    rw [he, h1]
    · unfold Dev.lastOf
      rw [show (classifyAll d ms).1.flt.last = _ from hs]
    · intro x hx
      obtain ⟨m, hm, l⟩ := sh.2 x hx
      rw [l.fs]
      exact h m hm
  · rintro ⟨m, hm, hf⟩
    obtain ⟨x, hx, l⟩ := sh.1 m hm
    obtain ⟨y, hy, hyf, e⟩ := h2 ⟨x, hx, by rw [l.fs, hf]⟩
    obtain ⟨m', hm', l'⟩ := sh.2 y hy
    exact ⟨m', hm', by rw [← l'.fs, hyf], y, by rw [he, e], l'⟩

/-! ## All of a command's messages -/

theorem collectAll_last (n c : Nat) (v : Vault) (d : Dev) (ms : List Msg) (fs : Nat) (hc : ∀ m ∈ ms, c ≤ m.cyc ∧ m.cyc < c + n) :
    ((∀ m ∈ ms, m.fs ≠ fs) → (collectAll n c v d ms).2.lastOf fs = d.lastOf fs) ∧
    ((∃ m ∈ ms, m.fs = fs) → ∃ m ∈ ms, m.fs = fs ∧ ∃ x, (collectAll n c v d ms).2.lastOf fs = some x ∧ Like m x) := by
  induction n generalizing c v d ms with
  | zero =>
    constructor
    · intro _; rfl
    · rintro ⟨m, hm, _⟩
      have := hc m hm
      omega
  | succ n ih =>
    unfold collectAll
    split
    · rename_i h0
      subst h0
      simp
    · split
      · rename_i hg
        refine ih (c + 1) v d ms fun m hm => ?_
        have h1 := hc m hm
        have h2 : m.cyc ≠ c := fun e => by
          have : m ∈ ms.filter (·.cyc = c) := by simp [hm, e]
          rw [hg] at this
          simp at this
        omega
      · rename_i g hg
        have hr : ∀ m ∈ ms.filter (·.cyc ≠ c), c + 1 ≤ m.cyc ∧ m.cyc < c + 1 + n := by
          intro m hm
          simp only [List.mem_filter, decide_eq_true_eq, ne_eq] at hm
          have := hc m hm.1
          omega
        obtain ⟨i1, i2⟩ := ih (c + 1) (collectCycle v d (ms.filter (·.cyc = c))).1 (collectCycle v d (ms.filter (·.cyc = c))).2 (ms.filter (·.cyc ≠ c)) hr
        obtain ⟨c1, c2⟩ := cycle_last v d (ms.filter (·.cyc = c)) fs
        constructor
        · intro h
          rw [i1 fun m hm => h m (List.mem_filter.1 hm).1, c1 fun m hm => h m (List.mem_filter.1 hm).1]
        · intro h
          by_cases hl : ∃ m ∈ ms.filter (·.cyc ≠ c), m.fs = fs
          · obtain ⟨m, hm, hf, x, hx, l⟩ := i2 hl
            exact ⟨m, (List.mem_filter.1 hm).1, hf, x, hx, l⟩
          · have hl' : ∀ m ∈ ms.filter (·.cyc ≠ c), m.fs ≠ fs := fun m hm e => hl ⟨m, hm, e⟩
            have hg' : ∃ m ∈ ms.filter (·.cyc = c), m.fs = fs := by
              obtain ⟨m, hm, hf⟩ := h
              refine ⟨m, ?_, hf⟩
              simp only [List.mem_filter, decide_eq_true_eq]
              refine ⟨hm, ?_⟩
              by_contra hne
              exact hl ⟨m, by simp [hm, hne], hf⟩
            obtain ⟨m, hm, hf, x, hx, l⟩ := c2 hg'
            exact ⟨m, (List.mem_filter.1 hm).1, hf, x, by rw [i1 hl', hx], l⟩

/-- After a command a source that one or more of its messages name shows one of them. -/
theorem State.settleWk_last (s : State) (v : Vault) (w : Wk) (hc : ∀ m ∈ w.ms, m.cyc ≤ w.cyc) (fs : Nat) (h : ∃ m ∈ w.ms, m.fs = fs) :
    ∃ m ∈ w.ms, m.fs = fs ∧ ∃ x, (s.settleWk v w).dev.lastOf fs = some x ∧ Like m x := by
  obtain ⟨m, hm, hf, x, hx, l⟩ := (collectAll_last (w.cyc + 1) 0 v w.d w.ms fs fun m hm => ⟨Nat.zero_le _, by have := hc m hm; omega⟩).2 h
  refine ⟨m, hm, hf, x, ?_, l⟩
  have hs : SameLast (collectAll (w.cyc + 1) 0 v w.d w.ms).2 (s.settleWk v w).dev := SameLast.noteChanges _ _
  unfold Dev.lastOf at *
  rw [show (s.settleWk v w).dev.flt.last = _ from hs, hx]

/-- A source of which a command sends one message, or several alike, reports it. -/
theorem State.settleWk_reported (s : State) (v : Vault) (w : Wk) (hc : ∀ m ∈ w.ms, m.cyc ≤ w.cyc) (fs kind inst : Nat) (h : ∃ m ∈ w.ms, m.fs = fs)
    (hu : ∀ m ∈ w.ms, m.fs = fs → m.kind = kind ∧ m.inst = inst) : Reported (s.settleWk v w) fs kind inst := by
  obtain ⟨m, hm, hf, x, hx, l⟩ := State.settleWk_last s v w hc fs h
  obtain ⟨h1, h2⟩ := hu m hm hf
  exact ⟨x, hx, l.fs.trans hf, l.kind.trans h1, l.inst.trans h2⟩

end Sys2Proof.Machine
end

