-- ==== Sys2Proof/Laws/Rows.lean ====
section
/-! SUPPORT. Each command runs its own meaning: one equation per arm of the dispatch. -/
namespace Sys2Proof.Machine

theorem exec_frameBoundary (s : State) : exec (.frameBoundary) s = execFrameBoundary s := rfl
theorem exec_longWindowClose (a : Nat) (s : State) : exec (.longWindowClose a) s = execLongWindowClose a s := rfl
theorem exec_uplEnd (s : State) : exec (.uplEnd) s = execUplEnd s := rfl
theorem exec_partitionComplete (cl : Nat) (flt : Option (Nat × Word)) (s : State) : exec (.partitionComplete cl flt) s = execPartitionComplete cl flt s := rfl
theorem exec_lpeSpareReady (s : State) : exec (.lpeSpareReady) s = execLpeSpareReady s := rfl
theorem exec_planInstant (s : State) : exec (.planInstant) s = execPlanInstant s := rfl
theorem exec_bypassTimeout (b : Nat) (s : State) : exec (.bypassTimeout b) s = execBypassTimeout b s := rfl
theorem exec_prechargeLimit (isPair : Bool) (n : Nat) (s : State) : exec (.prechargeLimit isPair n) s = execPrechargeLimit isPair n s := rfl
theorem exec_prechargeComplete (s : State) : exec (.prechargeComplete) s = execPrechargeComplete s := rfl
theorem exec_timebaseReload (t : Nat) (s : State) : exec (.timebaseReload t) s = execTimebaseReload t s := rfl
theorem exec_channelTransition (c : Nat) (s : State) : exec (.channelTransition c) s = execChannelTransition c s := rfl
theorem exec_cmpxFire (t m : Nat) (s : State) : exec (.cmpxFire t m) s = execCmpxFire t m s := rfl
theorem exec_tripInputAssert (x : TripIn) (s : State) : exec (.tripInputAssert x) s = execTripInputAssert x s := rfl
theorem exec_gateDesat (l : List TripIn) (s : State) : exec (.gateDesat l) s = execGateDesat l s := rfl
theorem exec_dfbOffLevel (x : DfbIn) (s : State) : exec (.dfbOffLevel x) s = execDfbOffLevel x s := rfl
theorem exec_gateHsTimeout (k : Nat) (s : State) : exec (.gateHsTimeout k) s = execGateHsTimeout k s := rfl
theorem exec_dfbStuck (k : Nat) (s : State) : exec (.dfbStuck k) s = execDfbStuck k s := rfl
theorem exec_gsmonFall (x : GsmIn) (s : State) : exec (.gsmonFall x) s = execGsmonFall x s := rfl
theorem exec_gsmonRise (x : GsmIn) (s : State) : exec (.gsmonRise x) s = execGsmonRise x s := rfl
theorem exec_edgeClkLost (s : State) : exec (.edgeClkLost) s = execEdgeClkLost s := rfl
theorem exec_debugHalt (s : State) : exec (.debugHalt) s = execDebugHalt s := rfl
theorem exec_denToggleEnd (m : Nat) (s : State) : exec (.denToggleEnd m) s = execDenToggleEnd m s := rfl
theorem exec_acqRegularTrigger (c : Nat) (s : State) : exec (.acqRegularTrigger c) s = execAcqRegularTrigger c s := rfl
theorem exec_acqUrgentTrigger (c : Nat) (s : State) : exec (.acqUrgentTrigger c) s = execAcqUrgentTrigger c s := rfl
theorem exec_acqPassEnd (c : Nat) (inj : Bool) (s : State) : exec (.acqPassEnd c inj) s = execAcqPassEnd c inj s := rfl
theorem exec_adcResult (phys : Nat) (slot : AdcSlot) (x : Sample) (s : State) : exec (.adcResult phys slot x) s = execAdcResult phys slot x s := rfl
theorem exec_uplinkRecordReceive (x : Rx) (strand : Nat) (fromB : Bool) (s : State) : exec (.uplinkRecordReceive x strand fromB) s = execUplinkRecordReceive x strand fromB s := rfl
theorem exec_sensorSilentTimeout (b n : Nat) (s : State) : exec (.sensorSilentTimeout b n) s = execSensorSilentTimeout b n s := rfl
theorem exec_thmHoldEnd (b : Nat) (s : State) : exec (.thmHoldEnd b) s = execThmHoldEnd b s := rfl
theorem exec_housekeepingRound (counts : List (Option Nat)) (rails : List (Nat × Bool)) (s : State) : exec (.housekeepingRound counts rails) s = execHousekeepingRound counts rails s := rfl
theorem exec_timWrap (s : State) : exec (.timWrap) s = execTimWrap s := rfl
theorem exec_pulseOutFire (n : Nat) (s : State) : exec (.pulseOutFire n) s = execPulseOutFire n s := rfl
theorem exec_pulseWidthEnd (n : Nat) (s : State) : exec (.pulseWidthEnd n) s = execPulseWidthEnd n s := rfl
theorem exec_trigInCapture (n : Nat) (rising : Bool) (x : TrigIn) (s : State) : exec (.trigInCapture n rising x) s = execTrigInCapture n rising x s := rfl
theorem exec_ttRequestSend (lane : Nat) (s : State) : exec (.ttRequestSend lane) s = execTtRequestSend lane s := rfl
theorem exec_ttRequestReceive (lane seq turn : Nat) (s : State) : exec (.ttRequestReceive lane seq turn) s = execTtRequestReceive lane seq turn s := rfl
theorem exec_ttResponseReceive (lane rtt seq turn : Nat) (s : State) : exec (.ttResponseReceive lane rtt seq turn) s = execTtResponseReceive lane rtt seq turn s := rfl
theorem exec_netFrameReceive (lane : Nat) (fcsOk : Bool) (bytes : List Byte) (ts : BitVec 64) (s : State) : exec (.netFrameReceive lane fcsOk bytes ts) s = execNetFrameReceive lane fcsOk bytes ts s := rfl
theorem exec_laneLosAssert (lane : Nat) (s : State) : exec (.laneLosAssert lane) s = execLaneLosAssert lane s := rfl
theorem exec_laneLosDeassert (lane : Nat) (s : State) : exec (.laneLosDeassert lane) s = execLaneLosDeassert lane s := rfl
theorem exec_laneLolAssert (lane : Nat) (s : State) : exec (.laneLolAssert lane) s = execLaneLolAssert lane s := rfl
theorem exec_laneLolDeassert (lane : Nat) (s : State) : exec (.laneLolDeassert lane) s = execLaneLolDeassert lane s := rfl
theorem exec_laneLolPersist (lane : Nat) (testFail : Bool) (s : State) : exec (.laneLolPersist lane testFail) s = execLaneLolPersist lane testFail s := rfl
theorem exec_linkBringUp (lane : Nat) (s : State) : exec (.linkBringUp lane) s = execLinkBringUp lane s := rfl
theorem exec_capReceive (lane : Nat) (bytes : List Byte) (s : State) : exec (.capReceive lane bytes) s = execCapReceive lane bytes s := rfl
theorem exec_laneDwellEnd (lane errs : Nat) (lost : Bool) (s : State) : exec (.laneDwellEnd lane errs lost) s = execLaneDwellEnd lane errs lost s := rfl
theorem exec_capReportTimeout (lane : Nat) (s : State) : exec (.capReportTimeout lane) s = execCapReportTimeout lane s := rfl
theorem exec_laneFallbackEnd (lane : Nat) (s : State) : exec (.laneFallbackEnd lane) s = execLaneFallbackEnd lane s := rfl
theorem exec_laneStepFail (lane : Nat) (s : State) : exec (.laneStepFail lane) s = execLaneStepFail lane s := rfl
theorem exec_linkRejoin (lane errs : Nat) (lost : Bool) (s : State) : exec (.linkRejoin lane errs lost) s = execLinkRejoin lane errs lost s := rfl
theorem exec_linkRejoinRetry (lane : Nat) (s : State) : exec (.linkRejoinRetry lane) s = execLinkRejoinRetry lane s := rfl
theorem exec_loopTestEnd (lane bits errs : Nat) (lost : Bool) (s : State) : exec (.loopTestEnd lane bits errs lost) s = execLoopTestEnd lane bits errs lost s := rfl
theorem exec_modulePoll (lane : Nat) (page : Option (List Byte)) (s : State) : exec (.modulePoll lane page) s = execModulePoll lane page s := rfl
theorem exec_twinListenEnd (s : State) : exec (.twinListenEnd) s = execTwinListenEnd s := rfl
theorem exec_twinFrameReceive (lane : Nat) (x : Rx) (s : State) : exec (.twinFrameReceive lane x) s = execTwinFrameReceive lane x s := rfl
theorem exec_h1Deadline (s : State) : exec (.h1Deadline) s = execH1Deadline s := rfl
theorem exec_twinSyncComplete (s : State) : exec (.twinSyncComplete) s = execTwinSyncComplete s := rfl
theorem exec_h2WordSend (s : State) : exec (.h2WordSend) s = execH2WordSend s := rfl
theorem exec_h2WordReceive (w : Byte) (s : State) : exec (.h2WordReceive w) s = execH2WordReceive w s := rfl
theorem exec_h2Deadline (s : State) : exec (.h2Deadline) s = execH2Deadline s := rfl
theorem exec_hbInDown (s : State) : exec (.hbInDown) s = execHbInDown s := rfl
theorem exec_twinYield (s : State) : exec (.twinYield) s = execTwinYield s := rfl
theorem exec_twinHoldExpire (s : State) : exec (.twinHoldExpire) s = execTwinHoldExpire s := rfl
theorem exec_mgmtLockstep (s : State) : exec (.mgmtLockstep) s = execMgmtLockstep s := rfl
theorem exec_mgmtSelftestDone (p0 p1 : Bool) (s : State) : exec (.mgmtSelftestDone p0 p1) s = execMgmtSelftestDone p0 p1 s := rfl
theorem exec_cascadeFrameReceive (lane : Nat) (x : Rx) (s : State) : exec (.cascadeFrameReceive lane x) s = execCascadeFrameReceive lane x s := rfl
theorem exec_stkMasterMiss (s : State) : exec (.stkMasterMiss) s = execStkMasterMiss s := rfl
theorem exec_stkTakeover (s : State) : exec (.stkTakeover) s = execStkTakeover s := rfl
theorem exec_stkOrphan (s : State) : exec (.stkOrphan) s = execStkOrphan s := rfl
theorem exec_stkReturnedReady (s : State) : exec (.stkReturnedReady) s = execStkReturnedReady s := rfl
theorem exec_logWrite (s : State) : exec (.logWrite) s = execLogWrite s := rfl
theorem exec_notificationDeliver (p mbx : Nat) (s : State) : exec (.notificationDeliver p mbx) s = execNotificationDeliver p mbx s := rfl
theorem exec_windowRead (p : Nat) (addr : Word) (n : Nat) (s : State) : exec (.windowRead p addr n) s = execWindowRead p addr n s := rfl
theorem exec_windowWrite (p : Nat) (addr : Word) (words : List Word) (s : State) : exec (.windowWrite p addr words) s = execWindowWrite p addr words s := rfl
theorem exec_statusRead (p : Nat) (s : State) : exec (.statusRead p) s = execStatusRead p s := rfl
theorem exec_ringPush (p ring : Nat) (bytes : List Byte) (s : State) : exec (.ringPush p ring bytes) s = execRingPush p ring bytes s := rfl
theorem exec_replyPop (p : Nat) (net : Bool) (n : Nat) (s : State) : exec (.replyPop p net n) s = execReplyPop p net n s := rfl
theorem exec_mbxSend (p idx : Nat) (words : List Word) (cut : Bool) (s : State) : exec (.mbxSend p idx words cut) s = execMbxSend p idx words cut s := rfl
theorem exec_mbxRecv (p idx n : Nat) (s : State) : exec (.mbxRecv p idx n) s = execMbxRecv p idx n s := rfl
theorem exec_hostBadInstruction (p : Nat) (s : State) : exec (.hostBadInstruction p) s = execHostBadInstruction p s := rfl
theorem exec_mbxCopy (p idx : Nat) (s : State) : exec (.mbxCopy p idx) s = execMbxCopy p idx s := rfl
theorem exec_locketTake (p l : Nat) (s : State) : exec (.locketTake p l) s = execLocketTake p l s := rfl
theorem exec_kaWarn (p : Nat) (s : State) : exec (.kaWarn p) s = execKaWarn p s := rfl
theorem exec_hostKeepaliveLapse (p : Nat) (s : State) : exec (.hostKeepaliveLapse p) s = execHostKeepaliveLapse p s := rfl
theorem exec_hstKick (p : Nat) (s : State) : exec (.hstKick p) s = execHstKick p s := rfl
theorem exec_claspWrite (p n : Nat) (v : Word) (s : State) : exec (.claspWrite p n v) s = execClaspWrite p n v s := rfl
theorem exec_doorbellSet (p : Nat) (mask : BitVec 16) (s : State) : exec (.doorbellSet p mask) s = execDoorbellSet p mask s := rfl
theorem exec_nop (h : Hdr) (ps : List Word) (s : State) : exec (.nop h ps) s = execNop h ps s := rfl
theorem exec_ident (h : Hdr) (ps : List Word) (s : State) : exec (.ident h ps) s = execIdent h ps s := rfl
theorem exec_descRead (h : Hdr) (ps : List Word) (s : State) : exec (.descRead h ps) s = execDescRead h ps s := rfl
theorem exec_status (h : Hdr) (ps : List Word) (s : State) : exec (.status h ps) s = execStatus h ps s := rfl
theorem exec_keepalive (h : Hdr) (ps : List Word) (s : State) : exec (.keepalive h ps) s = execKeepalive h ps s := rfl
theorem exec_bulkWrite (h : Hdr) (ps : List Word) (s : State) : exec (.bulkWrite h ps) s = execBulkWrite h ps s := rfl
theorem exec_bulkRead (h : Hdr) (ps : List Word) (s : State) : exec (.bulkRead h ps) s = execBulkRead h ps s := rfl
theorem exec_regRd (h : Hdr) (ps : List Word) (s : State) : exec (.regRd h ps) s = execRegRd h ps s := rfl
theorem exec_regWr (h : Hdr) (ps : List Word) (s : State) : exec (.regWr h ps) s = execRegWr h ps s := rfl
theorem exec_regWrPair (h : Hdr) (ps : List Word) (s : State) : exec (.regWrPair h ps) s = execRegWrPair h ps s := rfl
theorem exec_regRdWide (h : Hdr) (ps : List Word) (s : State) : exec (.regRdWide h ps) s = execRegRdWide h ps s := rfl
theorem exec_stageOpen (h : Hdr) (ps : List Word) (s : State) : exec (.stageOpen h ps) s = execStageOpen h ps s := rfl
theorem exec_stageApply (h : Hdr) (ps : List Word) (s : State) : exec (.stageApply h ps) s = execStageApply h ps s := rfl
theorem exec_stageAbort (h : Hdr) (ps : List Word) (s : State) : exec (.stageAbort h ps) s = execStageAbort h ps s := rfl
theorem exec_stagedSetApply (s : State) : exec (.stagedSetApply) s = execStagedSetApply s := rfl
theorem exec_frmApply (s : State) : exec (.frmApply) s = execFrmApply s := rfl
theorem exec_arm (h : Hdr) (ps : List Word) (s : State) : exec (.arm h ps) s = execArm h ps s := rfl
theorem exec_armApply (s : State) : exec (.armApply) s = execArmApply s := rfl
theorem exec_precharge (h : Hdr) (ps : List Word) (s : State) : exec (.precharge h ps) s = execPrecharge h ps s := rfl
theorem exec_softStart (h : Hdr) (ps : List Word) (s : State) : exec (.softStart h ps) s = execSoftStart h ps s := rfl
theorem exec_softStartApply (s : State) : exec (.softStartApply) s = execSoftStartApply s := rfl
theorem exec_autorunComplete (s : State) : exec (.autorunComplete) s = execAutorunComplete s := rfl
theorem exec_run (h : Hdr) (ps : List Word) (s : State) : exec (.run h ps) s = execRun h ps s := rfl
theorem exec_quiesce (h : Hdr) (ps : List Word) (s : State) : exec (.quiesce h ps) s = execQuiesce h ps s := rfl
theorem exec_stop (h : Hdr) (ps : List Word) (s : State) : exec (.stop h ps) s = execStop h ps s := rfl
theorem exec_beadBypass (h : Hdr) (ps : List Word) (s : State) : exec (.beadBypass h ps) s = execBeadBypass h ps s := rfl
theorem exec_beadInsert (h : Hdr) (ps : List Word) (s : State) : exec (.beadInsert h ps) s = execBeadInsert h ps s := rfl
theorem exec_beadRetire (h : Hdr) (ps : List Word) (s : State) : exec (.beadRetire h ps) s = execBeadRetire h ps s := rfl
theorem exec_beadCommandAct (s : State) : exec (.beadCommandAct) s = execBeadCommandAct s := rfl
theorem exec_beadEnableToggle (h : Hdr) (ps : List Word) (s : State) : exec (.beadEnableToggle h ps) s = execBeadEnableToggle h ps s := rfl
theorem exec_lpLoadOpen (h : Hdr) (ps : List Word) (s : State) : exec (.lpLoadOpen h ps) s = execLpLoadOpen h ps s := rfl
theorem exec_lpLoadCommit (h : Hdr) (ps : List Word) (s : State) : exec (.lpLoadCommit h ps) s = execLpLoadCommit h ps s := rfl
theorem exec_lpLoadAbort (h : Hdr) (ps : List Word) (s : State) : exec (.lpLoadAbort h ps) s = execLpLoadAbort h ps s := rfl
theorem exec_lpVerify (h : Hdr) (ps : List Word) (s : State) : exec (.lpVerify h ps) s = execLpVerify h ps s := rfl
theorem exec_coefSwap (h : Hdr) (ps : List Word) (s : State) : exec (.coefSwap h ps) s = execCoefSwap h ps s := rfl
theorem exec_coefSwapApply (s : State) : exec (.coefSwapApply) s = execCoefSwapApply s := rfl
theorem exec_fltLog (h : Hdr) (ps : List Word) (s : State) : exec (.fltLog h ps) s = execFltLog h ps s := rfl
theorem exec_fltInject (h : Hdr) (ps : List Word) (s : State) : exec (.fltInject h ps) s = execFltInject h ps s := rfl
theorem exec_fltClear (h : Hdr) (ps : List Word) (s : State) : exec (.fltClear h ps) s = execFltClear h ps s := rfl
theorem exec_timeStep (h : Hdr) (ps : List Word) (s : State) : exec (.timeStep h ps) s = execTimeStep h ps s := rfl
theorem exec_timeInc (h : Hdr) (ps : List Word) (s : State) : exec (.timeInc h ps) s = execTimeInc h ps s := rfl
theorem exec_pulseSet (h : Hdr) (ps : List Word) (s : State) : exec (.pulseSet h ps) s = execPulseSet h ps s := rfl
theorem exec_captureRead (h : Hdr) (ps : List Word) (s : State) : exec (.captureRead h ps) s = execCaptureRead h ps s := rfl
theorem exec_twinStatus (h : Hdr) (ps : List Word) (s : State) : exec (.twinStatus h ps) s = execTwinStatus h ps s := rfl
theorem exec_twinPrefer (h : Hdr) (ps : List Word) (s : State) : exec (.twinPrefer h ps) s = execTwinPrefer h ps s := rfl
theorem exec_twinHandback (h : Hdr) (ps : List Word) (s : State) : exec (.twinHandback h ps) s = execTwinHandback h ps s := rfl
theorem exec_stackStatus (h : Hdr) (ps : List Word) (s : State) : exec (.stackStatus h ps) s = execStackStatus h ps s := rfl
theorem exec_stackReclaim (h : Hdr) (ps : List Word) (s : State) : exec (.stackReclaim h ps) s = execStackReclaim h ps s := rfl
theorem exec_rate (h : Hdr) (ps : List Word) (s : State) : exec (.rate h ps) s = execRate h ps s := rfl
theorem exec_loopTest (h : Hdr) (ps : List Word) (s : State) : exec (.loopTest h ps) s = execLoopTest h ps s := rfl
theorem exec_moduleRead (h : Hdr) (ps : List Word) (ans : Option (List Byte)) (s : State) : exec (.moduleRead h ps ans) s = execModuleRead h ps ans s := rfl
theorem exec_netSend (h : Hdr) (ps : List Word) (s : State) : exec (.netSend h ps) s = execNetSend h ps s := rfl
theorem exec_fwUpdateOpen (h : Hdr) (ps : List Word) (s : State) : exec (.fwUpdateOpen h ps) s = execFwUpdateOpen h ps s := rfl
theorem exec_fwUpdateCommit (h : Hdr) (ps : List Word) (flashFail : Option Nat) (s : State) : exec (.fwUpdateCommit h ps flashFail) s = execFwUpdateCommit h ps flashFail s := rfl
theorem exec_fwUpdateAbort (h : Hdr) (ps : List Word) (s : State) : exec (.fwUpdateAbort h ps) s = execFwUpdateAbort h ps s := rfl
theorem exec_keyProvision (h : Hdr) (ps : List Word) (s : State) : exec (.keyProvision h ps) s = execKeyProvision h ps s := rfl
theorem exec_ownerKey (h : Hdr) (ps : List Word) (s : State) : exec (.ownerKey h ps) s = execOwnerKey h ps s := rfl
theorem exec_guardUnlock (h : Hdr) (ps : List Word) (s : State) : exec (.guardUnlock h ps) s = execGuardUnlock h ps s := rfl
theorem exec_hallmark (h : Hdr) (ps : List Word) (selfCheck : Bool) (s : State) : exec (.hallmark h ps selfCheck) s = execHallmark h ps selfCheck s := rfl
theorem exec_debugOpen (h : Hdr) (ps : List Word) (s : State) : exec (.debugOpen h ps) s = execDebugOpen h ps s := rfl
theorem exec_fuseWrite (h : Hdr) (ps : List Word) (s : State) : exec (.fuseWrite h ps) s = execFuseWrite h ps s := rfl
theorem exec_registerWrite (p : Nat) (addr v : Word) (s : State) : exec (.registerWrite p addr v) s = execRegisterWrite p addr v s := rfl
theorem exec_bitAliasWrite (p : Nat) (addr v : Word) (s : State) : exec (.bitAliasWrite p addr v) s = execBitAliasWrite p addr v s := rfl
theorem exec_guardFirstHalf (p : Nat) (addr v : Word) (s : State) : exec (.guardFirstHalf p addr v) s = execGuardFirstHalf p addr v s := rfl
theorem exec_guardComplement (p : Nat) (addr v : Word) (s : State) : exec (.guardComplement p addr v) s = execGuardComplement p addr v s := rfl
theorem exec_holdRequest (p : Nat) (s : State) : exec (.holdRequest p) s = execHoldRequest p s := rfl
theorem exec_sleepRequest (p : Nat) (s : State) : exec (.sleepRequest p) s = execSleepRequest p s := rfl
theorem exec_holdEntry (s : State) : exec (.holdEntry) s = execHoldEntry s := rfl
theorem exec_sleepEntry (s : State) : exec (.sleepEntry) s = execSleepEntry s := rfl
theorem exec_wakeEvent (bit : Nat) (s : State) : exec (.wakeEvent bit) s = execWakeEvent bit s := rfl
theorem exec_holdWake (s : State) : exec (.holdWake) s = execHoldWake s := rfl
theorem exec_sleepWake (s : State) : exec (.sleepWake) s = execSleepWake s := rfl
theorem exec_clkFail (dom : Nat) (s : State) : exec (.clkFail dom) s = execClkFail dom s := rfl
theorem exec_pllLockTimeout (s : State) : exec (.pllLockTimeout) s = execPllLockTimeout s := rfl
theorem exec_supplyFault (rail : Nat) (ovr : Bool) (s : State) : exec (.supplyFault rail ovr) s = execSupplyFault rail ovr s := rfl
theorem exec_vaonPowerOn (s : State) : exec (.vaonPowerOn) s = execVaonPowerOn s := rfl
theorem exec_corePowerOn (s : State) : exec (.corePowerOn) s = execCorePowerOn s := rfl
theorem exec_porNRelease (stackId : Nat) (twinRole ioh33 testEn : Bool) (s : State) : exec (.porNRelease stackId twinRole ioh33 testEn) s = execPorNRelease stackId twinRole ioh33 testEn s := rfl
theorem exec_resetNRelease (stackId : Nat) (twinRole : Bool) (s : State) : exec (.resetNRelease stackId twinRole) s = execResetNRelease stackId twinRole s := rfl
theorem exec_bistComplete (mask : Nat) (rows : List Nat) (s : State) : exec (.bistComplete mask rows) s = execBistComplete mask rows s := rfl
theorem exec_frameGeneratorStart (s : State) : exec (.frameGeneratorStart) s = execFrameGeneratorStart s := rfl
theorem exec_discoveryEnd (s : State) : exec (.discoveryEnd) s = execDiscoveryEnd s := rfl
theorem exec_timeLockStepEnd (s : State) : exec (.timeLockStepEnd) s = execTimeLockStepEnd s := rfl
theorem exec_olgCrcUpdate (s : State) : exec (.olgCrcUpdate) s = execOlgCrcUpdate s := rfl
theorem exec_wideSelWrite (p : Nat) (sel : BitVec 16) (s : State) : exec (.wideSelWrite p sel) s = execWideSelWrite p sel s := rfl
theorem exec_wideSnapshotReady (p : Nat) (s : State) : exec (.wideSnapshotReady p) s = execWideSnapshotReady p s := rfl
theorem exec_wide3Read (p : Nat) (s : State) : exec (.wide3Read p) s = execWide3Read p s := rfl
theorem exec_stkMrxRead (w : Nat) (s : State) : exec (.stkMrxRead w) s = execStkMrxRead w s := rfl
theorem exec_stkMailSend (s : State) : exec (.stkMailSend) s = execStkMailSend s := rfl
theorem exec_edgArmWrite (p : Nat) (v : Word) (s : State) : exec (.edgArmWrite p v) s = execEdgArmWrite p v s := rfl
theorem exec_carShadowWrite (p : Nat) (addr v : Word) (s : State) : exec (.carShadowWrite p addr v) s = execCarShadowWrite p addr v s := rfl
theorem exec_timIncIntWrite (p : Nat) (v : Word) (s : State) : exec (.timIncIntWrite p v) s = execTimIncIntWrite p v s := rfl
theorem exec_timOutCtrlWrite (p n : Nat) (v : Word) (s : State) : exec (.timOutCtrlWrite p n v) s = execTimOutCtrlWrite p n v s := rfl
theorem exec_timOutTgtHiWrite (p n : Nat) (v : Word) (s : State) : exec (.timOutTgtHiWrite p n v) s = execTimOutTgtHiWrite p n v s := rfl
theorem exec_timOutPerHiWrite (p n : Nat) (v : Word) (s : State) : exec (.timOutPerHiWrite p n v) s = execTimOutPerHiWrite p n v s := rfl
theorem exec_timOutWidthWrite (p n : Nat) (v : Word) (s : State) : exec (.timOutWidthWrite p n v) s = execTimOutWidthWrite p n v s := rfl
theorem exec_gsvDenToggleWrite (p : Nat) (mask : BitVec 8) (s : State) : exec (.gsvDenToggleWrite p mask) s = execGsvDenToggleWrite p mask s := rfl
theorem exec_adcGoWrite (p c : Nat) (s : State) : exec (.adcGoWrite p c) s = execAdcGoWrite p c s := rfl
theorem exec_accLclrWrite (p a : Nat) (s : State) : exec (.accLclrWrite p a) s = execAccLclrWrite p a s := rfl
theorem exec_lpeRunWrite (p : Nat) (v : Bool) (s : State) : exec (.lpeRunWrite p v) s = execLpeRunWrite p v s := rfl
theorem exec_lpeMemWrite (p : Nat) (addr v : Word) (s : State) : exec (.lpeMemWrite p addr v) s = execLpeMemWrite p addr v s := rfl
theorem exec_thmBrokenWrite (p : Nat) (die : Bool) (b : Nat) (mask : Word) (s : State) : exec (.thmBrokenWrite p die b mask) s = execThmBrokenWrite p die b mask s := rfl
theorem exec_secPresClose (p : Nat) (s : State) : exec (.secPresClose p) s = execSecPresClose p s := rfl
theorem exec_secDbgClose (p : Nat) (s : State) : exec (.secDbgClose p) s = execSecDbgClose p s := rfl
theorem exec_memScrub (addr : Nat) (errs : Nat) (s : State) : exec (.memScrub addr errs) s = execMemScrub addr errs s := rfl
theorem exec_lpeRowRemap (row : Nat) (s : State) : exec (.lpeRowRemap row) s = execLpeRowRemap row s := rfl
theorem exec_rowCountWindowExpire (row : Nat) (s : State) : exec (.rowCountWindowExpire row) s = execRowCountWindowExpire row s := rfl
theorem exec_presWindowOpen (s : State) : exec (.presWindowOpen) s = execPresWindowOpen s := rfl
theorem exec_presWindowClose (p : Nat) (s : State) : exec (.presWindowClose p) s = execPresWindowClose p s := rfl
theorem exec_jumperFitted (s : State) : exec (.jumperFitted) s = execJumperFitted s := rfl
theorem exec_jumperRemoved (s : State) : exec (.jumperRemoved) s = execJumperRemoved s := rfl
theorem exec_sealCheck (sample : Bool) (s : State) : exec (.sealCheck sample) s = execSealCheck sample s := rfl
theorem exec_debugWindowExpire (s : State) : exec (.debugWindowExpire) s = execDebugWindowExpire s := rfl
theorem exec_downlinkHeaderReceive (lane : Nat) (x : Rx) (s : State) : exec (.downlinkHeaderReceive lane x) s = execDownlinkHeaderReceive lane x s := rfl
theorem exec_dnlEnd (s : State) : exec (.dnlEnd) s = execDnlEnd s := rfl
theorem exec_debugHaltRelease (s : State) : exec (.debugHaltRelease) s = execDebugHaltRelease s := rfl
theorem exec_laneRateSwitch (lane : Nat) (s : State) : exec (.laneRateSwitch lane) s = execLaneRateSwitch lane s := rfl
theorem exec_prbs31DwellStart (lane : Nat) (s : State) : exec (.prbs31DwellStart lane) s = execPrbs31DwellStart lane s := rfl
theorem exec_netAutonegotiation (lane : Nat) (s : State) : exec (.netAutonegotiation lane) s = execNetAutonegotiation lane s := rfl
theorem exec_netFrameSent (lane : Nat) (ts : BitVec 64) (s : State) : exec (.netFrameSent lane ts) s = execNetFrameSent lane ts s := rfl
theorem exec_noAnswerTimeout (p : Nat) (s : State) : exec (.noAnswerTimeout p) s = execNoAnswerTimeout p s := rfl
theorem exec_aonCrystalStable (s : State) : exec (.aonCrystalStable) s = execAonCrystalStable s := rfl

end Sys2Proof.Machine
end

