-- ==== Sys2Proof/Laws/Runs.lean ====
section
/-! SUPPORT. Which commands run as `State.run`, so that of the protected part they change only what the collector changes: all
but the five that write it and the four of reset. -/
namespace Sys2Proof.Machine

/-- The command runs as a piece of work whose messages the collector takes. -/
def Runs (c : Instr) : Prop := ∀ s : State, ∃ (f : Wk → Wk) (g : Dev → Dev), exec c s = s.runThen f g

theorem State.run_runs (s : State) (x : Wk → Wk) : ∃ f g, s.run x = s.runThen f g := ⟨x, id, rfl⟩
theorem State.runThen_runs (s : State) (x : Wk → Wk) (y : Dev → Dev) : ∃ f g, s.runThen x y = s.runThen f g := ⟨x, y, rfl⟩
theorem State.command_runs (s : State) (op : Nat) (h : Hdr) (ps : List Word) (c : Cmd) : ∃ f g, s.command op h ps c = s.runThen f g := by
  unfold State.command; exact State.run_runs _ _
theorem State.modeCommand_runs (s : State) (m : Bool) (op : Nat) (h : Hdr) (ps : List Word) (c : Cmd) : ∃ f g, s.modeCommand m op h ps c = s.runThen f g := by
  unfold State.modeCommand; exact State.run_runs _ _
theorem State.host_runs (s : State) (p : Nat) (g : Nat → Wk → Wk) : ∃ f k, s.host p g = s.runThen f k := by
  unfold State.host; exact State.run_runs _ _
theorem State.hostWrite_runs (s : State) (p a v : Nat) : ∃ f g, s.hostWrite p a v = s.runThen f g := by
  unfold State.hostWrite; exact State.host_runs _ _ _
theorem State.fieldOnly_runs (s : State) (p : Nat) (g : Nat → Fld) (v : Nat) (b : Bool) : ∃ f k, s.fieldOnly p g v b = s.runThen f k := by
  unfold State.fieldOnly; exact State.host_runs _ _ _

/-- The commands that write the protected part themselves, and those of reset. -/
def writesVault : Instr → Bool
  | .fuseWrite .. | .keyProvision .. | .ownerKey .. | .hallmark .. | .fltClear .. => true
  | .vaonPowerOn | .corePowerOn | .porNRelease .. | .resetNRelease .. => true
  | _ => false

theorem runs_frameBoundary : Runs (.frameBoundary) := fun s => by rw [exec_frameBoundary]; unfold execFrameBoundary; exact State.run_runs _ _
theorem runs_longWindowClose (a : Nat) : Runs (.longWindowClose a) := fun s => by rw [exec_longWindowClose]; unfold execLongWindowClose; exact State.run_runs _ _
theorem runs_uplEnd : Runs (.uplEnd) := fun s => by rw [exec_uplEnd]; unfold execUplEnd; exact State.run_runs _ _
theorem runs_partitionComplete (cl : Nat) (flt : Option (Nat × Word)) : Runs (.partitionComplete cl flt) := fun s => by rw [exec_partitionComplete]; unfold execPartitionComplete; exact State.run_runs _ _
theorem runs_lpeSpareReady : Runs (.lpeSpareReady) := fun s => by rw [exec_lpeSpareReady]; unfold execLpeSpareReady; exact State.run_runs _ _
theorem runs_planInstant : Runs (.planInstant) := fun s => by rw [exec_planInstant]; unfold execPlanInstant; exact State.run_runs _ _
theorem runs_bypassTimeout (b : Nat) : Runs (.bypassTimeout b) := fun s => by rw [exec_bypassTimeout]; unfold execBypassTimeout; exact State.run_runs _ _
theorem runs_prechargeLimit (isPair : Bool) (n : Nat) : Runs (.prechargeLimit isPair n) := fun s => by rw [exec_prechargeLimit]; unfold execPrechargeLimit; exact State.run_runs _ _
theorem runs_prechargeComplete : Runs (.prechargeComplete) := fun s => by rw [exec_prechargeComplete]; unfold execPrechargeComplete; exact State.run_runs _ _
theorem runs_timebaseReload (t : Nat) : Runs (.timebaseReload t) := fun s => by rw [exec_timebaseReload]; unfold execTimebaseReload; exact State.run_runs _ _
theorem runs_channelTransition (c : Nat) : Runs (.channelTransition c) := fun s => by rw [exec_channelTransition]; unfold execChannelTransition; exact State.run_runs _ _
theorem runs_cmpxFire (t m : Nat) : Runs (.cmpxFire t m) := fun s => by rw [exec_cmpxFire]; unfold execCmpxFire; exact State.run_runs _ _
theorem runs_tripInputAssert (x : TripIn) : Runs (.tripInputAssert x) := fun s => by rw [exec_tripInputAssert]; unfold execTripInputAssert; exact State.run_runs _ _
theorem runs_gateDesat (l : List TripIn) : Runs (.gateDesat l) := fun s => by rw [exec_gateDesat]; unfold execGateDesat; exact State.run_runs _ _
theorem runs_dfbOffLevel (x : DfbIn) : Runs (.dfbOffLevel x) := fun s => by rw [exec_dfbOffLevel]; unfold execDfbOffLevel; exact State.run_runs _ _
theorem runs_gateHsTimeout (k : Nat) : Runs (.gateHsTimeout k) := fun s => by rw [exec_gateHsTimeout]; unfold execGateHsTimeout; exact State.run_runs _ _
theorem runs_dfbStuck (k : Nat) : Runs (.dfbStuck k) := fun s => by rw [exec_dfbStuck]; unfold execDfbStuck; exact State.run_runs _ _
theorem runs_gsmonFall (x : GsmIn) : Runs (.gsmonFall x) := fun s => by rw [exec_gsmonFall]; unfold execGsmonFall; exact State.run_runs _ _
theorem runs_gsmonRise (x : GsmIn) : Runs (.gsmonRise x) := fun s => by rw [exec_gsmonRise]; unfold execGsmonRise; exact State.run_runs _ _
theorem runs_edgeClkLost : Runs (.edgeClkLost) := fun s => by rw [exec_edgeClkLost]; unfold execEdgeClkLost; exact State.run_runs _ _
theorem runs_debugHalt : Runs (.debugHalt) := fun s => by rw [exec_debugHalt]; unfold execDebugHalt; exact State.run_runs _ _
theorem runs_denToggleEnd (m : Nat) : Runs (.denToggleEnd m) := fun s => by rw [exec_denToggleEnd]; unfold execDenToggleEnd; exact State.run_runs _ _
theorem runs_acqRegularTrigger (c : Nat) : Runs (.acqRegularTrigger c) := fun s => by rw [exec_acqRegularTrigger]; unfold execAcqRegularTrigger; exact State.run_runs _ _
theorem runs_acqUrgentTrigger (c : Nat) : Runs (.acqUrgentTrigger c) := fun s => by rw [exec_acqUrgentTrigger]; unfold execAcqUrgentTrigger; exact State.run_runs _ _
theorem runs_acqPassEnd (c : Nat) (inj : Bool) : Runs (.acqPassEnd c inj) := fun s => by rw [exec_acqPassEnd]; unfold execAcqPassEnd; exact State.run_runs _ _
theorem runs_adcResult (phys : Nat) (slot : AdcSlot) (x : Sample) : Runs (.adcResult phys slot x) := fun s => by rw [exec_adcResult]; unfold execAdcResult; exact State.run_runs _ _
theorem runs_uplinkRecordReceive (x : Rx) (strand : Nat) (fromB : Bool) : Runs (.uplinkRecordReceive x strand fromB) := fun s => by rw [exec_uplinkRecordReceive]; unfold execUplinkRecordReceive; exact State.run_runs _ _
theorem runs_sensorSilentTimeout (b n : Nat) : Runs (.sensorSilentTimeout b n) := fun s => by rw [exec_sensorSilentTimeout]; unfold execSensorSilentTimeout; exact State.run_runs _ _
theorem runs_thmHoldEnd (b : Nat) : Runs (.thmHoldEnd b) := fun s => by rw [exec_thmHoldEnd]; unfold execThmHoldEnd; exact State.run_runs _ _
theorem runs_housekeepingRound (counts : List (Option Nat)) (rails : List (Nat × Bool)) : Runs (.housekeepingRound counts rails) := fun s => by rw [exec_housekeepingRound]; unfold execHousekeepingRound; exact State.run_runs _ _
theorem runs_timWrap : Runs (.timWrap) := fun s => by rw [exec_timWrap]; unfold execTimWrap; exact State.run_runs _ _
theorem runs_pulseOutFire (n : Nat) : Runs (.pulseOutFire n) := fun s => by rw [exec_pulseOutFire]; unfold execPulseOutFire; exact State.run_runs _ _
theorem runs_pulseWidthEnd (n : Nat) : Runs (.pulseWidthEnd n) := fun s => by rw [exec_pulseWidthEnd]; unfold execPulseWidthEnd; exact State.run_runs _ _
theorem runs_trigInCapture (n : Nat) (rising : Bool) (x : TrigIn) : Runs (.trigInCapture n rising x) := fun s => by rw [exec_trigInCapture]; unfold execTrigInCapture; exact State.run_runs _ _
theorem runs_ttRequestSend (lane : Nat) : Runs (.ttRequestSend lane) := fun s => by rw [exec_ttRequestSend]; unfold execTtRequestSend; exact State.run_runs _ _
theorem runs_ttRequestReceive (lane seq turn : Nat) : Runs (.ttRequestReceive lane seq turn) := fun s => by rw [exec_ttRequestReceive]; unfold execTtRequestReceive; exact State.run_runs _ _
theorem runs_ttResponseReceive (lane rtt seq turn : Nat) : Runs (.ttResponseReceive lane rtt seq turn) := fun s => by rw [exec_ttResponseReceive]; unfold execTtResponseReceive; exact State.run_runs _ _
theorem runs_netFrameReceive (lane : Nat) (fcsOk : Bool) (bytes : List Byte) (ts : BitVec 64) : Runs (.netFrameReceive lane fcsOk bytes ts) := fun s => by rw [exec_netFrameReceive]; unfold execNetFrameReceive; exact State.run_runs _ _
theorem runs_laneLosAssert (lane : Nat) : Runs (.laneLosAssert lane) := fun s => by rw [exec_laneLosAssert]; unfold execLaneLosAssert; exact State.run_runs _ _
theorem runs_laneLosDeassert (lane : Nat) : Runs (.laneLosDeassert lane) := fun s => by rw [exec_laneLosDeassert]; unfold execLaneLosDeassert; exact State.run_runs _ _
theorem runs_laneLolAssert (lane : Nat) : Runs (.laneLolAssert lane) := fun s => by rw [exec_laneLolAssert]; unfold execLaneLolAssert; exact State.run_runs _ _
theorem runs_laneLolDeassert (lane : Nat) : Runs (.laneLolDeassert lane) := fun s => by rw [exec_laneLolDeassert]; unfold execLaneLolDeassert; exact State.run_runs _ _
theorem runs_laneLolPersist (lane : Nat) (testFail : Bool) : Runs (.laneLolPersist lane testFail) := fun s => by rw [exec_laneLolPersist]; unfold execLaneLolPersist; exact State.run_runs _ _
theorem runs_linkBringUp (lane : Nat) : Runs (.linkBringUp lane) := fun s => by rw [exec_linkBringUp]; unfold execLinkBringUp; exact State.run_runs _ _
theorem runs_capReceive (lane : Nat) (bytes : List Byte) : Runs (.capReceive lane bytes) := fun s => by rw [exec_capReceive]; unfold execCapReceive; exact State.run_runs _ _
theorem runs_laneDwellEnd (lane errs : Nat) (lost : Bool) : Runs (.laneDwellEnd lane errs lost) := fun s => by rw [exec_laneDwellEnd]; unfold execLaneDwellEnd; exact State.run_runs _ _
theorem runs_capReportTimeout (lane : Nat) : Runs (.capReportTimeout lane) := fun s => by rw [exec_capReportTimeout]; unfold execCapReportTimeout; exact State.run_runs _ _
theorem runs_laneFallbackEnd (lane : Nat) : Runs (.laneFallbackEnd lane) := fun s => by rw [exec_laneFallbackEnd]; unfold execLaneFallbackEnd; exact State.run_runs _ _
theorem runs_laneStepFail (lane : Nat) : Runs (.laneStepFail lane) := fun s => by rw [exec_laneStepFail]; unfold execLaneStepFail; exact State.run_runs _ _
theorem runs_linkRejoin (lane errs : Nat) (lost : Bool) : Runs (.linkRejoin lane errs lost) := fun s => by rw [exec_linkRejoin]; unfold execLinkRejoin; exact State.run_runs _ _
theorem runs_linkRejoinRetry (lane : Nat) : Runs (.linkRejoinRetry lane) := fun s => by rw [exec_linkRejoinRetry]; unfold execLinkRejoinRetry; exact State.run_runs _ _
theorem runs_loopTestEnd (lane bits errs : Nat) (lost : Bool) : Runs (.loopTestEnd lane bits errs lost) := fun s => by rw [exec_loopTestEnd]; unfold execLoopTestEnd; exact State.run_runs _ _
theorem runs_modulePoll (lane : Nat) (page : Option (List Byte)) : Runs (.modulePoll lane page) := fun s => by rw [exec_modulePoll]; unfold execModulePoll; exact State.run_runs _ _
theorem runs_twinListenEnd : Runs (.twinListenEnd) := fun s => by rw [exec_twinListenEnd]; unfold execTwinListenEnd; exact State.run_runs _ _
theorem runs_twinFrameReceive (lane : Nat) (x : Rx) : Runs (.twinFrameReceive lane x) := fun s => by rw [exec_twinFrameReceive]; unfold execTwinFrameReceive; exact State.run_runs _ _
theorem runs_h1Deadline : Runs (.h1Deadline) := fun s => by rw [exec_h1Deadline]; unfold execH1Deadline; exact State.run_runs _ _
theorem runs_twinSyncComplete : Runs (.twinSyncComplete) := fun s => by rw [exec_twinSyncComplete]; unfold execTwinSyncComplete; exact State.run_runs _ _
theorem runs_h2WordSend : Runs (.h2WordSend) := fun s => by rw [exec_h2WordSend]; unfold execH2WordSend; exact State.run_runs _ _
theorem runs_h2WordReceive (w : Byte) : Runs (.h2WordReceive w) := fun s => by rw [exec_h2WordReceive]; unfold execH2WordReceive; exact State.run_runs _ _
theorem runs_h2Deadline : Runs (.h2Deadline) := fun s => by rw [exec_h2Deadline]; unfold execH2Deadline; exact State.run_runs _ _
theorem runs_hbInDown : Runs (.hbInDown) := fun s => by rw [exec_hbInDown]; unfold execHbInDown; exact State.run_runs _ _
theorem runs_twinYield : Runs (.twinYield) := fun s => by rw [exec_twinYield]; unfold execTwinYield; exact State.run_runs _ _
theorem runs_twinHoldExpire : Runs (.twinHoldExpire) := fun s => by rw [exec_twinHoldExpire]; unfold execTwinHoldExpire; exact State.run_runs _ _
theorem runs_mgmtLockstep : Runs (.mgmtLockstep) := fun s => by rw [exec_mgmtLockstep]; unfold execMgmtLockstep; exact State.run_runs _ _
theorem runs_mgmtSelftestDone (p0 p1 : Bool) : Runs (.mgmtSelftestDone p0 p1) := fun s => by rw [exec_mgmtSelftestDone]; unfold execMgmtSelftestDone; exact State.run_runs _ _
theorem runs_cascadeFrameReceive (lane : Nat) (x : Rx) : Runs (.cascadeFrameReceive lane x) := fun s => by rw [exec_cascadeFrameReceive]; unfold execCascadeFrameReceive; exact State.run_runs _ _
theorem runs_stkMasterMiss : Runs (.stkMasterMiss) := fun s => by rw [exec_stkMasterMiss]; unfold execStkMasterMiss; exact State.run_runs _ _
theorem runs_stkTakeover : Runs (.stkTakeover) := fun s => by rw [exec_stkTakeover]; unfold execStkTakeover; exact State.run_runs _ _
theorem runs_stkOrphan : Runs (.stkOrphan) := fun s => by rw [exec_stkOrphan]; unfold execStkOrphan; exact State.run_runs _ _
theorem runs_stkReturnedReady : Runs (.stkReturnedReady) := fun s => by rw [exec_stkReturnedReady]; unfold execStkReturnedReady; exact State.run_runs _ _
theorem runs_logWrite : Runs (.logWrite) := fun s => by rw [exec_logWrite]; unfold execLogWrite; exact State.run_runs _ _
theorem runs_notificationDeliver (p mbx : Nat) : Runs (.notificationDeliver p mbx) := fun s => by rw [exec_notificationDeliver]; unfold execNotificationDeliver; exact State.run_runs _ _
theorem runs_windowRead (p : Nat) (addr : Word) (n : Nat) : Runs (.windowRead p addr n) := fun s => by rw [exec_windowRead]; unfold execWindowRead; exact State.host_runs _ _ _
theorem runs_windowWrite (p : Nat) (addr : Word) (words : List Word) : Runs (.windowWrite p addr words) := fun s => by rw [exec_windowWrite]; unfold execWindowWrite; exact State.host_runs _ _ _
theorem runs_statusRead (p : Nat) : Runs (.statusRead p) := fun s => by rw [exec_statusRead]; unfold execStatusRead; exact State.host_runs _ _ _
theorem runs_ringPush (p ring : Nat) (bytes : List Byte) : Runs (.ringPush p ring bytes) := fun s => by rw [exec_ringPush]; unfold execRingPush; exact State.host_runs _ _ _
theorem runs_replyPop (p : Nat) (net : Bool) (n : Nat) : Runs (.replyPop p net n) := fun s => by rw [exec_replyPop]; unfold execReplyPop; exact State.host_runs _ _ _
theorem runs_mbxSend (p idx : Nat) (words : List Word) (cut : Bool) : Runs (.mbxSend p idx words cut) := fun s => by rw [exec_mbxSend]; unfold execMbxSend; exact State.host_runs _ _ _
theorem runs_mbxRecv (p idx n : Nat) : Runs (.mbxRecv p idx n) := fun s => by rw [exec_mbxRecv]; unfold execMbxRecv; exact State.host_runs _ _ _
theorem runs_hostBadInstruction (p : Nat) : Runs (.hostBadInstruction p) := fun s => by rw [exec_hostBadInstruction]; unfold execHostBadInstruction; exact State.host_runs _ _ _
theorem runs_mbxCopy (p idx : Nat) : Runs (.mbxCopy p idx) := fun s => by rw [exec_mbxCopy]; unfold execMbxCopy; exact State.run_runs _ _
theorem runs_locketTake (p l : Nat) : Runs (.locketTake p l) := fun s => by rw [exec_locketTake]; unfold execLocketTake; exact State.run_runs _ _
theorem runs_kaWarn (p : Nat) : Runs (.kaWarn p) := fun s => by rw [exec_kaWarn]; unfold execKaWarn; exact State.run_runs _ _
theorem runs_hostKeepaliveLapse (p : Nat) : Runs (.hostKeepaliveLapse p) := fun s => by rw [exec_hostKeepaliveLapse]; unfold execHostKeepaliveLapse; exact State.run_runs _ _
theorem runs_hstKick (p : Nat) : Runs (.hstKick p) := fun s => by rw [exec_hstKick]; unfold execHstKick; exact State.fieldOnly_runs _ _ _ _ _
theorem runs_claspWrite (p n : Nat) (v : Word) : Runs (.claspWrite p n v) := fun s => by rw [exec_claspWrite]; unfold execClaspWrite; exact State.host_runs _ _ _
theorem runs_doorbellSet (p : Nat) (mask : BitVec 16) : Runs (.doorbellSet p mask) := fun s => by rw [exec_doorbellSet]; unfold execDoorbellSet; exact State.fieldOnly_runs _ _ _ _ _
theorem runs_nop (h : Hdr) (ps : List Word) : Runs (.nop h ps) := fun s => by rw [exec_nop]; unfold execNop; exact State.command_runs _ _ _ _ _
theorem runs_ident (h : Hdr) (ps : List Word) : Runs (.ident h ps) := fun s => by rw [exec_ident]; unfold execIdent; exact State.command_runs _ _ _ _ _
theorem runs_descRead (h : Hdr) (ps : List Word) : Runs (.descRead h ps) := fun s => by rw [exec_descRead]; unfold execDescRead; exact State.command_runs _ _ _ _ _
theorem runs_status (h : Hdr) (ps : List Word) : Runs (.status h ps) := fun s => by rw [exec_status]; unfold execStatus; exact State.command_runs _ _ _ _ _
theorem runs_keepalive (h : Hdr) (ps : List Word) : Runs (.keepalive h ps) := fun s => by rw [exec_keepalive]; unfold execKeepalive; exact State.command_runs _ _ _ _ _
theorem runs_bulkWrite (h : Hdr) (ps : List Word) : Runs (.bulkWrite h ps) := fun s => by rw [exec_bulkWrite]; unfold execBulkWrite; exact State.command_runs _ _ _ _ _
theorem runs_bulkRead (h : Hdr) (ps : List Word) : Runs (.bulkRead h ps) := fun s => by rw [exec_bulkRead]; unfold execBulkRead; exact State.command_runs _ _ _ _ _
theorem runs_regRd (h : Hdr) (ps : List Word) : Runs (.regRd h ps) := fun s => by rw [exec_regRd]; unfold execRegRd; exact State.command_runs _ _ _ _ _
theorem runs_regWr (h : Hdr) (ps : List Word) : Runs (.regWr h ps) := fun s => by rw [exec_regWr]; unfold execRegWr; exact State.command_runs _ _ _ _ _
theorem runs_regWrPair (h : Hdr) (ps : List Word) : Runs (.regWrPair h ps) := fun s => by rw [exec_regWrPair]; unfold execRegWrPair; exact State.command_runs _ _ _ _ _
theorem runs_regRdWide (h : Hdr) (ps : List Word) : Runs (.regRdWide h ps) := fun s => by rw [exec_regRdWide]; unfold execRegRdWide; exact State.command_runs _ _ _ _ _
theorem runs_stageOpen (h : Hdr) (ps : List Word) : Runs (.stageOpen h ps) := fun s => by rw [exec_stageOpen]; unfold execStageOpen; exact State.command_runs _ _ _ _ _
theorem runs_stageApply (h : Hdr) (ps : List Word) : Runs (.stageApply h ps) := fun s => by rw [exec_stageApply]; unfold execStageApply; exact State.command_runs _ _ _ _ _
theorem runs_stageAbort (h : Hdr) (ps : List Word) : Runs (.stageAbort h ps) := fun s => by rw [exec_stageAbort]; unfold execStageAbort; exact State.command_runs _ _ _ _ _
theorem runs_stagedSetApply : Runs (.stagedSetApply) := fun s => by rw [exec_stagedSetApply]; unfold execStagedSetApply; exact State.run_runs _ _
theorem runs_frmApply : Runs (.frmApply) := fun s => by rw [exec_frmApply]; unfold execFrmApply; exact State.run_runs _ _
theorem runs_arm (h : Hdr) (ps : List Word) : Runs (.arm h ps) := fun s => by rw [exec_arm]; unfold execArm; exact State.command_runs _ _ _ _ _
theorem runs_armApply : Runs (.armApply) := fun s => by rw [exec_armApply]; unfold execArmApply; exact State.run_runs _ _
theorem runs_precharge (h : Hdr) (ps : List Word) : Runs (.precharge h ps) := fun s => by rw [exec_precharge]; unfold execPrecharge; exact State.command_runs _ _ _ _ _
theorem runs_softStart (h : Hdr) (ps : List Word) : Runs (.softStart h ps) := fun s => by rw [exec_softStart]; unfold execSoftStart; exact State.command_runs _ _ _ _ _
theorem runs_softStartApply : Runs (.softStartApply) := fun s => by rw [exec_softStartApply]; unfold execSoftStartApply; exact State.run_runs _ _
theorem runs_autorunComplete : Runs (.autorunComplete) := fun s => by rw [exec_autorunComplete]; unfold execAutorunComplete; exact State.run_runs _ _
theorem runs_run (h : Hdr) (ps : List Word) : Runs (.run h ps) := fun s => by rw [exec_run]; unfold execRun; exact State.command_runs _ _ _ _ _
theorem runs_quiesce (h : Hdr) (ps : List Word) : Runs (.quiesce h ps) := fun s => by rw [exec_quiesce]; unfold execQuiesce; exact State.command_runs _ _ _ _ _
theorem runs_stop (h : Hdr) (ps : List Word) : Runs (.stop h ps) := fun s => by rw [exec_stop]; unfold execStop; exact State.command_runs _ _ _ _ _
theorem runs_beadBypass (h : Hdr) (ps : List Word) : Runs (.beadBypass h ps) := fun s => by rw [exec_beadBypass]; unfold execBeadBypass; exact State.command_runs _ _ _ _ _
theorem runs_beadInsert (h : Hdr) (ps : List Word) : Runs (.beadInsert h ps) := fun s => by rw [exec_beadInsert]; unfold execBeadInsert; exact State.command_runs _ _ _ _ _
theorem runs_beadRetire (h : Hdr) (ps : List Word) : Runs (.beadRetire h ps) := fun s => by rw [exec_beadRetire]; unfold execBeadRetire; exact State.command_runs _ _ _ _ _
theorem runs_beadCommandAct : Runs (.beadCommandAct) := fun s => by rw [exec_beadCommandAct]; unfold execBeadCommandAct; exact State.run_runs _ _
theorem runs_beadEnableToggle (h : Hdr) (ps : List Word) : Runs (.beadEnableToggle h ps) := fun s => by rw [exec_beadEnableToggle]; unfold execBeadEnableToggle; exact State.command_runs _ _ _ _ _
theorem runs_lpLoadOpen (h : Hdr) (ps : List Word) : Runs (.lpLoadOpen h ps) := fun s => by rw [exec_lpLoadOpen]; unfold execLpLoadOpen; exact State.modeCommand_runs _ _ _ _ _ _
theorem runs_lpLoadCommit (h : Hdr) (ps : List Word) : Runs (.lpLoadCommit h ps) := fun s => by rw [exec_lpLoadCommit]; unfold execLpLoadCommit; exact State.modeCommand_runs _ _ _ _ _ _
theorem runs_lpLoadAbort (h : Hdr) (ps : List Word) : Runs (.lpLoadAbort h ps) := fun s => by rw [exec_lpLoadAbort]; unfold execLpLoadAbort; exact State.modeCommand_runs _ _ _ _ _ _
theorem runs_lpVerify (h : Hdr) (ps : List Word) : Runs (.lpVerify h ps) := fun s => by rw [exec_lpVerify]; unfold execLpVerify; exact State.command_runs _ _ _ _ _
theorem runs_coefSwap (h : Hdr) (ps : List Word) : Runs (.coefSwap h ps) := fun s => by rw [exec_coefSwap]; unfold execCoefSwap; exact State.command_runs _ _ _ _ _
theorem runs_coefSwapApply : Runs (.coefSwapApply) := fun s => by rw [exec_coefSwapApply]; unfold execCoefSwapApply; exact State.run_runs _ _
theorem runs_fltLog (h : Hdr) (ps : List Word) : Runs (.fltLog h ps) := fun s => by rw [exec_fltLog]; unfold execFltLog; exact State.command_runs _ _ _ _ _
theorem runs_fltInject (h : Hdr) (ps : List Word) : Runs (.fltInject h ps) := fun s => by rw [exec_fltInject]; unfold execFltInject; exact State.command_runs _ _ _ _ _
theorem runs_timeStep (h : Hdr) (ps : List Word) : Runs (.timeStep h ps) := fun s => by rw [exec_timeStep]; unfold execTimeStep; exact State.command_runs _ _ _ _ _
theorem runs_timeInc (h : Hdr) (ps : List Word) : Runs (.timeInc h ps) := fun s => by rw [exec_timeInc]; unfold execTimeInc; exact State.command_runs _ _ _ _ _
theorem runs_pulseSet (h : Hdr) (ps : List Word) : Runs (.pulseSet h ps) := fun s => by rw [exec_pulseSet]; unfold execPulseSet; exact State.command_runs _ _ _ _ _
theorem runs_captureRead (h : Hdr) (ps : List Word) : Runs (.captureRead h ps) := fun s => by rw [exec_captureRead]; unfold execCaptureRead; exact State.command_runs _ _ _ _ _
theorem runs_twinStatus (h : Hdr) (ps : List Word) : Runs (.twinStatus h ps) := fun s => by rw [exec_twinStatus]; unfold execTwinStatus; exact State.command_runs _ _ _ _ _
theorem runs_twinPrefer (h : Hdr) (ps : List Word) : Runs (.twinPrefer h ps) := fun s => by rw [exec_twinPrefer]; unfold execTwinPrefer; exact State.command_runs _ _ _ _ _
theorem runs_twinHandback (h : Hdr) (ps : List Word) : Runs (.twinHandback h ps) := fun s => by rw [exec_twinHandback]; unfold execTwinHandback; exact State.command_runs _ _ _ _ _
theorem runs_stackStatus (h : Hdr) (ps : List Word) : Runs (.stackStatus h ps) := fun s => by rw [exec_stackStatus]; unfold execStackStatus; exact State.command_runs _ _ _ _ _
theorem runs_stackReclaim (h : Hdr) (ps : List Word) : Runs (.stackReclaim h ps) := fun s => by rw [exec_stackReclaim]; unfold execStackReclaim; exact State.command_runs _ _ _ _ _
theorem runs_rate (h : Hdr) (ps : List Word) : Runs (.rate h ps) := fun s => by rw [exec_rate]; unfold execRate; exact State.command_runs _ _ _ _ _
theorem runs_loopTest (h : Hdr) (ps : List Word) : Runs (.loopTest h ps) := fun s => by rw [exec_loopTest]; unfold execLoopTest; exact State.command_runs _ _ _ _ _
theorem runs_moduleRead (h : Hdr) (ps : List Word) (ans : Option (List Byte)) : Runs (.moduleRead h ps ans) := fun s => by rw [exec_moduleRead]; unfold execModuleRead; exact State.command_runs _ _ _ _ _
theorem runs_netSend (h : Hdr) (ps : List Word) : Runs (.netSend h ps) := fun s => by rw [exec_netSend]; unfold execNetSend; exact State.command_runs _ _ _ _ _
theorem runs_fwUpdateOpen (h : Hdr) (ps : List Word) : Runs (.fwUpdateOpen h ps) := fun s => by rw [exec_fwUpdateOpen]; unfold execFwUpdateOpen; exact State.modeCommand_runs _ _ _ _ _ _
theorem runs_fwUpdateCommit (h : Hdr) (ps : List Word) (flashFail : Option Nat) : Runs (.fwUpdateCommit h ps flashFail) := fun s => by rw [exec_fwUpdateCommit]; unfold execFwUpdateCommit; exact State.modeCommand_runs _ _ _ _ _ _
theorem runs_fwUpdateAbort (h : Hdr) (ps : List Word) : Runs (.fwUpdateAbort h ps) := fun s => by rw [exec_fwUpdateAbort]; unfold execFwUpdateAbort; exact State.modeCommand_runs _ _ _ _ _ _
theorem runs_guardUnlock (h : Hdr) (ps : List Word) : Runs (.guardUnlock h ps) := fun s => by rw [exec_guardUnlock]; unfold execGuardUnlock; exact State.command_runs _ _ _ _ _
theorem runs_debugOpen (h : Hdr) (ps : List Word) : Runs (.debugOpen h ps) := fun s => by rw [exec_debugOpen]; unfold execDebugOpen; exact State.command_runs _ _ _ _ _
theorem runs_registerWrite (p : Nat) (addr v : Word) : Runs (.registerWrite p addr v) := fun s => by rw [exec_registerWrite]; unfold execRegisterWrite; exact State.hostWrite_runs _ _ _ _
theorem runs_bitAliasWrite (p : Nat) (addr v : Word) : Runs (.bitAliasWrite p addr v) := fun s => by rw [exec_bitAliasWrite]; unfold execBitAliasWrite; exact State.host_runs _ _ _
theorem runs_guardFirstHalf (p : Nat) (addr v : Word) : Runs (.guardFirstHalf p addr v) := fun s => by rw [exec_guardFirstHalf]; unfold execGuardFirstHalf; exact State.host_runs _ _ _
theorem runs_guardComplement (p : Nat) (addr v : Word) : Runs (.guardComplement p addr v) := fun s => by rw [exec_guardComplement]; unfold execGuardComplement; exact State.host_runs _ _ _
theorem runs_holdRequest (p : Nat) : Runs (.holdRequest p) := fun s => by rw [exec_holdRequest]; unfold execHoldRequest; exact State.host_runs _ _ _
theorem runs_sleepRequest (p : Nat) : Runs (.sleepRequest p) := fun s => by rw [exec_sleepRequest]; unfold execSleepRequest; exact State.host_runs _ _ _
theorem runs_holdEntry : Runs (.holdEntry) := fun s => by rw [exec_holdEntry]; unfold execHoldEntry; exact State.run_runs _ _
theorem runs_sleepEntry : Runs (.sleepEntry) := fun s => by rw [exec_sleepEntry]; unfold execSleepEntry; exact State.runThen_runs _ _ _
theorem runs_wakeEvent (bit : Nat) : Runs (.wakeEvent bit) := fun s => by rw [exec_wakeEvent]; unfold execWakeEvent; exact State.run_runs _ _
theorem runs_holdWake : Runs (.holdWake) := fun s => by rw [exec_holdWake]; unfold execHoldWake; exact State.run_runs _ _
theorem runs_sleepWake : Runs (.sleepWake) := fun s => by rw [exec_sleepWake]; unfold execSleepWake; exact State.run_runs _ _
theorem runs_clkFail (dom : Nat) : Runs (.clkFail dom) := fun s => by rw [exec_clkFail]; unfold execClkFail; exact State.run_runs _ _
theorem runs_pllLockTimeout : Runs (.pllLockTimeout) := fun s => by rw [exec_pllLockTimeout]; unfold execPllLockTimeout; exact State.run_runs _ _
theorem runs_supplyFault (rail : Nat) (ovr : Bool) : Runs (.supplyFault rail ovr) := fun s => by rw [exec_supplyFault]; unfold execSupplyFault; exact State.run_runs _ _
theorem runs_bistComplete (mask : Nat) (rows : List Nat) : Runs (.bistComplete mask rows) := fun s => by rw [exec_bistComplete]; unfold execBistComplete; exact State.run_runs _ _
theorem runs_frameGeneratorStart : Runs (.frameGeneratorStart) := fun s => by rw [exec_frameGeneratorStart]; unfold execFrameGeneratorStart; exact State.run_runs _ _
theorem runs_discoveryEnd : Runs (.discoveryEnd) := fun s => by rw [exec_discoveryEnd]; unfold execDiscoveryEnd; exact State.run_runs _ _
theorem runs_timeLockStepEnd : Runs (.timeLockStepEnd) := fun s => by rw [exec_timeLockStepEnd]; unfold execTimeLockStepEnd; exact State.run_runs _ _
theorem runs_olgCrcUpdate : Runs (.olgCrcUpdate) := fun s => by rw [exec_olgCrcUpdate]; unfold execOlgCrcUpdate; exact State.run_runs _ _
theorem runs_wideSelWrite (p : Nat) (sel : BitVec 16) : Runs (.wideSelWrite p sel) := fun s => by rw [exec_wideSelWrite]; unfold execWideSelWrite; exact State.fieldOnly_runs _ _ _ _ _
theorem runs_wideSnapshotReady (p : Nat) : Runs (.wideSnapshotReady p) := fun s => by rw [exec_wideSnapshotReady]; unfold execWideSnapshotReady; exact State.run_runs _ _
theorem runs_wide3Read (p : Nat) : Runs (.wide3Read p) := fun s => by rw [exec_wide3Read]; unfold execWide3Read; exact State.run_runs _ _
theorem runs_stkMrxRead (w : Nat) : Runs (.stkMrxRead w) := fun s => by rw [exec_stkMrxRead]; unfold execStkMrxRead; exact State.run_runs _ _
theorem runs_stkMailSend : Runs (.stkMailSend) := fun s => by rw [exec_stkMailSend]; unfold execStkMailSend; exact State.run_runs _ _
theorem runs_edgArmWrite (p : Nat) (v : Word) : Runs (.edgArmWrite p v) := fun s => by rw [exec_edgArmWrite]; unfold execEdgArmWrite; exact State.hostWrite_runs _ _ _ _
theorem runs_carShadowWrite (p : Nat) (addr v : Word) : Runs (.carShadowWrite p addr v) := fun s => by rw [exec_carShadowWrite]; unfold execCarShadowWrite; exact State.host_runs _ _ _
theorem runs_timIncIntWrite (p : Nat) (v : Word) : Runs (.timIncIntWrite p v) := fun s => by rw [exec_timIncIntWrite]; unfold execTimIncIntWrite; exact State.hostWrite_runs _ _ _ _
theorem runs_timOutCtrlWrite (p n : Nat) (v : Word) : Runs (.timOutCtrlWrite p n v) := fun s => by rw [exec_timOutCtrlWrite]; unfold execTimOutCtrlWrite; exact State.host_runs _ _ _
theorem runs_timOutTgtHiWrite (p n : Nat) (v : Word) : Runs (.timOutTgtHiWrite p n v) := fun s => by rw [exec_timOutTgtHiWrite]; unfold execTimOutTgtHiWrite; exact State.host_runs _ _ _
theorem runs_timOutPerHiWrite (p n : Nat) (v : Word) : Runs (.timOutPerHiWrite p n v) := fun s => by rw [exec_timOutPerHiWrite]; unfold execTimOutPerHiWrite; exact State.host_runs _ _ _
theorem runs_timOutWidthWrite (p n : Nat) (v : Word) : Runs (.timOutWidthWrite p n v) := fun s => by rw [exec_timOutWidthWrite]; unfold execTimOutWidthWrite; exact State.host_runs _ _ _
theorem runs_gsvDenToggleWrite (p : Nat) (mask : BitVec 8) : Runs (.gsvDenToggleWrite p mask) := fun s => by rw [exec_gsvDenToggleWrite]; unfold execGsvDenToggleWrite; exact State.fieldOnly_runs _ _ _ _ _
theorem runs_adcGoWrite (p c : Nat) : Runs (.adcGoWrite p c) := fun s => by rw [exec_adcGoWrite]; unfold execAdcGoWrite; exact State.fieldOnly_runs _ _ _ _ _
theorem runs_accLclrWrite (p a : Nat) : Runs (.accLclrWrite p a) := fun s => by rw [exec_accLclrWrite]; unfold execAccLclrWrite; exact State.fieldOnly_runs _ _ _ _ _
theorem runs_lpeRunWrite (p : Nat) (v : Bool) : Runs (.lpeRunWrite p v) := fun s => by rw [exec_lpeRunWrite]; unfold execLpeRunWrite; exact State.fieldOnly_runs _ _ _ _ _
theorem runs_lpeMemWrite (p : Nat) (addr v : Word) : Runs (.lpeMemWrite p addr v) := fun s => by rw [exec_lpeMemWrite]; unfold execLpeMemWrite; exact State.host_runs _ _ _
theorem runs_thmBrokenWrite (p : Nat) (die : Bool) (b : Nat) (mask : Word) : Runs (.thmBrokenWrite p die b mask) := fun s => by rw [exec_thmBrokenWrite]; unfold execThmBrokenWrite; exact State.fieldOnly_runs _ _ _ _ _
theorem runs_secPresClose (p : Nat) : Runs (.secPresClose p) := fun s => by rw [exec_secPresClose]; unfold execSecPresClose; exact State.hostWrite_runs _ _ _ _
theorem runs_secDbgClose (p : Nat) : Runs (.secDbgClose p) := fun s => by rw [exec_secDbgClose]; unfold execSecDbgClose; exact State.hostWrite_runs _ _ _ _
theorem runs_memScrub (addr : Nat) (errs : Nat) : Runs (.memScrub addr errs) := fun s => by rw [exec_memScrub]; unfold execMemScrub; exact State.run_runs _ _
theorem runs_lpeRowRemap (row : Nat) : Runs (.lpeRowRemap row) := fun s => by rw [exec_lpeRowRemap]; unfold execLpeRowRemap; exact State.run_runs _ _
theorem runs_rowCountWindowExpire (row : Nat) : Runs (.rowCountWindowExpire row) := fun s => by rw [exec_rowCountWindowExpire]; unfold execRowCountWindowExpire; exact State.run_runs _ _
theorem runs_presWindowOpen : Runs (.presWindowOpen) := fun s => by rw [exec_presWindowOpen]; unfold execPresWindowOpen; exact State.run_runs _ _
theorem runs_presWindowClose (p : Nat) : Runs (.presWindowClose p) := fun s => by rw [exec_presWindowClose]; unfold execPresWindowClose; exact State.run_runs _ _
theorem runs_jumperFitted : Runs (.jumperFitted) := fun s => by rw [exec_jumperFitted]; unfold execJumperFitted; exact State.run_runs _ _
theorem runs_jumperRemoved : Runs (.jumperRemoved) := fun s => by rw [exec_jumperRemoved]; unfold execJumperRemoved; exact State.run_runs _ _
theorem runs_sealCheck (sample : Bool) : Runs (.sealCheck sample) := fun s => by rw [exec_sealCheck]; unfold execSealCheck; exact State.run_runs _ _
theorem runs_debugWindowExpire : Runs (.debugWindowExpire) := fun s => by rw [exec_debugWindowExpire]; unfold execDebugWindowExpire; exact State.run_runs _ _
theorem runs_downlinkHeaderReceive (lane : Nat) (x : Rx) : Runs (.downlinkHeaderReceive lane x) := fun s => by rw [exec_downlinkHeaderReceive]; unfold execDownlinkHeaderReceive; exact State.run_runs _ _
theorem runs_dnlEnd : Runs (.dnlEnd) := fun s => by rw [exec_dnlEnd]; unfold execDnlEnd; exact State.run_runs _ _
theorem runs_debugHaltRelease : Runs (.debugHaltRelease) := fun s => by rw [exec_debugHaltRelease]; unfold execDebugHaltRelease; exact State.run_runs _ _
theorem runs_laneRateSwitch (lane : Nat) : Runs (.laneRateSwitch lane) := fun s => by rw [exec_laneRateSwitch]; unfold execLaneRateSwitch; exact State.run_runs _ _
theorem runs_prbs31DwellStart (lane : Nat) : Runs (.prbs31DwellStart lane) := fun s => by rw [exec_prbs31DwellStart]; unfold execPrbs31DwellStart; exact State.run_runs _ _
theorem runs_netAutonegotiation (lane : Nat) : Runs (.netAutonegotiation lane) := fun s => by rw [exec_netAutonegotiation]; unfold execNetAutonegotiation; exact State.run_runs _ _
theorem runs_netFrameSent (lane : Nat) (ts : BitVec 64) : Runs (.netFrameSent lane ts) := fun s => by rw [exec_netFrameSent]; unfold execNetFrameSent; exact State.run_runs _ _
theorem runs_noAnswerTimeout (p : Nat) : Runs (.noAnswerTimeout p) := fun s => by rw [exec_noAnswerTimeout]; unfold execNoAnswerTimeout; exact State.run_runs _ _
theorem runs_aonCrystalStable : Runs (.aonCrystalStable) := fun s => by rw [exec_aonCrystalStable]; unfold execAonCrystalStable; exact State.run_runs _ _

/-- Every command that does not write the protected part runs so. -/
theorem runs_of_not_writesVault (c : Instr) (h : writesVault c = false) : Runs c := by
  cases c with
  | frameBoundary => exact runs_frameBoundary
  | longWindowClose a => exact runs_longWindowClose _
  | uplEnd => exact runs_uplEnd
  | partitionComplete cl flt => exact runs_partitionComplete _ _
  | lpeSpareReady => exact runs_lpeSpareReady
  | planInstant => exact runs_planInstant
  | bypassTimeout b => exact runs_bypassTimeout _
  | prechargeLimit isPair n => exact runs_prechargeLimit _ _
  | prechargeComplete => exact runs_prechargeComplete
  | timebaseReload t => exact runs_timebaseReload _
  | channelTransition c => exact runs_channelTransition _
  | cmpxFire t m => exact runs_cmpxFire _ _
  | tripInputAssert x => exact runs_tripInputAssert _
  | gateDesat l => exact runs_gateDesat _
  | dfbOffLevel x => exact runs_dfbOffLevel _
  | gateHsTimeout k => exact runs_gateHsTimeout _
  | dfbStuck k => exact runs_dfbStuck _
  | gsmonFall x => exact runs_gsmonFall _
  | gsmonRise x => exact runs_gsmonRise _
  | edgeClkLost => exact runs_edgeClkLost
  | debugHalt => exact runs_debugHalt
  | denToggleEnd m => exact runs_denToggleEnd _
  | acqRegularTrigger c => exact runs_acqRegularTrigger _
  | acqUrgentTrigger c => exact runs_acqUrgentTrigger _
  | acqPassEnd c inj => exact runs_acqPassEnd _ _
  | adcResult phys slot x => exact runs_adcResult _ _ _
  | uplinkRecordReceive x strand fromB => exact runs_uplinkRecordReceive _ _ _
  | sensorSilentTimeout b n => exact runs_sensorSilentTimeout _ _
  | thmHoldEnd b => exact runs_thmHoldEnd _
  | housekeepingRound counts rails => exact runs_housekeepingRound _ _
  | timWrap => exact runs_timWrap
  | pulseOutFire n => exact runs_pulseOutFire _
  | pulseWidthEnd n => exact runs_pulseWidthEnd _
  | trigInCapture n rising x => exact runs_trigInCapture _ _ _
  | ttRequestSend lane => exact runs_ttRequestSend _
  | ttRequestReceive lane seq turn => exact runs_ttRequestReceive _ _ _
  | ttResponseReceive lane rtt seq turn => exact runs_ttResponseReceive _ _ _ _
  | netFrameReceive lane fcsOk bytes ts => exact runs_netFrameReceive _ _ _ _
  | laneLosAssert lane => exact runs_laneLosAssert _
  | laneLosDeassert lane => exact runs_laneLosDeassert _
  | laneLolAssert lane => exact runs_laneLolAssert _
  | laneLolDeassert lane => exact runs_laneLolDeassert _
  | laneLolPersist lane testFail => exact runs_laneLolPersist _ _
  | linkBringUp lane => exact runs_linkBringUp _
  | capReceive lane bytes => exact runs_capReceive _ _
  | laneDwellEnd lane errs lost => exact runs_laneDwellEnd _ _ _
  | capReportTimeout lane => exact runs_capReportTimeout _
  | laneFallbackEnd lane => exact runs_laneFallbackEnd _
  | laneStepFail lane => exact runs_laneStepFail _
  | linkRejoin lane errs lost => exact runs_linkRejoin _ _ _
  | linkRejoinRetry lane => exact runs_linkRejoinRetry _
  | loopTestEnd lane bits errs lost => exact runs_loopTestEnd _ _ _ _
  | modulePoll lane page => exact runs_modulePoll _ _
  | twinListenEnd => exact runs_twinListenEnd
  | twinFrameReceive lane x => exact runs_twinFrameReceive _ _
  | h1Deadline => exact runs_h1Deadline
  | twinSyncComplete => exact runs_twinSyncComplete
  | h2WordSend => exact runs_h2WordSend
  | h2WordReceive w => exact runs_h2WordReceive _
  | h2Deadline => exact runs_h2Deadline
  | hbInDown => exact runs_hbInDown
  | twinYield => exact runs_twinYield
  | twinHoldExpire => exact runs_twinHoldExpire
  | mgmtLockstep => exact runs_mgmtLockstep
  | mgmtSelftestDone p0 p1 => exact runs_mgmtSelftestDone _ _
  | cascadeFrameReceive lane x => exact runs_cascadeFrameReceive _ _
  | stkMasterMiss => exact runs_stkMasterMiss
  | stkTakeover => exact runs_stkTakeover
  | stkOrphan => exact runs_stkOrphan
  | stkReturnedReady => exact runs_stkReturnedReady
  | logWrite => exact runs_logWrite
  | notificationDeliver p mbx => exact runs_notificationDeliver _ _
  | windowRead p addr n => exact runs_windowRead _ _ _
  | windowWrite p addr words => exact runs_windowWrite _ _ _
  | statusRead p => exact runs_statusRead _
  | ringPush p ring bytes => exact runs_ringPush _ _ _
  | replyPop p net n => exact runs_replyPop _ _ _
  | mbxSend p idx words cut => exact runs_mbxSend _ _ _ _
  | mbxRecv p idx n => exact runs_mbxRecv _ _ _
  | hostBadInstruction p => exact runs_hostBadInstruction _
  | mbxCopy p idx => exact runs_mbxCopy _ _
  | locketTake p l => exact runs_locketTake _ _
  | kaWarn p => exact runs_kaWarn _
  | hostKeepaliveLapse p => exact runs_hostKeepaliveLapse _
  | hstKick p => exact runs_hstKick _
  | claspWrite p n v => exact runs_claspWrite _ _ _
  | doorbellSet p mask => exact runs_doorbellSet _ _
  | nop h ps => exact runs_nop _ _
  | ident h ps => exact runs_ident _ _
  | descRead h ps => exact runs_descRead _ _
  | status h ps => exact runs_status _ _
  | keepalive h ps => exact runs_keepalive _ _
  | bulkWrite h ps => exact runs_bulkWrite _ _
  | bulkRead h ps => exact runs_bulkRead _ _
  | regRd h ps => exact runs_regRd _ _
  | regWr h ps => exact runs_regWr _ _
  | regWrPair h ps => exact runs_regWrPair _ _
  | regRdWide h ps => exact runs_regRdWide _ _
  | stageOpen h ps => exact runs_stageOpen _ _
  | stageApply h ps => exact runs_stageApply _ _
  | stageAbort h ps => exact runs_stageAbort _ _
  | stagedSetApply => exact runs_stagedSetApply
  | frmApply => exact runs_frmApply
  | arm h ps => exact runs_arm _ _
  | armApply => exact runs_armApply
  | precharge h ps => exact runs_precharge _ _
  | softStart h ps => exact runs_softStart _ _
  | softStartApply => exact runs_softStartApply
  | autorunComplete => exact runs_autorunComplete
  | run h ps => exact runs_run _ _
  | quiesce h ps => exact runs_quiesce _ _
  | stop h ps => exact runs_stop _ _
  | beadBypass h ps => exact runs_beadBypass _ _
  | beadInsert h ps => exact runs_beadInsert _ _
  | beadRetire h ps => exact runs_beadRetire _ _
  | beadCommandAct => exact runs_beadCommandAct
  | beadEnableToggle h ps => exact runs_beadEnableToggle _ _
  | lpLoadOpen h ps => exact runs_lpLoadOpen _ _
  | lpLoadCommit h ps => exact runs_lpLoadCommit _ _
  | lpLoadAbort h ps => exact runs_lpLoadAbort _ _
  | lpVerify h ps => exact runs_lpVerify _ _
  | coefSwap h ps => exact runs_coefSwap _ _
  | coefSwapApply => exact runs_coefSwapApply
  | fltLog h ps => exact runs_fltLog _ _
  | fltInject h ps => exact runs_fltInject _ _
  | fltClear _ _ => exact absurd h (by simp [writesVault])
  | timeStep h ps => exact runs_timeStep _ _
  | timeInc h ps => exact runs_timeInc _ _
  | pulseSet h ps => exact runs_pulseSet _ _
  | captureRead h ps => exact runs_captureRead _ _
  | twinStatus h ps => exact runs_twinStatus _ _
  | twinPrefer h ps => exact runs_twinPrefer _ _
  | twinHandback h ps => exact runs_twinHandback _ _
  | stackStatus h ps => exact runs_stackStatus _ _
  | stackReclaim h ps => exact runs_stackReclaim _ _
  | rate h ps => exact runs_rate _ _
  | loopTest h ps => exact runs_loopTest _ _
  | moduleRead h ps ans => exact runs_moduleRead _ _ _
  | netSend h ps => exact runs_netSend _ _
  | fwUpdateOpen h ps => exact runs_fwUpdateOpen _ _
  | fwUpdateCommit h ps flashFail => exact runs_fwUpdateCommit _ _ _
  | fwUpdateAbort h ps => exact runs_fwUpdateAbort _ _
  | keyProvision _ _ => exact absurd h (by simp [writesVault])
  | ownerKey _ _ => exact absurd h (by simp [writesVault])
  | guardUnlock h ps => exact runs_guardUnlock _ _
  | hallmark _ _ _ => exact absurd h (by simp [writesVault])
  | debugOpen h ps => exact runs_debugOpen _ _
  | fuseWrite _ _ => exact absurd h (by simp [writesVault])
  | registerWrite p addr v => exact runs_registerWrite _ _ _
  | bitAliasWrite p addr v => exact runs_bitAliasWrite _ _ _
  | guardFirstHalf p addr v => exact runs_guardFirstHalf _ _ _
  | guardComplement p addr v => exact runs_guardComplement _ _ _
  | holdRequest p => exact runs_holdRequest _
  | sleepRequest p => exact runs_sleepRequest _
  | holdEntry => exact runs_holdEntry
  | sleepEntry => exact runs_sleepEntry
  | wakeEvent bit => exact runs_wakeEvent _
  | holdWake => exact runs_holdWake
  | sleepWake => exact runs_sleepWake
  | clkFail dom => exact runs_clkFail _
  | pllLockTimeout => exact runs_pllLockTimeout
  | supplyFault rail ovr => exact runs_supplyFault _ _
  | vaonPowerOn => exact absurd h (by simp [writesVault])
  | corePowerOn => exact absurd h (by simp [writesVault])
  | porNRelease _ _ _ _ => exact absurd h (by simp [writesVault])
  | resetNRelease _ _ => exact absurd h (by simp [writesVault])
  | bistComplete mask rows => exact runs_bistComplete _ _
  | frameGeneratorStart => exact runs_frameGeneratorStart
  | discoveryEnd => exact runs_discoveryEnd
  | timeLockStepEnd => exact runs_timeLockStepEnd
  | olgCrcUpdate => exact runs_olgCrcUpdate
  | wideSelWrite p sel => exact runs_wideSelWrite _ _
  | wideSnapshotReady p => exact runs_wideSnapshotReady _
  | wide3Read p => exact runs_wide3Read _
  | stkMrxRead w => exact runs_stkMrxRead _
  | stkMailSend => exact runs_stkMailSend
  | edgArmWrite p v => exact runs_edgArmWrite _ _
  | carShadowWrite p addr v => exact runs_carShadowWrite _ _ _
  | timIncIntWrite p v => exact runs_timIncIntWrite _ _
  | timOutCtrlWrite p n v => exact runs_timOutCtrlWrite _ _ _
  | timOutTgtHiWrite p n v => exact runs_timOutTgtHiWrite _ _ _
  | timOutPerHiWrite p n v => exact runs_timOutPerHiWrite _ _ _
  | timOutWidthWrite p n v => exact runs_timOutWidthWrite _ _ _
  | gsvDenToggleWrite p mask => exact runs_gsvDenToggleWrite _ _
  | adcGoWrite p c => exact runs_adcGoWrite _ _
  | accLclrWrite p a => exact runs_accLclrWrite _ _
  | lpeRunWrite p v => exact runs_lpeRunWrite _ _
  | lpeMemWrite p addr v => exact runs_lpeMemWrite _ _ _
  | thmBrokenWrite p die b mask => exact runs_thmBrokenWrite _ _ _ _
  | secPresClose p => exact runs_secPresClose _
  | secDbgClose p => exact runs_secDbgClose _
  | memScrub addr errs => exact runs_memScrub _ _
  | lpeRowRemap row => exact runs_lpeRowRemap _
  | rowCountWindowExpire row => exact runs_rowCountWindowExpire _
  | presWindowOpen => exact runs_presWindowOpen
  | presWindowClose p => exact runs_presWindowClose _
  | jumperFitted => exact runs_jumperFitted
  | jumperRemoved => exact runs_jumperRemoved
  | sealCheck sample => exact runs_sealCheck _
  | debugWindowExpire => exact runs_debugWindowExpire
  | downlinkHeaderReceive lane x => exact runs_downlinkHeaderReceive _ _
  | dnlEnd => exact runs_dnlEnd
  | debugHaltRelease => exact runs_debugHaltRelease
  | laneRateSwitch lane => exact runs_laneRateSwitch _
  | prbs31DwellStart lane => exact runs_prbs31DwellStart _
  | netAutonegotiation lane => exact runs_netAutonegotiation _
  | netFrameSent lane ts => exact runs_netFrameSent _ _
  | noAnswerTimeout p => exact runs_noAnswerTimeout _
  | aonCrystalStable => exact runs_aonCrystalStable

/-- What such a command does to the protected part. -/
theorem exec_vaultStep {s t : State} {c : Instr} (h : writesVault c = false) (e : exec c s = .next t) : VaultStep s.vault t.vault := by
  obtain ⟨f, g, hf⟩ := runs_of_not_writesVault c h s
  rw [hf] at e
  cases e
  exact State.settleWk_vault s s.vault (f s.wk)

end Sys2Proof.Machine
end

