-- ==== Sys2Proof/Tests/Slice0.lean ====
section
/-! SUPPORT. Tests: ill-formed commands that the check refuses, a witness for the hypotheses of every statement, and single steps
whose results the manual gives. -/
namespace Sys2Proof.Tests
set_option Elab.async false
open Sys2Proof Sys2Proof.Machine

/-- A packet of HPA's ring 0. -/
def hd : Hdr := ⟨0, false, 0, 0, 0, false⟩
/-- A packet of HPB's last locket. -/
def hk : Hdr := ⟨1, true, 3, 65535, 3, false⟩
/-- A NET packet of HPB. -/
def hn : Hdr := ⟨1, false, 14, 1, 0, false⟩
/-- Fields written one after another. -/
def fl (l : List (Fld × Nat)) (d : Dev) : Dev := l.foldl (fun d x => d.wr x.1 x.2) d
/-- The state after reset but for its device, start-up done. -/
def mk (f : Dev → Dev) : State := State.reset.withDev (f (fl [(F.CLK_START_STEP, 0)] State.reset.dev))
/-- The state after reset but for some fields. -/
def st (l : List (Fld × Nat)) : State := mk (fl l)
/-- Bytes from numbers. -/
def by8 (l : List Nat) : List Byte := l.map (BitVec.ofNat 8 ·)
/-- Bytes with their CRC-32C behind them. -/
def crcd (b : List Byte) : List Byte := b ++ leBytes 4 (crc32c b)
/-- A 32-byte header of a type of frame: version and type, byte 1, SEQ, the word at 4, and the rest of it. -/
def hdr32 (type b1 seq w4 : Nat) (r : List Nat) : List Byte := crcd (padTo 28 (by8 [1 + 16 * type, b1, seq % 256, seq / 256] ++ leBytes 4 w4 ++ by8 r))
/-- Port HPB in a presence window, with the jumper fitted. -/
def present : Dev → Dev := fun d => (fl [(F.SEC_PRES_STAT_JUMPER, 1)] d).upPort 1 fun q => { q with presEnd := some 1 }
/-- The device in RUN of the frame generator, device time at its increment. -/
def frames (l : List (Fld × Nat)) : State := st ((F.SYS_FRM_CTRL_RUNNING, 1) :: l)
/-- An image of one entry: header with magic, version, one partition and one entry, body, CRC. -/
def image1 : List Byte := crcd (crcd (padTo 124 (leBytes 4 0x4752504C ++ by8 [1, 0, 1, 0] ++ leBytes 4 1)) ++ by8 (List.replicate 16 0))
/-- A NOP packet of ring 14. -/
def packet1 : List Byte := crcd (by8 [1, 0, 0, 0, 0, 0, 0, 0, 14, 0, 0, 0, 0, 0, 0, 0])
/-- A NOP packet as it stands in a locket. -/
def locket1 : List Word := toWords 8 (padTo 32 (crcd (by8 [1, 0, 0, 0, 0, 0, 0, 0, 3, 0, 0, 0, 0, 0, 0, 0])))

/-! The opcodes of the staging group are free values, so the checks that compare an opcode with them are done by hand: for an
opcode of another group they say what these do. -/

/-- `mirrored` outside the staging group. -/
def mir (op : Nat) : Bool := op / 256 = 3 || op / 256 = 4 || op / 256 = 5
/-- `holdsCmd` outside the staging group. -/
def holds (d : Dev) (op : Nat) : Bool :=
  (op = 0x0502 || op / 256 = 3) && d.twin = 4 && (d.twn.pState = some 2 || d.twn.pState = some 3) && (d.frame.planned || !d.twn.out.isEmpty)
/-- `preCheck` outside the staging group. -/
def pre (w : Wk) (op : Nat) (h : Hdr) (ps : List Word) : Refused :=
  (badForm h op ps).or <| (w.noState (w.d.sec.recovery && !recoveryOk op ps)).or <| (w.noState (w.v.lockout && !lockoutOk op)).or <|
  (w.noState ((mir op || w.writesStg op ps) && !w.d.serves || (mir op && op ≠ 0x0304 && op ≠ 0x0305 && w.d.twin = 4 && w.d.twn.pState = some 3 && !w.d.rdB F.TWN_STAT_H1_UP))).or <|
    match claspFor op with
    | some n => no (w.d.claspHeld n h.port) .claspHeld n
    | none => none
/-- `replyMost` outside the staging group. -/
def rmost (op : Nat) : Nat :=
  match op with
  | 0x0001 => 8 | 0x0002 => 256 | 0x0003 => 7 | 0x0004 | 0x0005 => 1 | 0x0006 | 0x0600 => 254 | 0x0100 => 255 | 0x0103 => 4
  | 0x0300 | 0x0302 | 0x0402 | 0x0400 | 0x0403 | 0x0601 | 0x0602 | 0x0802 | 0x0901 | 0x0F00 => 1
  | 0x0301 | 0x0A01 => 4 | 0x0401 | 0x0502 | 0x0700 | 0x0A00 | 0x0F01 | 0x0F04 => 2 | 0x0501 | 0x0800 => 5 | 0x0703 => 32
  | 0x0900 | 0x0B00 => 3 | 0x0A02 => 16 | _ => 0
/-- `room` outside the staging group, with no command of a ring of the port waiting. -/
def roomy (d : Dev) (p op : Nat) : Bool :=
  let q := (d.port p).replies
  decide ((d.waits.filter fun x => x.hdr.port = p && !x.hdr.locket) = []) && decide (q.length < 64) && decide ((q.map (·.length)).sum + (20 + 4 * rmost op) ≤ 16384)
/-- `judges` outside the staging group. -/
def jud (s : State) (op : Nat) (h : Hdr) (ps : List Word) : Bool :=
  decide (h.port < 2) && (s.dev.frozen.isNone && !s.dev.blocked h.port h.locket h.ring && if h.locket then (tget [] (s.dev.port h.port).outb h.ring).isEmpty else roomy s.dev h.port op)
    && !(holds (s.taking op h ps).d op)

theorem opStage_group (n : Nat) : (0x0200 + (Config.stageByte n).toNat) / 256 = 2 := by
  have := (Config.stageByte n).isLt; omega

theorem mirrored_other (op : Nat) (h : op / 256 ≠ 2) : mirrored op = mir op ∧ mirrorWaits op = (decide (op = 0x0502) || decide (op / 256 = 3)) := by
  have a : op ≠ Config.opStageApply := fun e => h (e ▸ opStage_group 1)
  have b : op ≠ Config.opStageAbort := fun e => h (e ▸ opStage_group 2)
  simp [mirrored, mirrorWaits, mir, a, b]

theorem holdsCmd_other (d : Dev) (op : Nat) (h : op / 256 ≠ 2) : d.holdsCmd op = holds d op := by
  unfold Dev.holdsCmd holds; rw [(mirrored_other op h).2]

theorem preCheck_other (w : Wk) (op : Nat) (hd : Hdr) (ps : List Word) (h : op / 256 ≠ 2) : w.preCheck op hd ps = pre w op hd ps := by
  unfold Wk.preCheck pre Dev.mirrorBlind; rw [(mirrored_other op h).1] <;> rfl

theorem replyMost_other (op : Nat) (h : op / 256 ≠ 2) : replyMost op = rmost op := by
  have a : op ≠ Config.opStageApply := fun e => h (e ▸ opStage_group 1)
  unfold replyMost rmost; rw [if_neg a] <;> rfl

theorem roomy_room (d : Dev) (p op : Nat) (h : replyMost op ≤ rmost op) (r : roomy d p op = true) : d.room p op = true := by
  simp only [roomy, Bool.and_eq_true, decide_eq_true_eq] at r
  obtain ⟨⟨e, l⟩, n⟩ := r
  simp only [Dev.room, e, List.map_nil, List.length_nil, List.sum_nil, Bool.and_eq_true, decide_eq_true_eq, replySize]
  omega

theorem takes_other (d : Dev) (op : Nat) (h : Hdr) (ho : op / 256 ≠ 2)
    (j : (d.frozen.isNone && !d.blocked h.port h.locket h.ring && if h.locket then (tget [] (d.port h.port).outb h.ring).isEmpty else roomy d h.port op) = true) : d.takes op h = true := by
  unfold Dev.takes
  simp only [Bool.and_eq_true] at j ⊢
  obtain ⟨⟨fz, bl⟩, r⟩ := j
  refine ⟨⟨fz, bl⟩, ?_⟩
  split
  · rename_i e; simpa [e] using r
  · rename_i e; rw [if_neg e] at r; exact roomy_room _ _ _ (Nat.le_of_eq (replyMost_other _ ho)) r

theorem judges_other (s : State) (op : Nat) (h : Hdr) (ps : List Word) (ho : op / 256 ≠ 2) (j : jud s op h ps = true) : s.judges op h ps = true := by
  unfold State.judges; rw [holdsCmd_other _ _ ho]
  simp only [jud, Bool.and_eq_true] at j ⊢
  exact ⟨⟨j.1.1, takes_other _ _ _ ho (by simp only [Bool.and_eq_true]; exact j.1.2)⟩, j.2⟩

theorem verdict_other (s : State) (op : Nat) (h : Hdr) (ps : List Word) (c : Cmd) (ho : op / 256 ≠ 2) :
    s.verdict op h ps c = (pre (s.taking op h ps) op h ps).or (c.check (s.taking op h ps)) := by
  unfold State.verdict; rw [preCheck_other _ _ _ _ ho]

theorem accepts_other (s : State) (op : Nat) (h : Hdr) (ps : List Word) (c : Cmd) (ho : op / 256 ≠ 2)
    (j : (jud s op h ps && ((pre (s.taking op h ps) op h ps).or (c.check (s.taking op h ps))).isNone) = true) : s.accepts op h ps c = true := by
  rw [Bool.and_eq_true] at j
  unfold State.accepts; rw [judges_other _ _ _ _ ho j.1, verdict_other _ _ _ _ _ ho, j.2]; rfl

theorem passes_other (s : State) (op : Nat) (h : Hdr) (ps : List Word) (ho : op / 256 ≠ 2)
    (j : (jud s op h ps && (pre (s.taking op h ps) op h ps).isNone) = true) : s.passes op h ps = true := by
  rw [Bool.and_eq_true] at j
  unfold State.passes; rw [judges_other _ _ _ _ ho j.1, preCheck_other _ _ _ _ ho, j.2]; rfl

/-- A command of the staging group is accepted by a device without a twin that holds no packet of its ring. -/
theorem stage_accepted (op : Nat) (s : State) (h : Hdr) (c : Cmd) (ho : op = Config.opStageOpen ∨ op = Config.opStageApply ∨ op = Config.opStageAbort)
    (ht : s.dev.takePkt op h [] = s.dev) (hc : c.check s.wk = none)
    (hs : (decide (h.port < 2) && s.dev.frozen.isNone && !s.dev.sec.recovery && decide (s.dev.twin = 0) && !s.vault.lockout
      && !s.dev.claspHeld 1 h.port && !s.dev.blocked h.port h.locket h.ring && (!h.locket && roomy s.dev h.port 0x0004)) = true) : s.accepts op h [] c = true := by
  have g : op / 256 = 2 := by rcases ho with e | e | e <;> exact e ▸ opStage_group _
  simp only [Bool.and_eq_true, decide_eq_true_eq, Bool.not_eq_true'] at hs
  obtain ⟨⟨⟨⟨⟨⟨⟨p, fz⟩, rc⟩, tw⟩, lo⟩, cl⟩, bl⟩, lk, rm⟩ := hs
  have w : s.taking op h [] = s.wk := by
    show { s.wk with d := s.dev.takePkt op h [] } = s.wk
    rw [ht]; rfl
  have hh : s.dev.holdsCmd op = false := by simp [Dev.holdsCmd, tw]
  have f : badForm h op [] = none := by
    have n1 : op ≠ 0x0500 := by omega
    have n2 : op ≠ 0x0F00 := by omega
    simp [badForm, plenFor, plenRange, g, ho, n1, n2, no, Refused.or]
  have st : s.wk.writesStg op [] = false := by
    have n : op ≠ 0x0101 := by omega
    simp [Wk.writesStg, n]
  have q : s.wk.preCheck op h [] = none := by
    have e0 : s.wk.d.sec.recovery = false := rc
    have e1 : s.wk.v.lockout = false := lo
    have e2 : s.wk.d.serves = true := by unfold Dev.serves; rw [show s.wk.d.twin = 0 from tw]; rfl
    have e3 : s.wk.d.mirrorBlind op = false := by unfold Dev.mirrorBlind; rw [show s.wk.d.twin = 0 from tw]; simp
    have e4 : claspFor op = some 1 := by simp [claspFor, g]
    have e5 : s.wk.d.claspHeld 1 h.port = false := cl
    simp [Wk.preCheck, f, st, e0, e1, e2, e3, e4, e5, Wk.noState, no, Refused.or]
  have m : replyMost op ≤ 1 := by
    unfold replyMost; split
    · exact Nat.le_refl 1
    · split <;> omega
  have r : s.dev.room h.port op = true := by
    simp only [roomy, Bool.and_eq_true, decide_eq_true_eq, show rmost 0x0004 = 1 from rfl] at rm
    obtain ⟨⟨e, l⟩, n⟩ := rm
    simp only [Dev.room, e, List.map_nil, List.length_nil, List.sum_nil, Bool.and_eq_true, decide_eq_true_eq, replySize]
    omega
  unfold State.accepts State.judges State.verdict
  rw [w, q, show s.wk.d = s.dev from rfl, hh, hc]
  rw [lk] at bl
  simp [p, Dev.takes, fz, bl, lk, r, Refused.or]
/-- A TWIN header: bytes 1, SEQ, the epoch, filled up, with its CRC-8. -/
def twinHdr (b1 seq epoch : Nat) : List Byte :=
  let l := padTo 31 (by8 [0x31, b1, seq % 256, seq / 256] ++ leBytes 4 epoch)
  l ++ [BitVec.ofNat 8 (crc8 l)]
/-- A bead's record: position, bead, STATE, filled up, with its CRC. -/
def record (pos bead state : Nat) : List Byte := crcd (padTo 124 (by8 [pos, bead, state]))

/-- A state and operands that meet the hypotheses of Obligations.StepRunsTheFrontCommand, clause by clause. -/
theorem witness_StepRunsTheFrontCommand :
  (∃ (s : State) (c : Instr) (r : List Instr), (s.pending = c :: r)) := by
  refine ⟨⟨{}, {}, [.frameBoundary, .planInstant]⟩, .frameBoundary, [.planInstant], ?_⟩
  · rfl

/-- A state and operands that meet the hypotheses of Obligations.EmptyQueueStepCompletes, clause by clause. -/
theorem witness_EmptyQueueStepCompletes :
  (∃ (s : State), (s.pending = [])) := by
  refine ⟨State.reset, ?_⟩
  · rfl

/-- A state and operands that meet the hypotheses of Obligations.ResetLeavesEveryFieldAtItsResetValue, clause by clause. -/
theorem witness_ResetLeavesEveryFieldAtItsResetValue :
  (∃ (f : Fld), (f.rst < 2 ^ f.width)) := by
  refine ⟨F.TIM_INC_INT, ?_⟩
  · decide +kernel

/-- A state and operands that meet the hypotheses of Obligations.OnlyCorePowerOnClearsTheLockout, clause by clause. -/
theorem witness_OnlyCorePowerOnClearsTheLockout :
  (∃ (s t : State) (c : Instr), (s.vault.lockout = true) ∧ (c ≠ .vaonPowerOn) ∧ (c ≠ .corePowerOn) ∧ (exec c s = .next t)) ∧
  (∃ (s t : State), (s.vault.lockout = true) ∧ (s.pending = []) ∧ (step s = .next t)) ∧
  (∃ (s t : State) (c : Instr), (s.vault.prevLockout = true) ∧ (c ≠ .vaonPowerOn) ∧ ((∀ h ps, c = .fltClear h ps → bitOf (pw ps 0) 1 = false)) ∧ (exec c s = .next t)) := by
  refine ⟨⟨⟨{}, { lockout := true }, []⟩, ⟨{}, { lockout := true }, []⟩, .uplEnd, ?_⟩,
    ⟨⟨{}, { lockout := true }, []⟩, (match step ⟨{}, { lockout := true }, []⟩ with | .next t => t | _ => State.reset), ?_⟩,
    ⟨⟨{}, { prevLockout := true }, []⟩, ⟨{}, { prevLockout := true }, []⟩, .uplEnd, ?_⟩⟩
  · exact ⟨rfl, by decide, by decide, rfl⟩
  · exact ⟨rfl, rfl, rfl⟩
  · exact ⟨rfl, by decide, (fun _ _ h => Instr.noConfusion h), rfl⟩

/-- A state and operands that meet the hypotheses of Obligations.FirstFaultPairStandsUntilCleared, clause by clause. -/
theorem witness_FirstFaultPairStandsUntilCleared :
  (∃ (s t : State) (c : Instr), (s.vault.first.isSome = true) ∧ (c ≠ .vaonPowerOn) ∧ ((∀ h ps, c = .fltClear h ps → bitOf (pw ps 0) 0 = false)) ∧ (exec c s = .next t) ∧ (s.vault.comp.isSome = true)) ∧
  (∃ (s t : State) (c : Instr), (s.vault.first.isSome = true) ∧ (c ≠ .vaonPowerOn) ∧ ((∀ h ps, c = .fltClear h ps → bitOf (pw ps 0) 0 = false)) ∧ (exec c s = .next t)) := by
  refine ⟨⟨⟨{}, { first := some { fs := 2, kind := 0, inst := 0 }, comp := some { fs := 4, kind := 0, inst := 0 } }, []⟩, ⟨{}, { first := some { fs := 2, kind := 0, inst := 0 }, comp := some { fs := 4, kind := 0, inst := 0 } }, []⟩, .uplEnd, ?_⟩,
    ⟨⟨{}, { first := some { fs := 2, kind := 0, inst := 0 } }, []⟩, ⟨{}, { first := some { fs := 2, kind := 0, inst := 0 } }, []⟩, .uplEnd, ?_⟩⟩
  · exact ⟨rfl, by decide, (fun _ _ h => Instr.noConfusion h), rfl, rfl⟩
  · exact ⟨rfl, by decide, (fun _ _ h => Instr.noConfusion h), rfl⟩

/-- A state and operands that meet the hypotheses of Obligations.FusesChangeOnlyByTheirOwnCommands, clause by clause. -/
theorem witness_FusesChangeOnlyByTheirOwnCommands :
  (∃ (s t : State) (c : Instr), (match c with | .fuseWrite .. | .keyProvision .. | .ownerKey .. | .hallmark .. | .porNRelease .. | .resetNRelease .. => False | _ => True) ∧ (exec c s = .next t)) := by
  refine ⟨State.reset, State.reset, .uplEnd, ?_⟩
  · exact ⟨trivial, rfl⟩

/-- A state and operands that meet the hypotheses of Obligations.ReadingCommandsOnlyReply, clause by clause. -/
theorem witness_ReadingCommandsOnlyReply :
  (∃ (s : State) (h : Hdr) (ps : List Word), (s.accepts 0x0000 h ps (nopCmd h) = true)) ∧
  (∃ (s : State) (h : Hdr) (ps : List Word), (s.accepts 0x0001 h ps (identCmd h) = true)) ∧
  (∃ (s : State) (h : Hdr) (ps : List Word), (s.accepts 0x0002 h ps (descReadCmd h ps) = true)) ∧
  (∃ (s : State) (h : Hdr) (ps : List Word), (s.accepts 0x0003 h ps (statusCmd h) = true)) ∧
  (∃ (s : State) (h : Hdr) (ps : List Word), (s.accepts 0x0006 h ps (bulkReadCmd h ps) = true)) ∧
  (∃ (s : State) (h : Hdr) (ps : List Word), (s.accepts 0x0600 h ps (fltLogCmd h ps) = true)) ∧
  (∃ (s : State) (h : Hdr) (ps : List Word), (s.accepts 0x0800 h ps (twinStatusCmd h) = true)) ∧
  (∃ (s : State) (h : Hdr) (ps : List Word), (s.accepts 0x0900 h ps (stackStatusCmd h) = true)) := by
  refine ⟨⟨st [], hd, [], ?_⟩,
    ⟨st [], hk, [], ?_⟩,
    ⟨st [], hd, [16380, 255], ?_⟩,
    ⟨st [], hd, [], ?_⟩,
    ⟨st [], hd, [3, 3080, 254], ?_⟩,
    ⟨st [], hd, [1, 0, 126], ?_⟩,
    ⟨st [], hd, [], ?_⟩,
    ⟨st [], hd, [], ?_⟩⟩
  · exact accepts_other _ _ _ _ _ (by decide) (by decide +kernel)
  · exact accepts_other _ _ _ _ _ (by decide) (by decide +kernel)
  · exact accepts_other _ _ _ _ _ (by decide) (by decide +kernel)
  · exact accepts_other _ _ _ _ _ (by decide) (by decide +kernel)
  · exact accepts_other _ _ _ _ _ (by decide) (by decide +kernel)
  · exact accepts_other _ _ _ _ _ (by decide) (by decide +kernel)
  · exact accepts_other _ _ _ _ _ (by decide) (by decide +kernel)
  · exact accepts_other _ _ _ _ _ (by decide) (by decide +kernel)

/-- A state and operands that meet the hypotheses of Obligations.CommandsDoneAtOnce, clause by clause. -/
theorem witness_CommandsDoneAtOnce :
  (∃ (s : State) (h : Hdr) (ps : List Word), (s.accepts 0x0004 h ps (keepaliveCmd h) = true)) ∧
  (∃ (s : State) (h : Hdr) (ps : List Word), (s.accepts 0x0005 h ps (bulkWriteCmd h ps) = true)) ∧
  (∃ (s : State) (h : Hdr) (ps : List Word), (s.accepts Config.opStageOpen h ps (stageOpenCmd h) = true)) ∧
  (∃ (s : State) (h : Hdr) (ps : List Word), (s.accepts Config.opStageAbort h ps (stageAbortCmd h ps) = true)) ∧
  (∃ (s : State) (h : Hdr) (ps : List Word), (s.accepts 0x0703 h ps (captureReadCmd h ps) = true)) ∧
  (∃ (s : State) (h : Hdr) (ps : List Word), (s.accepts 0x0801 h ps (twinPreferCmd h ps) = true)) ∧
  (∃ (s : State) (h : Hdr) (ps : List Word), (s.accepts 0x0F03 h ps (guardUnlockCmd h) = true)) ∧
  (∃ (s : State) (h : Hdr) (ps : List Word), (s.accepts 0x0303 h ps (runCmd h ps) = true)) ∧
  (∃ (s : State) (h : Hdr) (ps : List Word) (b : List Byte), (s.accepts 0x0A02 h ps (moduleReadCmd h ps (some b)) = true)) := by
  refine ⟨⟨st [], hd, [], ?_⟩,
    ⟨st [], hd, [3, 4092, 1], ?_⟩,
    ⟨st [], hd, [], ?_⟩,
    ⟨mk (fun d => { d with stage := some ⟨0, none⟩ }), hd, [], ?_⟩,
    ⟨st [], hd, [0x0803], ?_⟩,
    ⟨st [], hd, [1], ?_⟩,
    ⟨mk present, hk, [], ?_⟩,
    ⟨mk (fun d => { d with run := .softStarting }), hd, [], ?_⟩,
    ⟨st [], hd, [23, 64], [], ?_⟩⟩
  · exact accepts_other _ _ _ _ _ (by decide) (by decide +kernel)
  · exact accepts_other _ _ _ _ _ (by decide) (by decide +kernel)
  · exact stage_accepted _ _ _ _ (Or.inl rfl) rfl rfl (by decide +kernel)
  · exact stage_accepted _ _ _ _ (Or.inr (Or.inr rfl)) rfl (by decide +kernel) (by decide +kernel)
  · exact accepts_other _ _ _ _ _ (by decide) (by decide +kernel)
  · exact accepts_other _ _ _ _ _ (by decide) (by decide +kernel)
  · exact accepts_other _ _ _ _ _ (by decide) (by decide +kernel)
  · exact accepts_other _ _ _ _ _ (by decide) (by decide +kernel)
  · exact accepts_other _ _ _ _ _ (by decide) (by decide +kernel)

/-- A state and operands that meet the hypotheses of Obligations.CommandsThatWaitBeforeTheyReply, clause by clause. -/
theorem witness_CommandsThatWaitBeforeTheyReply :
  (∃ (s : State) (h : Hdr) (ps : List Word), (s.accepts 0x0300 h ps (armCmd h ps) = true)) ∧
  (∃ (s : State) (h : Hdr) (ps : List Word), (s.accepts 0x0301 h ps (prechargeCmd h ps) = true)) ∧
  (∃ (s : State) (h : Hdr) (ps : List Word), (s.accepts 0x0302 h ps (softStartCmd h ps) = true)) ∧
  (∃ (s : State) (h : Hdr) (ps : List Word), (s.accepts 0x0400 h ps (beadBypassCmd h ps) = true)) ∧
  (∃ (s : State) (h : Hdr) (ps : List Word), (s.accepts 0x0401 h ps (beadInsertCmd h ps) = true)) ∧
  (∃ (s : State) (h : Hdr) (ps : List Word), (s.accepts 0x0402 h ps (beadRetireCmd h ps) = true)) ∧
  (∃ (s : State) (h : Hdr) (ps : List Word), (s.accepts 0x0403 h ps (beadEnableToggleCmd h ps) = true)) ∧
  (∃ (s : State) (h : Hdr) (ps : List Word), (s.accepts 0x0502 h ps (coefSwapCmd h ps) = true)) ∧
  (∃ (s : State) (h : Hdr) (ps : List Word), (s.accepts 0x0802 h ps (twinHandbackCmd h) = true)) ∧
  (∃ (s : State) (h : Hdr) (ps : List Word), (s.accepts 0x0901 h ps (stackReclaimCmd h) = true)) ∧
  (∃ (s : State) (h : Hdr) (ps : List Word), (s.accepts 0x0A00 h ps (rateCmd h ps) = true)) ∧
  (∃ (s : State) (h : Hdr) (ps : List Word), (s.accepts 0x0A01 h ps (loopTestCmd h ps) = true)) ∧
  (∃ (s : State) (h : Hdr) (ps : List Word), (s.accepts 0x0A02 h ps (moduleReadCmd h ps none) = true)) ∧
  (∃ (s : State) (h : Hdr) (ps : List Word), (s.accepts 0x0B00 h ps (netSendCmd h ps) = true)) := by
  refine ⟨⟨mk (fun d => { fl [(F.LPE_STAT_VERIFIED, 1)] d with run := .quiesced }), hd, [], ?_⟩,
    ⟨mk (fun d => { fl [(F.GSV_PC_WIDTH, 0)] d with run := .armed }), hd, [0, 0, 0, 0, 65535], ?_⟩,
    ⟨mk (fun d => { d with run := .armed }), hd, [1], ?_⟩,
    ⟨st [(F.BDT_STATE 95, 3)], hd, [95], ?_⟩,
    ⟨mk (fun d => (fl [(F.BDT_STATE 95, 2), (F.BDT_STATE_STRING 95, 5), (F.BSV_CTRL_EN 5, 1), (F.BDT_STATE_READY 95, 1), (F.GSV_BEAD_HELD 95, 63)] d)), hd, [95], ?_⟩,
    ⟨st [(F.BDT_STATE 95, 5)], hd, [95], ?_⟩,
    ⟨st [], hd, [95], ?_⟩,
    ⟨st [], hd, [], ?_⟩,
    ⟨mk (fun d => (fl [(F.TWN_STAT_STATE, 4), (F.TWN_STAT_SYNCED, 1)] d).upTwn fun t => { t with pState := some 3 }), hd, [], ?_⟩,
    ⟨mk (fun d => (fl [(F.STK_STAT_ROLE, 4)] d).upStk fun t => { t with ready0 := true }), hd, [], ?_⟩,
    ⟨st [(F.LANE_CTRL_ROLE 23, 3)], hd, [0x0317], ?_⟩,
    ⟨st [], hd, [0x000F1217, 65535], ?_⟩,
    ⟨st [], hd, [23, 64], ?_⟩,
    ⟨st [(F.LANE_CTRL_ROLE 20, 4), (F.LANE_CTRL_ROLE 21, 4)], hn, [0x003C0003, 0, 0, 0, 0, 0, 0, 0, 0, 0, 0, 0, 0, 0, 0, 0], ?_⟩⟩
  · exact accepts_other _ _ _ _ _ (by decide) (by decide +kernel)
  · exact accepts_other _ _ _ _ _ (by decide) (by decide +kernel)
  · exact accepts_other _ _ _ _ _ (by decide) (by decide +kernel)
  · exact accepts_other _ _ _ _ _ (by decide) (by decide +kernel)
  · exact accepts_other _ _ _ _ _ (by decide) (by decide +kernel)
  · exact accepts_other _ _ _ _ _ (by decide) (by decide +kernel)
  · exact accepts_other _ _ _ _ _ (by decide) (by decide +kernel)
  · exact accepts_other _ _ _ _ _ (by decide) (by decide +kernel)
  · exact accepts_other _ _ _ _ _ (by decide) (by decide +kernel)
  · exact accepts_other _ _ _ _ _ (by decide) (by decide +kernel)
  · exact accepts_other _ _ _ _ _ (by decide) (by decide +kernel)
  · exact accepts_other _ _ _ _ _ (by decide) (by decide +kernel)
  · exact accepts_other _ _ _ _ _ (by decide) (by decide +kernel)
  · exact accepts_other _ _ _ _ _ (by decide) (by decide +kernel)

/-- A state and operands that meet the hypotheses of Obligations.LoopProgramSessions, clause by clause. -/
theorem witness_LoopProgramSessions :
  (∃ (s : State) (h : Hdr) (ps : List Word), (s.accepts 0x0500 h ps (lpLoadOpenCmd h ps) = true)) ∧
  (∃ (s : State) (h : Hdr) (ps : List Word), (pw ps 0 % 4 = 1) ∧ (s.accepts 0x0500 h ps (lpLoadCommitCmd h) = true)) ∧
  (∃ (s : State) (h : Hdr) (ps : List Word), (pw ps 0 % 4 = 2) ∧ (s.accepts 0x0500 h ps (lpLoadAbortCmd h ps) = true)) ∧
  (∃ (s : State) (h : Hdr) (ps : List Word), (s.accepts 0x0501 h ps (lpVerifyCmd h ps) = true)) := by
  refine ⟨⟨st [], hd, [0, 1048708], ?_⟩,
    ⟨mk (fun d => d.upLpe fun l => { l with load := some (0, 148, putBytes [] 0 image1) }), hd, [1], ?_⟩,
    ⟨mk (fun d => d.upLpe fun l => { l with load := some (0, 148, []) }), hd, [2], ?_⟩,
    ⟨st [], hd, [], ?_⟩⟩
  · exact accepts_other _ _ _ _ _ (by decide) (by decide +kernel)
  · exact ⟨by decide +kernel, accepts_other _ _ _ _ _ (by decide) (by decide +kernel)⟩
  · exact ⟨by decide +kernel, accepts_other _ _ _ _ _ (by decide) (by decide +kernel)⟩
  · exact accepts_other _ _ _ _ _ (by decide) (by decide +kernel)

/-- A state and operands that meet the hypotheses of Obligations.FirmwareUpdateSessions, clause by clause. -/
theorem witness_FirmwareUpdateSessions :
  (∃ (s : State) (h : Hdr) (ps : List Word), (s.accepts 0x0F00 h ps (fwOpenCmd h ps) = true)) ∧
  (∃ (s : State) (h : Hdr) (ps : List Word) (x : FwSess) (o : Nat), (pw ps 0 % 4 = 1) ∧ (s.dev.fwSession h.port = some x) ∧ (s.passes 0x0F00 h ps = true) ∧ (s.dev.p2 h.port = true)) ∧
  (∃ (s : State) (h : Hdr) (ps : List Word) (x : FwSess), (pw ps 0 % 4 = 2) ∧ (s.dev.fwSession h.port = some x) ∧ (s.accepts 0x0F00 h ps (fwAbortCmd h) = true)) := by
  refine ⟨⟨mk present, hk, [0, 4194304], ?_⟩,
    ⟨mk (fun d => { present d with sec := { d.sec with sess := some ⟨1, 640, 1, []⟩ } }), hk, [1], ⟨1, 640, 1, []⟩, 0, ?_⟩,
    ⟨mk (fun d => { present d with sec := { d.sec with sess := some ⟨1, 640, 1, []⟩ } }), hk, [2], ⟨1, 640, 1, []⟩, ?_⟩⟩
  · exact accepts_other _ _ _ _ _ (by decide) (by decide +kernel)
  · exact ⟨by decide +kernel, by decide +kernel, passes_other _ _ _ _ (by decide) (by decide +kernel), by decide +kernel⟩
  · exact ⟨by decide +kernel, by decide +kernel, accepts_other _ _ _ _ _ (by decide) (by decide +kernel)⟩

/-- A state and operands that meet the hypotheses of Obligations.KeysFusesAndDebugAccess, clause by clause. -/
theorem witness_KeysFusesAndDebugAccess :
  (∃ (s : State) (h : Hdr) (ps : List Word), (s.accepts 0x0F06 h ps (fuseWriteCmd h ps) = true)) ∧
  (∃ (s : State) (h : Hdr) (ps : List Word), (s.accepts 0x0F02 h ps (ownerKeyCmd h ps) = true)) ∧
  (∃ (s : State) (h : Hdr) (ps : List Word) (k : Nat), (s.vault.idSlot = some k) ∧ (s.vault.keyMatches k = true) ∧ (s.accepts 0x0F04 h ps (hallmarkCmd h ps true) = true)) ∧
  (∃ (s : State) (h : Hdr) (ps : List Word) (k : Nat) (x : Bool), (s.vault.idSlot = some k) ∧ ((x && s.vault.keyMatches k) = false) ∧ (s.accepts 0x0F04 h ps (hallmarkCmd h ps x) = true)) ∧
  (∃ (s : State) (h : Hdr) (ps : List Word) (k : Nat), (s.vault.idSlot = none) ∧ (s.vault.idFree = some k) ∧ (s.accepts 0x0F01 h ps (keyProvisionCmd h) = true)) ∧
  (∃ (s : State) (h : Hdr) (ps : List Word), (s.accepts 0x0F05 h ps (debugOpenCmd h ps) = true)) := by
  refine ⟨⟨mk present, hk, [1023, 1, 0xFFFFFFFE], ?_⟩,
    ⟨mk (fun d => (present d).putGuarded 1 (pubKey 1)), hk, [133, BitVec.ofNat 32 (crc32c (pubKey 1))], ?_⟩,
    ⟨⟨fl [(F.CLK_START_STEP, 0)] {}, { otp := tput 0 [] (idWord 3) 0x5A5A0001 }, []⟩, hk, [0, 0, 0, 0, 0, 0, 0, 0], 3, ?_⟩,
    ⟨⟨fl [(F.CLK_START_STEP, 0)] {}, { otp := tput 0 [] (idWord 3) 0x5A5A0001 }, []⟩, hk, [0, 0, 0, 0, 0, 0, 0, 0], 3, false, ?_⟩,
    ⟨mk present, hk, [], 0, ?_⟩,
    ⟨mk present, hk, [3, 86400], ?_⟩⟩
  · exact accepts_other _ _ _ _ _ (by decide) (by decide +kernel)
  · exact accepts_other _ _ _ _ _ (by decide) (by decide +kernel)
  · exact ⟨by decide +kernel, by decide +kernel, accepts_other _ _ _ _ _ (by decide) (by decide +kernel)⟩
  · exact ⟨by decide +kernel, by decide +kernel, accepts_other _ _ _ _ _ (by decide) (by decide +kernel)⟩
  · exact ⟨by decide +kernel, by decide +kernel, accepts_other _ _ _ _ _ (by decide) (by decide +kernel)⟩
  · exact accepts_other _ _ _ _ _ (by decide) (by decide +kernel)

/-- A state and operands that meet the hypotheses of Obligations.RegisterCommands, clause by clause. -/
theorem witness_RegisterCommands :
  (∃ (s : State) (h : Hdr) (ps : List Word), (s.accepts 0x0100 h ps (regRdCmd h ps) = true)) ∧
  (∃ (s : State) (h : Hdr) (ps : List Word) (ws : List Nat), (s.accepts 0x0103 h ps (regRdWideCmd h ps) = true) ∧ ((s.taking 0x0103 h ps).wideWords (pw ps 0 % 65536) = some ws)) ∧
  (∃ (s : State) (h : Hdr) (ps : List Word), (s.accepts 0x0101 h ps (regWrCmd h ps) = true)) ∧
  (∃ (s : State) (h : Hdr) (ps : List Word), (s.accepts 0x0102 h ps (regWrPairCmd h ps) = true)) := by
  refine ⟨⟨st [], hd, [0x4000, 255], ?_⟩,
    ⟨st [], hd, [0x0602], [0, 0, 0, 0], ?_⟩,
    ⟨st [], hd, [0x4000, 1], ?_⟩,
    ⟨st [], hd, [0xA000, 1], ?_⟩⟩
  · exact accepts_other _ _ _ _ _ (by decide) (by decide +kernel)
  · exact ⟨accepts_other _ _ _ _ _ (by decide) (by decide +kernel), by decide +kernel⟩
  · exact accepts_other _ _ _ _ _ (by decide) (by decide +kernel)
  · exact accepts_other _ _ _ _ _ (by decide) (by decide +kernel)

/-- A state and operands that meet the hypotheses of Obligations.FaultCommands, clause by clause. -/
theorem witness_FaultCommands :
  (∃ (s : State) (h : Hdr) (ps : List Word), (s.accepts 0x0601 h ps (fltInjectCmd h ps) = true)) ∧
  (∃ (s : State) (h : Hdr) (ps : List Word), (s.accepts 0x0602 h ps (fltClearCmd h ps) = true)) := by
  refine ⟨⟨mk present, hk, [0x1FFFFF65], ?_⟩,
    ⟨st [], hd, [3], ?_⟩⟩
  · exact accepts_other _ _ _ _ _ (by decide) (by decide +kernel)
  · exact accepts_other _ _ _ _ _ (by decide) (by decide +kernel)

/-- A state and operands that meet the hypotheses of Obligations.TimeCommands, clause by clause. -/
theorem witness_TimeCommands :
  (∃ (s : State) (h : Hdr) (ps : List Word), (s.accepts 0x0701 h ps (timeIncCmd h ps) = true)) ∧
  (∃ (s : State) (h : Hdr) (ps : List Word), (s.accepts 0x0700 h ps (timeStepCmd h ps) = true)) ∧
  (∃ (s : State) (h : Hdr) (ps : List Word), (s.accepts 0x0702 h ps (pulseSetCmd h ps) = true)) := by
  refine ⟨⟨st [], hd, [0xFFFFFFFF, 524543], ?_⟩,
    ⟨st [], hd, [0xFFFFFFFF, 0xFFFFFFFF], ?_⟩,
    ⟨st [], hd, [4, 2, 0, 0, 1048576, 0, 15], ?_⟩⟩
  · exact accepts_other _ _ _ _ _ (by decide) (by decide +kernel)
  · exact accepts_other _ _ _ _ _ (by decide) (by decide +kernel)
  · exact accepts_other _ _ _ _ _ (by decide) (by decide +kernel)

/-- A state and operands that meet the hypotheses of Obligations.QuiesceAndStopEnterTheSafeState, clause by clause. -/
theorem witness_QuiesceAndStopEnterTheSafeState :
  (∃ (s : State) (h : Hdr) (ps : List Word), (s.dev.run ≠ .idle) ∧ (s.dev.run ≠ .quiesced) ∧ (s.accepts 0x0304 h ps (quiesceCmd h ps) = true)) ∧
  (∃ (s : State) (h : Hdr) (ps : List Word), (s.dev.run ≠ .idle) ∧ (s.dev.run ≠ .quiesced) ∧ (s.accepts 0x0305 h ps (stopCmd h ps) = true)) ∧
  (∃ (s : State) (h : Hdr) (ps : List Word), (s.dev.run = .idle ∨ s.dev.run = .quiesced) ∧ (s.dev.safe = true) ∧ (s.accepts 0x0304 h ps (quiesceCmd h ps) = true)) := by
  refine ⟨⟨mk (fun d => { d with run := .run }), hd, [], ?_⟩,
    ⟨mk (fun d => { d with run := .armed }), hd, [], ?_⟩,
    ⟨mk (fun d => { fl [(F.EDG_STAT_QUIESCED, 1)] d with run := .idle }), hd, [], ?_⟩⟩
  · exact ⟨by decide +kernel, by decide +kernel, accepts_other _ _ _ _ _ (by decide) (by decide +kernel)⟩
  · exact ⟨by decide +kernel, by decide +kernel, accepts_other _ _ _ _ _ (by decide) (by decide +kernel)⟩
  · exact ⟨by decide +kernel, by decide +kernel, accepts_other _ _ _ _ _ (by decide) (by decide +kernel)⟩

/-- A state and operands that meet the hypotheses of Obligations.StageApplyTakesTheWholeSetOrNothing, clause by clause. -/
theorem witness_StageApplyTakesTheWholeSetOrNothing :
  (∃ (s : State) (h : Hdr) (ps : List Word) (a : Nat), (s.accepts Config.opStageApply h ps (stageApplyCmd h ps) = true) ∧ ((s.dev.takePkt Config.opStageApply h ps).stageOffence = some a)) ∧
  (∃ (s : State) (h : Hdr) (ps : List Word), (s.accepts Config.opStageApply h ps (stageApplyCmd h ps) = true) ∧ ((s.dev.takePkt Config.opStageApply h ps).stageOffence = none) ∧ (s.dev.running = true)) ∧
  (∃ (s : State) (h : Hdr) (ps : List Word), (s.accepts Config.opStageApply h ps (stageApplyCmd h ps) = true) ∧ ((s.dev.takePkt Config.opStageApply h ps).stageOffence = none) ∧ (s.dev.running = false)) := by
  refine ⟨⟨mk (fun d => { d with stage := some ⟨0, none⟩, stg := tput none [] (F.STR_CTRL_NBEAD 0).key (some 13) }), hd, [], 0x40000, ?_⟩,
    ⟨mk (fun d => { fl [(F.SYS_FRM_CTRL_RUNNING, 1)] d with stage := some ⟨0, none⟩ }), hd, [], ?_⟩,
    ⟨mk (fun d => { d with stage := some ⟨0, none⟩ }), hd, [], ?_⟩⟩
  · exact ⟨stage_accepted _ _ _ _ (Or.inr (Or.inl rfl)) rfl (by decide +kernel) (by decide +kernel), by decide +kernel⟩
  · exact ⟨stage_accepted _ _ _ _ (Or.inr (Or.inl rfl)) rfl (by decide +kernel) (by decide +kernel), by decide +kernel, by decide +kernel⟩
  · exact ⟨stage_accepted _ _ _ _ (Or.inr (Or.inl rfl)) rfl (by decide +kernel) (by decide +kernel), by decide +kernel, by decide +kernel⟩

/-- A state and operands that meet the hypotheses of Obligations.PacketsAreJudgedInOrder, clause by clause. -/
theorem witness_PacketsAreJudgedInOrder :
  (∃ (c : Instr) (s : State) (r : PacketRow) (x : Status × Nat), (packetRow c = some r) ∧ (r.mine = true) ∧ (s.judges r.op r.h r.ps = true) ∧ (s.verdict r.op r.h r.ps r.cmd = some x)) ∧
  (∃ (c : Instr) (s : State) (r : PacketRow), (packetRow c = some r) ∧ (s.dev.takes r.op r.h = false)) ∧
  (∃ (c : Instr) (s : State) (r : PacketRow), (packetRow c = some r) ∧ (r.mine = true) ∧ (r.h.port < 2) ∧ (s.dev.takes r.op r.h = true) ∧ ((s.dev.takePkt r.op r.h r.ps).holdsCmd r.op = true)) ∧
  (∃ (c : Instr) (s : State) (r : PacketRow), (packetRow c = some r) ∧ (r.mine = false ∨ 2 ≤ r.h.port)) := by
  refine ⟨⟨.nop hd [1], st [], ⟨0, hd, [1], nopCmd hd, true⟩, (.badLength, 0), ?_⟩,
    ⟨.nop hd [], mk (fun d => { d with frozen := some 0 }), ⟨0, hd, [], nopCmd hd, true⟩, ?_⟩,
    ⟨.arm hd [], mk (fun d => ({ fl [(F.TWN_STAT_STATE, 4)] d with frame := { d.frame with planned := true } }).upTwn fun t => { t with pState := some 2 }), ⟨0x0300, hd, [], armCmd hd [], true⟩, ?_⟩,
    ⟨.lpLoadOpen hd [1], st [], ⟨0x0500, hd, [1], lpLoadOpenCmd hd [1], false⟩, ?_⟩⟩
  · exact ⟨rfl, rfl, judges_other _ _ _ _ (by decide) (by decide +kernel), (verdict_other _ 0x0000 _ _ _ (by decide)).trans (by decide +kernel)⟩
  · exact ⟨rfl, by decide +kernel⟩
  · exact ⟨rfl, rfl, by decide, takes_other _ _ _ (by decide) (by decide +kernel), (holdsCmd_other _ 0x0300 (by decide)).trans (by decide +kernel)⟩
  · exact ⟨rfl, Or.inl rfl⟩

/-- A state and operands that meet the hypotheses of Obligations.LockoutLeavesOnlyTheListedCommands, clause by clause. -/
theorem witness_LockoutLeavesOnlyTheListedCommands :
  (∃ (c : Instr) (s : State) (r : PacketRow), (packetRow c = some r) ∧ (r.mine = true) ∧ (s.judges r.op r.h r.ps = true) ∧ (s.vault.lockout = true) ∧ (lockoutOk r.op = false) ∧ (badForm r.h r.op r.ps = none)) := by
  refine ⟨.arm hd [], ⟨fl [(F.CLK_START_STEP, 0)] {}, { lockout := true }, []⟩, ⟨0x0300, hd, [], armCmd hd [], true⟩, ?_⟩
  · exact ⟨rfl, rfl, judges_other _ _ _ _ (by decide) (by decide +kernel), rfl, by decide, by decide +kernel⟩

/-- A state and operands that meet the hypotheses of Obligations.TransactionsInHoldAndSleepOnlyWake, clause by clause. -/
theorem witness_TransactionsInHoldAndSleepOnlyWake :
  (∃ (c : Instr) (s : State) (p : Nat), (hostRow c = some p) ∧ (s.dev.timStopped = true)) ∧
  (∃ (c : Instr) (s : State) (p : Nat), (hostRow c = some p) ∧ (s.dev.hosted = false) ∧ (s.dev.timStopped = false) ∧ (s.dev.sec.pwrReq = none)) ∧
  (∃ (s : State) (p : Nat), (s.dev.hosted = true) ∧ (s.dev.sec.pwrReq.isSome = true)) := by
  refine ⟨⟨.registerWrite 1 0x4100 0, st [(F.CLK_STAT_PSTATE, 2)], 1, ?_⟩,
    ⟨.registerWrite 1 0x4100 0, State.reset, 1, ?_⟩,
    ⟨mk (fun d => { d with sec := { d.sec with pwrReq := some (1, 0) } }), 1, ?_⟩⟩
  · exact ⟨rfl, by decide +kernel⟩
  · exact ⟨rfl, by decide +kernel, by decide +kernel, rfl⟩
  · decide +kernel

/-- A state and operands that meet the hypotheses of Obligations.HostPortInstructionsAndTheirRefusals, clause by clause. -/
theorem witness_HostPortInstructionsAndTheirRefusals :
  (∃ (s : State) (p : Nat) (a : Word) (n : Nat), (s.hostOn = true)) ∧
  (∃ (s : State) (p : Nat) (a : Word) (ws : List Word), (s.hostOn = true)) ∧
  (∃ (s : State) (p : Nat), (s.hostOn = true)) ∧
  (∃ (s : State) (p ring : Nat) (b : List Byte), (s.hostOn = true) ∧ (20 ≤ b.length) ∧ (b.length = 20 + 4 * le b 6 2) ∧ (pktHeader b false (ring % 16) = true) ∧ (pktCrc b = true) ∧ (((s.dev.port (portNo p)).ring (ring % 16)).length < 8) ∧ ((((s.dev.port (portNo p)).ring (ring % 16)).map Pkt.size).sum + b.length ≤ 4096)) ∧
  (∃ (s : State) (p : Nat) (net : Bool) (n : Nat), (s.hostOn = true)) ∧
  (∃ (s : State) (p idx : Nat) (ws : List Word), (s.hostOn = true) ∧ (8 ≤ ws.length) ∧ (ws.length ≤ 16) ∧ (idx = 2 ∨ idx = 3) ∧ (tget [] (s.dev.port (portNo p)).send idx = [])) ∧
  (∃ (s : State) (p idx : Nat) (ws : List Word), (s.hostOn = true) ∧ (8 ≤ ws.length) ∧ (ws.length ≤ 16) ∧ (8 ≤ idx) ∧ (idx < 12) ∧ (tget [] (s.dev.port (portNo p)).send idx = [])) ∧
  (∃ (s : State) (p idx n : Nat), (s.hostOn = true) ∧ (idx < 4)) ∧
  (∃ (s : State) (p ring : Nat) (b : List Byte), (s.hostOn = true) ∧ (((decide (20 ≤ b.length) && decide (b.length = 20 + 4 * le b 6 2) && pktHeader b false (ring % 16)) = false ∨ pktCrc b = false ∨ 8 ≤ ((s.dev.port (portNo p)).ring (ring % 16)).length ∨ 4096 < (((s.dev.port (portNo p)).ring (ring % 16)).map Pkt.size).sum + b.length))) ∧
  (∃ (s : State) (p idx : Nat) (ws : List Word) (cut : Bool), (s.hostOn = true) ∧ ((!(decide (idx = 2) || decide (idx = 3) || (decide (8 ≤ idx) && decide (idx < 12))) || cut || decide (ws.length < 8) || decide (16 < ws.length)) = true)) ∧
  (∃ (s : State) (p idx : Nat) (ws : List Word) (cut : Bool), (s.hostOn = true) ∧ ((!(decide (idx = 2) || decide (idx = 3) || (decide (8 ≤ idx) && decide (idx < 12))) || cut || decide (ws.length < 8) || decide (16 < ws.length)) = false) ∧ (tget [] (s.dev.port (portNo p)).send idx ≠ [])) := by
  refine ⟨⟨st [], 1, 0xFFFFFFFC, 256, ?_⟩,
    ⟨st [], 1, 0x4100, [0], ?_⟩,
    ⟨st [], 1, ?_⟩,
    ⟨st [], 1, 14, packet1, ?_⟩,
    ⟨st [], 1, true, 3, ?_⟩,
    ⟨st [], 1, 3, [0, 0, 0, 0, 0, 0, 0, 0], ?_⟩,
    ⟨st [], 1, 11, [0, 0, 0, 0, 0, 0, 0, 0, 0, 0, 0, 0, 0, 0, 0, 0], ?_⟩,
    ⟨st [], 1, 3, 16, ?_⟩,
    ⟨st [], 1, 14, packet1.take 19, ?_⟩,
    ⟨st [], 1, 4, [0, 0, 0, 0, 0, 0, 0, 0], false, ?_⟩,
    ⟨mk (fun d => d.upPort 1 fun q => { q with send := tput [] [] 11 [1] }), 1, 11, [0, 0, 0, 0, 0, 0, 0, 0], false, ?_⟩⟩
  · decide +kernel
  · decide +kernel
  · decide +kernel
  · decide +kernel
  · decide +kernel
  · decide +kernel
  · decide +kernel
  · decide +kernel
  · decide +kernel
  · decide +kernel
  · decide +kernel

/-- A state and operands that meet the hypotheses of Obligations.NotificationsMailboxesAndMarkedLogs, clause by clause. -/
theorem witness_NotificationsMailboxesAndMarkedLogs :
  (∃ (s : State) (p idx : Nat), (idx = 2 ∨ idx = 3) ∧ (tget [] (s.dev.port (portNo p)).send idx ≠ []) ∧ (((s.dev.port (other (portNo p))).box idx).full = false)) ∧
  (∃ (s : State) (p idx : Nat), (8 ≤ idx) ∧ (idx < 12) ∧ (tget [] (s.dev.port (portNo p)).send idx ≠ []) ∧ (tget [] (s.dev.port (portNo p)).inb (idx - 8) = [])) ∧
  (∃ (s : State) (p l : Nat), (l < 4) ∧ (tget [] (s.dev.port (portNo p)).inb l ≠ []) ∧ (tget [] (s.dev.port (portNo p)).outb l = []) ∧ (tget none (s.dev.port (portNo p)).taken l = none) ∧ (pktHeader (wordBytes (tget [] (s.dev.port (portNo p)).inb l)) true l = true) ∧ (20 + 4 * le (wordBytes (tget [] (s.dev.port (portNo p)).inb l)) 6 2 ≤ (wordBytes (tget [] (s.dev.port (portNo p)).inb l)).length) ∧ (pktCrc (wordBytes (tget [] (s.dev.port (portNo p)).inb l)) = true)) ∧
  (∃ (s : State) (p m : Nat) (x : Note) (r : List Note), (m < 2) ∧ (((s.dev.port (portNo p)).box m).full = false) ∧ ((tget {} (s.dev.port (portNo p)).notes m).q = x :: r)) ∧
  (∃ (s : State) (x : LogReq) (r : List LogReq), (s.dev.flt.queue = x :: r) ∧ (s.dev.flt.ramMarkDue = false) ∧ (s.dev.flt.ramMark = s.dev.markKey) ∧ (s.dev.aon.markDue = false) ∧ (s.dev.aon.mark = s.dev.markKey)) ∧
  (∃ (s : State) (x : LogReq) (r : List LogReq), (s.dev.flt.queue = x :: r) ∧ (x.ram = true)) := by
  refine ⟨⟨mk (fun d => d.upPort 1 fun q => { q with send := tput [] [] 3 [1] }), 1, 3, ?_⟩,
    ⟨mk (fun d => d.upPort 1 fun q => { q with send := tput [] [] 11 [1] }), 1, 11, ?_⟩,
    ⟨mk (fun d => d.upPort 1 fun q => { q with inb := tput [] [] 3 locket1 }), 1, 3, ?_⟩,
    ⟨mk (fun d => d.upPort 1 fun q => { q with notes := tput {} [] 1 { q := [⟨8, 0, []⟩] } }), 1, 1, ⟨8, 0, []⟩, [], ?_⟩,
    ⟨mk (fun d => { d with flt := { d.flt with queue := [⟨{ fs := 2, kind := 0, inst := 0 }, true, true⟩], ramMarkDue := false }, aon := { d.aon with markDue := false } }), ⟨{ fs := 2, kind := 0, inst := 0 }, true, true⟩, [], ?_⟩,
    ⟨mk (fun d => { d with flt := { d.flt with queue := [⟨{ fs := 2, kind := 0, inst := 0 }, true, true⟩] } }), ⟨{ fs := 2, kind := 0, inst := 0 }, true, true⟩, [], ?_⟩⟩
  · decide +kernel
  · decide +kernel
  · decide +kernel
  · decide +kernel
  · decide +kernel
  · decide +kernel

/-- A state and operands that meet the hypotheses of Obligations.KeepAlivesAndTheirLapse, clause by clause. -/
theorem witness_KeepAlivesAndTheirLapse :
  (∃ (s : State) (h : Hdr) (ps : List Word), (s.accepts 0x0004 h ps (keepaliveCmd h) = true) ∧ ((s.dev.olg.built || s.dev.sec.recovery) = true)) ∧
  (∃ (s : State) (p : Nat), (s.writes p = true) ∧ ((s.dev.olg.built || s.dev.sec.recovery) = true)) ∧
  (∃ (s : State) (p : Nat), (s.dev.live (portNo p) = true) ∧ (s.dev.frozen = none)) := by
  refine ⟨⟨mk (fun d => { d with olg := { d.olg with built := true } }), hd, [], ?_⟩,
    ⟨mk (fun d => { d with sec := { d.sec with recovery := true } }), 1, ?_⟩,
    ⟨st [(F.HST_PSTAT_KA 1, 1)], 1, ?_⟩⟩
  · exact ⟨accepts_other _ _ _ _ _ (by decide) (by decide +kernel), by decide +kernel⟩
  · decide +kernel
  · decide +kernel

/-- A state and operands that meet the hypotheses of Obligations.ClaspsDoorbellsAndTheWideMailbox, clause by clause. -/
theorem witness_ClaspsDoorbellsAndTheWideMailbox :
  (∃ (s : State) (p n : Nat) (v : Word), (s.writes p = true) ∧ (n < 32) ∧ (¬ (12 ≤ n ∧ n < 16))) ∧
  (∃ (s : State) (p n : Nat) (v : Word), (s.writes p = true) ∧ (12 ≤ n) ∧ (n < 16)) ∧
  (∃ (s : State) (p : Nat) (m : BitVec 16), (s.writes p = true) ∧ (m ≠ 0)) ∧
  (∃ (s : State) (p : Nat) (sel : BitVec 16), (s.writes p = true) ∧ (sel.toNat ≠ (s.dev.port (portNo p)).wide.sel % 65536)) ∧
  (∃ (s : State) (p : Nat) (sel : BitVec 16), (s.writes p = true) ∧ (sel.toNat = (s.dev.port (portNo p)).wide.sel % 65536)) ∧
  (∃ (s : State) (p : Nat), ((s.dev.port p).wide.busy = true)) ∧
  (∃ (s : State) (p : Nat), (s.dev.hosted = true) ∧ ((s.dev.port p).wide.valid = true)) := by
  refine ⟨⟨st [], 1, 31, 2, ?_⟩,
    ⟨st [], 1, 15, 7, ?_⟩,
    ⟨st [], 1, 0xFFFF, ?_⟩,
    ⟨st [], 1, 0x0602, ?_⟩,
    ⟨mk (fun d => d.upPort 1 fun q => { q with wide := { sel := 0x0602 } }), 1, 0x0602, ?_⟩,
    ⟨mk (fun d => d.upPort 1 fun q => { q with wide := { sel := 0x0602, busy := true } }), 1, ?_⟩,
    ⟨mk (fun d => d.upPort 1 fun q => { q with wide := { sel := 0x0602, valid := true } }), 1, ?_⟩⟩
  · decide +kernel
  · decide +kernel
  · decide +kernel
  · decide +kernel
  · decide +kernel
  · decide +kernel
  · decide +kernel

/-- A state and operands that meet the hypotheses of Obligations.RegisterWritesStoreOrAreRefused, clause by clause. -/
theorem witness_RegisterWritesStoreOrAreRefused :
  (∃ (s : State) (p : Nat) (a v : Word), (s.writes p = true) ∧ (a.toNat < 0x100000) ∧ (canon a.toNat = a.toNat) ∧ ((∀ f ∈ fieldsAt a.toNat, (f.stores = true ∧ (s.trans p).refuses (portNo p) f = false) ∨ f.acc = .ro))) ∧
  (∃ (s : State) (p b : Nat) (v : Word) (f : Fld), (s.writes p = true) ∧ (f.addr < 0x100000) ∧ (canon f.addr = f.addr) ∧ (b < 32) ∧ ((fieldsAt f.addr).find? (fun g => decide (g.lo ≤ b) && decide (b < g.lo + g.width)) = some f) ∧ (f.stores = true) ∧ ((s.trans p).refuses (portNo p) f = false)) ∧
  (∃ (s : State) (p : Nat) (a v : Word), (s.hostOn = true) ∧ ((s.dev.port (portNo p)).half = none) ∧ (a.toNat < 0x100000) ∧ (canon a.toNat = a.toNat) ∧ (0x4000 ≤ a.toNat) ∧ (guardedReg a.toNat = false) ∧ (¬ (0x7200 ≤ a.toNat ∧ a.toNat < 0x7280)) ∧ ((s.vault.lockout = true ∨ ∀ f ∈ fieldsAt a.toNat, ((claspsOf f).any (s.dev.claspHeld · (portNo p))) = true))) := by
  refine ⟨⟨st [], 1, 0x96A8, 0x07FFFFFF, ?_⟩,
    ⟨st [], 1, 31, 1, F.CLK_ALARM_LO, ?_⟩,
    ⟨⟨fl [(F.CLK_START_STEP, 0)] {}, { lockout := true }, []⟩, 1, 0x4100, 1, ?_⟩⟩
  · decide +kernel
  · decide +kernel
  · decide +kernel

/-- A state and operands that meet the hypotheses of Obligations.GuardedPairsApplyOnlyInFull, clause by clause. -/
theorem witness_GuardedPairsApplyOnlyInFull :
  (∃ (s : State) (p : Nat) (a v : Word), (s.writes p = true) ∧ (a.toNat < 0x100000) ∧ (a.toNat % 4 = 0) ∧ (guardedReg (canon a.toNat) = true) ∧ (s.dev.rdB (guardLock (portNo p)) = false)) ∧
  (∃ (s : State) (p : Nat) (v : Word), (s.hostOn = true) ∧ (s.vault.lockout = false) ∧ (s.dev.rdB (guardLock (portNo p)) = false) ∧ ((s.dev.port (portNo p)).half = some (0xA000, 0xFFFFFFFF - v.toNat))) ∧
  (∃ (s : State) (p n : Nat) (v : Word), (s.hostOn = true) ∧ (s.vault.lockout = false) ∧ (s.dev.rdB (guardLock (portNo p)) = false) ∧ (n < 128) ∧ ((s.dev.port (portNo p)).half = some (0x9200 + 4 * n, 0xFFFFFFFF - v.toNat)) ∧ (s.dev.claspHeld 6 (portNo p) = false) ∧ ((bits (0xFFFFFFFF - v.toNat) 0 3) < 5) ∧ ((fsDefault n ≤ (bits (0xFFFFFFFF - v.toNat) 0 3) ∨ s.dev.p1 (portNo p) = true))) ∧
  (∃ (s : State) (p : Nat) (a v : Word), (s.hostOn = true) ∧ (s.vault.lockout = false) ∧ (s.dev.rdB (guardLock (portNo p)) = false) ∧ (0x100000 ≤ a.toNat) ∧ (a.toNat < 0x200000) ∧ (a.toNat % 4 = 0) ∧ ((∀ hx hv : Nat, (s.dev.port (portNo p)).half = some (hx, hv) → hx ≠ (canon (a.toNat % 0x100000)) ∨ v.toNat + hv ≠ 0xFFFFFFFF))) ∧
  (∃ (s : State) (p : Nat) (a v : Word), (s.hostOn = true) ∧ (s.vault.lockout = true ∨ s.dev.rdB (guardLock (portNo p)) = true) ∧ (0x100000 ≤ a.toNat) ∧ (a.toNat < 0x200000) ∧ (a.toNat % 4 = 0)) := by
  refine ⟨⟨st [], 1, 0x93FC, 4, ?_⟩,
    ⟨mk (fun d => d.upPort 1 fun q => { q with half := some (0xA000, 0xFFFCFE00) }), 1, 0x000301FF, ?_⟩,
    ⟨mk (fun d => d.upPort 1 fun q => { q with half := some (0x93FC, 4) }), 1, 127, 0xFFFFFFFB, ?_⟩,
    ⟨mk (fun d => d.upPort 1 fun q => { q with half := some (0x93FC, 4) }), 1, 0x1093FC, 0xFFFFFFFC, ?_⟩,
    ⟨st [(F.SEC_GUARD_LOCK_B, 1)], 1, 0x1FFFFC, 0, ?_⟩⟩
  · decide +kernel
  · decide +kernel
  · decide +kernel
  · refine ⟨by decide +kernel, by decide +kernel, by decide +kernel, by decide +kernel, by decide +kernel, by decide +kernel, ?_⟩
    intro hx hv e
    have e : (0x93FC, 4) = (hx, hv) := Option.some.inj e
    cases e
    exact Or.inr (by decide)
  · decide +kernel

/-- A state and operands that meet the hypotheses of Obligations.WritesThatSetDeviceTime, clause by clause. -/
theorem witness_WritesThatSetDeviceTime :
  (∃ (s : State) (p : Nat) (v : Word), (s.writes p = true) ∧ (s.dev.claspHeld 4 (portNo p) = false) ∧ (s.dev.followsTime = false) ∧ (v.toNat ≠ s.dev.rd F.TIM_INC_INT)) ∧
  (∃ (s : State) (p n : Nat) (v : Word), (s.writes p = true) ∧ (s.dev.claspHeld 4 (portNo p) = false) ∧ (n < 5) ∧ (bits v.toNat 3 1 = 0) ∧ ((bits v.toNat 0 2) ≠ s.dev.rd (F.TIM_OUT_CTRL_MODE n))) ∧
  (∃ (s : State) (p n : Nat) (v : Word), (s.writes p = true) ∧ (s.dev.claspHeld 4 (portNo p) = false) ∧ (n < 5) ∧ (v.toNat ≠ s.dev.rd (F.TIM_OUT_TGT_HI n))) ∧
  (∃ (s : State) (p n : Nat) (v : Word), (s.writes p = true) ∧ (s.dev.claspHeld 4 (portNo p) = false) ∧ (n < 5) ∧ (v.toNat % 65536 ≠ s.dev.rd (F.TIM_OUT_PER_HI n))) ∧
  (∃ (s : State) (p n : Nat) (v : Word), (s.writes p = true) ∧ (s.dev.claspHeld 4 (portNo p) = false) ∧ (n < 5) ∧ (v.toNat ≠ s.dev.rd (F.TIM_OUT_WIDTH n))) ∧
  (∃ (s : State) (p n : Nat) (v : Word), (s.writes p = true) ∧ (n < 5) ∧ (v.toNat = s.dev.rd F.TIM_INC_INT)) ∧
  (∃ (s : State) (p n : Nat) (v : Word), (s.writes p = true) ∧ (n < 5) ∧ (v.toNat = s.dev.rd (F.TIM_OUT_TGT_HI n))) ∧
  (∃ (s : State) (p n : Nat) (v : Word), (s.writes p = true) ∧ (n < 5) ∧ (v.toNat % 65536 = s.dev.rd (F.TIM_OUT_PER_HI n))) ∧
  (∃ (s : State) (p n : Nat) (v : Word), (s.writes p = true) ∧ (n < 5) ∧ (v.toNat = s.dev.rd (F.TIM_OUT_WIDTH n))) := by
  refine ⟨⟨st [], 1, 524032, ?_⟩,
    ⟨st [], 1, 4, 6, ?_⟩,
    ⟨st [], 1, 4, 1, ?_⟩,
    ⟨st [], 1, 4, 0xFFFF, ?_⟩,
    ⟨st [], 1, 4, 7, ?_⟩,
    ⟨st [], 1, 4, 524288, ?_⟩,
    ⟨st [], 1, 4, 0, ?_⟩,
    ⟨st [], 1, 4, 0xFFFF0000, ?_⟩,
    ⟨st [(F.TIM_OUT_WIDTH 4, 7)], 1, 4, 7, ?_⟩⟩
  · decide +kernel
  · decide +kernel
  · decide +kernel
  · decide +kernel
  · decide +kernel
  · decide +kernel
  · decide +kernel
  · decide +kernel
  · decide +kernel

/-- A state and operands that meet the hypotheses of Obligations.WritesToTheEdgeEngine, clause by clause. -/
theorem witness_WritesToTheEdgeEngine :
  (∃ (s : State) (p : Nat) (v : Word), (s.writes p = true) ∧ (s.dev.claspHeld 11 (portNo p) = false) ∧ (v.toNat % 65536 ≠ 0)) ∧
  (∃ (s : State) (p t : Nat) (v : Word), (s.writes p = true) ∧ (s.dev.claspHeld 11 (portNo p) = false) ∧ (t < 64)) ∧
  (∃ (s : State) (p c : Nat) (v : Word) (f : Fld), (s.writes p = true) ∧ (s.dev.claspHeld 11 (portNo p) = false) ∧ (c < 256) ∧ (f = F.CH_CMP c ∨ (f = F.CH_PHS c ∧ s.dev.managed c = false)) ∧ (v.toNat % 2 ^ f.width ≠ s.dev.carVal f % 2 ^ f.width)) ∧
  (∃ (s : State) (p : Nat) (mask : BitVec 8), (s.writes p = true) ∧ (mask ≠ 0)) := by
  refine ⟨⟨st [], 1, 0x8000, ?_⟩,
    ⟨st [], 1, 63, 1, ?_⟩,
    ⟨st [], 1, 255, 1, F.CH_PHS 255, ?_⟩,
    ⟨st [], 1, 0x80, ?_⟩⟩
  · decide +kernel
  · decide +kernel
  · decide +kernel
  · decide +kernel

/-- A state and operands that meet the hypotheses of Obligations.WritesThatStartOrStopAUnit, clause by clause. -/
theorem witness_WritesThatStartOrStopAUnit :
  (∃ (s : State) (p c : Nat), (s.writes p = true) ∧ (c < 4) ∧ (s.dev.rd (F.ADC_CTRL_MODE c) = 2)) ∧
  (∃ (s : State) (p a : Nat), (s.writes p = true) ∧ (a < 128)) ∧
  (∃ (s : State) (p : Nat) (v : Bool), (s.writes p = true) ∧ (s.dev.claspHeld 0 (portNo p) = false) ∧ (v = false ∨ s.dev.rdB F.LPE_STAT_VERIFIED = true)) ∧
  (∃ (s : State) (p : Nat) (v : Bool), (s.writes p = true) ∧ (s.dev.claspHeld 0 (portNo p) = false) ∧ (v = true) ∧ (s.dev.rdB F.LPE_STAT_VERIFIED = false) ∧ (s.dev.lastWritten F.LPE_CTRL_RUN % 2 = 0)) ∧
  (∃ (s : State) (p k : Nat) (a v : Word), (s.writes p = true) ∧ (a.toNat % 4 = 0) ∧ (memKey a.toNat = some k) ∧ ((s.trans p).memLocked (portNo p) k = false)) ∧
  (∃ (s : State) (p b j : Nat), (s.writes p = true) ∧ (b < 96) ∧ (j < 8) ∧ (s.dev.claspHeld 3 (portNo p) = false) ∧ (s.dev.broken (8 * b + j) = true)) ∧
  (∃ (s : State) (p : Nat), (s.writes p = true) ∧ (s.dev.p1 (portNo p) = true)) ∧
  (∃ (s : State) (p : Nat), (s.writes p = true)) ∧
  (∃ (s : State) (i : Nat), (s.dev.hosted = true)) := by
  refine ⟨⟨st [(F.ADC_CTRL_MODE 3, 2)], 1, 3, ?_⟩,
    ⟨st [], 1, 127, ?_⟩,
    ⟨st [(F.LPE_STAT_VERIFIED, 1)], 1, true, ?_⟩,
    ⟨st [], 1, true, ?_⟩,
    ⟨st [], 1, 65535, 0x0403FFFC, 1, ?_⟩,
    ⟨st [(F.BTH_STAT_BROKEN 95, 128)], 1, 95, 7, ?_⟩,
    ⟨mk present, 1, ?_⟩,
    ⟨st [], 1, ?_⟩,
    ⟨st [], 7, ?_⟩⟩
  · decide +kernel
  · decide +kernel
  · decide +kernel
  · decide +kernel
  · decide +kernel
  · decide +kernel
  · decide +kernel
  · decide +kernel
  · decide +kernel

/-- A state and operands that meet the hypotheses of Obligations.HoldAndSleepRequestsAndEntries, clause by clause. -/
theorem witness_HoldAndSleepRequestsAndEntries :
  (∃ (s : State) (p : Nat), (s.dev.hosted = true)) ∧
  (∃ (s : State), (s.dev.entryDue 1 = false)) ∧
  (∃ (s : State), (s.dev.entryDue 2 = false)) ∧
  (∃ (s : State) (k : BitVec 32), (s.dev.sec.pwrReq = some (1, k)) ∧ (s.dev.entryDue 1 = true)) ∧
  (∃ (s : State) (k : BitVec 32), (s.dev.sec.pwrReq = some (2, k)) ∧ (s.dev.entryDue 2 = true)) := by
  refine ⟨⟨st [], 1, ?_⟩,
    ⟨mk (fun d => { fl [(F.SYS_FRM_CTRL_RUNNING, 1)] d with sec := { d.sec with pwrReq := some (1, 7) } }), ?_⟩,
    ⟨mk (fun d => { fl [(F.SYS_FRM_CTRL_RUNNING, 1)] d with sec := { d.sec with pwrReq := some (2, 7) } }), ?_⟩,
    ⟨mk (fun d => { d with sec := { d.sec with pwrReq := some (1, 7) } }), 7, ?_⟩,
    ⟨mk (fun d => { d with sec := { d.sec with pwrReq := some (2, 7) } }), 7, ?_⟩⟩
  · decide +kernel
  · decide +kernel
  · decide +kernel
  · decide +kernel
  · decide +kernel

/-- A state and operands that meet the hypotheses of Obligations.WakingReseedsDeviceTime, clause by clause. -/
theorem witness_WakingReseedsDeviceTime :
  (∃ (s : State) (b : Nat), (b < 3)) ∧
  (∃ (s : State) (b : Nat), ((b = 3 ∧ s.dev.rd F.CLK_ALARM_HI_ALARM_ARM = 0) ∨ (b = 4 ∧ s.dev.aon.broken = false) ∨ 5 ≤ b)) ∧
  (∃ (s : State), (s.dev.aon.broken = true)) ∧
  (∃ (s : State), (s.dev.rd F.CLK_ALARM_HI_ALARM_ARM = 1)) ∧
  (∃ (s : State), (s.dev.rd F.CLK_STAT_PSTATE ≠ 2 ∨ s.dev.aon.asleep = true ∨ s.dev.rd F.CLK_WAKE_STAT_WAKE &&& s.dev.rd F.CLK_WAKE_EN = 0)) ∧
  (∃ (s : State), (s.dev.aon.asleep = false ∨ s.dev.rd F.CLK_WAKE_STAT_WAKE &&& s.dev.rd F.CLK_WAKE_EN = 0)) ∧
  (∃ (s : State), (s.dev.rd F.CLK_STAT_PSTATE = 2) ∧ (s.dev.aon.asleep = false) ∧ (s.dev.rd F.CLK_WAKE_STAT_WAKE &&& s.dev.rd F.CLK_WAKE_EN ≠ 0)) ∧
  (∃ (s : State), (s.dev.aon.asleep = true) ∧ (s.dev.rd F.CLK_WAKE_STAT_WAKE &&& s.dev.rd F.CLK_WAKE_EN ≠ 0)) := by
  refine ⟨⟨State.reset, 2, ?_⟩,
    ⟨State.reset, 4, ?_⟩,
    ⟨mk (fun d => { d with aon := { d.aon with broken := true } }), ?_⟩,
    ⟨st [(F.CLK_ALARM_HI_ALARM_ARM, 1)], ?_⟩,
    ⟨State.reset, ?_⟩,
    ⟨State.reset, ?_⟩,
    ⟨st [(F.CLK_STAT_PSTATE, 2), (F.CLK_WAKE_STAT_WAKE, 16), (F.CLK_WAKE_EN, 16)], ?_⟩,
    ⟨mk (fun d => { fl [(F.CLK_WAKE_STAT_WAKE, 1), (F.CLK_WAKE_EN, 1)] d with aon := { d.aon with asleep := true } }), ?_⟩⟩
  · decide +kernel
  · decide +kernel
  · decide +kernel
  · decide +kernel
  · decide +kernel
  · decide +kernel
  · decide +kernel
  · decide +kernel

/-- A state and operands that meet the hypotheses of Obligations.ResetsKeepTheirDomains, clause by clause. -/
theorem witness_ResetsKeepTheirDomains :
  (∃ (s : State) (id : Nat) (tw io33 : Bool) (pref tries : Nat), (id < 8) ∧ (pref = (if s.dev.nv.bcbValid then s.dev.nv.pref % 2 else 0)) ∧ (tries = (if s.dev.nv.bcbValid then s.dev.nv.tries else 0)) ∧ (s.vault.bootCheck = none) ∧ (s.dev.sec.sess = none) ∧ (s.vault.lockout = true)) ∧
  (∃ (s : State) (id : Nat) (tw io33 : Bool) (pref tries : Nat) (f : Fld), (id < 8) ∧ (pref = (if s.dev.nv.bcbValid then s.dev.nv.pref % 2 else 0)) ∧ (tries = (if s.dev.nv.bcbValid then s.dev.nv.tries else 0)) ∧ (s.vault.bootCheck = none) ∧ (s.dev.sec.sess = none) ∧ (fldOf f.key = some f) ∧ (f.aon = true) ∧ (f.addr < 0x9000)) ∧
  (∃ (s : State) (id : Nat) (tw io33 : Bool) (pref tries : Nat), (id < 8) ∧ (pref = (if s.dev.nv.bcbValid then s.dev.nv.pref % 2 else 0)) ∧ (tries = (if s.dev.nv.bcbValid then s.dev.nv.tries else 0)) ∧ (s.vault.bootCheck = none) ∧ (s.dev.sec.sess = none) ∧ (tries < 3) ∧ (s.vault.slotValid (s.dev.nv.slot pref) = true)) ∧
  (∃ (s : State) (id : Nat) (tw io33 : Bool) (pref tries : Nat), (id < 8) ∧ (pref = (if s.dev.nv.bcbValid then s.dev.nv.pref % 2 else 0)) ∧ (tries = (if s.dev.nv.bcbValid then s.dev.nv.tries else 0)) ∧ (s.vault.bootCheck = none) ∧ (s.dev.sec.sess = none) ∧ (3 ≤ tries ∨ s.vault.slotValid (s.dev.nv.slot pref) = false) ∧ (s.vault.slotValid (s.dev.nv.slot (1 - pref)) = true)) := by
  refine ⟨⟨⟨{}, { lockout := true }, []⟩, 7, true, true, 0, 0, ?_⟩,
    ⟨State.reset, 7, true, true, 0, 0, F.CLK_WAKE_EN, ?_⟩,
    ⟨mk (fun d => { d with nv := { d.nv with bcbValid := false, slotA := { trusted := true } } }), 7, true, true, 0, 0, ?_⟩,
    ⟨mk (fun d => { d with nv := { d.nv with bcbValid := true, tries := 3, slotB := { trusted := true } } }), 0, false, false, 0, 3, ?_⟩⟩
  · decide +kernel
  · decide +kernel
  · decide +kernel
  · decide +kernel

/-- A state and operands that meet the hypotheses of Obligations.StartUpSteps, clause by clause. -/
theorem witness_StartUpSteps :
  (∃ (s : State) (mask : Nat) (rows : List Nat), (s.dev.rd F.CLK_START_STEP = 3) ∧ (∀ r ∈ rows, r < 1024)) ∧
  (∃ (s : State), (s.dev.running = false) ∧ (s.dev.rd F.CLK_START_STEP = 6) ∧ (s.dev.linksUp = true)) ∧
  (∃ (s : State), (s.dev.rd F.CLK_START_STEP = 7) ∧ ((∀ x ∈ s.dev.placed, (s.dev.bead x.1).state0.isSome = true ∧ (s.dev.rd (F.BDT_STATE x.1) ≠ 0 ∨ (s.dev.bead x.1).nodeId.isSome = true)) ∨ 64 ≤ s.dev.frame.k.toNat)) ∧
  (∃ (s : State), (s.dev.rd F.CLK_START_STEP ≠ 7 ∨ ¬ (∀ x ∈ s.dev.placed, (s.dev.bead x.1).state0.isSome = true ∧ (s.dev.rd (F.BDT_STATE x.1) ≠ 0 ∨ (s.dev.bead x.1).nodeId.isSome = true)) ∧ s.dev.frame.k.toNat < 64)) ∧
  (∃ (s : State), (s.dev.rd F.CLK_START_STEP = 8) ∧ (((((List.range 96).filter fun b => s.dev.rd (F.BDT_STATE b) = 1 && !((s.dev.bead b).state0.isSome && bitOf (le (s.dev.bead b).last 3 1) 0)) = [] ∧ (if s.dev.rd F.TIM_STAT_TSRC = 0 then s.dev.rd F.TIM_STAT_COARSE = 0 else s.dev.rd F.TIM_STAT_LOCK = 1)) ∨ 1024 ≤ (s.dev.frame.k - s.dev.sec.stepAt).toNat))) ∧
  (∃ (s : State), (s.dev.rd F.CLK_START_STEP ≠ 8 ∨ ¬ ((((List.range 96).filter fun b => s.dev.rd (F.BDT_STATE b) = 1 && !((s.dev.bead b).state0.isSome && bitOf (le (s.dev.bead b).last 3 1) 0)) = [] ∧ (if s.dev.rd F.TIM_STAT_TSRC = 0 then s.dev.rd F.TIM_STAT_COARSE = 0 else s.dev.rd F.TIM_STAT_LOCK = 1)) ∨ 1024 ≤ (s.dev.frame.k - s.dev.sec.stepAt).toNat))) ∧
  (∃ (s : State), (s.dev.olg.crcDue = true)) := by
  refine ⟨⟨st [(F.CLK_START_STEP, 3)], 4095, [1023], ?_⟩,
    ⟨st [(F.CLK_START_STEP, 6)], ?_⟩,
    ⟨st [(F.CLK_START_STEP, 7)], ?_⟩,
    ⟨State.reset, ?_⟩,
    ⟨st [(F.CLK_START_STEP, 8), (F.TIM_STAT_COARSE, 0)], ?_⟩,
    ⟨State.reset, ?_⟩,
    ⟨mk (fun d => { d with olg := { d.olg with crcDue := true } }), ?_⟩⟩
  · decide +kernel
  · decide +kernel
  · decide +kernel
  · decide +kernel
  · decide +kernel
  · decide +kernel
  · decide +kernel

/-- A state and operands that meet the hypotheses of Obligations.TwinStatesAndHeartbeats, clause by clause. -/
theorem witness_TwinStatesAndHeartbeats :
  (∃ (s : State), (s.dev.rd F.TWN_STAT_STATE = 1) ∧ (64 ≤ s.dev.twn.listen) ∧ (s.dev.twn.clash = false) ∧ (s.dev.twn.pState = some 4)) ∧
  (∃ (s : State), (s.dev.rd F.TWN_STAT_STATE = 1) ∧ (64 ≤ s.dev.twn.listen) ∧ (s.dev.twn.clash = false) ∧ (s.dev.twn.pState ≠ some 4) ∧ (s.dev.rd F.TWN_CTRL_PREF = s.dev.rd F.TWN_STAT_UNIT ∨ (s.dev.rd F.TWN_STAT_H1_UP = 0 ∧ s.dev.rd F.TWN_STAT_H2_UP = 0 ∧ s.dev.twn.heard = false))) ∧
  (∃ (s : State), (s.dev.rd F.TWN_STAT_STATE = 1) ∧ (64 ≤ s.dev.twn.listen) ∧ (s.dev.twn.clash = false) ∧ (s.dev.twn.pState ≠ some 4) ∧ (s.dev.rd F.TWN_CTRL_PREF ≠ s.dev.rd F.TWN_STAT_UNIT) ∧ (s.dev.rd F.TWN_STAT_H1_UP = 1 ∨ s.dev.rd F.TWN_STAT_H2_UP = 1 ∨ s.dev.twn.heard = true)) ∧
  (∃ (s : State), (s.dev.rd F.TWN_STAT_STATE ≠ 1 ∨ s.dev.twn.listen < 64 ∨ s.dev.twn.clash = true)) ∧
  (∃ (s : State), (s.dev.rd F.TWN_STAT_STATE = 2) ∧ (64 ≤ s.dev.twn.okRun)) ∧
  (∃ (s : State), (s.dev.rd F.TWN_STAT_STATE ≠ 2 ∨ s.dev.twn.okRun < 64)) ∧
  (∃ (s : State), ((s.dev.rd F.TWN_STAT_STATE = 4 ∧ s.dev.twn.pState = some 3 ∧ s.dev.rd F.TWN_CTRL_YIELD_EN = 1 ∧ (s.dev.yieldDue = true ∨ 3 ≤ s.dev.twn.deaf)))) ∧
  (∃ (s : State), (¬ (s.dev.rd F.TWN_STAT_STATE = 4 ∧ s.dev.twn.pState = some 3 ∧ s.dev.rd F.TWN_CTRL_YIELD_EN = 1 ∧ (s.dev.yieldDue = true ∨ 3 ≤ s.dev.twn.deaf)))) ∧
  (∃ (s : State) (m : Nat), (s.dev.twn.since = some m) ∧ (s.dev.rd F.TWN_STAT_STATE = 4) ∧ (s.dev.rd F.TWN_CTRL_REVERT = 1) ∧ (s.dev.rd F.TWN_CTRL_PREF ≠ s.dev.rd F.TWN_STAT_UNIT) ∧ (s.dev.rd F.TWN_HOLD * 64000000 ≤ s.dev.time.rt - m) ∧ (s.dev.twn.hbk = none)) ∧
  (∃ (s : State), (s.dev.rd F.TWN_STAT_STATE ≠ 0) ∧ (s.dev.twn.h1Got ≠ some ((if s.dev.frame.planned then s.dev.frame.k else s.dev.frame.k - 1 : BitVec 32))) ∧ (s.dev.twn.h1Done ≠ some ((if s.dev.frame.planned then s.dev.frame.k else s.dev.frame.k - 1 : BitVec 32)))) ∧
  (∃ (s : State), (s.dev.rd F.TWN_STAT_STATE = 0 ∨ s.dev.twn.h1Got = some ((if s.dev.frame.planned then s.dev.frame.k else s.dev.frame.k - 1 : BitVec 32)) ∨ s.dev.twn.h1Done = some ((if s.dev.frame.planned then s.dev.frame.k else s.dev.frame.k - 1 : BitVec 32)))) ∧
  (∃ (s : State), (s.dev.rd F.TWN_STAT_STATE ≠ 0) ∧ (s.dev.twn.h2Got = false) ∧ (s.dev.twn.h2Done = false)) ∧
  (∃ (s : State), (s.dev.rd F.TWN_STAT_STATE = 0 ∨ s.dev.twn.h2Got = true ∨ s.dev.twn.h2Done = true)) ∧
  (∃ (s : State) (v : Byte), ((s.dev.rd F.TWN_STAT_STATE ≠ 0 ∧ v.toNat / 32 = 5 ∧ (maskBits 8 v.toNat).length % 2 = 1 ∧ v.toNat / 16 % 2 ≠ s.dev.rd F.TWN_STAT_UNIT ∧ s.dev.twn.hbBlk = false ∧ s.dev.twn.h2Done = false ∧ s.dev.behind s.dev.boundaryNow ≤ 622592000))) ∧
  (∃ (s : State) (v : Byte), (¬ (s.dev.rd F.TWN_STAT_STATE ≠ 0 ∧ v.toNat / 32 = 5 ∧ (maskBits 8 v.toNat).length % 2 = 1 ∧ v.toNat / 16 % 2 ≠ s.dev.rd F.TWN_STAT_UNIT ∧ s.dev.twn.hbBlk = false ∧ s.dev.twn.h2Done = false ∧ s.dev.behind s.dev.boundaryNow ≤ 622592000))) ∧
  (∃ (s : State), (s.dev.rd F.TWN_STAT_STATE = 0 ∨ s.dev.twn.hbAt = some (s.dev.boundaryNow + 32768000))) ∧
  (∃ (s : State), (s.dev.rd F.TWN_STAT_STATE ≠ 0) ∧ (s.dev.twn.hbAt ≠ some (s.dev.boundaryNow + 32768000))) := by
  refine ⟨⟨mk (fun d => (fl [(F.TWN_STAT_STATE, 1)] d).upTwn fun t => { t with listen := 64, pState := some 4 }), ?_⟩,
    ⟨mk (fun d => (fl [(F.TWN_STAT_STATE, 1)] d).upTwn fun t => { t with listen := 64 }), ?_⟩,
    ⟨mk (fun d => (fl [(F.TWN_STAT_STATE, 1), (F.TWN_CTRL_PREF, 1)] d).upTwn fun t => { t with listen := 64, heard := true }), ?_⟩,
    ⟨mk (fun d => (fl [(F.TWN_STAT_STATE, 1)] d).upTwn fun t => { t with listen := 63 }), ?_⟩,
    ⟨mk (fun d => (fl [(F.TWN_STAT_STATE, 2)] d).upTwn fun t => { t with okRun := 64 }), ?_⟩,
    ⟨mk (fun d => (fl [(F.TWN_STAT_STATE, 2)] d).upTwn fun t => { t with okRun := 63 }), ?_⟩,
    ⟨mk (fun d => (fl [(F.TWN_STAT_STATE, 4), (F.TWN_CTRL_YIELD_EN, 1)] d).upTwn fun t => { t with pState := some 3, deaf := 3 }), ?_⟩,
    ⟨mk (fun d => (fl [(F.TWN_STAT_STATE, 4), (F.TWN_CTRL_YIELD_EN, 1)] d).upTwn fun t => { t with pState := some 3, deaf := 2 }), ?_⟩,
    ⟨mk (fun d => (fl [(F.TWN_STAT_STATE, 4), (F.TWN_CTRL_REVERT, 1), (F.TWN_CTRL_PREF, 1), (F.TWN_HOLD, 0)] d).upTwn fun t => { t with since := some 0 }), 0, ?_⟩,
    ⟨st [(F.TWN_STAT_STATE, 3)], ?_⟩,
    ⟨mk (fun d => (fl [(F.TWN_STAT_STATE, 3)] d).upTwn fun t => { t with h1Got := some 0xFFFFFFFF }), ?_⟩,
    ⟨st [(F.TWN_STAT_STATE, 3)], ?_⟩,
    ⟨mk (fun d => (fl [(F.TWN_STAT_STATE, 3)] d).upTwn fun t => { t with h2Done := true }), ?_⟩,
    ⟨st [(F.TWN_STAT_STATE, 3)], 0xB9, ?_⟩,
    ⟨st [(F.TWN_STAT_STATE, 3)], 0xB8, ?_⟩,
    ⟨State.reset, ?_⟩,
    ⟨st [(F.TWN_STAT_STATE, 3)], ?_⟩⟩
  · decide +kernel
  · decide +kernel
  · decide +kernel
  · decide +kernel
  · decide +kernel
  · decide +kernel
  · decide +kernel
  · decide +kernel
  · decide +kernel
  · decide +kernel
  · decide +kernel
  · decide +kernel
  · decide +kernel
  · decide +kernel
  · decide +kernel
  · decide +kernel
  · decide +kernel

/-- A state and operands that meet the hypotheses of Obligations.FramesOfThePartnerAndItsBeads, clause by clause. -/
theorem witness_FramesOfThePartnerAndItsBeads :
  (∃ (s : State) (lane : Nat) (b : List Byte), (b.length < 32 ∨ le b 0 1 ≠ 0x31 ∨ crc8 (b.take 31) ≠ le b 31 1 ∨ s.dev.role lane ≠ 2 ∨ s.dev.rd F.TWN_STAT_STATE = 0)) ∧
  (∃ (s : State) (lane : Nat) (b : List Byte), (32 ≤ b.length) ∧ (le b 0 1 = 0x31) ∧ (crc8 (b.take 31) = le b 31 1) ∧ (le b 1 1 % 2 = s.dev.rd F.TWN_STAT_UNIT) ∧ (s.dev.role lane = 2) ∧ (s.dev.rd F.TWN_STAT_STATE ≠ 0)) ∧
  (∃ (s : State) (lane : Nat) (b : List Byte), (32 ≤ b.length) ∧ (le b 0 1 = 0x31) ∧ (crc8 (b.take 31) = le b 31 1) ∧ (le b 1 1 % 2 ≠ s.dev.rd F.TWN_STAT_UNIT) ∧ (s.dev.role lane = 2) ∧ (s.dev.rd F.TWN_STAT_STATE ≠ 0) ∧ (s.dev.twn.h1Done = some s.dev.frame.k)) ∧
  (∃ (s : State) (lane : Nat) (b : List Byte), (32 ≤ b.length) ∧ (le b 0 1 = 0x31) ∧ (crc8 (b.take 31) = le b 31 1) ∧ (le b 1 1 % 2 ≠ s.dev.rd F.TWN_STAT_UNIT) ∧ (s.dev.role lane = 2) ∧ (s.dev.rd F.TWN_STAT_STATE ≠ 0) ∧ (s.dev.twn.h1Done ≠ some s.dev.frame.k) ∧ (s.dev.twn.h1Got ≠ some s.dev.frame.k) ∧ (s.dev.rd F.TWN_STAT_STATE = 1 ∨ le b 2 2 = seqOf s.dev.frame.k ∨ (((le b 1 1 / 4 % 8) = 4 ∧ (s.dev.rd F.TWN_STAT_STATE = 2 ∨ s.dev.rd F.TWN_STAT_STATE = 3)) ∧ ¬ (s.dev.twn.aligned = true ∧ le b 2 2 = seqOf (s.dev.frame.k - 1))))) ∧
  (∃ (s : State) (lane : Nat) (b : List Byte), (s.vault.lockout = false) ∧ (hdrOk 1 b = true) ∧ (s.dev.role lane = 1) ∧ (s.dev.rd F.TWN_STAT_STATE ≠ 0) ∧ (s.dev.rd F.TWN_STAT_STATE ≠ 4) ∧ (le b 4 4 = s.dev.twn.pEpoch) ∧ (s.dev.twn.pState = some 4) ∧ (bitOf (le b 16 4) 24 = true)) ∧
  (∃ (s : State) (lane : Nat) (b : List Byte), (s.vault.lockout = false) ∧ (hdrOk 1 b = true) ∧ (s.dev.role lane = 1) ∧ (s.dev.rd F.TWN_STAT_STATE ≠ 0) ∧ (s.dev.rd F.TWN_STAT_STATE ≠ 4) ∧ (le b 4 4 = s.dev.twn.pEpoch) ∧ (s.dev.twn.pState = some 4) ∧ (bitOf (le b 16 4) 24 = false)) ∧
  (∃ (s : State) (lane : Nat) (b : List Byte), (s.vault.lockout = true ∨ hdrOk 1 b = false ∨ s.dev.role lane ≠ 1 ∨ s.dev.rd F.TWN_STAT_STATE = 0 ∨ s.dev.rd F.TWN_STAT_STATE = 4 ∨ le b 4 4 ≠ s.dev.twn.pEpoch ∨ s.dev.twn.pState ≠ some 4)) ∧
  (∃ (s : State) (n : Nat) (b : List Byte) (e : Bool), (n < 16) ∧ (s.dev.rd F.TWN_CTRL_EN = 0) ∧ (s.dev.rd (F.STR_CTRL_EN n) = 1) ∧ (hdrOk 2 b = false)) ∧
  (∃ (s : State) (n : Nat) (b : List Byte) (e : Bool), (n < 16) ∧ (s.dev.rd F.TWN_CTRL_EN = 0) ∧ (s.dev.rd (F.STR_CTRL_EN n) = 0)) ∧
  (∃ (s : State) (n : Nat) (b : List Byte) (e : Bool), (n < 16) ∧ (s.dev.rd F.TWN_CTRL_EN = 0) ∧ (hdrOk 2 b = true) ∧ (le b 2 2 ≠ seqOf s.dev.frame.k ∨ s.dev.rd F.SYS_FRM_STAT_WINDOW ≠ 0 ∨ s.dev.rd F.SYS_FRM_CTRL_RUNNING = 0)) := by
  refine ⟨⟨State.reset, 23, by8 (List.replicate 31 0), ?_⟩,
    ⟨st [(F.TWN_STAT_STATE, 3), (F.LANE_CTRL_ROLE 23, 2)], 23, twinHdr 12 65535 7, ?_⟩,
    ⟨mk (fun d => (fl [(F.TWN_STAT_STATE, 3), (F.LANE_CTRL_ROLE 23, 2)] d).upTwn fun t => { t with h1Done := some 0 }), 23, twinHdr 13 0 7, ?_⟩,
    ⟨mk (fun d => { fl [(F.TWN_STAT_STATE, 3), (F.LANE_CTRL_ROLE 23, 2)] d with frame := { d.frame with k := 65535 } }), 23, twinHdr 13 65535 7, ?_⟩,
    ⟨mk (fun d => (fl [(F.TWN_STAT_STATE, 3), (F.LANE_CTRL_ROLE 23, 1)] d).upTwn fun t => { t with pState := some 4, pEpoch := 7 }), 23, hdr32 1 0 0 7 [0, 0, 0, 0, 0, 0, 0, 0, 0, 0, 0, 1], ?_⟩,
    ⟨mk (fun d => (fl [(F.TWN_STAT_STATE, 3), (F.LANE_CTRL_ROLE 23, 1)] d).upTwn fun t => { t with pState := some 4, pEpoch := 7 }), 23, hdr32 1 0 0 7 [], ?_⟩,
    ⟨State.reset, 23, hdr32 1 0 0 7 [], ?_⟩,
    ⟨st [(F.STR_CTRL_EN 15, 1)], 15, [], false, ?_⟩,
    ⟨State.reset, 15, [], false, ?_⟩,
    ⟨State.reset, 15, hdr32 2 0 1 0 [], false, ?_⟩⟩
  · decide +kernel
  · decide +kernel
  · decide +kernel
  · decide +kernel
  · decide +kernel
  · decide +kernel
  · decide +kernel
  · decide +kernel
  · decide +kernel
  · decide +kernel

/-- A state and operands that meet the hypotheses of Obligations.ABeadsRecordIsTakenOnce, clause by clause. -/
theorem witness_ABeadsRecordIsTakenOnce :
  (∃ (s : State) (n : Nat) (b : List Byte) (e : Bool), (n < 16) ∧ (s.dev.rd F.TWN_CTRL_EN = 0) ∧ (s.dev.rd (F.STR_CTRL_EN n) = 1) ∧ (s.dev.rd (F.STR_CTRL_BEND n) = 0) ∧ (hdrOk 2 b = true) ∧ (le b 2 2 = seqOf s.dev.frame.k) ∧ (s.dev.rd F.SYS_FRM_STAT_WINDOW = 0) ∧ (s.dev.running = true) ∧ (le b 5 1 = 1) ∧ (b.length = 160) ∧ (crc32c (slice (b.drop 32) 0 124) ≠ le (b.drop 32) 124 4)) ∧
  (∃ (s : State) (n : Nat) (b : List Byte) (e : Bool), (n < 16) ∧ (s.dev.rd F.TWN_CTRL_EN = 0) ∧ (s.dev.rd (F.STR_CTRL_EN n) = 1) ∧ (s.dev.rd (F.STR_CTRL_BEND n) = 0) ∧ (hdrOk 2 b = true) ∧ (le b 2 2 = seqOf s.dev.frame.k) ∧ (s.dev.rd F.SYS_FRM_STAT_WINDOW = 0) ∧ (s.dev.running = true) ∧ (le b 5 1 = 1) ∧ (b.length = 160) ∧ (crc32c (slice (b.drop 32) 0 124) = le (b.drop 32) 124 4) ∧ ((le (b.drop 32) 0 1) < 12) ∧ ((le (b.drop 32) 0 1) < s.dev.rd (F.STR_CTRL_NBEAD n)) ∧ (s.dev.rd (F.STR_POS_VALID n (le (b.drop 32) 0 1)) = 1) ∧ ((s.dev.rd (F.STR_POS_BEAD n (le (b.drop 32) 0 1))) < 96) ∧ (le (b.drop 32) 1 1 = (s.dev.rd (F.STR_POS_BEAD n (le (b.drop 32) 0 1)))) ∧ ((s.dev.bead (s.dev.rd (F.STR_POS_BEAD n (le (b.drop 32) 0 1)))).got = true)) ∧
  (∃ (s : State) (n : Nat) (b : List Byte) (e : Bool), (n < 16) ∧ (s.dev.rd F.TWN_CTRL_EN = 0) ∧ (s.dev.rd (F.STR_CTRL_EN n) = 1) ∧ (s.dev.rd (F.STR_CTRL_BEND n) = 0) ∧ (hdrOk 2 b = true) ∧ (le b 2 2 = seqOf s.dev.frame.k) ∧ (s.dev.rd F.SYS_FRM_STAT_WINDOW = 0) ∧ (s.dev.running = true) ∧ (le b 5 1 = 1) ∧ (b.length = 160) ∧ (crc32c (slice (b.drop 32) 0 124) = le (b.drop 32) 124 4) ∧ ((le (b.drop 32) 0 1) < 12) ∧ ((le (b.drop 32) 0 1) < s.dev.rd (F.STR_CTRL_NBEAD n)) ∧ (s.dev.rd (F.STR_POS_VALID n (le (b.drop 32) 0 1)) = 1) ∧ ((s.dev.rd (F.STR_POS_BEAD n (le (b.drop 32) 0 1))) < 96) ∧ (le (b.drop 32) 1 1 = (s.dev.rd (F.STR_POS_BEAD n (le (b.drop 32) 0 1)))) ∧ ((s.dev.bead (s.dev.rd (F.STR_POS_BEAD n (le (b.drop 32) 0 1)))).got = false)) := by
  refine ⟨⟨st [(F.STR_CTRL_EN 15, 1), (F.SYS_FRM_CTRL_RUNNING, 1)], 15, hdr32 2 0 0 256 [] ++ by8 (List.replicate 127 0 ++ [1]), false, ?_⟩,
    ⟨mk (fun d => (fl [(F.STR_CTRL_EN 15, 1), (F.SYS_FRM_CTRL_RUNNING, 1), (F.STR_CTRL_NBEAD 15, 12), (F.STR_POS_VALID 15 11, 1), (F.STR_POS_BEAD 15 11, 95)] d).setBead 95 { got := true }), 15, hdr32 2 0 0 256 [] ++ record 11 95 3, false, ?_⟩,
    ⟨st [(F.STR_CTRL_EN 15, 1), (F.SYS_FRM_CTRL_RUNNING, 1), (F.STR_CTRL_NBEAD 15, 12), (F.STR_POS_VALID 15 11, 1), (F.STR_POS_BEAD 15 11, 95)], 15, hdr32 2 0 0 256 [] ++ record 11 95 3, false, ?_⟩⟩
  · decide +kernel
  · decide +kernel
  · decide +kernel

/-- A state and operands that meet the hypotheses of Obligations.CoresClocksAndSuppliesFail, clause by clause. -/
theorem witness_CoresClocksAndSuppliesFail :
  (∃ (s : State), (s.dev.rd F.SYS_MCORE_SINGLE = 0)) ∧
  (∃ (s : State), (s.dev.rd F.SYS_MCORE_SINGLE ≠ 0)) ∧
  (∃ (s : State) (a b c : Nat) (p0 p1 : Bool), (a < b) ∧ (b < 3) ∧ (c < 3) ∧ (c ≠ a) ∧ (c ≠ b) ∧ (s.dev.mcore a = 0) ∧ (s.dev.mcore b = 0) ∧ (s.dev.mcore c ≠ 0)) ∧
  (∃ (s : State) (dom : Nat), (dom < 8) ∧ (dom ≠ 3 ∨ s.dev.rd F.EDG_STAT_CLK_LOST = 1)) ∧
  (∃ (s : State), (s.dev.rd F.EDG_STAT_CLK_LOST = 0)) ∧
  (∃ (s : State), (s.dev.run = .boot) ∧ (s.dev.rd F.CLK_START_STEP = 2 ∨ s.dev.rd F.CLK_START_STEP = 3)) ∧
  (∃ (s : State) (rail : Nat) (ovr : Bool), (rail < 8)) := by
  refine ⟨⟨State.reset, ?_⟩,
    ⟨st [(F.SYS_MCORE_SINGLE, 1)], ?_⟩,
    ⟨mk (fun d => fl [(F.SYS_MCORE_ROLE, 0x10)] d), 0, 1, 2, false, true, ?_⟩,
    ⟨State.reset, 7, ?_⟩,
    ⟨State.reset, ?_⟩,
    ⟨st [(F.CLK_START_STEP, 3)], ?_⟩,
    ⟨State.reset, 7, true, ?_⟩⟩
  · decide +kernel
  · decide +kernel
  · decide +kernel
  · decide +kernel
  · decide +kernel
  · decide +kernel
  · decide +kernel

/-- A state and operands that meet the hypotheses of Obligations.StackRolesAndEpochs, clause by clause. -/
theorem witness_StackRolesAndEpochs :
  (∃ (s : State), ((s.dev.rd F.STK_STAT_ROLE) ≠ 0) ∧ ((s.dev.rd F.STK_STAT_ROLE) ≠ 1) ∧ ((s.dev.rd F.STK_STAT_ROLE) ≠ 4) ∧ (s.dev.stk.got ≠ some (seqOf ((if s.dev.frame.planned then s.dev.frame.k + 1 else s.dev.frame.k : BitVec 32)))) ∧ (s.dev.stk.judged ≠ some ((if s.dev.frame.planned then s.dev.frame.k + 1 else s.dev.frame.k : BitVec 32)))) ∧
  (∃ (s : State), ((s.dev.rd F.STK_STAT_ROLE) = 0 ∨ (s.dev.rd F.STK_STAT_ROLE) = 1 ∨ (s.dev.rd F.STK_STAT_ROLE) = 4 ∨ s.dev.stk.got = some (seqOf ((if s.dev.frame.planned then s.dev.frame.k + 1 else s.dev.frame.k : BitVec 32))) ∨ s.dev.stk.judged = some ((if s.dev.frame.planned then s.dev.frame.k + 1 else s.dev.frame.k : BitVec 32)))) ∧
  (∃ (s : State), (s.dev.rd F.STK_STAT_ROLE = 2) ∧ (s.dev.rd F.STK_CTRL_DEP_EN = 1) ∧ (4 ≤ s.dev.rd F.STK_STAT_MISS) ∧ (s.dev.rd F.TWN_STAT_STATE = 0 ∨ 4 ≤ s.dev.twn.pMiss)) ∧
  (∃ (s : State), (s.dev.rd F.STK_STAT_ROLE = 3) ∧ (s.dev.rd F.STK_CTRL_ORPHAN ≤ s.dev.stk.alone)) ∧
  (∃ (s : State), (s.dev.rd F.STK_STAT_ROLE = 5) ∧ (64 ≤ s.dev.stk.lockRun) ∧ (s.dev.rd F.TIM_STAT_LOCK = 1)) ∧
  (∃ (s : State) (lane : Nat) (b : List Byte), (s.dev.role lane ≠ 3 ∨ s.dev.rd F.STK_CTRL_EN = 0)) ∧
  (∃ (s : State) (lane : Nat) (b : List Byte), (s.dev.role lane = 3) ∧ (s.dev.rd F.STK_CTRL_EN = 1) ∧ (hdrOk 4 b = false) ∧ (hdrOk 5 b = false)) ∧
  (∃ (s : State) (lane : Nat) (b : List Byte), (s.dev.role lane = 3) ∧ (s.dev.rd F.STK_CTRL_EN = 1) ∧ (hdrOk 4 b = true ∨ hdrOk 5 b = true) ∧ ((le b 1 1 % 8 = s.dev.rd F.STK_ID ∧ (le b 1 1 / 16 % 2 = s.dev.rd F.TWN_STAT_UNIT ∨ s.dev.rd F.TWN_CTRL_EN = 0))) ∧ (hdrOk 4 b = false ∨ s.dev.ownCopy b = false)) ∧
  (∃ (s : State) (lane : Nat) (b : List Byte), (s.dev.role lane = 3) ∧ (s.dev.rd F.STK_CTRL_EN = 1) ∧ (hdrOk 4 b = true) ∧ ((le b 1 1 % 8 = s.dev.rd F.STK_ID ∧ (le b 1 1 / 16 % 2 = s.dev.rd F.TWN_STAT_UNIT ∨ s.dev.rd F.TWN_CTRL_EN = 0))) ∧ (s.dev.ownCopy b = true)) ∧
  (∃ (s : State) (lane : Nat) (b : List Byte), (s.dev.role lane = 3) ∧ (s.dev.rd F.STK_CTRL_EN = 1) ∧ (hdrOk 4 b = true) ∧ (¬ (le b 1 1 % 8 = s.dev.rd F.STK_ID ∧ (le b 1 1 / 16 % 2 = s.dev.rd F.TWN_STAT_UNIT ∨ s.dev.rd F.TWN_CTRL_EN = 0))) ∧ (s.dev.rd F.STK_EPOCH < le b 4 4) ∧ (s.dev.rd F.STK_STAT_ROLE = 2 ∨ s.dev.rd F.STK_STAT_ROLE = 3 ∨ s.dev.rd F.STK_STAT_ROLE = 6)) := by
  refine ⟨⟨st [(F.STK_STAT_ROLE, 3)], ?_⟩,
    ⟨State.reset, ?_⟩,
    ⟨st [(F.STK_STAT_ROLE, 2), (F.STK_CTRL_DEP_EN, 1), (F.STK_STAT_MISS, 4)], ?_⟩,
    ⟨mk (fun d => (fl [(F.STK_STAT_ROLE, 3)] d).upStk fun t => { t with alone := 4096 }), ?_⟩,
    ⟨mk (fun d => (fl [(F.STK_STAT_ROLE, 5), (F.TIM_STAT_LOCK, 1)] d).upStk fun t => { t with lockRun := 64 }), ?_⟩,
    ⟨State.reset, 23, [], ?_⟩,
    ⟨st [(F.LANE_CTRL_ROLE 23, 3), (F.STK_CTRL_EN, 1)], 23, [], ?_⟩,
    ⟨st [(F.LANE_CTRL_ROLE 23, 3), (F.STK_CTRL_EN, 1), (F.STK_ID, 7)], 23, hdr32 5 7 0 0 [], ?_⟩,
    ⟨mk (fun d => (fl [(F.LANE_CTRL_ROLE 23, 3), (F.STK_CTRL_EN, 1), (F.STK_ID, 7)] d).upStk fun t => { t with sent := hdr32 4 7 0 1 [] }), 23, hdr32 4 7 0 1 [], ?_⟩,
    ⟨st [(F.LANE_CTRL_ROLE 23, 3), (F.STK_CTRL_EN, 1), (F.STK_ID, 7), (F.STK_STAT_ROLE, 6)], 23, hdr32 4 0 65535 1 [], ?_⟩⟩
  · decide +kernel
  · decide +kernel
  · decide +kernel
  · decide +kernel
  · decide +kernel
  · decide +kernel
  · decide +kernel
  · decide +kernel
  · decide +kernel
  · decide +kernel

/-- A state and operands that meet the hypotheses of Obligations.LossOfSignalTakesALaneDown, clause by clause. -/
theorem witness_LossOfSignalTakesALaneDown :
  (∃ (s : State) (n : Nat), (n < 24) ∧ ((s.dev.rd (F.LANE_STAT_LOS n) = 1 ∨ s.dev.rd (F.LANE_STAT_LOL n) = 1))) ∧
  (∃ (s : State) (n : Nat), (n < 24) ∧ (¬ (s.dev.rd (F.LANE_STAT_LOS n) = 1 ∨ s.dev.rd (F.LANE_STAT_LOL n) = 1)) ∧ (s.dev.inService n = false)) ∧
  (∃ (s : State) (n : Nat), (n < 24) ∧ (¬ (s.dev.rd (F.LANE_STAT_LOS n) = 1 ∨ s.dev.rd (F.LANE_STAT_LOL n) = 1)) ∧ (s.dev.inService n = true) ∧ (s.dev.rd F.SYS_LRET_EN = 0)) ∧
  (∃ (s : State) (n : Nat) (fail : Bool), (n < 24) ∧ ((fail = false ∨ s.dev.rd F.SYS_LRET_EN = 0 ∨ s.dev.rd (F.LANE_STAT_LOL n) = 0 ∨ s.dev.rd (F.LANE_STAT_LOS n) = 1 ∨ s.dev.spareOf n = none))) ∧
  (∃ (s : State) (n : Nat) (fail : Bool) (m : _), (n < 24) ∧ (¬ (fail = false ∨ s.dev.rd F.SYS_LRET_EN = 0 ∨ s.dev.rd (F.LANE_STAT_LOL n) = 0 ∨ s.dev.rd (F.LANE_STAT_LOS n) = 1 ∨ s.dev.spareOf n = none)) ∧ (s.dev.spareOf n = some m)) := by
  refine ⟨⟨st [(F.LANE_STAT_LOS 23, 1)], 23, ?_⟩,
    ⟨st [(F.LANE_STAT_LOS 23, 0), (F.LANE_STAT_LOL 23, 0)], 23, ?_⟩,
    ⟨st [(F.LANE_CTRL_ROLE 23, 2), (F.TWN_CTRL_EN, 1), (F.SYS_LRET_EN, 0), (F.LANE_STAT_LOS 23, 0), (F.LANE_STAT_LOL 23, 0)], 23, ?_⟩,
    ⟨State.reset, 23, true, ?_⟩,
    ⟨st [(F.LANE_CTRL_ROLE 22, 5), (F.LANE_CTRL_SPARE_FOR 22, 23), (F.SYS_LRET_EN, 1), (F.LANE_STAT_LOL 23, 1), (F.LANE_STAT_LOS 23, 0)], 23, true, 22, ?_⟩⟩
  · decide +kernel
  · decide +kernel
  · decide +kernel
  · decide +kernel
  · decide +kernel

/-- A state and operands that meet the hypotheses of Obligations.BringUpStepsByTheLadder, clause by clause. -/
theorem witness_BringUpStepsByTheLadder :
  (∃ (s : State) (n : Nat), (n < 24) ∧ (((s.dev.role n = 1 ∨ s.dev.role n = 2 ∨ s.dev.role n = 3) ∧ s.dev.keepsRate n = false ∧ s.dev.rd (F.LANE_STAT_LOS n) = 0 ∧ s.dev.rd (F.LANE_STAT_LOL n) = 0))) ∧
  (∃ (s : State) (n : Nat), (n < 24) ∧ (¬ ((s.dev.role n = 1 ∨ s.dev.role n = 2 ∨ s.dev.role n = 3) ∧ s.dev.keepsRate n = false ∧ s.dev.rd (F.LANE_STAT_LOS n) = 0 ∧ s.dev.rd (F.LANE_STAT_LOL n) = 0))) ∧
  (∃ (s : State) (n : Nat) (r : _), (n < 24) ∧ ((s.dev.lane n).bring = .stepping r)) ∧
  (∃ (s : State) (n : Nat), (n < 24) ∧ ((∀ r, (s.dev.lane n).bring ≠ .stepping r))) ∧
  (∃ (s : State) (n : Nat) (r : _), (n < 24) ∧ ((s.dev.lane n).bring = .settling r)) ∧
  (∃ (s : State) (n : Nat), (n < 24) ∧ ((s.dev.lane n).bring = .rejoinOffer)) ∧
  (∃ (s : State) (n : Nat), (n < 24) ∧ ((∀ r, (s.dev.lane n).bring ≠ .settling r)) ∧ ((s.dev.lane n).bring ≠ .rejoinOffer)) ∧
  (∃ (s : State) (n : Nat) (r errs : Nat) (lost : Bool), (n < 24) ∧ ((s.dev.lane n).bring = .dwelling r)) ∧
  (∃ (s : State) (n : Nat) (errs : Nat) (lost : Bool), (n < 24) ∧ ((∀ r, (s.dev.lane n).bring ≠ .dwelling r))) ∧
  (∃ (s : State) (n : Nat) (r : _), (n < 24) ∧ ((s.dev.lane n).bring = .reporting r)) ∧
  (∃ (s : State) (n : Nat), (n < 24) ∧ ((∀ r, (s.dev.lane n).bring ≠ .reporting r))) ∧
  (∃ (s : State) (n : Nat), (n < 24) ∧ ((s.dev.lane n).bring = .falling ∨ (s.dev.aEnd n = false ∧ ∃ r, (s.dev.lane n).bring = .reporting r))) ∧
  (∃ (s : State) (n : Nat), (n < 24) ∧ ((s.dev.lane n).bring ≠ .falling) ∧ ((s.dev.aEnd n = true ∨ ∀ r, (s.dev.lane n).bring ≠ .reporting r))) ∧
  (∃ (s : State) (n : Nat) (b : _), (n < 24) ∧ ((s.dev.lane n).bring = .offer b)) ∧
  (∃ (s : State) (n : Nat), (n < 24) ∧ ((∀ b, (s.dev.lane n).bring ≠ .offer b))) := by
  refine ⟨⟨st [(F.LANE_CTRL_ROLE 23, 3), (F.LANE_STAT_LOS 23, 0), (F.LANE_STAT_LOL 23, 0)], 23, ?_⟩,
    ⟨State.reset, 23, ?_⟩,
    ⟨mk (·.setLane 23 { bring := .stepping 3 }), 23, 3, ?_⟩,
    ⟨State.reset, 23, ?_⟩,
    ⟨mk (·.setLane 23 { bring := .settling 3 }), 23, 3, ?_⟩,
    ⟨mk (·.setLane 23 { bring := .rejoinOffer }), 23, ?_⟩,
    ⟨State.reset, 23, ?_⟩,
    ⟨mk (·.setLane 23 { bring := .dwelling 3 }), 23, 3, 256, false, ?_⟩,
    ⟨State.reset, 23, 0, false, ?_⟩,
    ⟨mk (·.setLane 23 { bring := .reporting 3 }), 23, 3, ?_⟩,
    ⟨State.reset, 23, ?_⟩,
    ⟨mk (·.setLane 23 { bring := .falling }), 23, ?_⟩,
    ⟨State.reset, 23, ?_⟩,
    ⟨mk (·.setLane 23 { bring := .offer true }), 23, true, ?_⟩,
    ⟨State.reset, 23, ?_⟩⟩
  · decide +kernel
  · decide +kernel
  · decide +kernel
  · exact ⟨by decide, fun r e => Bring.noConfusion (show Bring.none = Bring.stepping r from e)⟩
  · decide +kernel
  · decide +kernel
  · exact ⟨by decide, (fun r e => Bring.noConfusion (show Bring.none = Bring.settling r from e)), fun e => Bring.noConfusion (show Bring.none = Bring.rejoinOffer from e)⟩
  · decide +kernel
  · exact ⟨by decide, fun r e => Bring.noConfusion (show Bring.none = Bring.dwelling r from e)⟩
  · decide +kernel
  · exact ⟨by decide, fun r e => Bring.noConfusion (show Bring.none = Bring.reporting r from e)⟩
  · exact ⟨by decide, Or.inl (by decide +kernel)⟩
  · exact ⟨by decide, by decide +kernel, Or.inr fun r e => Bring.noConfusion (show Bring.none = Bring.reporting r from e)⟩
  · decide +kernel
  · exact ⟨by decide, fun r e => Bring.noConfusion (show Bring.none = Bring.offer r from e)⟩

/-- A state and operands that meet the hypotheses of Obligations.CapSetsAreJudgedAtTheirEnd, clause by clause. -/
theorem witness_CapSetsAreJudgedAtTheirEnd :
  (∃ (s : State) (n : Nat) (b : List Byte), (b.length ≠ 6 ∨ crc8 (b.take 5) ≠ (b.getD 5 0).toNat ∨ ¬ (s.dev.role n = 1 ∨ s.dev.role n = 2 ∨ s.dev.role n = 3))) ∧
  (∃ (s : State) (n : Nat) (b : List Byte), (n < 24) ∧ (b.length = 6) ∧ (crc8 (b.take 5) = (b.getD 5 0).toNat) ∧ (s.dev.role n = 1 ∨ s.dev.role n = 2 ∨ s.dev.role n = 3) ∧ (s.dev.aEnd n = true) ∧ (((b.getD 4 0).toNat % 4) = 0) ∧ ((s.dev.lane n).bring = .offer false)) ∧
  (∃ (s : State) (n : Nat) (b : List Byte), (n < 24) ∧ (b.length = 6) ∧ (crc8 (b.take 5) = (b.getD 5 0).toNat) ∧ (s.dev.role n = 1 ∨ s.dev.role n = 2 ∨ s.dev.role n = 3) ∧ (s.dev.aEnd n = true) ∧ (((b.getD 4 0).toNat % 4) = 0) ∧ ((s.dev.lane n).bring = .offer true) ∧ ((s.dev.lane n).hops0 = some ((b.getD 2 0).toNat))) ∧
  (∃ (s : State) (n : Nat) (b : List Byte), (n < 24) ∧ (b.length = 6) ∧ (crc8 (b.take 5) = (b.getD 5 0).toNat) ∧ (s.dev.role n = 1 ∨ s.dev.role n = 2 ∨ s.dev.role n = 3) ∧ (s.dev.aEnd n = true) ∧ (((b.getD 4 0).toNat % 4) = 0) ∧ ((s.dev.lane n).bring = .offer true) ∧ ((s.dev.lane n).hops0 ≠ some ((b.getD 2 0).toNat))) ∧
  (∃ (s : State) (n : Nat) (b : List Byte) (q : _), (n < 24) ∧ (b.length = 6) ∧ (crc8 (b.take 5) = (b.getD 5 0).toNat) ∧ (s.dev.role n = 1 ∨ s.dev.role n = 2 ∨ s.dev.role n = 3) ∧ (s.dev.aEnd n = true) ∧ (((b.getD 4 0).toNat % 4) = 2) ∧ ((s.dev.lane n).bring = .reporting q) ∧ (128 ≤ (b.getD 4 0).toNat) ∧ ((s.dev.lane n).hops0 = some ((b.getD 2 0).toNat))) ∧
  (∃ (s : State) (n : Nat) (b : List Byte) (q : _), (n < 24) ∧ (b.length = 6) ∧ (crc8 (b.take 5) = (b.getD 5 0).toNat) ∧ (s.dev.role n = 1 ∨ s.dev.role n = 2 ∨ s.dev.role n = 3) ∧ (s.dev.aEnd n = true) ∧ (((b.getD 4 0).toNat % 4) = 2) ∧ ((s.dev.lane n).bring = .reporting q) ∧ ((b.getD 4 0).toNat < 128 ∨ (s.dev.lane n).hops0 ≠ some ((b.getD 2 0).toNat))) ∧
  (∃ (s : State) (n : Nat) (b : List Byte), (n < 24) ∧ (b.length = 6) ∧ (crc8 (b.take 5) = (b.getD 5 0).toNat) ∧ (s.dev.role n = 1 ∨ s.dev.role n = 2 ∨ s.dev.role n = 3) ∧ (s.dev.aEnd n = true) ∧ ((((b.getD 4 0).toNat % 4) ≠ 0 ∨ ∀ f, (s.dev.lane n).bring ≠ .offer f)) ∧ ((((b.getD 4 0).toNat % 4) ≠ 2 ∨ ∀ q, (s.dev.lane n).bring ≠ .reporting q))) ∧
  (∃ (s : State) (n : Nat) (b : List Byte), (n < 24) ∧ (b.length = 6) ∧ (crc8 (b.take 5) = (b.getD 5 0).toNat) ∧ (s.dev.role n = 1 ∨ s.dev.role n = 2 ∨ s.dev.role n = 3) ∧ (s.dev.aEnd n = false) ∧ (((decide (s.dev.role n = 1) : Bool)) = true) ∧ ((b.getD 3 0).toNat / 16 ≠ s.dev.rd (F.LANE_CTRL_STR n))) ∧
  (∃ (s : State) (n : Nat) (b : List Byte), (n < 24) ∧ (b.length = 6) ∧ (crc8 (b.take 5) = (b.getD 5 0).toNat) ∧ (s.dev.role n = 1 ∨ s.dev.role n = 2 ∨ s.dev.role n = 3) ∧ (s.dev.aEnd n = false) ∧ (((decide (s.dev.role n = 1) : Bool)) = false ∨ (b.getD 3 0).toNat / 16 = s.dev.rd (F.LANE_CTRL_STR n)) ∧ ((s.dev.lane n).rejoin = true)) ∧
  (∃ (s : State) (n : Nat) (b : List Byte), (n < 24) ∧ (b.length = 6) ∧ (crc8 (b.take 5) = (b.getD 5 0).toNat) ∧ (s.dev.role n = 1 ∨ s.dev.role n = 2 ∨ s.dev.role n = 3) ∧ (s.dev.aEnd n = false) ∧ (((decide (s.dev.role n = 1) : Bool)) = false ∨ (b.getD 3 0).toNat / 16 = s.dev.rd (F.LANE_CTRL_STR n)) ∧ ((s.dev.lane n).rejoin = false)) := by
  refine ⟨⟨State.reset, 23, [], ?_⟩,
    ⟨mk (fun d => (fl [(F.LANE_CTRL_ROLE 23, 1)] d).setLane 23 { bring := .offer false }), 23, by8 [0xA1, 15, 3, 0, 0, crc8 (by8 [0xA1, 15, 3, 0, 0])], ?_⟩,
    ⟨mk (fun d => (fl [(F.LANE_CTRL_ROLE 23, 1)] d).setLane 23 { bring := .offer true, hops0 := some 3 }), 23, by8 [0xA1, 15, 3, 0, 0, crc8 (by8 [0xA1, 15, 3, 0, 0])], ?_⟩,
    ⟨mk (fun d => (fl [(F.LANE_CTRL_ROLE 23, 1)] d).setLane 23 { bring := .offer true }), 23, by8 [0xA1, 15, 3, 0, 0, crc8 (by8 [0xA1, 15, 3, 0, 0])], ?_⟩,
    ⟨mk (fun d => (fl [(F.LANE_CTRL_ROLE 23, 1)] d).setLane 23 { bring := .reporting 3, hops0 := some 3 }), 23, by8 [0xA1, 15, 3, 0, 130, crc8 (by8 [0xA1, 15, 3, 0, 130])], 3, ?_⟩,
    ⟨mk (fun d => (fl [(F.LANE_CTRL_ROLE 23, 1)] d).setLane 23 { bring := .reporting 3, hops0 := some 3 }), 23, by8 [0xA1, 15, 3, 0, 2, crc8 (by8 [0xA1, 15, 3, 0, 2])], 3, ?_⟩,
    ⟨mk (fun d => (fl [(F.LANE_CTRL_ROLE 23, 1)] d).setLane 23 { bring := .reporting 3 }), 23, by8 [0xA1, 15, 3, 0, 1, crc8 (by8 [0xA1, 15, 3, 0, 1])], ?_⟩,
    ⟨st [(F.LANE_CTRL_ROLE 23, 1), (F.LANE_CTRL_END 23, 1), (F.LANE_CTRL_STR 23, 15)], 23, by8 [0xA1, 15, 3, 0, 0, crc8 (by8 [0xA1, 15, 3, 0, 0])], ?_⟩,
    ⟨mk (fun d => (fl [(F.LANE_CTRL_ROLE 23, 1), (F.LANE_CTRL_END 23, 1), (F.LANE_CTRL_STR 23, 15)] d).setLane 23 { rejoin := true }), 23, by8 [0xA1, 15, 3, 240, 0, crc8 (by8 [0xA1, 15, 3, 240, 0])], ?_⟩,
    ⟨st [(F.LANE_CTRL_ROLE 23, 1), (F.LANE_CTRL_END 23, 1), (F.LANE_CTRL_STR 23, 15)], 23, by8 [0xA1, 15, 3, 240, 0, crc8 (by8 [0xA1, 15, 3, 240, 0])], ?_⟩⟩
  · decide +kernel
  · decide +kernel
  · decide +kernel
  · decide +kernel
  · decide +kernel
  · decide +kernel
  · exact ⟨by decide, by decide +kernel, by decide +kernel, by decide +kernel, by decide +kernel, Or.inl (by decide +kernel), Or.inl (by decide +kernel)⟩
  · decide +kernel
  · decide +kernel
  · decide +kernel

/-- A state and operands that meet the hypotheses of Obligations.RejoinTestsAndModules, clause by clause. -/
theorem witness_RejoinTestsAndModules :
  (∃ (s : State) (n errs : Nat) (lost : Bool), (n < 24) ∧ ((s.dev.inService n = false ∨ s.dev.rd (F.LANE_STAT_PHASE n) = 2 ∨ (s.dev.lane n).bring = .rejoinWait ∨ s.dev.rd (F.LANE_STAT_LOS n) = 1 ∨ s.dev.rd (F.LANE_STAT_LOL n) = 1))) ∧
  (∃ (s : State) (n errs : Nat) (lost : Bool), (n < 24) ∧ (¬ (s.dev.inService n = false ∨ s.dev.rd (F.LANE_STAT_PHASE n) = 2 ∨ (s.dev.lane n).bring = .rejoinWait ∨ s.dev.rd (F.LANE_STAT_LOS n) = 1 ∨ s.dev.rd (F.LANE_STAT_LOL n) = 1))) ∧
  (∃ (s : State) (n : Nat), ((s.dev.lane n).bring = .rejoinWait)) ∧
  (∃ (s : State) (n : Nat), ((s.dev.lane n).bring ≠ .rejoinWait)) ∧
  (∃ (s : State) (n b errs : Nat) (lost : Bool) (x : Wait), (n < 24) ∧ (s.dev.waits = [x]) ∧ (x.kind = .loopTest) ∧ (x.arg.head? = some n) ∧ (s.dev.running = false ∨ (∀ k, x.due = some k → (s.dev.frame.k - k).toNat < 2 ^ 31))) ∧
  (∃ (s : State) (n b errs : Nat) (lost : Bool) (x : Wait), (n < 24) ∧ (s.dev.waits = [x]) ∧ (x.kind = .loopTest) ∧ (x.arg.head? = some n) ∧ (s.dev.running = true) ∧ ((∃ k, x.due = some k ∧ 2 ^ 31 ≤ (s.dev.frame.k - k).toNat))) ∧
  (∃ (s : State) (p : Nat) (x : Wait), (s.dev.waits = [x]) ∧ (x.hdr.port = portNo p) ∧ (x.hdr.locket = false) ∧ (x.kind = .moduleRead ∨ (x.kind = .loopTest ∧ x.arg.getD 1 0 = 2))) ∧
  (∃ (s : State) (n : Nat) (b : Option (List Byte)), (n < 24) ∧ (3 ≤ (s.dev.rd (F.LANE_MOD_BUS n)) ∨ s.dev.rd (F.SYS_MOD_BUS_POLL (s.dev.rd (F.LANE_MOD_BUS n))) = 0)) ∧
  (∃ (s : State) (n : Nat) (b : Option (List Byte)), (n < 24) ∧ ((s.dev.rd (F.LANE_MOD_BUS n)) < 3) ∧ (s.dev.rd (F.SYS_MOD_BUS_POLL (s.dev.rd (F.LANE_MOD_BUS n))) ≠ 0)) ∧
  (∃ (s : State) (n : Nat) (b : List Byte), (n < 24) ∧ (s.dev.rd (F.LANE_MOD_BUS n) < 3) ∧ (s.dev.rd (F.SYS_MOD_BUS_POLL (s.dev.rd (F.LANE_MOD_BUS n))) ≠ 0)) ∧
  (∃ (s : State) (n seq turn : Nat), (n < 24) ∧ ((s.dev.running = true ∧ s.dev.rd F.SYS_FRM_STAT_WINDOW = 3 ∧ (s.dev.role n = 1 ∨ s.dev.role n = 2 ∨ s.dev.role n = 3) ∧ s.dev.rd (F.LANE_STAT_PHASE n) = 2 ∧ (s.dev.lane n).ttAt ≠ some s.dev.frame.k))) ∧
  (∃ (s : State) (n seq turn : Nat), (n < 24) ∧ (¬ (s.dev.running = true ∧ s.dev.rd F.SYS_FRM_STAT_WINDOW = 3 ∧ (s.dev.role n = 1 ∨ s.dev.role n = 2 ∨ s.dev.role n = 3) ∧ s.dev.rd (F.LANE_STAT_PHASE n) = 2 ∧ (s.dev.lane n).ttAt ≠ some s.dev.frame.k))) ∧
  (∃ (s : State) (n seq turn : Nat), (n < 24) ∧ (s.dev.role n = 1 ∨ s.dev.role n = 2 ∨ s.dev.role n = 3)) ∧
  (∃ (s : State) (n seq turn : Nat), (n < 24) ∧ (¬ (s.dev.role n = 1 ∨ s.dev.role n = 2 ∨ s.dev.role n = 3))) ∧
  (∃ (s : State) (n rtt seq turn : Nat), (n < 24) ∧ ((s.dev.lane n).ttSent = false ∨ (s.dev.lane n).ttSeq ≠ seq)) ∧
  (∃ (s : State) (n rtt seq turn : Nat), (n < 24) ∧ ((s.dev.lane n).ttSent = true) ∧ ((s.dev.lane n).ttSeq = seq)) := by
  refine ⟨⟨State.reset, 23, 0, false, ?_⟩,
    ⟨st [(F.LANE_CTRL_ROLE 23, 2), (F.TWN_CTRL_EN, 1), (F.LANE_STAT_PHASE 23, 3), (F.LANE_STAT_LOS 23, 0), (F.LANE_STAT_LOL 23, 0)], 23, 256, false, ?_⟩,
    ⟨mk (·.setLane 23 { bring := .rejoinWait }), 23, ?_⟩,
    ⟨State.reset, 23, ?_⟩,
    ⟨mk (fun d => { d with waits := [⟨.loopTest, hd, 0x0A01, none, [23, 2, 0, 0, 1], 0⟩] }), 23, 1, 0, false, ⟨.loopTest, hd, 0x0A01, none, [23, 2, 0, 0, 1], 0⟩, ?_⟩,
    ⟨mk (fun d => { fl [(F.SYS_FRM_CTRL_RUNNING, 1)] d with waits := [⟨.loopTest, hd, 0x0A01, some 1, [23, 2, 0, 0, 1], 0⟩] }), 23, 1, 0, false, ⟨.loopTest, hd, 0x0A01, some 1, [23, 2, 0, 0, 1], 0⟩, ?_⟩,
    ⟨mk (fun d => { d with waits := [⟨.loopTest, hn, 0x0A01, none, [23, 2, 0, 0, 1], 0⟩] }), 1, ⟨.loopTest, hn, 0x0A01, none, [23, 2, 0, 0, 1], 0⟩, ?_⟩,
    ⟨st [(F.SYS_MOD_BUS_POLL 2, 0)], 23, none, ?_⟩,
    ⟨st [(F.SYS_MOD_BUS_POLL 2, 1)], 23, none, ?_⟩,
    ⟨st [(F.SYS_MOD_BUS_POLL 2, 1)], 23, by8 [64, 1, 2, 3, 4, 5, 6, 7, 8, 9, 10, 0, 0, 0, 128], ?_⟩,
    ⟨st [(F.LANE_CTRL_ROLE 23, 3), (F.SYS_FRM_CTRL_RUNNING, 1), (F.SYS_FRM_STAT_WINDOW, 3), (F.LANE_STAT_PHASE 23, 2)], 23, 15, 1, ?_⟩,
    ⟨State.reset, 23, 15, 1, ?_⟩,
    ⟨st [(F.LANE_CTRL_ROLE 23, 3)], 23, 15, 1, ?_⟩,
    ⟨State.reset, 23, 15, 1, ?_⟩,
    ⟨State.reset, 23, 10, 1, 2, ?_⟩,
    ⟨mk (·.setLane 23 { ttSent := true, ttSeq := 15 }), 23, 10, 15, 2, ?_⟩⟩
  · decide +kernel
  · decide +kernel
  · decide +kernel
  · decide +kernel
  · exact ⟨by decide, by decide +kernel, by decide, by decide, Or.inl (by decide +kernel)⟩
  · exact ⟨by decide, by decide +kernel, by decide, by decide, by decide +kernel, ⟨1, by decide, by decide +kernel⟩⟩
  · decide +kernel
  · decide +kernel
  · decide +kernel
  · decide +kernel
  · decide +kernel
  · decide +kernel
  · decide +kernel
  · decide +kernel
  · decide +kernel
  · decide +kernel

/-- A state and operands that meet the hypotheses of Obligations.NetFramesReachEveryPortThatTakesThem, clause by clause. -/
theorem witness_NetFramesReachEveryPortThatTakesThem :
  (∃ (s : State) (n : Nat), (s.dev.role n = 4)) ∧
  (∃ (s : State) (n : Nat), (s.dev.role n ≠ 4)) ∧
  (∃ (s : State) (n : Nat) (b : List Byte) (ts : BitVec 64), (s.dev.netIndex n = none)) ∧
  (∃ (s : State) (n : Nat) (b : List Byte) (ts : BitVec 64), (b.length < 60 ∨ 1518 < b.length)) ∧
  (∃ (s : State) (n i : Nat) (b : List Byte) (ts : BitVec 64), (s.dev.netIndex n = some i) ∧ (60 ≤ b.length) ∧ (b.length ≤ 1518)) ∧
  (∃ (s : State) (n i : Nat) (ts : BitVec 64) (x : Wait) (b : List Byte) (h : Hdr) (tsreq : Bool), (s.dev.waits = [x]) ∧ (x.kind = .net) ∧ (x.hdr.port < 2) ∧ (s.dev.netIndex n = some i) ∧ ((s.dev.port x.hdr.port).netWait = some (i, b, h, tsreq))) := by
  refine ⟨⟨st [(F.LANE_CTRL_ROLE 23, 4)], 23, ?_⟩,
    ⟨State.reset, 23, ?_⟩,
    ⟨State.reset, 23, [], 0, ?_⟩,
    ⟨State.reset, 23, by8 (List.replicate 59 0), 0, ?_⟩,
    ⟨st [(F.LANE_CTRL_ROLE 23, 4)], 23, 0, by8 (List.replicate 60 0), 0, ?_⟩,
    ⟨mk (fun d => { (fl [(F.LANE_CTRL_ROLE 22, 4), (F.LANE_CTRL_ROLE 23, 4)] d).upPort 1 (fun q => { q with netWait := some (1, by8 (List.replicate 60 0), hn, true) }) with waits := [⟨.net, hn, 0x0B00, none, [], 0⟩] }), 23, 1, 0, ⟨.net, hn, 0x0B00, none, [], 0⟩, by8 (List.replicate 60 0), hn, true, ?_⟩⟩
  · decide +kernel
  · decide +kernel
  · decide +kernel
  · decide +kernel
  · decide +kernel
  · decide +kernel

/-- A state and operands that meet the hypotheses of Obligations.PulsesWrapsAndCapturesOfDeviceTime, clause by clause. -/
theorem witness_PulsesWrapsAndCapturesOfDeviceTime :
  (∃ (s : State), (s.dev.timStopped = true)) ∧
  (∃ (s : State), (s.dev.timStopped = false) ∧ (524032 ≤ s.dev.time.incI) ∧ (s.dev.time.incI ≤ 524543) ∧ (s.dev.time.incF < 2 ^ 32)) ∧
  (∃ (s : State) (n : Nat), (s.dev.timStopped = false) ∧ (524032 ≤ s.dev.time.incI) ∧ (s.dev.time.incI ≤ 524543) ∧ (s.dev.time.incF < 2 ^ 32) ∧ (n < 5) ∧ ((s.dev.out n).armed = false ∨ ((s.dev.rd (F.TIM_OUT_CTRL_MODE n)) ≠ 1 ∧ (s.dev.rd (F.TIM_OUT_CTRL_MODE n)) ≠ 2))) ∧
  (∃ (s : State) (n : Nat), (s.dev.timStopped = false) ∧ (524032 ≤ s.dev.time.incI) ∧ (s.dev.time.incI ≤ 524543) ∧ (s.dev.time.incF < 2 ^ 32) ∧ (n < 5) ∧ ((s.dev.out n).armed = true) ∧ ((s.dev.rd (F.TIM_OUT_CTRL_MODE n)) = 1 ∨ ((s.dev.rd (F.TIM_OUT_CTRL_MODE n)) = 2 ∧ 0 < (s.dev.out n).per))) ∧
  (∃ (s : State) (n : Nat), (s.dev.timStopped = false) ∧ (524032 ≤ s.dev.time.incI) ∧ (s.dev.time.incI ≤ 524543) ∧ (s.dev.time.incF < 2 ^ 32) ∧ (n < 5) ∧ ((s.dev.out n).active = false)) ∧
  (∃ (s : State) (n : Nat), (s.dev.timStopped = false) ∧ (524032 ≤ s.dev.time.incI) ∧ (s.dev.time.incI ≤ 524543) ∧ (s.dev.time.incF < 2 ^ 32) ∧ (n < 5) ∧ ((s.dev.out n).active = true)) ∧
  (∃ (s : State) (i : Nat) (rising : Bool) (t : BitVec 64) (stable : Nat), (i < 4) ∧ ((bitOf (s.dev.rd (F.TIM_CAP_CTRL_EDGE i)) (if rising then 0 else 1) && decide (8 * s.dev.rd (F.TIM_CAP_CTRL_FILT i) ≤ stable)) = false)) ∧
  (∃ (s : State) (i : Nat) (rising : Bool) (t : BitVec 64) (stable : Nat), (i < 4) ∧ ((bitOf (s.dev.rd (F.TIM_CAP_CTRL_EDGE i)) (if rising then 0 else 1) && decide (8 * s.dev.rd (F.TIM_CAP_CTRL_FILT i) ≤ stable)) = true) ∧ (s.dev.rd (F.TIM_CAP_CTRL_ACQ_TRIG i) = 0)) ∧
  (∃ (s : State) (i : Nat) (rising : Bool) (t : BitVec 64) (stable : Nat), (i < 4) ∧ ((bitOf (s.dev.rd (F.TIM_CAP_CTRL_EDGE i)) (if rising then 0 else 1) && decide (8 * s.dev.rd (F.TIM_CAP_CTRL_FILT i) ≤ stable)) = true) ∧ (s.dev.rd (F.TIM_CAP_CTRL_ACQ_TRIG i) = 1)) := by
  refine ⟨⟨st [(F.CLK_STAT_PSTATE, 2)], ?_⟩,
    ⟨State.reset, ?_⟩,
    ⟨State.reset, 4, ?_⟩,
    ⟨mk (fun d => (fl [(F.TIM_OUT_CTRL_MODE 4, 2)] d).setOut 4 { armed := true, per := 1048576 }), 4, ?_⟩,
    ⟨State.reset, 4, ?_⟩,
    ⟨mk (·.setOut 4 { active := true }), 4, ?_⟩,
    ⟨State.reset, 3, true, 5119, 0, ?_⟩,
    ⟨st [(F.TIM_CAP_CTRL_EDGE 3, 2), (F.TIM_CAP_CTRL_FILT 3, 255), (F.TIM_CAP_CTRL_ACQ_TRIG 3, 0)], 3, false, 5119, 2040, ?_⟩,
    ⟨st [(F.TIM_CAP_CTRL_EDGE 3, 1), (F.TIM_CAP_CTRL_ACQ_TRIG 3, 1)], 3, true, 5120, 2040, ?_⟩⟩
  · decide +kernel
  · decide +kernel
  · decide +kernel
  · decide +kernel
  · decide +kernel
  · decide +kernel
  · decide +kernel
  · decide +kernel
  · decide +kernel

/-- A state and operands that meet the hypotheses of Obligations.PassesBeginQueueAndEnd, clause by clause. -/
theorem witness_PassesBeginQueueAndEnd :
  (∃ (s : State) (c : Nat), (c < 4) ∧ (s.dev.rd (F.ADC_CTRL_MODE c) ≠ 2)) ∧
  (∃ (s : State) (c : Nat), (c < 4) ∧ (s.dev.rd (F.ADC_CTRL_MODE c) = 2) ∧ (s.dev.rd (F.ADC_STAT_REG_RUN c) = 0) ∧ (s.dev.rd (F.ADC_STAT_INJ_RUN c) = 0)) ∧
  (∃ (s : State) (c : Nat), (c < 4) ∧ (s.dev.rd (F.ADC_CTRL_MODE c) = 2) ∧ (s.dev.rd (F.ADC_STAT_REG_RUN c) = 1 ∨ s.dev.rd (F.ADC_STAT_INJ_RUN c) = 1) ∧ (s.dev.rd (F.ADC_STAT_REG_Q c) = 0)) ∧
  (∃ (s : State) (c : Nat), (c < 4) ∧ (s.dev.rd (F.ADC_CTRL_MODE c) = 2) ∧ (s.dev.rd (F.ADC_STAT_REG_RUN c) = 1 ∨ s.dev.rd (F.ADC_STAT_INJ_RUN c) = 1) ∧ (s.dev.rd (F.ADC_STAT_REG_Q c) = 1)) ∧
  (∃ (s : State) (c : Nat), (c < 4) ∧ (s.dev.rd (F.ADC_CTRL_INJLEN c) = 0)) ∧
  (∃ (s : State) (c : Nat), (c < 4) ∧ (s.dev.rd (F.ADC_CTRL_INJLEN c) ≠ 0) ∧ (s.dev.rd (F.ADC_STAT_INJ_RUN c) = 0)) ∧
  (∃ (s : State) (c : Nat), (c < 4) ∧ (s.dev.rd (F.ADC_CTRL_INJLEN c) ≠ 0) ∧ (s.dev.rd (F.ADC_STAT_INJ_RUN c) = 1) ∧ (s.dev.rd (F.ADC_STAT_INJ_Q c) = 0)) ∧
  (∃ (s : State) (c : Nat), (c < 4) ∧ (s.dev.rd (F.ADC_CTRL_INJLEN c) ≠ 0) ∧ (s.dev.rd (F.ADC_STAT_INJ_RUN c) = 1) ∧ (s.dev.rd (F.ADC_STAT_INJ_Q c) = 1)) ∧
  (∃ (s : State) (c : Nat), (c < 4) ∧ (s.dev.rd (F.ADC_STAT_REG_RUN c) = 1) ∧ (s.dev.rd (F.ADC_STAT_INJ_RUN c) = 0)) ∧
  (∃ (s : State) (c : Nat), (c < 4) ∧ (s.dev.rd (F.ADC_STAT_REG_RUN c) = 0 ∨ s.dev.rd (F.ADC_STAT_INJ_RUN c) = 1)) ∧
  (∃ (s : State) (c : Nat), (c < 4) ∧ (s.dev.rd (F.ADC_STAT_INJ_RUN c) = 0)) ∧
  (∃ (s : State) (c : Nat), (c < 4) ∧ (s.dev.rd (F.ADC_STAT_INJ_RUN c) = 1) ∧ (s.dev.rd (F.ADC_STAT_INJ_Q c) = 1) ∧ (s.dev.rd (F.ADC_CTRL_INJLEN c) ≠ 0)) ∧
  (∃ (s : State) (c : Nat), (c < 4) ∧ (s.dev.rd (F.ADC_STAT_INJ_RUN c) = 1) ∧ (s.dev.rd (F.ADC_STAT_INJ_Q c) = 0)) := by
  refine ⟨⟨State.reset, 3, ?_⟩,
    ⟨st [(F.ADC_CTRL_MODE 3, 2)], 3, ?_⟩,
    ⟨st [(F.ADC_CTRL_MODE 3, 2), (F.ADC_STAT_INJ_RUN 3, 1)], 3, ?_⟩,
    ⟨st [(F.ADC_CTRL_MODE 3, 2), (F.ADC_STAT_REG_RUN 3, 1), (F.ADC_STAT_REG_Q 3, 1)], 3, ?_⟩,
    ⟨State.reset, 3, ?_⟩,
    ⟨st [(F.ADC_CTRL_INJLEN 3, 7)], 3, ?_⟩,
    ⟨st [(F.ADC_CTRL_INJLEN 3, 7), (F.ADC_STAT_INJ_RUN 3, 1)], 3, ?_⟩,
    ⟨st [(F.ADC_CTRL_INJLEN 3, 7), (F.ADC_STAT_INJ_RUN 3, 1), (F.ADC_STAT_INJ_Q 3, 1)], 3, ?_⟩,
    ⟨st [(F.ADC_CTRL_MODE 3, 2), (F.ADC_STAT_REG_RUN 3, 1), (F.ADC_STAT_REG_Q 3, 1)], 3, ?_⟩,
    ⟨State.reset, 3, ?_⟩,
    ⟨State.reset, 3, ?_⟩,
    ⟨st [(F.ADC_CTRL_INJLEN 3, 7), (F.ADC_STAT_INJ_RUN 3, 1), (F.ADC_STAT_INJ_Q 3, 1)], 3, ?_⟩,
    ⟨st [(F.ADC_CTRL_INJLEN 3, 7), (F.ADC_STAT_INJ_RUN 3, 1)], 3, ?_⟩⟩
  · decide +kernel
  · decide +kernel
  · decide +kernel
  · decide +kernel
  · decide +kernel
  · decide +kernel
  · decide +kernel
  · decide +kernel
  · decide +kernel
  · decide +kernel
  · decide +kernel
  · decide +kernel
  · decide +kernel

/-- A state and operands that meet the hypotheses of Obligations.ResultsEnterTheirAccumulator, clause by clause. -/
theorem witness_ResultsEnterTheirAccumulator :
  (∃ (s : State) (p c k : Nat) (code : Int) (t : BitVec 64) (x : SlotCfg) (r : List SlotCfg), (c < 4) ∧ (p < 5) ∧ ((p = (if ((s.dev.running && decide ((t - s.dev.boundaryNow).toInt < 0) : Bool)) then (s.dev.seq c).wasPhys else s.dev.rd (F.ADC_STAT_PHYS c)))) ∧ (((s.dev.running && decide ((t - s.dev.boundaryNow).toInt < 0) : Bool)) = true) ∧ ((s.dev.seq c).was ≠ []) ∧ (k = (s.dev.seq c).wasPos) ∧ ((s.dev.seq c).was.drop k = x :: r)) ∧
  (∃ (s : State) (p c k : Nat) (code : Int) (t : BitVec 64) (x : SlotCfg) (r : List SlotCfg), (c < 4) ∧ (p < 5) ∧ ((p = (if ((s.dev.running && decide ((t - s.dev.boundaryNow).toInt < 0) : Bool)) then (s.dev.seq c).wasPhys else s.dev.rd (F.ADC_STAT_PHYS c)))) ∧ (s.dev.rd (F.ADC_STAT_INJ_RUN c) = 1) ∧ (k = (s.dev.seq c).ipos) ∧ ((s.dev.seq c).inj.drop k = x :: r)) ∧
  (∃ (s : State) (p c k : Nat) (code : Int) (t : BitVec 64) (x : SlotCfg) (r : List SlotCfg), (c < 4) ∧ (p < 5) ∧ (¬ (p = (if ((s.dev.running && decide ((t - s.dev.boundaryNow).toInt < 0) : Bool)) then (s.dev.seq c).wasPhys else s.dev.rd (F.ADC_STAT_PHYS c))))) ∧
  (∃ (s : State) (p c k : Nat) (code : Int) (t : BitVec 64) (x : SlotCfg) (r : List SlotCfg), (c < 4) ∧ (p < 5) ∧ ((((s.dev.running && decide ((t - s.dev.boundaryNow).toInt < 0) : Bool)) = true → (s.dev.seq c).was = [])) ∧ (s.dev.rd (F.ADC_STAT_REG_RUN c) = 0 ∨ k ≠ (s.dev.seq c).pos)) ∧
  (∃ (s : State) (p c k : Nat) (code : Int) (t : BitVec 64) (x : SlotCfg) (r : List SlotCfg), (c < 4) ∧ (p < 5) ∧ (s.dev.rd (F.ADC_STAT_INJ_RUN c) = 0 ∨ k ≠ (s.dev.seq c).ipos)) ∧
  (∃ (s : State) (a : Nat), (a < 128) ∧ (¬ (s.dev.running = true ∧ s.dev.rd F.SYS_FRM_STAT_WINDOW = 3 ∧ (s.dev.acc a).lnow = false ∧ s.dev.rd (F.ACC_CFG_LWIN a) ≠ 0 ∧ s.dev.rd (F.ACC_CFG_LWIN a) ≤ (s.dev.acc a).lfr + 1))) ∧
  (∃ (s : State) (a : Nat), (a < 128) ∧ ((s.dev.running = true ∧ s.dev.rd F.SYS_FRM_STAT_WINDOW = 3 ∧ (s.dev.acc a).lnow = false ∧ s.dev.rd (F.ACC_CFG_LWIN a) ≠ 0 ∧ s.dev.rd (F.ACC_CFG_LWIN a) ≤ (s.dev.acc a).lfr + 1))) := by
  refine ⟨⟨mk (fun d => (fl [(F.SYS_FRM_CTRL_RUNNING, 1)] d).setSeq 3 { was := [⟨0, 127, false⟩, ⟨1, 127, true⟩], wasPos := 1, wasPhys := 4 }), 4, 3, 1, 8192, 0xFFFFFFFFFFFFFFFF, ⟨1, 127, true⟩, [], ?_⟩,
    ⟨mk (fun d => (fl [(F.ADC_STAT_PHYS 3, 4), (F.ADC_STAT_INJ_RUN 3, 1)] d).setSeq 3 { inj := [⟨0, 127, false⟩, ⟨1, 127, true⟩], ipos := 1 }), 4, 3, 1, 8192, 0, ⟨1, 127, true⟩, [], ?_⟩,
    ⟨State.reset, 4, 3, 0, 0, 0, ⟨0, 0, false⟩, [], ?_⟩,
    ⟨State.reset, 4, 3, 0, 0, 0, ⟨0, 0, false⟩, [], ?_⟩,
    ⟨State.reset, 4, 3, 0, 0, 0, ⟨0, 0, false⟩, [], ?_⟩,
    ⟨State.reset, 127, ?_⟩,
    ⟨mk (fun d => (fl [(F.SYS_FRM_CTRL_RUNNING, 1), (F.SYS_FRM_STAT_WINDOW, 3), (F.ACC_CFG_LWIN 127, 3)] d).setAcc 127 { lfr := 2 }), 127, ?_⟩⟩
  · decide +kernel
  · decide +kernel
  · decide +kernel
  · decide +kernel
  · decide +kernel
  · decide +kernel
  · decide +kernel

/-- A state and operands that meet the hypotheses of Obligations.PlannedEventsHappenAtTheirInstant, clause by clause. -/
theorem witness_PlannedEventsHappenAtTheirInstant :
  (∃ (s : State) (t : Nat) (l r : List Ev) (e : Ev), (t < 64) ∧ (s.dev.noTrip = true) ∧ (s.dev.edge.plan = l ++ e :: r) ∧ ((∀ x ∈ l, ¬ (x.kind = .tbReload ∧ x.unit = t))) ∧ (e.kind = .tbReload) ∧ (e.unit = t) ∧ ((∀ x ∈ e.xfer, x.1 = (F.TB_PER t).key ∨ ∃ m < 4, x.1 = (F.TB_CMPX t m).key)) ∧ ((e.xfer.map (·.1)).Nodup)) ∧
  (∃ (s : State) (t : Nat), ((∀ x ∈ s.dev.edge.plan, ¬ (x.kind = .tbReload ∧ x.unit = t)))) ∧
  (∃ (s : State) (c : Nat) (l r : List Ev) (e : Ev), (c < 256) ∧ (s.dev.noTrip = true) ∧ (s.dev.edge.plan = l ++ e :: r) ∧ ((∀ x ∈ l, ¬ ((x.kind = .reload ∨ x.kind = .compare) ∧ x.unit = c))) ∧ (e.kind = .reload ∨ e.kind = .compare) ∧ (e.unit = c) ∧ ((∀ x ∈ e.xfer, x.1 = (F.CH_CMP c).key ∨ x.1 = (F.CH_PHS c).key)) ∧ ((e.xfer.map (·.1)).Nodup)) ∧
  (∃ (s : State) (c : Nat), ((∀ x ∈ s.dev.edge.plan, ¬ ((x.kind = .reload ∨ x.kind = .compare) ∧ x.unit = c)))) ∧
  (∃ (s : State) (t m : Nat) (l r : List Ev) (e : Ev), (t < 64) ∧ (m < 4) ∧ (s.dev.noTrip = true) ∧ (s.dev.edge.plan = l ++ e :: r) ∧ ((∀ x ∈ l, ¬ (x.kind = .cmpx m ∧ x.unit = t))) ∧ (e.kind = .cmpx m) ∧ (e.unit = t)) ∧
  (∃ (s : State) (t m : Nat), ((∀ x ∈ s.dev.edge.plan, ¬ (x.kind = .cmpx m ∧ x.unit = t)))) ∧
  (∃ (s : State) (k : Nat), (k < 16) ∧ (s.pending = []) ∧ (s.dev.noTrip = true) ∧ (s.dev.work = .tick) ∧ (s.dev.timStopped = false) ∧ (s.dev.rd F.CLK_START_STEP ≠ 1)) := by
  refine ⟨⟨mk (fun d => { d with edge := { d.edge with plan := [⟨0, .compare, 0, 0, [], false, false, 0⟩, ⟨7, .tbReload, 63, 0, [((F.TB_PER 63).key, 2), ((F.TB_CMPX 63 3).key, 5)], true, false, 0⟩] } }), 63, [⟨0, .compare, 0, 0, [], false, false, 0⟩], [], ⟨7, .tbReload, 63, 0, [((F.TB_PER 63).key, 2), ((F.TB_CMPX 63 3).key, 5)], true, false, 0⟩, ?_⟩,
    ⟨State.reset, 63, ?_⟩,
    ⟨mk (fun d => { d with edge := { d.edge with plan := [⟨7, .reload, 255, 1, [((F.CH_CMP 255).key, 2), ((F.CH_PHS 255).key, 5)], false, true, 0⟩] } }), 255, [], [], ⟨7, .reload, 255, 1, [((F.CH_CMP 255).key, 2), ((F.CH_PHS 255).key, 5)], false, true, 0⟩, ?_⟩,
    ⟨State.reset, 255, ?_⟩,
    ⟨mk (fun d => { d with edge := { d.edge with plan := [⟨7, .cmpx 3, 63, 0, [], false, false, 0⟩] } }), 63, 3, [], [], ⟨7, .cmpx 3, 63, 0, [], false, false, 0⟩, ?_⟩,
    ⟨State.reset, 63, 3, ?_⟩,
    ⟨mk (fl [(F.CLK_START_STEP, 8)]), 15, ?_⟩⟩
  · decide +kernel
  · decide +kernel
  · decide +kernel
  · decide +kernel
  · decide +kernel
  · decide +kernel
  · decide +kernel

/-- A state and operands that meet the hypotheses of Obligations.TripsDebugHaltsAndDenToggles, clause by clause. -/
theorem witness_TripsDebugHaltsAndDenToggles :
  (∃ (s : State) (x : TripIn) (c : Nat), (x.k < 16) ∧ (x.high ≠ s.dev.rdB (F.EDG_TRIP_POL x.k)) ∧ (s.dev.rd (F.EDG_TRIP_FILT x.k) ≤ x.counts) ∧ ((∀ p < 16, s.dev.rd (F.GSV_PAIR_DSAT_EN p) = 1 → s.dev.rd (F.GSV_PAIR_DSAT_TIN p) = x.k → s.dev.pairCh p ≠ some c)) ∧ (c < 256) ∧ ((s.dev.rd (F.CH_ROUTE_KIND c) = 1 ∧ s.dev.rd (F.CH_TRIP_TEN c) = 1 ∧ s.dev.rd (F.CH_TRIP_TIN c) = x.k ∧ (s.dev.ch c).run = true ∧ (s.dev.ch c).out = 1 ∧ (∀ t, (s.dev.ch c).lastTr = some t → s.dev.rd (F.CH_TRIP_BLANK c) * 163840 ≤ (s.dev.time.now - t).toNat))) ∧ ((s.dev.ch c).ended = false)) ∧
  (∃ (s : State) (x : TripIn) (c : Nat), (x.k < 16) ∧ (x.high ≠ s.dev.rdB (F.EDG_TRIP_POL x.k)) ∧ (s.dev.rd (F.EDG_TRIP_FILT x.k) ≤ x.counts) ∧ ((∀ p < 16, s.dev.rd (F.GSV_PAIR_DSAT_EN p) = 1 → s.dev.rd (F.GSV_PAIR_DSAT_TIN p) = x.k → s.dev.pairCh p ≠ some c)) ∧ (c < 256) ∧ (¬ (s.dev.rd (F.CH_ROUTE_KIND c) = 1 ∧ s.dev.rd (F.CH_TRIP_TEN c) = 1 ∧ s.dev.rd (F.CH_TRIP_TIN c) = x.k ∧ (s.dev.ch c).run = true ∧ (s.dev.ch c).out = 1 ∧ (∀ t, (s.dev.ch c).lastTr = some t → s.dev.rd (F.CH_TRIP_BLANK c) * 163840 ≤ (s.dev.time.now - t).toNat)))) ∧
  (∃ (s : State) (x : TripIn), (16 ≤ x.k)) ∧
  (∃ (s : State) (x : TripIn), (x.k < 16) ∧ (x.high ≠ s.dev.rdB (F.EDG_TRIP_POL x.k)) ∧ (x.counts < s.dev.rd (F.EDG_TRIP_FILT x.k))) ∧
  (∃ (s : State) (x : TripIn), (x.k < 16) ∧ (x.high = s.dev.rdB (F.EDG_TRIP_POL x.k))) ∧
  (∃ (s : State), (s.dev.rd F.SEC_DBG_DEBUG = 0)) ∧
  (∃ (s : State), (s.dev.rd F.SEC_DBG_DEBUG = 1)) ∧
  (∃ (s : State) (m : Nat), ((∀ n, tget none s.dev.edge.den m = some n → n ≤ max 2 (s.dev.rd F.GSV_DEN_LOW_FR)))) ∧
  (∃ (s : State) (m n : Nat), (m < 8) ∧ (tget none s.dev.edge.den m = some n) ∧ (max 2 (s.dev.rd F.GSV_DEN_LOW_FR) < n) ∧ (s.dev.noTrip = true)) := by
  refine ⟨⟨mk (fun d => (fl [(F.CH_ROUTE_KIND 255, 1), (F.CH_TRIP_TEN 255, 1), (F.CH_TRIP_TIN 255, 15)] d).setCh 255 { run := true, out := 1, lastTr := some (-163840 * 255) }), ⟨15, true, 65535⟩, 255, ?_⟩,
    ⟨State.reset, ⟨15, true, 65535⟩, 255, ?_⟩,
    ⟨State.reset, ⟨16, true, 0⟩, ?_⟩,
    ⟨st [(F.EDG_TRIP_FILT 15, 1)], ⟨15, true, 0⟩, ?_⟩,
    ⟨State.reset, ⟨15, false, 0⟩, ?_⟩,
    ⟨State.reset, ?_⟩,
    ⟨st [(F.SEC_DBG_DEBUG, 1)], ?_⟩,
    ⟨State.reset, 7, ?_⟩,
    ⟨mk (fun d => { d with edge := { d.edge with den := tput none [] 7 (some 65536) } }), 7, 65536, ?_⟩⟩
  · refine ⟨by decide, by decide +kernel, by decide +kernel, by decide +kernel, by decide, ⟨by decide +kernel, by decide +kernel, by decide +kernel, by decide +kernel, by decide +kernel, ?_⟩, by decide +kernel⟩
    intro t h
    have e : some (-163840 * 255 : BitVec 64) = some t := h
    cases e
    decide +kernel
  · exact ⟨by decide, by decide +kernel, by decide +kernel, by decide +kernel, by decide, fun h => absurd h.1 (by decide +kernel)⟩
  · decide +kernel
  · decide +kernel
  · decide +kernel
  · decide +kernel
  · decide +kernel
  · exact fun n e => by cases (show (none : Option Nat) = some n from e)
  · decide +kernel

/-- A state and operands that meet the hypotheses of Obligations.GateFaultsLatchTheirPair, clause by clause. -/
theorem witness_GateFaultsLatchTheirPair :
  (∃ (s : State) (k : Nat) (high : Bool), (k < 16) ∧ ((((high != (s.dev.rdB (F.GSV_PAIR_DFB_POL k))) = true) ∧ (s.dev.pair k).dfb = high ∧ (s.dev.pair k).stuck = false ∧ (s.dev.pair k).moved = false))) ∧
  (∃ (s : State) (k : Nat) (high : Bool), (k < 16) ∧ (¬ (((high != (s.dev.rdB (F.GSV_PAIR_DFB_POL k))) = true) ∧ (s.dev.pair k).dfb = high ∧ (s.dev.pair k).stuck = false ∧ (s.dev.pair k).moved = false)) ∧ (¬ ((high != (s.dev.rdB (F.GSV_PAIR_DFB_POL k))) = true) ∨ (s.dev.pair k).want = none ∨ s.dev.rd (F.GSV_PAIR_HS_EN k) = 1 ∨ s.dev.time.rt < (s.dev.pair k).due)) ∧
  (∃ (s : State) (k : Nat) (high : Bool) (hi : _), (k < 16) ∧ (¬ (((high != (s.dev.rdB (F.GSV_PAIR_DFB_POL k))) = true) ∧ (s.dev.pair k).dfb = high ∧ (s.dev.pair k).stuck = false ∧ (s.dev.pair k).moved = false)) ∧ (((high != (s.dev.rdB (F.GSV_PAIR_DFB_POL k))) = true)) ∧ ((s.dev.pair k).want = some hi) ∧ (s.dev.rd (F.GSV_PAIR_HS_EN k) = 0) ∧ ((s.dev.pair k).due ≤ s.dev.time.rt) ∧ ((s.dev.pair k).complement hi = false)) ∧
  (∃ (s : State) (k : Nat) (high : Bool) (hi : _), (k < 16) ∧ (¬ (((high != (s.dev.rdB (F.GSV_PAIR_DFB_POL k))) = true) ∧ (s.dev.pair k).dfb = high ∧ (s.dev.pair k).stuck = false ∧ (s.dev.pair k).moved = false)) ∧ (((high != (s.dev.rdB (F.GSV_PAIR_DFB_POL k))) = true)) ∧ ((s.dev.pair k).want = some hi) ∧ (s.dev.rd (F.GSV_PAIR_HS_EN k) = 0) ∧ ((s.dev.pair k).due ≤ s.dev.time.rt) ∧ ((s.dev.pair k).complement hi = true)) ∧
  (∃ (s : State) (k : Nat), (k < 16) ∧ (¬ ((s.dev.pair k).offAt.isSome = true ∧ s.dev.rd (F.GSV_PAIR_HS_EN k) = 1 ∧ s.dev.dfbOff k = false))) ∧
  (∃ (s : State) (k : Nat) (t : _), (k < 16) ∧ (((s.dev.pair k).offAt.isSome = true ∧ s.dev.rd (F.GSV_PAIR_HS_EN k) = 1 ∧ s.dev.dfbOff k = false)) ∧ ((s.dev.pair k).offAt = some t)) ∧
  (∃ (s : State) (k : Nat), (k < 16) ∧ (((s.dev.pair k).a || (s.dev.pair k).b) = false ∨ (s.dev.pair k).moved = true)) ∧
  (∃ (s : State) (k : Nat), (k < 16) ∧ (((s.dev.pair k).a || (s.dev.pair k).b) = true) ∧ ((s.dev.pair k).moved = false)) ∧
  (∃ (s : State) (m dmv us : Nat), (m < 16) ∧ (¬ (((s.dev.rd (F.GSV_GSM_KIND m)) = 1 ∨ (s.dev.rd (F.GSV_GSM_KIND m)) = 2) ∧ dmv < 12 * s.dev.rd (F.GSV_GSM_TH m) ∧ s.dev.rd (F.GSV_GSM_FILT m) ≤ us))) ∧
  (∃ (s : State) (m dmv us : Nat), (m < 16) ∧ (¬ (((s.dev.rd (F.GSV_GSM_KIND m)) = 1 ∨ (s.dev.rd (F.GSV_GSM_KIND m)) = 2) ∧ 12 * (s.dev.rd (F.GSV_GSM_TH m) + s.dev.rd (F.GSV_GSM_HYST m)) < dmv ∧ s.dev.rd (F.GSV_GSM_FILT m) ≤ us))) ∧
  (∃ (s : State) (m dmv us : Nat), (m < 16) ∧ ((((s.dev.rd (F.GSV_GSM_KIND m)) = 1 ∨ (s.dev.rd (F.GSV_GSM_KIND m)) = 2) ∧ dmv < 12 * s.dev.rd (F.GSV_GSM_TH m) ∧ s.dev.rd (F.GSV_GSM_FILT m) ≤ us))) ∧
  (∃ (s : State) (m dmv us : Nat), (m < 16) ∧ ((((s.dev.rd (F.GSV_GSM_KIND m)) = 1 ∨ (s.dev.rd (F.GSV_GSM_KIND m)) = 2) ∧ 12 * (s.dev.rd (F.GSV_GSM_TH m) + s.dev.rd (F.GSV_GSM_HYST m)) < dmv ∧ s.dev.rd (F.GSV_GSM_FILT m) ≤ us))) := by
  refine ⟨⟨State.reset, 15, true, ?_⟩,
    ⟨State.reset, 15, false, ?_⟩,
    ⟨mk (fun d => (fl [(F.GSV_PAIR_HS_EN 15, 0)] d).setPair 15 { want := some true, dfb := false }), 15, true, true, ?_⟩,
    ⟨mk (fun d => (fl [(F.GSV_PAIR_HS_EN 15, 0)] d).setPair 15 { want := some true, b := true, dfb := false }), 15, true, true, ?_⟩,
    ⟨State.reset, 15, ?_⟩,
    ⟨mk (fun d => (fl [(F.GSV_PAIR_HS_EN 15, 1)] d).setPair 15 { offAt := some 7, dfb := false }), 15, 7, ?_⟩,
    ⟨State.reset, 15, ?_⟩,
    ⟨mk (·.setPair 15 { b := true }), 15, ?_⟩,
    ⟨State.reset, 15, 0, 0, ?_⟩,
    ⟨State.reset, 15, 0, 0, ?_⟩,
    ⟨st [(F.GSV_GSM_KIND 15, 1), (F.GSV_GSM_TH 15, 1), (F.GSV_GSM_FILT 15, 4)], 15, 11, 4, ?_⟩,
    ⟨st [(F.GSV_GSM_KIND 15, 2), (F.GSV_GSM_TH 15, 1), (F.GSV_GSM_HYST 15, 1), (F.GSV_GSM_FILT 15, 4)], 15, 25, 4, ?_⟩⟩
  · decide +kernel
  · decide +kernel
  · decide +kernel
  · decide +kernel
  · decide +kernel
  · decide +kernel
  · decide +kernel
  · decide +kernel
  · decide +kernel
  · decide +kernel
  · decide +kernel
  · decide +kernel

/-- A state and operands that meet the hypotheses of Obligations.FramesPassThroughTheirWindows, clause by clause. -/
theorem witness_FramesPassThroughTheirWindows :
  (∃ (s : State), (s.dev.running = false)) ∧
  (∃ (s : State), (s.dev.rd F.SYS_FRM_STAT_WINDOW ≠ 0)) ∧
  (∃ (s : State), (s.dev.rd F.SYS_FRM_STAT_WINDOW ≠ 1)) ∧
  (∃ (s : State), (s.dev.rd F.SYS_FRM_STAT_WINDOW ≠ 2)) ∧
  (∃ (s : State), (s.dev.rd F.SYS_FRM_STAT_WINDOW ≠ 3)) ∧
  (∃ (s : State), (s.dev.running = true) ∧ (s.dev.rd F.SYS_FRM_STAT_WINDOW = 0)) ∧
  (∃ (s : State), (s.dev.running = true) ∧ (s.dev.rd F.SYS_FRM_STAT_WINDOW = 1)) ∧
  (∃ (s : State), (s.dev.running = true) ∧ (s.dev.rd F.SYS_FRM_STAT_WINDOW = 2) ∧ (s.dev.timStopped = false) ∧ (524032 ≤ s.dev.time.incI) ∧ (s.dev.time.incI ≤ 524543) ∧ (s.dev.time.incF < 2 ^ 32)) ∧
  (∃ (s : State), (s.dev.running = true) ∧ (s.dev.rd F.SYS_FRM_STAT_WINDOW = 3)) := by
  refine ⟨⟨State.reset, ?_⟩,
    ⟨st [(F.SYS_FRM_CTRL_RUNNING, 1), (F.SYS_FRM_STAT_WINDOW, 1)], ?_⟩,
    ⟨st [(F.SYS_FRM_CTRL_RUNNING, 1)], ?_⟩,
    ⟨st [(F.SYS_FRM_CTRL_RUNNING, 1)], ?_⟩,
    ⟨st [(F.SYS_FRM_CTRL_RUNNING, 1), (F.SYS_FRM_STAT_WINDOW, 2)], ?_⟩,
    ⟨st [(F.SYS_FRM_CTRL_RUNNING, 1)], ?_⟩,
    ⟨st [(F.SYS_FRM_CTRL_RUNNING, 1), (F.SYS_FRM_STAT_WINDOW, 1)], ?_⟩,
    ⟨mk (fun d => { fl [(F.SYS_FRM_CTRL_RUNNING, 1), (F.SYS_FRM_STAT_WINDOW, 2)] d with time := { d.time with incI := 524543, incF := 0xFFFFFFFF } }), ?_⟩,
    ⟨mk (fun d => { fl [(F.SYS_FRM_CTRL_RUNNING, 1), (F.SYS_FRM_STAT_WINDOW, 3)] d with frame := { d.frame with k := 0xFFFFFFFF, planned := true } }), ?_⟩⟩
  · decide +kernel
  · decide +kernel
  · decide +kernel
  · decide +kernel
  · decide +kernel
  · decide +kernel
  · decide +kernel
  · decide +kernel
  · decide +kernel

/-- A state and operands that meet the hypotheses of Obligations.FramesAreNumberedModulo65536, clause by clause. -/
theorem witness_FramesAreNumberedModulo65536 :
  (∃ (s : State), (s.dev.running = true) ∧ (s.dev.rd F.SYS_FRM_STAT_WINDOW = 3)) ∧
  (∃ (s : State), (s.dev.running = false) ∧ (s.dev.rd F.CLK_START_STEP = 6) ∧ (s.dev.linksUp = true)) ∧
  (∃ (d : Dev) (k1 : BitVec 32) (seq : Nat) (tgt : BitVec 64), (d.rd F.SYS_FRM_STAT_SEQ = d.frame.k.toNat % 65536)) ∧
  (∃ (p : Plan) (b pos : Nat) (r : Rec) (i : Nat) (e : Desc), (i < 16) ∧ (r.descs[i]? = some e) ∧ (e.off < 2 ^ 24) ∧ (e.sw < 16) ∧ (e.level < 4)) := by
  refine ⟨⟨mk (fun d => { fl [(F.SYS_FRM_CTRL_RUNNING, 1), (F.SYS_FRM_STAT_WINDOW, 3)] d with frame := { d.frame with k := 65535 } }), ?_⟩,
    ⟨st [(F.CLK_START_STEP, 6)], ?_⟩,
    ⟨(fl [(F.SYS_FRM_STAT_SEQ, 65535)] { frame := { k := 65535 } }), 65535, 7, 0, ?_⟩,
    ⟨⟨{}, {}, {}, false⟩, 95, 11, { c := ⟨false, false, false, 0, 0⟩, start := 0, descs := List.replicate 16 ⟨2 ^ 24 - 1, 15, 3, false, none⟩ }, 15, ⟨2 ^ 24 - 1, 15, 3, false, none⟩, ?_⟩⟩
  · decide +kernel
  · decide +kernel
  · decide +kernel
  · decide +kernel

/-- A state and operands that meet the hypotheses of Obligations.ValuesApplyAtTheirBoundary, clause by clause. -/
theorem witness_ValuesApplyAtTheirBoundary :
  (∃ (s : State), (s.dev.stageDue = false ∨ s.dev.boundaryNext = false)) ∧
  (∃ (s : State), (s.dev.stageDue = true) ∧ (s.dev.boundaryNext = true)) ∧
  (∃ (s : State), (s.dev.boundaryNext = false ∨ (∀ e ∈ s.dev.frm, ∀ x ∈ e.2, s.dev.dueBy x.2 = false))) ∧
  (∃ (s : State) (k : Nat) (v : Nat) (b : BitVec 32), (s.dev.boundaryNext = true) ∧ (twf [] s.dev.frm = true) ∧ (tget [] s.dev.frm k = [(v, b)]) ∧ (s.dev.dueBy b = true)) ∧
  (∃ (s : State), (s.vault.lockout = true ∨ s.dev.running = false ∨ s.dev.rd F.SYS_FRM_STAT_WINDOW ≠ 3 ∨ s.dev.waiting .arm = none)) ∧
  (∃ (s : State) (x : Wait), (s.dev.waiting .arm = some x) ∧ ((x.due = none ∨ ∃ b, x.due = some b ∧ 2 ^ 31 ≤ (s.dev.frame.k + 1 - b).toNat) ∨ (x.hdr.port < 2 ∧ (s.dev.rd F.EDG_STAT_QUIESCED = 0 ∨ s.dev.frame.safeRecs < 3)))) ∧
  (∃ (s : State) (x : Wait) (b : BitVec 32), (s.vault.lockout = false) ∧ (s.dev.running = true) ∧ (s.dev.rd F.SYS_FRM_STAT_WINDOW = 3) ∧ (s.dev.waiting .arm = some x) ∧ (x.due = some b) ∧ ((s.dev.frame.k + 1 - b).toNat < 2 ^ 31) ∧ (2 ≤ x.hdr.port ∨ (s.dev.rd F.EDG_STAT_QUIESCED = 1 ∧ 3 ≤ s.dev.frame.safeRecs))) ∧
  (∃ (s : State), (s.dev.waiting .softStart = none ∨ s.dev.running = false ∨ s.dev.rd F.SYS_FRM_STAT_WINDOW ≠ 3)) ∧
  (∃ (s : State) (x : Wait), (s.dev.waiting .softStart = some x) ∧ (x.due ≠ some (s.dev.frame.k + 1))) ∧
  (∃ (s : State) (x : Wait), (s.dev.waiting .softStart = some x) ∧ (x.due = some (s.dev.frame.k + 1)) ∧ (s.dev.running = true) ∧ (s.dev.rd F.SYS_FRM_STAT_WINDOW = 3)) ∧
  (∃ (s : State), (s.dev.rd F.LPE_COEF_SWAP_PEND = 0 ∨ s.dev.running = false ∨ s.dev.rd F.SYS_FRM_STAT_WINDOW ≠ 3)) ∧
  (∃ (s : State), (s.dev.rd F.LPE_COEF_SWAP_PEND = 1) ∧ (s.dev.running = true) ∧ (s.dev.rd F.SYS_FRM_STAT_WINDOW = 3)) ∧
  (∃ (s : State), (¬ ((s.dev.running = true ∧ s.dev.rd F.SYS_FRM_STAT_WINDOW = 3 ∧ s.dev.run = .softStarting ∧ s.dev.frame.autorun = true ∧ s.dev.lpe.rampDue = false ∧ s.dev.rampsDone = true : Prop)))) ∧
  (∃ (s : State), (((s.dev.running = true ∧ s.dev.rd F.SYS_FRM_STAT_WINDOW = 3 ∧ s.dev.run = .softStarting ∧ s.dev.frame.autorun = true ∧ s.dev.lpe.rampDue = false ∧ s.dev.rampsDone = true : Prop)))) := by
  refine ⟨⟨st [(F.SYS_FRM_CTRL_RUNNING, 1)], ?_⟩,
    ⟨mk (fun d => { d with stage := some ⟨0, some 1⟩ }), ?_⟩,
    ⟨st [(F.SYS_FRM_CTRL_RUNNING, 1)], ?_⟩,
    ⟨mk (fun d => { d with frm := tput [] [] F.LPE_CTRL_RUN.key [(1, 1)] }), F.LPE_CTRL_RUN.key, 1, 1, ?_⟩,
    ⟨State.reset, ?_⟩,
    ⟨mk (fun d => { d with waits := [{ kind := .arm, hdr := hd, op := 0x0300 }] }), { kind := .arm, hdr := hd, op := 0x0300 }, ?_⟩,
    ⟨mk (fun d => { fl [(F.SYS_FRM_CTRL_RUNNING, 1), (F.SYS_FRM_STAT_WINDOW, 3), (F.EDG_STAT_QUIESCED, 1)] d with frame := { d.frame with planned := true, safeRecs := 3 }, waits := [{ kind := .arm, hdr := hd, op := 0x0300, due := some 1 }] }), { kind := .arm, hdr := hd, op := 0x0300, due := some 1 }, 1, ?_⟩,
    ⟨State.reset, ?_⟩,
    ⟨mk (fun d => { d with waits := [{ kind := .softStart, hdr := hd, op := 0x0302, due := some 2 }] }), { kind := .softStart, hdr := hd, op := 0x0302, due := some 2 }, ?_⟩,
    ⟨mk (fun d => { fl [(F.SYS_FRM_CTRL_RUNNING, 1), (F.SYS_FRM_STAT_WINDOW, 3)] d with waits := [{ kind := .softStart, hdr := hd, op := 0x0302, due := some 1, arg := [1] }] }), { kind := .softStart, hdr := hd, op := 0x0302, due := some 1, arg := [1] }, ?_⟩,
    ⟨State.reset, ?_⟩,
    ⟨st [(F.SYS_FRM_CTRL_RUNNING, 1), (F.SYS_FRM_STAT_WINDOW, 3), (F.LPE_COEF_SWAP_PEND, 1)], ?_⟩,
    ⟨mk (fun d => { fl [(F.SYS_FRM_CTRL_RUNNING, 1), (F.SYS_FRM_STAT_WINDOW, 2)] d with run := .softStarting, frame := { d.frame with autorun := true } }), ?_⟩,
    ⟨mk (fun d => { fl [(F.SYS_FRM_CTRL_RUNNING, 1), (F.SYS_FRM_STAT_WINDOW, 3)] d with run := .softStarting, frame := { d.frame with autorun := true } }), ?_⟩⟩
  · decide +kernel
  · decide +kernel
  · decide +kernel
  · decide +kernel
  · decide +kernel
  · exact ⟨by decide +kernel, Or.inl (Or.inl rfl)⟩
  · decide +kernel
  · decide +kernel
  · decide +kernel
  · decide +kernel
  · decide +kernel
  · decide +kernel
  · decide +kernel
  · decide +kernel

/-- A state and operands that meet the hypotheses of Obligations.BeadServiceTimeoutsAndCommands, clause by clause. -/
theorem witness_BeadServiceTimeoutsAndCommands :
  (∃ (s : State) (b : Nat), (b < 96) ∧ (s.dev.planAhead = false ∨ (s.dev.bead b).kb = none ∨ s.dev.rd (F.BDT_STATE b) ≠ 4 ∨ (s.dev.bead b).nxt.isSome = true)) ∧
  (∃ (s : State) (b : Nat) (kb : _), (b < 96) ∧ ((s.dev.bead b).kb = some kb) ∧ (2 ^ 31 < ((s.dev.frame.k - kb).toNat + 1) ∨ ((s.dev.frame.k - kb).toNat + 1) < (max 1 (match s.dev.stringOf b with | some g => s.dev.rd (F.BSV_CTRL_BYP_TO g) | none => 32)) ∨ ((s.dev.bead b).got = true ∧ le (s.dev.bead b).last 2 1 = 5 ∧ ((s.dev.frame.k - kb).toNat + 1) ≤ (max 1 (match s.dev.stringOf b with | some g => s.dev.rd (F.BSV_CTRL_BYP_TO g) | none => 32))))) ∧
  (∃ (s : State) (b : Nat) (kb : _), (b < 96) ∧ ((s.dev.bead b).kb = some kb) ∧ (s.dev.planAhead = true) ∧ (s.dev.rd (F.BDT_STATE b) = 4) ∧ ((s.dev.bead b).nxt = none) ∧ ((max 1 (match s.dev.stringOf b with | some g => s.dev.rd (F.BSV_CTRL_BYP_TO g) | none => 32)) ≤ ((s.dev.frame.k - kb).toNat + 1)) ∧ (((s.dev.frame.k - kb).toNat + 1) ≤ 2 ^ 31) ∧ ((s.dev.bead b).got = false ∨ le (s.dev.bead b).last 2 1 ≠ 5 ∨ (max 1 (match s.dev.stringOf b with | some g => s.dev.rd (F.BSV_CTRL_BYP_TO g) | none => 32)) < ((s.dev.frame.k - kb).toNat + 1))) ∧
  (∃ (s : State), (s.dev.planAhead = false)) ∧
  (∃ (s : State) (x : Wait), (s.dev.planAhead = true) ∧ (((((s.wk.advanceTo (s.dev.inFrame s.dev.cmpEnd)).beadAuto).d).waits.filter fun y => y.kind = .bypass || y.kind = .retire || y.kind = .insert) = [x]) ∧ (x.hdr.port < 2) ∧ (x.bead < 96) ∧ (((((s.wk.advanceTo (s.dev.inFrame s.dev.cmpEnd)).beadAuto).d).bead (x.bead)).nxt = none)) ∧
  (∃ (s : State) (isPair : Bool) (i : Nat), (s.dev.edge.pc = none)) ∧
  (∃ (s : State) (p : PcRun) (i : Nat), (s.dev.edge.pc = some p) ∧ (p.frames ≤ s.dev.rd F.GSV_PC_MAXP)) ∧
  (∃ (s : State) (p : PcRun) (i : Nat), (s.dev.edge.pc = some p) ∧ (s.dev.rd F.GSV_PC_MAXP < p.frames) ∧ (i < 96) ∧ (i ∈ p.beads) ∧ (i ∉ p.failB) ∧ (s.dev.rd (F.GSV_BEAD_PC_DONE i) = 0)) ∧
  (∃ (s : State) (p : PcRun) (i : Nat), (s.dev.edge.pc = some p) ∧ (s.dev.rd F.GSV_PC_MAXP < p.frames) ∧ (i ∈ p.pairs) ∧ (s.dev.pairThrough p i = false) ∧ (s.dev.bootMonitor i = true)) ∧
  (∃ (s : State) (p : PcRun) (i : Nat), (s.dev.edge.pc = some p) ∧ ((p.beads.all (s.dev.beadThrough p) && p.pairs.all (s.dev.pairThrough p)) = false)) ∧
  (∃ (s : State) (p : PcRun) (i : Nat), (s.dev.edge.pc = some p) ∧ ((p.beads.all (s.dev.beadThrough p) && p.pairs.all (s.dev.pairThrough p)) = true)) := by
  refine ⟨⟨State.reset, 95, ?_⟩,
    ⟨mk (·.setBead 95 { kb := some 0xFFFFFFE2 }), 95, 0xFFFFFFE2, ?_⟩,
    ⟨mk (fun d => (fl [(F.SYS_FRM_CTRL_RUNNING, 1), (F.SYS_FRM_STAT_WINDOW, 1), (F.BDT_STATE 95, 4)] d).setBead 95 { kb := some 0xFFFFFFE1 }), 95, 0xFFFFFFE1, ?_⟩,
    ⟨State.reset, ?_⟩,
    ⟨mk (fun d => { fl [(F.SYS_FRM_CTRL_RUNNING, 1), (F.SYS_FRM_STAT_WINDOW, 1), (F.BDT_STATE 95, 3)] d with waits := [{ kind := .bypass, hdr := hd, op := 0x0400, arg := [95] }] }), { kind := .bypass, hdr := hd, op := 0x0400, arg := [95] }, ?_⟩,
    ⟨State.reset, true, 15, ?_⟩,
    ⟨mk (fun d => { fl [(F.GSV_PC_MAXP, 1)] d with edge := { d.edge with pc := some ⟨[95], [15], false, 1, 1, [], [], [], []⟩ } }), ⟨[95], [15], false, 1, 1, [], [], [], []⟩, 15, ?_⟩,
    ⟨mk (fun d => { fl [(F.GSV_PC_MAXP, 1)] d with edge := { d.edge with pc := some ⟨[95], [15], false, 1, 2, [], [], [], []⟩ } }), ⟨[95], [15], false, 1, 2, [], [], [], []⟩, 95, ?_⟩,
    ⟨mk (fun d => { fl [(F.GSV_PC_MAXP, 1), (F.GSV_GSM_KIND 15, 2), (F.GSV_GSM_PAIR 15, 15)] d with edge := { d.edge with pc := some ⟨[95], [15], false, 1, 2, [], [], [], []⟩ } }), ⟨[95], [15], false, 1, 2, [], [], [], []⟩, 15, ?_⟩,
    ⟨mk (fun d => { d with edge := { d.edge with pc := some ⟨[95], [15], false, 1, 1, [], [], [], []⟩ } }), ⟨[95], [15], false, 1, 1, [], [], [], []⟩, 0, ?_⟩,
    ⟨mk (fun d => { d with edge := { d.edge with pc := some ⟨[95], [15], false, 1, 1, [95], [15], [], []⟩ } }), ⟨[95], [15], false, 1, 1, [95], [15], [], []⟩, 0, ?_⟩⟩
  · decide +kernel
  · decide +kernel
  · decide +kernel
  · decide +kernel
  · decide +kernel
  · decide +kernel
  · decide +kernel
  · decide +kernel
  · decide +kernel
  · decide +kernel
  · decide +kernel

/-- A state and operands that meet the hypotheses of Obligations.SilentSensorsBreakAndHoldsEnd, clause by clause. -/
theorem witness_SilentSensorsBreakAndHoldsEnd :
  (∃ (st : State) (b s : Nat), (8 ≤ s ∨ 96 ≤ b ∨ st.dev.rd (F.BDT_STATE b) ≠ 3 ∨ st.dev.sensOn (b * 8 + s) = false ∨ st.dev.broken (b * 8 + s) = true ∨ (st.dev.frame.n - max (st.dev.sens (b * 8 + s)).lastN (st.dev.bead b).svcN) < st.dev.rd F.THM_SILENT_FR)) ∧
  (∃ (st : State) (b s : Nat), (s < 8) ∧ (b < 96) ∧ (st.dev.rd (F.BDT_STATE b) = 3) ∧ (st.dev.sensOn (b * 8 + s) = true) ∧ (st.dev.broken (b * 8 + s) = false) ∧ (st.dev.rd F.THM_SILENT_FR ≤ (st.dev.frame.n - max (st.dev.sens (b * 8 + s)).lastN (st.dev.bead b).svcN))) ∧
  (∃ (s : State) (b : Nat), (b < 96) ∧ ((s.dev.bead b).hold = none ∨ s.dev.rd (F.BTH_STAT_BROKEN b) ≠ 0)) ∧
  (∃ (s : State) (b : Nat) (t : _), (b < 96) ∧ ((s.dev.bead b).hold = some t) ∧ (s.dev.rd (F.BTH_STAT_BROKEN b) = 0)) := by
  refine ⟨⟨State.reset, 95, 8, ?_⟩,
    ⟨mk (fun d => { fl [(F.BDT_STATE 95, 3), (F.BTH_STAT_EN 95, 128), (F.THM_SILENT_FR, 4)] d with frame := { d.frame with n := 4 } }), 95, 7, ?_⟩,
    ⟨State.reset, 95, ?_⟩,
    ⟨mk (·.setBead 95 { hold := some 7 }), 95, 7, ?_⟩⟩
  · decide +kernel
  · decide +kernel
  · decide +kernel
  · decide +kernel

/-- A state and operands that meet the hypotheses of Obligations.ClustersAreCheckedAndMemoriesScrubbed, clause by clause. -/
theorem witness_ClustersAreCheckedAndMemoriesScrubbed :
  (∃ (s : State) (c : Nat) (flt : Option (Nat × Word)), (s.dev.lpe.active = false ∨ 6 ≤ c ∨ (s.dev.clRes c).isSome = true ∨ s.dev.partOf c = none)) ∧
  (∃ (s : State) (c p : Nat) (flt : Option (Nat × Word)), (s.dev.lpe.active = true) ∧ (c < 6) ∧ (s.dev.clRes c = none) ∧ (s.dev.partOf c = some p)) ∧
  (∃ (s : State), (s.dev.lpe.waking = false)) ∧
  (∃ (s : State), (s.dev.lpe.waking = true)) ∧
  (∃ (s : State) (addr errs : Nat), (errs = 0 ∨ (memKey addr = none ∧ (addr < 2 ^ 28 ∨ 6 * 2 ^ 28 ≤ addr)))) ∧
  (∃ (s : State) (addr errs : Nat), (memKey addr = none) ∧ (2 ^ 28 ≤ addr) ∧ (addr < 6 * 2 ^ 28) ∧ (0 < errs)) ∧
  (∃ (s : State) (addr errs : Nat) (k : _), (memKey addr = some k) ∧ (2 ≤ errs ∨ (errs = 1 ∧ tget false s.dev.lpe.bad k = true))) ∧
  (∃ (s : State) (addr errs : Nat) (k : _), (memKey addr = some k) ∧ (errs = 1) ∧ (tget false s.dev.lpe.bad k = false)) ∧
  (∃ (s : State) (row : Nat), (row ∉ s.dev.lpe.remapRdy)) ∧
  (∃ (s : State) (row : Nat), (row ∈ s.dev.lpe.remapRdy) ∧ (s.dev.rd F.LPE_ECC_SPARES_LEFT ≤ s.dev.lpe.remapNow.length)) ∧
  (∃ (s : State) (row : Nat), (row ∈ s.dev.lpe.remapRdy) ∧ (s.dev.lpe.remapNow.length < s.dev.rd F.LPE_ECC_SPARES_LEFT)) ∧
  (∃ (s : State) (row : Nat), ((rtSec (s.dev.rd F.LPE_ECC_WIN)) = 0 ∨ (s.dev.time.rt - tget 0 s.dev.lpe.rowsAt row) < (rtSec (s.dev.rd F.LPE_ECC_WIN)))) ∧
  (∃ (s : State) (row : Nat), (0 < (rtSec (s.dev.rd F.LPE_ECC_WIN))) ∧ ((rtSec (s.dev.rd F.LPE_ECC_WIN)) ≤ (s.dev.time.rt - tget 0 s.dev.lpe.rowsAt row))) := by
  refine ⟨⟨State.reset, 6, none, ?_⟩,
    ⟨mk (fun d => d.upLpe fun l => { l with active := true, npart := 1 }), 0, 0, none, ?_⟩,
    ⟨State.reset, ?_⟩,
    ⟨mk (fun d => d.upLpe fun l => { l with waking := true }), ?_⟩,
    ⟨State.reset, 0x60000000, 2, ?_⟩,
    ⟨State.reset, 0x5FFFFFFC, 1, ?_⟩,
    ⟨mk (fun d => d.upLpe fun l => { l with bad := tput false [] 327679 true }), 0x041FFFFC, 1, 327679, ?_⟩,
    ⟨State.reset, 0x0403FFFC, 1, 65535, ?_⟩,
    ⟨State.reset, 1023, ?_⟩,
    ⟨mk (fun d => (fl [(F.LPE_ECC_SPARES_LEFT, 0)] d).upLpe fun l => { l with remapRdy := [1023] }), 1023, ?_⟩,
    ⟨mk (fun d => (fl [(F.LPE_ECC_SPARES_LEFT, 1)] d).upLpe fun l => { l with remapRdy := [1023] }), 1023, ?_⟩,
    ⟨State.reset, 1023, ?_⟩,
    ⟨mk (fun d => { fl [(F.LPE_ECC_WIN, 1)] d with time := { d.time with rt := 64000000000 } }), 1023, ?_⟩⟩
  · decide +kernel
  · decide +kernel
  · decide +kernel
  · decide +kernel
  · decide +kernel
  · decide +kernel
  · decide +kernel
  · decide +kernel
  · decide +kernel
  · decide +kernel
  · decide +kernel
  · decide +kernel
  · decide +kernel

/-- A state and operands that meet the hypotheses of Obligations.PresenceSealAndDebugWindows, clause by clause. -/
theorem witness_PresenceSealAndDebugWindows :
  (∃ (s : State) (p : Nat), (p < 2) ∧ ((s.dev.port p).presEnd = none)) ∧
  (∃ (s : State) (p : Nat) (t : _), (p < 2) ∧ ((s.dev.port p).presEnd = some t)) ∧
  (∃ (s : State) (x : Bool), ((x == Config.sealBit (s.dev.aon).lfsr) = false) ∧ (2 ≤ (s.dev.aon).bad) ∧ ((s.dev.aon).broken = false)) ∧
  (∃ (s : State) (x : Bool), ((x == Config.sealBit (s.dev.aon).lfsr) = true) ∧ (255 ≤ (s.dev.aon).good) ∧ ((s.dev.aon).intact = false)) ∧
  (∃ (s : State) (x : Bool), (((x == Config.sealBit (s.dev.aon).lfsr) = true ∨ (s.dev.aon).bad < 2 ∨ (s.dev.aon).broken = true)) ∧ (((x == Config.sealBit (s.dev.aon).lfsr) = false ∨ (s.dev.aon).good < 255 ∨ (s.dev.aon).intact = true))) ∧
  (∃ (s : State), (s.dev.rd F.SEC_PRES_STAT_JUMPER = 0)) ∧
  (∃ (s : State), (s.dev.rd F.SEC_PRES_STAT_JUMPER = 1)) ∧
  (∃ (s : State), (s.dev.sec.dbgEnd = none)) ∧
  (∃ (s : State) (t : _), (s.dev.sec.dbgEnd = some t)) := by
  refine ⟨⟨State.reset, 1, ?_⟩,
    ⟨mk present, 1, 1, ?_⟩,
    ⟨mk (fun d => { d with aon := { d.aon with bad := 2 } }), !Config.sealBit 1, ?_⟩,
    ⟨mk (fun d => { d with aon := { d.aon with good := 255 } }), Config.sealBit 1, ?_⟩,
    ⟨mk (fun d => { d with aon := { d.aon with good := 254, bad := 1 } }), Config.sealBit 1, ?_⟩,
    ⟨State.reset, ?_⟩,
    ⟨st [(F.SEC_PRES_STAT_JUMPER, 1)], ?_⟩,
    ⟨State.reset, ?_⟩,
    ⟨mk (fun d => { d with sec := { d.sec with dbgEnd := some 7 } }), 7, ?_⟩⟩
  · decide +kernel
  · decide +kernel
  · exact ⟨by show ((!Config.sealBit 1) == Config.sealBit 1) = false; cases Config.sealBit 1 <;> rfl, by decide, rfl⟩
  · exact ⟨by show (Config.sealBit 1 == Config.sealBit 1) = true; cases Config.sealBit 1 <;> rfl, by decide, rfl⟩
  · exact ⟨Or.inr (Or.inl (by decide)), Or.inr (Or.inl (by decide))⟩
  · decide +kernel
  · decide +kernel
  · decide +kernel
  · decide +kernel

/-- A state and operands that meet the hypotheses of Obligations.TheCollectorRanksEscalatesAndReacts, clause by clause. -/
theorem witness_TheCollectorRanksEscalatesAndReacts :
  (∃ (d : Dev) (m : Msg), (m.inj = true ∨ (d.rd (F.FLT_CFG_ESC_N m.fs)) < 2 ∨ tget none d.flt.win m.fs = none)) ∧
  (∃ (d : Dev) (m : Msg), (m.inj = true)) ∧
  (∃ (d : Dev) (m : Msg) (w : _), (m.inj = false) ∧ (2 ≤ (d.rd (F.FLT_CFG_ESC_N m.fs))) ∧ (tget none d.flt.win m.fs = some w) ∧ (d.time.rt - w.start < (d.rd (F.FLT_CFG_ESC_W m.fs) * (if d.rd (F.FLT_CFG_ESC_U m.fs) = 1 then 1000 else 1)) * 64000000) ∧ ((d.rd (F.FLT_CFG_ESC_N m.fs)) ≤ 255)) ∧
  (∃ (d : Dev) (m : Msg) (w : _), (m.inj = false) ∧ (2 ≤ (d.rd (F.FLT_CFG_ESC_N m.fs))) ∧ (tget none d.flt.win m.fs = some w) ∧ ((d.rd (F.FLT_CFG_ESC_W m.fs) * (if d.rd (F.FLT_CFG_ESC_U m.fs) = 1 then 1000 else 1)) * 64000000 ≤ d.time.rt - w.start)) ∧
  (∃ (v : Vault) (d : Dev) (ms : List Msg), (((rankAll (classifyAll d ms).2).filter (·.react)).any (·.sev = 4) = true)) ∧
  (∃ (v : Vault) (d : Dev) (ms : List Msg), (((rankAll (classifyAll d ms).2).filter (·.react)).any (·.sev = 4) = false) ∧ (((rankAll (classifyAll d ms).2).filter (·.react)).any (·.sev = 3) = true)) ∧
  (∃ (v : Vault) (d : Dev) (ms : List Msg), (((rankAll (classifyAll d ms).2).filter (·.react)).any (·.sev = 4) = false) ∧ (((rankAll (classifyAll d ms).2).filter (·.react)).any (·.sev = 3) = false)) ∧
  (∃ (s : State) (v : Vault) (w : Wk) (f : Fld), (f.quiet = true)) := by
  refine ⟨⟨{}, { fs := 127, kind := 0, inst := 0, inj := true }, ?_⟩,
    ⟨{}, { fs := 127, kind := 0, inst := 0, inj := true }, ?_⟩,
    ⟨{ fl [(F.FLT_CFG_ESC_N 101, 2), (F.FLT_CFG_ESC_W 101, 1)] {} with flt := { win := tput none [] 101 (some ⟨0, 1⟩) } }, { fs := 101, kind := 0, inst := 0 }, ⟨0, 1⟩, ?_⟩,
    ⟨{ fl [(F.FLT_CFG_ESC_N 101, 2), (F.FLT_CFG_ESC_W 101, 1)] {} with flt := { win := tput none [] 101 (some ⟨0, 1⟩) }, time := { rt := 64000000 } }, { fs := 101, kind := 0, inst := 0 }, ⟨0, 1⟩, ?_⟩,
    ⟨{}, fl [(F.FLT_SEV 0, 4)] {}, [{ fs := 0, kind := 0, inst := 0 }], ?_⟩,
    ⟨{}, fl [(F.FLT_SEV 0, 3)] {}, [{ fs := 0, kind := 0, inst := 0 }], ?_⟩,
    ⟨{}, fl [(F.FLT_SEV 0, 2)] {}, [{ fs := 0, kind := 0, inst := 0 }], ?_⟩,
    ⟨State.reset, {}, State.reset.wk, F.SYS_LRET_EN, ?_⟩⟩
  · decide +kernel
  · decide +kernel
  · decide +kernel
  · decide +kernel
  · decide +kernel
  · decide +kernel
  · decide +kernel
  · decide +kernel

/-- A state and operands that meet the hypotheses of Obligations.MemoriesKeepTheirCanonicalForm, clause by clause. -/
theorem witness_MemoriesKeepTheirCanonicalForm :
  (∃ (s t : State) (c : Instr), (twf 0 s.vault.otp = true) ∧ (exec c s = .next t)) ∧
  (∃ (s t : State), (twf 0 s.vault.otp = true) ∧ (step s = .next t)) ∧
  (∃ (d : Dev) (a b v : Nat), (b ≠ a)) ∧
  (∃ (d : Dev) (a b v : Nat), (twf 0 d.lpe.mem = true)) ∧
  (∃ (d : Dev) (a b v : Nat), (twf 0 d.lpe.prog = true)) := by
  refine ⟨⟨State.reset, State.reset, .uplEnd, ?_⟩,
    ⟨State.reset, (match step State.reset with | .next t => t | _ => State.reset), ?_⟩,
    ⟨{}, 0, 1, 0, ?_⟩,
    ⟨{}, 0, 0, 0, ?_⟩,
    ⟨{}, 0, 0, 0, ?_⟩⟩
  · exact ⟨rfl, rfl⟩
  · exact ⟨rfl, rfl⟩
  · decide +kernel
  · decide +kernel
  · decide +kernel


/-! Clauses whose hypotheses stand inside another one. -/

/-- A regular result of the slot that a sequence stands at. -/
theorem witness_ResultsEnterTheirAccumulator_regular :
    let s := mk (fun d => (fl [(F.ADC_STAT_PHYS 3, 4), (F.ADC_STAT_REG_RUN 3, 1)] d).setSeq 3 { reg := [⟨0, 127, false⟩, ⟨1, 127, true⟩], pos := 1 })
    s.dev.rd (F.ADC_STAT_PHYS 3) = 4 ∧ s.dev.rd (F.ADC_STAT_REG_RUN 3) = 1 ∧ s.dev.rd (F.ADC_STAT_INJ_RUN 3) = 0 ∧ 1 = (s.dev.seq 3).pos ∧
      (s.dev.seq 3).reg.drop 1 = ⟨1, 127, true⟩ :: [] := by decide +kernel

/-- A boot that finds no valid image, from a state in which POR_N is not released yet. -/
theorem witness_ResetsKeepTheirDomains_recovery :
    let s := mk (fun d => { fl [(F.CLK_START_STEP, 0)] d with nv := { d.nv with bcbValid := true, tries := 3 } })
    s.dev.rd F.CLK_START_STEP ≠ 1 ∧ s.vault.bootCheck = none ∧ s.dev.sec.sess = none ∧ s.dev.nv.tries = 3 ∧ s.vault.slotValid (s.dev.nv.slot 1) = false := by decide +kernel

/-- A frame in its compute window, bead 95 in a state, and one command waiting. -/
def waitsAct (l : List (Fld × Nat)) (x : BeadSt) (c : Wait) : State :=
  mk (fun d => { (fl ((F.SYS_FRM_CTRL_RUNNING, 1) :: (F.SYS_FRM_STAT_WINDOW, 1) :: l) d).setBead 95 x with waits := [c] })
/-- The device as bead service's own part of the plan instant leaves it. -/
def acted (s : State) : Dev := ((s.wk.advanceTo (s.dev.inFrame s.dev.cmpEnd)).beadAuto).d
/-- A waiting command of bead service. -/
def beadCmd (k : WaitKind) (arg : List Nat) : Wait := { kind := k, hdr := hd, op := 0x0400, arg := arg }
/-- What the clauses about waiting bead commands look at. -/
def cmdView (s : State) : Bool × Bool × Nat × Option Nat × Bool × Bool :=
  let a := acted s
  (s.dev.planAhead, decide ((a.waits.filter fun y => y.kind = .bypass || y.kind = .retire || y.kind = .insert).length = 1),
    a.rd (F.BDT_STATE 95), (a.bead 95).nxt, a.safe, a.insertOk 95)

/-- The cases of a waiting bead command. -/
theorem witness_BeadServiceTimeoutsAndCommands_cases :
    [waitsAct [(F.BDT_STATE 95, 3)] {} (beadCmd .bypass [95]),
      waitsAct [(F.BDT_STATE 95, 2)] {} (beadCmd .bypass [95]),
      waitsAct [(F.BDT_STATE 95, 5)] {} (beadCmd .retire [95, 0]),
      waitsAct [(F.BDT_STATE 95, 3)] {} (beadCmd .retire [95, 1]),
      waitsAct [(F.BDT_STATE 95, 5)] {} (beadCmd .insert [95]),
      waitsAct [(F.EDG_STAT_QUIESCED, 0), (F.BDT_STATE 95, 5)] {} (beadCmd .insert [95]),
      waitsAct [(F.EDG_STAT_QUIESCED, 0), (F.BDT_STATE 95, 5), (F.BDT_STATE_STRING 95, 5), (F.BSV_CTRL_EN 5, 1), (F.GSV_BEAD_HELD 95, 63)] { seen0 := [1, 2] }
        (beadCmd .insert [95])].map cmdView =
    [(true, true, 3, none, true, false), (true, true, 2, none, true, false), (true, true, 5, none, true, false), (true, true, 3, none, true, false),
      (true, true, 5, none, true, false), (true, true, 5, none, false, false), (true, true, 5, none, false, true)] := by decide +kernel

/-! Ill-formed commands: an operand that names no unit of the device. -/

theorem test_no_third_port : (Instr.statusRead 2).wf = false := by decide
theorem test_no_packet_of_a_third_port : (Instr.nop ⟨2, false, 0, 0, 0, false⟩ []).wf = false := by decide
theorem test_no_17th_ring : (Instr.nop ⟨0, false, 16, 0, 0, false⟩ []).wf = false := by decide
theorem test_no_fifth_locket : (Instr.nop ⟨0, true, 4, 0, 0, false⟩ []).wf = false := by decide
theorem test_no_fifth_priority : (Instr.nop ⟨0, false, 0, 0, 4, false⟩ []).wf = false := by decide
theorem test_no_65536_words (ps : List Word) (h : ps.length = 65536) : (Instr.nop hd ps).wf = false := by simp [Instr.wf, packetWf, h]
theorem test_no_25th_lane : (Instr.linkBringUp 24).wf = false := by decide
theorem test_no_97th_bead : (Instr.bypassTimeout 96).wf = false := by decide
theorem test_no_ninth_sensor : (Instr.sensorSilentTimeout 95 8).wf = false := by decide
theorem test_no_257th_channel : (Instr.channelTransition 256).wf = false := by decide
theorem test_no_65th_timebase : (Instr.timebaseReload 64).wf = false := by decide
theorem test_no_fifth_extra_compare : (Instr.cmpxFire 63 4).wf = false := by decide
theorem test_no_17th_pair : (Instr.gateDesat [⟨16, true, 0⟩]).wf = false := by decide
theorem test_no_ninth_den : (Instr.denToggleEnd 8).wf = false := by decide
theorem test_no_seventh_cluster : (Instr.partitionComplete 6 none).wf = false := by decide
theorem test_no_129th_accumulator : (Instr.longWindowClose 128).wf = false := by decide
theorem test_no_fifth_sequence : (Instr.acqPassEnd 4 true).wf = false := by decide
theorem test_no_sixth_converter : (Instr.adcResult 5 (.reg 0 0) ⟨0, 0⟩).wf = false := by decide
theorem test_no_33rd_slot : (Instr.adcResult 0 (.reg 3 32) ⟨0, 0⟩).wf = false := by decide
theorem test_no_ninth_urgent_slot : (Instr.adcResult 0 (.inj 3 8) ⟨0, 0⟩).wf = false := by decide
theorem test_no_fourth_third : (Instr.adcResult 0 (.ref 3) ⟨0, 0⟩).wf = false := by decide
theorem test_no_17th_strand : (Instr.uplinkRecordReceive ⟨[], false⟩ 16 false).wf = false := by decide
theorem test_no_97th_charge : (Instr.prechargeLimit false 96).wf = false ∧ (Instr.prechargeLimit true 16).wf = false := by decide
theorem test_no_29th_count : (Instr.housekeepingRound (List.replicate 29 none) []).wf = false := by decide
theorem test_no_ninth_rail : (Instr.housekeepingRound [] [(8, false)]).wf = false := by decide
theorem test_no_sixth_output : (Instr.pulseOutFire 5).wf = false ∧ (Instr.timOutWidthWrite 0 5 8).wf = false := by decide
theorem test_no_short_page : (Instr.modulePoll 0 (some [0])).wf = false := by decide
theorem test_no_row_1024 : (Instr.bistComplete 0 [1024]).wf = false ∧ (Instr.lpeRowRemap 1024).wf = false := by decide
theorem test_no_sensor_beyond_the_mask : (Instr.thmBrokenWrite 0 true 1 1).wf = false ∧ (Instr.thmBrokenWrite 0 false 95 256).wf = false := by decide
theorem test_no_33rd_clasp : (Instr.claspWrite 0 32 0).wf = false := by decide
theorem test_no_sixth_wake_source : (Instr.wakeEvent 5).wf = false := by decide
theorem test_no_device_8 : (Instr.resetNRelease 8 false).wf = false := by decide
theorem test_boundary_operands : (Instr.nop hk (List.replicate 256 0)).wf = true ∧ (Instr.linkBringUp 23).wf = true ∧ (Instr.bypassTimeout 95).wf = true
    ∧ (Instr.cmpxFire 63 3).wf = true ∧ (Instr.adcResult 4 (.inj 3 7) ⟨8191, 0⟩).wf = true := by decide +kernel

/-! Single steps. -/

/-- What a command answers, for a test. -/
def after (c : Instr) (s : State) : State := match exec c s with | .next t => t | _ => s

/-- The check values of the three CRCs over the digits 1 to 9: CRC-32C, CRC-32 and CRC-8 with the polynomials the manual names. -/
theorem test_crc_check_values :
    crc32c (by8 [49, 50, 51, 52, 53, 54, 55, 56, 57]) = 0xE3069283 ∧ crc32 (by8 [49, 50, 51, 52, 53, 54, 55, 56, 57]) = 0xCBF43926
      ∧ crc8 (by8 [49, 50, 51, 52, 53, 54, 55, 56, 57]) = 0xF4 := by decide +kernel
/-- Table 2-1 and R38: the increment is 2^19 tu after reset. -/
theorem test_increment_after_reset : State.reset.dev.rd F.TIM_INC_INT = 524288 := by decide +kernel
/-- R38: 524,031 is out of range; 524,032 is taken. -/
theorem test_increment_limits :
    (after (.timIncIntWrite 0 524031) (st [])).dev.rd F.TIM_STAT_INC_REJ = 1 ∧ (after (.timIncIntWrite 0 524031) (st [])).dev.time.incI = 524288
      ∧ (after (.timIncIntWrite 0 524032) (st [])).dev.time.incI = 524032 := by decide +kernel
/-- R52: a width of 7 ns is refused in MODE once. -/
theorem test_width_refused :
    (after (.timOutWidthWrite 0 4 7) (st [(F.TIM_OUT_CTRL_MODE 4, 1), (F.TIM_OUT_WIDTH 4, 8)])).dev.rd (F.TIM_OUT_CTRL_REJ 4) = 1
      ∧ (after (.timOutWidthWrite 0 4 7) (st [(F.TIM_OUT_CTRL_MODE 4, 1), (F.TIM_OUT_WIDTH 4, 8)])).dev.rd (F.TIM_OUT_WIDTH 4) = 8 := by decide +kernel
/-- R416: a live port takes a free clasp; R418: it cannot take the other port's. -/
theorem test_clasp :
    (after (.claspWrite 1 4 2) (st [(F.HST_PSTAT_KA 1, 1)])).dev.rd (F.HST_CLASP_OWNER 4) = 2
      ∧ (after (.claspWrite 1 4 2) (st [(F.HST_PSTAT_KA 1, 1), (F.HST_CLASP_OWNER 4, 1)])).dev.rd (F.HST_CLASP_OWNER 4) = 1 := by decide +kernel
/-- R469: the first half of a guarded pair changes nothing; R470: its complement applies the value. -/
theorem test_guarded_pair :
    let s := after (.guardFirstHalf 0 0x9200 4) State.reset
    s.dev.rd (F.FLT_SEV 0) = State.reset.dev.rd (F.FLT_SEV 0) ∧ (after (.guardComplement 0 0x109200 0xFFFFFFFB) s).dev.rd (F.FLT_SEV 0) = 4 := by decide +kernel
set_option maxRecDepth 100000 in
/-- R17: the index after 65,535 shows as 0. -/
theorem test_frame_index_wraps :
    (after .frameBoundary (mk fun d => { fl [(F.SYS_FRM_CTRL_RUNNING, 1), (F.SYS_FRM_STAT_WINDOW, 3), (F.SYS_FRM_STAT_SEQ, 65535)] d with frame := { d.frame with k := 65535 } })).dev.rd F.SYS_FRM_STAT_SEQ = 0 := by
  decide +kernel
/-- R45: a wrap of device time counts the epoch and raises TIM_WRAP. -/
theorem test_wrap : (after .timWrap (mk fun d => { d with time := { d.time with now := 0xFFFFFFFFFFFFFFFF } })).dev.rd F.TIM_EPOCH = 1
    ∧ (tget none (after .timWrap (mk fun d => { d with time := { d.time with now := 0xFFFFFFFFFFFFFFFF } })).dev.flt.last 97).isSome = true := by decide +kernel
/-- R153: a loss of the edge clock is the safe state and raises EDGE_CLK_LOST. -/
theorem test_edge_clk_lost : (after .edgeClkLost State.reset).dev.rd F.EDG_STAT_QUIESCED = 1 ∧ (tget none (after .edgeClkLost State.reset).dev.flt.last 3).isSome = true := by
  decide +kernel
/-- "Update timing, worked": with MINT 1 µs, PWM_A goes inactive at the compare and PWM_B waits 1 µs (64,000 units of
15.625 ps); at the edge at which that has passed it turns on. -/
theorem test_minimum_time :
    ((after (.channelTransition 192) (mk fun d => { (fl [(F.EDG_STAT_SAFE, 0), (F.CH_ROUTE_KIND 192, 1), (F.CH_CTRL_EN 192, 1), (F.CH_MINT 192, 12800)] d).setPair 0 { a := true } with
      edge := { (d.setPair 0 { a := true }).edge with plan := [⟨0, .compare, 192, 0, [], false, false, 0⟩] } })).dev.pair 0) = { want := some false, due := 64000 }
    ∧ (((mk fun d => d.setPair 0 { want := some false, due := 64000 }).wk.edges 125).d.pair 0).b = true
    ∧ (((mk fun d => d.setPair 0 { want := some false, due := 64000 }).wk.edges 124).d.pair 0).b = false := by decide +kernel
/-- R391: the power-on of VDD_CORE clears the lockout and remembers it. -/
theorem test_lockout_remembered : (after .corePowerOn ⟨{}, { lockout := true }, []⟩).vault = { lockout := false, prevLockout := true } := by decide +kernel
/-- R411, R431: the block serves the packet of a locket by itself, once its reply can be placed. -/
theorem test_next_packet :
    let x : Pkt := ⟨0x0000, ⟨0, true, 3, 0, 3, false⟩, [1]⟩
    (mk fun d => { d with hpa := { taken := tput none [] 3 (some x) } }).dev.nextPkt = some x ∧ (mk fun d => { d with hpa := { taken := tput none [] 3 (some x), outb := tput [] [] 3 [1] } }).dev.nextPkt = none := by
  decide +kernel
/-- R424: a notification carries its number and fills its mailbox. -/
theorem test_notification : ((after (.notificationDeliver 0 0) (mk fun d => d.upPort 0 fun q => { q with notes := tput {} [] 0 { q := [⟨8, 0, [5]⟩] } })).dev.port 0 |>.box 0).full = true := by
  decide +kernel

end Sys2Proof.Tests
end

/-! What a read by a port leaves alone (R407, R408, R478), and the commands of group 0x01 (R434 to R436). -/
namespace Sys2Proof.Machine

/-! ## Fields that no read writes -/

/-- A field that no side effect of a read writes: all but the levels of the TRIP inputs (entry 9), the read positions of the
logs (R478) and FULL of the received stack mail (R371). -/
structure Fld.ReadFree (f : Fld) : Prop where
  trip : ∀ k, f.key ≠ (F.EDG_TRIP_LEVEL k).key
  logrd : ∀ aon, f.key ≠ (logRd aon).key
  mail : f.key ≠ F.STK_MRX_STAT_FULL.key

/-- The two fields whose changes are notified (R424). -/
theorem Fld.readFree_stkRole : F.STK_STAT_ROLE.ReadFree :=
  ⟨fun k => by simp only [Fld.key, F.STK_STAT_ROLE, F.EDG_TRIP_LEVEL]; omega, by decide, by decide⟩

theorem Fld.readFree_twnState : F.TWN_STAT_STATE.ReadFree :=
  ⟨fun k => by simp only [Fld.key, F.TWN_STAT_STATE, F.EDG_TRIP_LEVEL]; omega, by decide, by decide⟩

section
variable {f : Fld} (hf : f.ReadFree)
include hf

theorem Dev.wideDone_rd (d : Dev) (sel : Nat) (ws : List Nat) : (d.wideDone sel ws).rd f = d.rd f := by
  unfold Dev.wideDone
  dsimp only
  split
  case isTrue => split <;> rfl
  case isFalse =>
    split
    · exact Dev.wr_rd_ne d _ (hf.logrd _)
    · rfl

theorem Dev.wideEnd_rd (d : Dev) (p : Nat) : (d.wideEnd p).rd f = d.rd f := by
  unfold Dev.wideEnd
  dsimp only
  split
  · rfl
  · split
    · exact Dev.upPort_rd d p _ f
    · exact (Dev.wideDone_rd hf _ _ _).trans (Dev.upPort_rd d p _ f)

theorem Dev.mrxRead_rd (d : Dev) (i : Nat) : (d.mrxRead i).rd f = d.rd f := by
  unfold Dev.mrxRead
  split
  · exact Dev.wr_rd_ne d _ hf.mail
  · rfl

end

/-! ## What reading can do to the work -/

/-- Reading sends no message and leaves the protected part and every field that no read writes. -/
structure Wk.ReadsTo (w w' : Wk) : Prop where
  v : w'.v = w.v
  ms : w'.ms = w.ms
  rd : ∀ f : Fld, f.ReadFree → w'.d.rd f = w.d.rd f

theorem Wk.ReadsTo.refl (w : Wk) : w.ReadsTo w := ⟨rfl, rfl, fun _ _ => rfl⟩

theorem Wk.ReadsTo.trans {a b c : Wk} (h : a.ReadsTo b) (g : b.ReadsTo c) : a.ReadsTo c :=
  ⟨g.v.trans h.v, g.ms.trans h.ms, fun f hf => (g.rd f hf).trans (h.rd f hf)⟩

theorem Wk.ReadsTo.up {w : Wk} (g : Dev → Dev) (h : ∀ f : Fld, f.ReadFree → (g w.d).rd f = w.d.rd f) : w.ReadsTo (w.up g) := ⟨rfl, rfl, h⟩

theorem Wk.readsTo_tripHeld (w : Wk) (k : Nat) : w.ReadsTo (w.tripHeld k).1 := by
  simp only [Wk.tripHeld, apply_ite Prod.fst]
  split
  · exact .refl w
  · refine .up _ fun f hf => ?_
    split
    · rfl
    · exact Dev.wr_rd_ne w.d.fresh _ (hf.trip k)

theorem Wk.readsTo_inputRead (w : Wk) (x : Nat) : w.ReadsTo (w.inputRead x) := by
  unfold Wk.inputRead
  split
  · exact .up _ fun _ _ => rfl
  · split
    · exact w.readsTo_tripHeld _
    · exact .refl w

/-- A read has the side effects of R407 at most: an input's level, the port's own WIDE3, or received stack mail. -/
theorem Wk.readsTo_readWord (w : Wk) (p a : Nat) (active : Bool) : w.ReadsTo (w.readWord p a active).1 := by
  have input : w.ReadsTo (if a < 0x100000 then w.inputRead (canon a) else
      if 0x2000000 ≤ a ∧ a < 0x4000000 then w.inputRead (canon (a % 0x100000)) else w) := by
    split
    · exact w.readsTo_inputRead _
    · split
      · exact w.readsTo_inputRead _
      · exact .refl w
  simp only [Wk.readWord, apply_ite Prod.fst]
  generalize (if a < 0x100000 then _ else _ : Wk) = u at input ⊢
  split
  · exact input
  · split
    · exact input.trans (.up _ fun f hf => Dev.wideEnd_rd hf u.d p)
    · split
      · exact input.trans (.up _ fun f hf => Dev.mrxRead_rd hf u.d _)
      · exact input

theorem Wk.readsTo_readWords (active : Bool) (n : Nat) : ∀ (w : Wk) (p a : Nat), w.ReadsTo (w.readWords p a active n).1 := by
  induction n with
  | zero => exact fun w _ _ => .refl w
  | succ n ih => exact fun w p a => (w.readsTo_readWord p _ active).trans (ih _ p (a + 4))

/-! ## The commands of group 0x01 -/

/-- An accepted command that has only read, and then replies OK, answers what its reads and the reply leave. -/
theorem State.command_readsTo {s : State} {op : Nat} {h : Hdr} {ps : List Word} {c : Cmd} {w : Wk} {ws : List Nat} (a : s.accepts op h ps c = true)
    (r : (s.taking op h ps).ReadsTo w) (hc : c.act (s.taking op h ps) = w.ok op h ws) :
    s.command op h ps c = .next (s.withDev (w.d.replyOk h op ws)) := by
  have same (f : Fld) (hf : f.ReadFree) : (w.d.replyOk h op ws).rd f = s.dev.rd f := by
    rw [Dev.replyOk_rd, r.rd f hf, State.taking_d, Dev.takePkt_rd]
  exact State.command_did a (congrArg Wk.d hc) ((congrArg Wk.ms hc).trans r.ms) (same _ Fld.readFree_stkRole) (same _ Fld.readFree_twnState)

/-- An accepted command leaves the device and the messages of its effect. -/
theorem leaves_of_accepts {c : Instr} {s : State} {op : Nat} {h : Hdr} {ps : List Word} {k : Cmd} {P : Dev → List Msg → Prop}
    (e : exec c s = s.command op h ps k) (a : s.accepts op h ps k = true)
    (hP : P (k.act (s.taking op h ps)).d (k.act (s.taking op h ps)).ms) : Leaves c s P :=
  ⟨_, e.trans (State.command_accepted a), hP⟩

theorem regRd_accepted {s : State} {h : Hdr} {ps : List Word} (a : s.accepts 0x0100 h ps (regRdCmd h ps) = true) :
    exec (.regRd h ps) s = .next (s.withDev
      (((s.taking 0x0100 h ps).readWords h.port (pw ps 0) h.active (pw ps 1)).1.d.replyOk h 0x0100
        ((s.taking 0x0100 h ps).readWords h.port (pw ps 0) h.active (pw ps 1)).2)) :=
  (exec_regRd h ps s).trans (State.command_readsTo a (Wk.readsTo_readWords h.active _ _ _ _) rfl)

theorem regRdWide_accepted {s : State} {h : Hdr} {ps : List Word} {ws : List Nat} (a : s.accepts 0x0103 h ps (regRdWideCmd h ps) = true)
    (hw : (s.taking 0x0103 h ps).wideWords (pw ps 0 % 65536) = some ws) :
    exec (.regRdWide h ps) s = .next (s.answered 0x0103 h ps ws (·.wideDone (pw ps 0 % 65536) ws)) :=
  (exec_regRdWide h ps s).trans (State.command_readsTo a (.up (·.wideDone _ ws) fun _ hf => Dev.wideDone_rd hf _ _ ws) (by simp only [regRdWideCmd, hw]))

/-- REG_WR replies by the first address whose write was ignored. -/
theorem regWr_accepted {s : State} {h : Hdr} {ps : List Word} (a : s.accepts 0x0101 h ps (regWrCmd h ps) = true) :
    Leaves (.regWr h ps) s fun d ms =>
      let r := (s.taking 0x0101 h ps).writeWords h.port (pw ps 0) ((ps.drop 1).map (·.toNat))
      ms = r.1.ms ∧ d = (match r.2 with
        | none => r.1.d.replyOk h 0x0101 []
        | some a => r.1.d.reply h 0x0101 .regLocked a []) := by
  refine leaves_of_accepts (exec_regWr h ps s) a ?_
  simp only [regWrCmd]
  generalize Wk.writeWords _ _ _ _ = r
  obtain ⟨w, _ | x⟩ := r
  · exact ⟨rfl, rfl⟩
  · exact ⟨rfl, rfl⟩

/-- The reply by the first of two halves that was ignored, for every work and whatever the halves came to. -/
theorem Wk.halves_reply (w : Wk) (op : Nat) (h : Hdr) (b b' : Bool) (x y : Nat) :
    let t := if b then w.refuse op h (.regLocked, x) else if b' then w.refuse op h (.regLocked, y) else w.ok op h []
    t.ms = w.ms ∧ t.d = (if b then w.d.reply h op .regLocked x [] else if b' then w.d.reply h op .regLocked y [] else w.d.replyOk h op []) := by
  cases b
  · cases b'
    · exact ⟨rfl, rfl⟩
    · exact ⟨rfl, rfl⟩
  · exact ⟨rfl, rfl⟩

/-- REG_WR_PAIR replies by the first half that was ignored. -/
theorem regWrPair_accepted {s : State} {h : Hdr} {ps : List Word} (a : s.accepts 0x0102 h ps (regWrPairCmd h ps) = true) :
    Leaves (.regWrPair h ps) s fun d ms =>
      let r := (s.taking 0x0102 h ps).writeWord h.port (pw ps 0) (pw ps 1)
      let q := r.1.writeWord h.port (pw ps 0 + 0x100000) (0xFFFFFFFF - pw ps 1)
      ms = q.1.ms ∧ d = (if r.2 then q.1.d.reply h 0x0102 .regLocked (pw ps 0) []
        else if q.2 then q.1.d.reply h 0x0102 .regLocked (pw ps 0 + 0x100000) []
        else q.1.d.replyOk h 0x0102 []) := by
  refine leaves_of_accepts (exec_regWrPair h ps s) a ?_
  simp only [regWrPairCmd]
  exact Wk.halves_reply _ _ _ _ _ _ _

/-- Settles O14: reading sends nothing and leaves the fields that notifications watch, so the two reading commands answer
exactly what their reads and the reply leave; of the two writing commands the effect itself is the witness. -/
theorem registerCommands : Obligations.RegisterCommands :=
  ⟨fun _ _ _ a => regRd_accepted a, fun _ _ _ _ a hw => regRdWide_accepted a hw,
    fun _ _ _ a => regWr_accepted a, fun _ _ _ a => regWrPair_accepted a⟩

end Sys2Proof.Machine

/-! What a piece of work leaves alone: `g` stands for whatever is looked at of the device. -/
namespace Sys2Proof.Machine

/-! ## Work that adds messages and leaves something of the device alone -/

/-- From `w` to `w'` what `g` shows of the device is as it was, and messages have only been added, of the sources in `S`. -/
structure Wk.Keeps {β : Type} (S : Nat → Prop) (g : Dev → β) (w w' : Wk) : Prop where
  dev : g w'.d = g w.d
  ms : ∃ l : List Msg, w'.ms = w.ms ++ l ∧ ∀ m ∈ l, S m.fs

/-- Every source. -/
def anySource (_ : Nat) : Prop := True

section
variable {β : Type} {S T : Nat → Prop} {g : Dev → β} {a b c w : Wk}

theorem Wk.Keeps.refl (w : Wk) : w.Keeps S g w := ⟨rfl, [], by simp, by simp⟩

theorem Wk.Keeps.trans (h : a.Keeps S g b) (k : b.Keeps S g c) : a.Keeps S g c := by
  obtain ⟨l, hl, hs⟩ := h.ms
  obtain ⟨r, hr, ht⟩ := k.ms
  exact ⟨k.dev.trans h.dev, l ++ r, by rw [hr, hl, List.append_assoc], fun m hm => (List.mem_append.1 hm).elim (hs m) (ht m)⟩

theorem Wk.Keeps.mono (h : a.Keeps S g b) (hS : ∀ n, S n → T n) : a.Keeps T g b := by
  obtain ⟨l, hl, hs⟩ := h.ms
  exact ⟨h.dev, l, hl, fun m hm => hS _ (hs m hm)⟩

theorem Wk.Keeps.any (h : a.Keeps S g b) : a.Keeps anySource g b := h.mono fun _ _ => trivial

theorem Wk.Keeps.up {f : Dev → Dev} (h : g (f w.d) = g w.d) : w.Keeps S g (w.up f) := ⟨h, [], by simp, by simp⟩

theorem Wk.Keeps.raise {fs kind inst : Nat} (h : S fs) : w.Keeps S g (w.raise fs kind inst) :=
  ⟨rfl, _, rfl, by simpa using h⟩

theorem Wk.Keeps.raiseAt {fs kind inst t : Nat} (h : S fs) : w.Keeps S g (w.raiseAt fs kind inst t) :=
  ⟨rfl, _, rfl, by simpa using h⟩

theorem Wk.Keeps.nextCycle : w.Keeps S g w.nextCycle := ⟨rfl, [], by simp [Wk.nextCycle], by simp⟩

theorem Wk.Keeps.ite {p : Prop} [Decidable p] (h : p → w.Keeps S g a) (k : ¬ p → w.Keeps S g b) : w.Keeps S g (if p then a else b) := by
  split
  · exact h ‹_›
  · exact k ‹_›

theorem Wk.Keeps.on {p : Bool} {f : Wk → Wk} (h : p = true → w.Keeps S g (f w)) : w.Keeps S g (w.on p f) :=
  .ite h fun _ => .refl w

theorem Wk.Keeps.each {α : Type} {l : List α} {f : α → Wk → Wk} (h : ∀ x ∈ l, ∀ u : Wk, u.Keeps S g (f x u)) : w.Keeps S g (w.each l f) := by
  unfold Wk.each
  induction l generalizing w with
  | nil => exact .refl w
  | cons x r ih => exact (h x (by simp) w).trans (ih fun y hy => h y (by simp [hy]))

end

/-- A loop of steps each of which leaves `g` alone. -/
theorem foldl_keeps {α β : Type} {g : Dev → β} {f : Dev → α → Dev} {l : List α} (h : ∀ x ∈ l, ∀ d, g (f d x) = g d) (d : Dev) : g (l.foldl f d) = g d := by
  induction l generalizing d with
  | nil => rfl
  | cons x r ih => exact (ih (fun y hy => h y (by simp [hy])) _).trans (h x (by simp) d)

theorem ite_keeps {β : Type} {g : Dev → β} {p : Prop} [Decidable p] {a b d : Dev} (h : p → g a = g d) (k : ¬ p → g b = g d) : g (if p then a else b) = g d := by
  split
  · exact h ‹_›
  · exact k ‹_›

/-! ## Fields whose writes are not seen -/

/-- What is seen by `g` is nothing of the register fields in `P`. -/
structure Off {β : Type} (P : Fld → Prop) (g : Dev → β) : Prop where
  wr : ∀ d f v, P f → g (d.wr f v) = g d

section
variable {β : Type} {P Q : Fld → Prop} {g : Dev → β}

theorem Off.rd {k : Fld} (h : ∀ f, P f → k.key ≠ f.key) : Off P (Dev.rd · k) := ⟨fun d f v hf => Dev.wr_rd_ne d v (h f hf)⟩

theorem Off.mono (h : Off P g) (k : ∀ f, Q f → P f) : Off Q g := ⟨fun d f v hf => h.wr d f v (k f hf)⟩

variable (hg : Off P g) (d : Dev) {f : Fld} (h : P f)
include hg h

theorem Off.wrB (b : Bool) : g (d.wrB f b) = g d := hg.wr d f _ h
theorem Off.addSat (n : Nat) : g (d.addSat f n) = g d := hg.wr d f _ h
theorem Off.inc : g (d.inc f) = g d := hg.wr d f _ h
theorem Off.setBit (i : Nat) : g (d.setBit f i) = g d := hg.wr d f _ h
theorem Off.clrBit (i : Nat) : g (d.clrBit f i) = g d := hg.wr d f _ h

end

/-! ## Replies and notifications -/

/-- What is seen by `g` is nothing of the ports, of the last one served, or of the waiting commands. -/
structure OffReplies {β : Type} (g : Dev → β) : Prop extends OffPorts g where
  waits : ∀ d l, g { d with waits := l } = g d

theorem Dev.noteRun_keeps {β : Type} {g : Dev → β} (hg : OffPorts g) (d old : Dev) : g (d.noteRun old) = g d :=
  ite_keeps (fun _ => rfl) fun _ => Dev.notify_keeps g hg.port d _ _

theorem Dev.settle_keeps {β : Type} {g : Dev → β} (hg : OffReplies g) (d : Dev) (sel : Wait → Bool) (rep : Wait → Status × Nat × List Nat) :
    g (d.settle sel rep) = g d :=
  (foldl_keeps (fun x _ e => Dev.reply_keeps hg.toOffPorts e x.hdr x.op _ _ _) _).trans (hg.waits d _)

theorem Dev.abandon_keeps {β : Type} {g : Dev → β} (hg : OffReplies g) (d : Dev) (l : List WaitKind) (c : Nat) : g (d.abandon l c) = g d :=
  Dev.settle_keeps hg d _ _

end Sys2Proof.Machine

/-! Temperature sensors and the records of beads (R118, R119, R157, R284 to R294). -/
namespace Sys2Proof.Machine

/-! ## Sensors -/

/-- What a record leaves of a bead: its bytes, that one came, the run of missing ones, and the state it showed. -/
def BeadSt.record (x : BeadSt) : List Byte × Bool × Nat × Option Nat := (x.last, x.got, x.missRun, x.state0)

/-- A register field that a reading, a failure or a change of a sensor writes. -/
def Fld.Sensor (f : Fld) : Prop :=
  f ∈ [F.THM_DHOT, F.THM_DOVER, F.THM_DBRK_BROKEN, F.THM_CNT_BRK, F.THM_CNT_OVER] ∨
    ∃ b < 96, f ∈ [F.BTH_STAT_HOT b, F.BTH_EXC_THM_BEXC b, F.BTH_TMAX b, F.BTH_STAT_BROKEN b, F.BTH_HELD b]

/-- What is seen by `g` is nothing of the sensors, of their fields, or of a bead but its last record. -/
structure OffSensors {β : Type} (g : Dev → β) : Prop extends Off Fld.Sensor g where
  sens : ∀ d i x, g (d.setSens i x) = g d
  bead : ∀ d b x, x.record = (d.bead b).record → g (d.setBead b x) = g d

/-- A sensor that is none of the die is one of a bead. -/
theorem bead_of_not_isDie {i : Nat} (h : ¬ isDie i = true) : i / 8 < 96 := by
  simp only [isDie, decide_eq_true_eq] at h
  omega

section
variable {β : Type} {g : Dev → β} (hg : OffSensors g)
include hg

theorem Dev.beadThermal_keeps (d : Dev) {b : Nat} (h : b < 96) : g (d.beadThermal b) = g d := by
  unfold Dev.beadThermal
  rw [hg.wr _ _ _ (.inr ⟨b, h, by simp⟩), hg.wr _ _ _ (.inr ⟨b, h, by simp⟩), hg.wr _ _ _ (.inr ⟨b, h, by simp⟩)]

theorem Dev.showSens_keeps (d : Dev) (i : Nat) : g (d.showSens i) = g d := by
  refine ite_keeps (fun _ => ?_) fun h => Dev.beadThermal_keeps hg d (bead_of_not_isDie h)
  have hot : g (if (d.sens i).hot then d.setBit F.THM_DHOT (i - 768) else d.clrBit F.THM_DHOT (i - 768)) = g d :=
    ite_keeps (fun _ => hg.setBit d (.inl (by simp)) _) fun _ => hg.clrBit d (.inl (by simp)) _
  exact .trans (ite_keeps (fun _ => hg.setBit _ (.inl (by simp)) _) fun _ => hg.clrBit _ (.inl (by simp)) _) hot

theorem Dev.resetSens_keeps (d : Dev) (i : Nat) : g (d.resetSens i) = g d :=
  (Dev.showSens_keeps hg _ i).trans (hg.sens _ _ _)

theorem Dev.sensEnable_keeps (d : Dev) (i : Nat) : g (d.sensEnable i) = g d :=
  (Dev.showSens_keeps hg _ i).trans (hg.sens _ _ _)

theorem Dev.enableFollow_keeps (d old : Dev) (b : Nat) : g (d.enableFollow old b) = g d :=
  ite_keeps (fun _ => rfl) fun _ => foldl_keeps (fun s _ e => Dev.sensEnable_keeps hg e (b * 8 + s)) d

theorem Wk.keeps_enterReading (w : Wk) (i : Nat) (x : SensSt) : w.Keeps anySource g (w.enterReading i x) := by
  unfold Wk.enterReading
  refine .trans (.trans (.up ?_) (.on fun _ => .trans (.up (hg.inc _ (.inl (by simp)))) (.raise trivial))) (.on fun _ => .raise trivial)
  exact (Dev.showSens_keeps hg _ i).trans (hg.sens _ _ _)

theorem Wk.keeps_takeReading (w : Wk) (i t : Nat) : w.Keeps anySource g (w.takeReading i t) := w.keeps_enterReading hg i _

theorem Wk.keeps_substituted (w : Wk) (i : Nat) : w.Keeps anySource g (w.substituted i) := w.keeps_takeReading hg i _

theorem Wk.keeps_breakQuiet (w : Wk) (i x : Nat) : w.Keeps anySource g (w.breakQuiet i x) := by
  unfold Wk.breakQuiet
  refine .trans (.trans (.up (hg.inc _ (.inl (by simp)))) (.up ?_)) (.up (hg.sens _ _ _))
  refine ite_keeps (fun _ => hg.setBit _ (.inl (by simp)) _) fun h => ?_
  have hb := bead_of_not_isDie h
  rw [hg.bead _ _ _ (by rfl), hg.wr _ _ _ (.inr ⟨_, hb, by simp⟩), hg.setBit _ (.inr ⟨_, hb, by simp⟩)]

theorem Wk.keeps_breakSensor (w : Wk) (i x : Nat) : w.Keeps anySource g (w.breakSensor i x) := (w.keeps_breakQuiet hg i x).trans (.raise trivial)

theorem Wk.keeps_restoreSensor (w : Wk) (i : Nat) : w.Keeps anySource g (w.restoreSensor i) := by
  unfold Wk.restoreSensor
  refine .trans (.up ?_) (.raise trivial)
  refine .trans (ite_keeps (fun _ => hg.clrBit _ (.inl (by simp)) _) fun h => ?_) (hg.sens _ _ _)
  have hb := bead_of_not_isDie h
  refine (Dev.beadThermal_keeps hg _ hb).trans (.trans (ite_keeps (fun _ => hg.bead _ _ _ rfl) fun _ => rfl) ?_)
  exact hg.clrBit _ (.inr ⟨_, hb, by simp⟩) _

theorem Wk.keeps_sensorCount (w : Wk) (i n t : Nat) : w.Keeps anySource g (w.sensorCount i n t) := by
  unfold Wk.sensorCount
  refine .trans (.up (hg.sens _ _ _)) (.ite (fun _ => .trans (.up (hg.sens _ _ _)) (.ite (fun _ => ?_) fun _ => Wk.keeps_substituted hg _ i))
    fun _ => .ite (fun _ => ?_) fun _ => .trans (.up (hg.sens _ _ _)) (Wk.keeps_takeReading hg _ i t))
  · exact (Wk.keeps_restoreSensor hg _ i).trans (Wk.keeps_takeReading hg _ i t)
  · exact (Wk.keeps_breakSensor hg _ i _).trans (Wk.keeps_substituted hg _ i)

theorem Wk.keeps_beadSlot (w : Wk) (b j slot : Nat) : w.Keeps anySource g (w.beadSlot b j slot) :=
  .trans (.on fun _ => .up (hg.bead _ _ _ (by rfl))) (.ite (fun _ => .refl _) fun _ => Wk.keeps_sensorCount hg _ _ _ _)

theorem Wk.keeps_stuckMessage (w : Wk) {b : Nat} (h : b < 96) (s t : Nat) : w.Keeps anySource g (w.stuckMessage b s t) :=
  .ite (fun _ => .refl w) fun _ => .trans (.raiseAt trivial) (.ite (fun _ => .refl _) fun _ =>
    (Wk.keeps_breakQuiet hg _ _ _).trans (.up (Dev.beadThermal_keeps hg _ h)))

end

/-! ## What a record does to the rest of the device -/

/-- A field below those in which GSV shows the beads' held and latch bits. -/
def Fld.BelowBeadBits (f : Fld) : Prop := f.key < (F.GSV_BEAD_HELD 0).key

theorem Fld.Sensor.below {f : Fld} (h : f.Sensor) : f.BelowBeadBits := by
  rcases h with h | ⟨b, hb, h⟩ <;> fin_cases h <;> simp only [Fld.BelowBeadBits, Fld.key, F.GSV_BEAD_HELD, F.THM_DHOT, F.THM_DOVER, F.THM_DBRK_BROKEN, F.THM_CNT_BRK, F.THM_CNT_OVER, F.BTH_STAT_HOT, F.BTH_EXC_THM_BEXC, F.BTH_TMAX, F.BTH_STAT_BROKEN, F.BTH_HELD] <;> omega

/-- What is seen by `g` is nothing of the sensors, the twin, the fields below the beads' bits, or a bead but its last record. -/
structure OffRecord {β : Type} (g : Dev → β) : Prop extends Off Fld.BelowBeadBits g where
  twn : ∀ d f, g (Dev.upTwn d f) = g d
  sens : ∀ d i x, g (d.setSens i x) = g d
  bead : ∀ d b x, x.record = (d.bead b).record → g (d.setBead b x) = g d

theorem OffRecord.sensors {β : Type} {g : Dev → β} (h : OffRecord g) : OffSensors g := ⟨h.toOff.mono fun _ hf => hf.below, h.sens, h.bead⟩

section
variable {β : Type} {g : Dev → β} (hg : OffRecord g)
include hg

theorem Dev.beadFails_keeps (d : Dev) {b : Nat} (h : b < 96) : g (d.beadFails b) = g d :=
  ite_keeps (fun _ => ite_keeps (fun _ => hg.bead _ _ _ rfl) fun _ => hg.wr _ _ _ (by simp only [Fld.BelowBeadBits, Fld.key, F.GSV_BEAD_HELD, F.BDT_STATE_FAILED]; omega)) fun _ => rfl

theorem Dev.cfgAnswer_keeps (d : Dev) {b : Nat} (h : b < 96) (r : List Byte) : g (d.cfgAnswer b r) = g d := by
  unfold Dev.cfgAnswer
  dsimp only
  split
  case h_1 => rfl
  case h_2 addr op v rest _ =>
    refine ite_keeps (fun _ => rfl) fun _ => .trans (b := g (d.setBead b _)) (ite_keeps (fun _ => ?_) fun _ => rfl) (hg.bead _ _ _ ?_)
    · exact (Dev.enableFollow_keeps hg.sensors _ _ b).trans (hg.wr _ _ _ (by simp only [Fld.BelowBeadBits, Fld.key, F.GSV_BEAD_HELD, F.BTH_STAT_EN]; omega))
    · split_ifs <;> rfl

theorem Wk.keeps_beadMsg (w : Wk) {b : Nat} (h : b < 96) (m : BeadMsg) : w.Keeps anySource g (w.beadMsg b m) := by
  unfold Wk.beadMsg
  refine .ite (fun _ => w.keeps_stuckMessage hg.sensors h _ _) fun _ => ?_
  split
  · exact .refl w
  · exact .trans (.on fun _ => .up (hg.inc _ (by simp only [Fld.BelowBeadBits, Fld.key, F.GSV_BEAD_HELD, F.GSV_CNT_ILK]; omega))) (.raiseAt trivial)

theorem Dev.beadGates_keeps (d : Dev) (b : Nat) (r : List Byte) :
    g (d.beadGates b r) = g ((d.wr (F.GSV_BEAD_HELD b) (bits (le r 60 4) 24 6)).wr (F.GSV_BEAD_LATCH b) (le r 71 1 % 64)) := by
  refine foldl_keeps (fun sw _ e => foldl_keeps (fun c hc u => ?_) e) _
  have hc : c < 256 := by simpa using (List.mem_filter.1 hc).1
  rw [hg.wrB _ (by simp only [Fld.BelowBeadBits, Fld.key, F.GSV_BEAD_HELD, F.CH_STAT_LATCHED]; omega), hg.addSat _ (by simp only [Fld.BelowBeadBits, Fld.key, F.GSV_BEAD_HELD, F.CH_TCNT_TOTAL]; omega)]

/-- Of what the record of bead `b` does, `g` sees only the record kept, and the held and latch bits. -/
theorem Wk.takeRecord_sees (w : Wk) {b : Nat} (h : b < 96) (r : List Byte) :
    ∃ x : BeadSt, x.record = (r, true, 0, some (le r 2 1)) ∧
      g (w.takeRecord b r).d = g (((w.d.setBead b x).wr (F.GSV_BEAD_HELD b) (bits (le r 60 4) 24 6)).wr (F.GSV_BEAD_LATCH b) (le r 71 1 % 64)) := by
  unfold Wk.takeRecord
  extract_lets _ _ _ _ _ x _ w1 w2 w3 w4
  refine ⟨x, rfl, ?_⟩
  have h1 : g w1.d = _ := Dev.beadGates_keeps hg _ b r
  have k4 : w1.Keeps anySource g w4 := .trans (.trans (.up (ite_keeps (fun _ => Dev.beadFails_keeps hg _ h) fun _ => rfl))
    (.up (ite_keeps (fun _ => hg.wr _ _ _ (by simp only [Fld.BelowBeadBits, Fld.key, F.GSV_BEAD_HELD, F.BDT_STATE_UNCONF]; omega)) fun _ => rfl)))
    (.up (Dev.cfgAnswer_keeps hg _ h r))
  refine .trans (Wk.Keeps.dev (S := anySource) (k4.trans ?_)) h1
  refine .trans (.up (hg.bead _ _ _ (by rfl))) (.trans (.each fun t _ u => .trans (.each fun m _ v => v.keeps_beadMsg hg h m) .nextCycle)
    (.each fun i _ u => u.keeps_beadSlot hg.sensors b i _))

theorem Wk.keeps_twinUplink (w : Wk) : w.Keeps anySource g w.twinUplink := by
  refine .ite (fun _ => .refl w) fun _ => .trans (.up (hg.twn _ _)) (.on fun _ => .trans (.up ?_) (.raise trivial))
  exact (hg.inc _ (by simp only [Fld.BelowBeadBits, Fld.key, F.GSV_BEAD_HELD, F.TWN_CNT_DEMOTIONS]; omega)).trans (hg.twn _ _)

end

/-- What O37 speaks of: the record of every bead, the bits of bead `k`, and the parts that no record touches. -/
def Dev.heardView (k : Nat) (d : Dev) :=
  ((fun j => (d.bead j).record), (d.rd (F.GSV_BEAD_HELD k), d.rd (F.GSV_BEAD_LATCH k)), (d.frame, d.time, d.run, d.lanes))

theorem Dev.setBead_record (d : Dev) (b : Nat) (x : BeadSt) (h : x.record = (d.bead b).record) (j : Nat) : ((d.setBead b x).bead j).record = (d.bead j).record := by
  by_cases hj : j = b
  · rw [hj, Dev.setBead_bead, h]
  · rw [Dev.setBead_bead_ne d b j x hj]

theorem offRecord_heardView (k : Nat) : OffRecord (Dev.heardView k) where
  wr d f v hf := by
    have hH : (F.GSV_BEAD_HELD k).key ≠ f.key := by
      simp only [Fld.BelowBeadBits, Fld.key, F.GSV_BEAD_HELD] at hf ⊢
      omega
    have hL : (F.GSV_BEAD_LATCH k).key ≠ f.key := by
      simp only [Fld.BelowBeadBits, Fld.key, F.GSV_BEAD_HELD, F.GSV_BEAD_LATCH] at hf ⊢
      omega
    simp only [Dev.heardView, Dev.wr_rd_ne d v hH, Dev.wr_rd_ne d v hL]
    rfl
  twn _ _ := rfl
  sens _ _ _ := rfl
  bead d b x h := by
    simp only [Dev.heardView, Dev.setBead_record d b x h]
    rfl

/-- The view after a record is kept with its held and latch bits. -/
theorem Dev.heardView_kept (d : Dev) (k : Nat) (x : BeadSt) (held latch : Nat) :
    Dev.heardView k (((d.setBead k x).wr (F.GSV_BEAD_HELD k) held).wr (F.GSV_BEAD_LATCH k) latch) =
      ((fun j => if j = k then x.record else (d.bead j).record), (held % 2 ^ 6, latch % 2 ^ 6), (d.frame, d.time, d.run, d.lanes)) := by
  have hne : (F.GSV_BEAD_HELD k).key ≠ (F.GSV_BEAD_LATCH k).key := by simp only [Fld.key, F.GSV_BEAD_HELD, F.GSV_BEAD_LATCH]; omega
  simp only [Dev.heardView, Dev.wr_rd, Dev.wr_rd_ne _ _ hne]
  refine Prod.ext (funext fun j => ?_) rfl
  show ((d.setBead k x).bead j).record = if j = k then x.record else (d.bead j).record
  split
  · next h => rw [h, Dev.setBead_bead]
  · next h => rw [Dev.setBead_bead_ne d k j x h]

/-! ## Uplink frames -/

/-- One uplink record whose CRC does not hold is counted alone. -/
theorem Wk.uplinkRecord_bad {w : Wk} {n : Nat} {r : List Byte} (h : crc32c (slice r 0 124) ≠ le r 124 4) :
    w.uplinkRecord n r = w.up (·.inc (F.STR_ERR_UPL_CRC n)) := if_pos (.inr h)

/-- One uplink record of an occupied position's own bead is taken once. -/
theorem Wk.uplinkRecord_own {w : Wk} {n : Nat} {r : List Byte} (hr : r.length = 128) (hc : crc32c (slice r 0 124) = le r 124 4)
    (h12 : le r 0 1 < 12) (hn : le r 0 1 < w.d.rd (F.STR_CTRL_NBEAD n)) (hv : w.d.rd (F.STR_POS_VALID n (le r 0 1)) = 1)
    (hb : w.d.rd (F.STR_POS_BEAD n (le r 0 1)) < 96) (hid : le r 1 1 = w.d.rd (F.STR_POS_BEAD n (le r 0 1))) :
    w.uplinkRecord n r = if (w.d.bead (w.d.rd (F.STR_POS_BEAD n (le r 0 1)))).got then w else w.takeRecord (w.d.rd (F.STR_POS_BEAD n (le r 0 1))) r := by
  have hv' : w.d.rdB (F.STR_POS_VALID n (le r 0 1)) = true := by simp [Dev.rdB, hv]
  simp [Wk.uplinkRecord, hr, hc, h12, hn, hv', hb, hid]

/-- A unit without a twin has no witness to hear (R349). -/
theorem Wk.twinUplink_off {w : Wk} (h : w.d.rd F.TWN_CTRL_EN = 0) : w.twinUplink = w := if_pos (by simp [Dev.rdB, h])

/-- UPLINK_RECORD_RECEIVE of an uninterrupted frame. -/
theorem exec_uplink (s : State) (n : Nat) (b : List Byte) (e : Bool) :
    exec (.uplinkRecordReceive ⟨b, false⟩ n e) s = .next (s.settleWk s.vault (s.wk.uplinkFrame n b).twinUplink) := rfl

/-- Work that has done nothing leaves the state. -/
theorem State.settleWk_wk (s : State) : s.settleWk s.vault s.wk = s := State.settleWk_plain s _ _ rfl rfl rfl

/-- Work that has changed the device without a message, and no field that is notified. -/
theorem State.settleWk_up (s : State) {f : Dev → Dev} (h1 : (f s.dev).rd F.STK_STAT_ROLE = s.dev.rd F.STK_STAT_ROLE)
    (h2 : (f s.dev).rd F.TWN_STAT_STATE = s.dev.rd F.TWN_STAT_STATE) : s.settleWk s.vault (s.wk.up f) = s.withDev (f s.dev) :=
  State.settleWk_plain s _ _ rfl h1 h2

/-- Counting a bad frame or record changes its counter alone. -/
theorem State.settleWk_uplCrc (s : State) (h : s.dev.rd F.TWN_CTRL_EN = 0) (n : Nat) :
    s.settleWk s.vault (s.wk.up (·.inc (F.STR_ERR_UPL_CRC n))).twinUplink = s.withDev (s.dev.inc (F.STR_ERR_UPL_CRC n)) := by
  have other {k : Fld} (hk : k.key < (F.STR_ERR_UPL_CRC 0).key) : (s.dev.inc (F.STR_ERR_UPL_CRC n)).rd k = s.dev.rd k :=
    Dev.inc_rd_ne _ (by simp only [Fld.key, F.STR_ERR_UPL_CRC] at hk ⊢; omega)
  rw [Wk.twinUplink_off ((other (by decide)).trans h), State.settleWk_up s (other (by decide)) (other (by decide))]

/-- The frame of O37: of the present frame, in its window, of an enabled strand without a B end, with one record. -/
structure State.HearsOne (s : State) (n : Nat) (b : List Byte) : Prop where
  strand : n < 16
  en : s.dev.rd (F.STR_CTRL_EN n) = 1
  bend : s.dev.rd (F.STR_CTRL_BEND n) = 0
  hdr : hdrOk 2 b = true
  seq : le b 2 2 = seqOf s.dev.frame.k
  win : s.dev.rd F.SYS_FRM_STAT_WINDOW = 0
  run : s.dev.running = true
  one : le b 5 1 = 1
  len : b.length = 160

theorem Dev.originBreak_noBend {d : Dev} {n : Nat} {b : List Byte} (h : d.rd (F.STR_CTRL_BEND n) = 0) : d.originBreak n b = d :=
  if_pos (.inr (.inl (by simp [Dev.rdB, h])))

theorem State.HearsOne.frame {s : State} {n : Nat} {b : List Byte} (h : s.HearsOne n b) : s.wk.uplinkFrame n b = s.wk.uplinkRecord n (b.drop 32) := by
  have hen : s.wk.d.rdB (F.STR_CTRL_EN n) = true := by simp [Dev.rdB, show s.wk.d = s.dev from rfl, h.en]
  have hs : slice b 32 128 = b.drop 32 := List.take_of_length_le (by simp [h.len])
  have hstr := h.strand
  unfold Wk.uplinkFrame
  rw [if_neg (by simp [hen]; omega), if_neg (by simp [h.hdr]), if_neg (by simp [show s.wk.d = s.dev from rfl, h.seq, h.win, h.run])]
  simp only [h.one, h.len]
  show (s.wk.up (·.originBreak n b)).uplinkRecord n (slice b 32 128) = _
  rw [hs, show s.wk.up (·.originBreak n b) = s.wk from congrArg (fun d => { s.wk with d := d }) (Dev.originBreak_noBend h.bend)]

/-- Settles O37: what `Dev.heardView` sees of a record is the bead's own record and bits, by the rules of the record's parts. -/
theorem aBeadsRecordIsTakenOnce : Obligations.ABeadsRecordIsTakenOnce := by
  intro s n b e hn htw hen hbe hh hseq hwin hrun h1 hlen r p k
  have hear : s.HearsOne n b := ⟨hn, hen, hbe, hh, hseq, hwin, hrun, h1, hlen⟩
  have hr : r.length = 128 := by simp [r, hlen]
  refine ⟨fun hc => ?_, fun hc h12 hnb hv hk hid => ⟨fun hgot => ?_, fun hgot => ?_⟩⟩
  · rw [exec_uplink, hear.frame, Wk.uplinkRecord_bad hc, State.settleWk_uplCrc s htw]
  all_goals have own : s.wk.uplinkRecord n r = if (s.dev.bead k).got then s.wk else s.wk.takeRecord k r := Wk.uplinkRecord_own hr hc h12 hnb hv hk hid
  · rw [exec_uplink, hear.frame, own, if_pos hgot, Wk.twinUplink_off htw, State.settleWk_wk]
  · refine ⟨_, (exec_uplink s n b e).trans (by rw [hear.frame, own, if_neg (by simp [hgot])]), ?_⟩
    have hg := offRecord_heardView k
    obtain ⟨x, hx, hd⟩ := s.wk.takeRecord_sees hg hk r
    have view := ((Wk.keeps_twinUplink hg (s.wk.takeRecord k r)).dev).trans (hd.trans (Dev.heardView_kept _ _ _ _ _))
    simp only [Dev.heardView, Prod.mk.injEq, hx] at view
    obtain ⟨hrec, ⟨hheld, hlatch⟩, hframe, htime, hrunst, hlanes⟩ := view
    have own := (congrFun hrec k).trans (if_pos rfl)
    simp only [BeadSt.record, Prod.mk.injEq] at own
    obtain ⟨hlast, hgot, hmiss, hst⟩ := own
    refine ⟨hlast, hgot, hmiss, hst, ?_, ?_, fun j hj => ?_, hframe, htime, hrunst, hlanes⟩
    · rw [hheld, bits, Nat.shiftRight_eq_div_pow]
      exact Nat.mod_mod _ 64
    · exact hlatch.trans (Nat.mod_mod _ 64)
    · have other := (congrFun hrec j).trans (if_neg hj)
      simp only [BeadSt.record, Prod.mk.injEq] at other
      exact ⟨other.1, other.2.1⟩

end Sys2Proof.Machine

/-! The edge engine and gate supervision: what its operations leave alone. -/
namespace Sys2Proof.Machine

/-! ## The edge engine and gate supervision -/

/-- What is seen by `g` is nothing of the edge engine, or of the count of refused turn-ons (R169). -/
structure OffPins {β : Type} (g : Dev → β) : Prop where
  edge : ∀ d e, g { d with edge := e } = g d
  ilk : ∀ d v, g (d.wr F.GSV_CNT_ILK v) = g d

section
variable {β : Type} {S : Nat → Prop} {g : Dev → β} (hg : OffPins g)
include hg

theorem OffPins.setPair (d : Dev) (k : Nat) (x : PairSt) : g (d.setPair k x) = g d := hg.edge d _

theorem Wk.keeps_releaseBy (h17 : S 17) (w : Wk) (k t : Nat) : w.Keeps S g (w.releaseBy k t) := by
  unfold Wk.releaseBy
  dsimp only
  split
  · exact .refl w
  · refine .ite (fun _ => .refl w) fun _ => .ite (fun _ => .trans (.up ?_) (.raise h17)) fun _ => .up (by exact hg.setPair _ _ _)
    exact (hg.ilk _ _).trans (hg.setPair _ _ _)

theorem Wk.keeps_releasePin (h17 : S 17) (w : Wk) (k : Nat) : w.Keeps S g (w.releasePin k) := w.keeps_releaseBy hg h17 k _

theorem Wk.keeps_leadPin (h17 : S 17) (w : Wk) (k : Nat) : w.Keeps S g (w.leadPin k) := by
  unfold Wk.leadPin
  refine .trans (.up ?_) (.each fun e _ u => ?_)
  · exact ite_keeps (fun _ => rfl) fun _ => hg.setPair _ _ _
  · exact .ite (fun _ => .refl u) fun _ => (u.keeps_releaseBy hg h17 k _).trans (.up (hg.setPair _ _ _))

theorem Wk.keeps_releasePins (h17 : S 17) (w : Wk) : w.Keeps S g w.releasePins :=
  .each fun k _ u => (u.keeps_leadPin hg h17 k).trans (Wk.keeps_releasePin hg h17 _ k)

theorem Dev.aimPair_keeps (d : Dev) (pv : Option Dev) (k : Nat) : g (d.aimPair pv k) = g d :=
  ite_keeps (fun _ => rfl) fun _ => hg.setPair _ _ _

theorem Wk.keeps_aim (w : Wk) (k : Nat) : w.Keeps S g (w.aim k) := .ite (fun _ => .refl w) fun _ => .up (Dev.aimPair_keeps hg _ _ k)

theorem Wk.keeps_pairLevel (h17 : S 17) (w : Wk) (k lvl t : Nat) : w.Keeps S g (w.pairLevel k lvl t) :=
  .ite (fun _ => .refl w) fun _ => .trans (.up (hg.setPair _ _ _)) (Wk.keeps_releasePin hg h17 _ k)

theorem Wk.keeps_drivePair (h17 : S 17) (w : Wk) (k t : Nat) : w.Keeps S g (w.drivePair k t) := w.keeps_pairLevel hg h17 k _ t

theorem Dev.forcePair_keeps (d : Dev) (k : Nat) (a b : Bool) : g (d.forcePair k a b) = g d := hg.setPair _ _ _

theorem Dev.pinsSafe_keeps (d : Dev) : g d.pinsSafe = g d := foldl_keeps (fun k _ e => Dev.forcePair_keeps hg e k _ _) d

end

/-- What is seen by `g` is besides nothing of the levels of DEN and of EDG_STAT.SAFE. -/
structure OffOutputs {β : Type} (g : Dev → β) : Prop extends OffPins g where
  den : ∀ d v, g (d.wr F.GSV_DEN_LVL v) = g d
  safe : ∀ d v, g (d.wr F.EDG_STAT_SAFE v) = g d

theorem Wk.keeps_syncOutputs {β : Type} {S : Nat → Prop} {g : Dev → β} (hg : OffOutputs g) (h17 : S 17) (w : Wk) : w.Keeps S g w.syncOutputs := by
  unfold Wk.syncOutputs
  refine .trans (.up (hg.den _ _)) (.ite (fun _ => .up ?_) fun _ => .ite (fun _ => .trans (.up ?_) (.each fun k _ u => ?_)) fun _ => .refl _)
  · rw [Dev.pinsSafe_keeps hg.toOffPins, hg.safe]
  · rw [foldl_keeps (fun k _ e => Dev.forcePair_keeps hg.toOffPins e k _ _), hg.safe]
  · exact (u.keeps_drivePair hg.toOffPins h17 k _).trans (Wk.keeps_aim hg.toOffPins _ k)

/-- A register field from the edge engine's on, but for EDG_STAT.QUIESCED. -/
def Fld.Engine (f : Fld) : Prop := 0x60000 ≤ f.addr ∧ f.key ≠ F.EDG_STAT_QUIESCED.key

/-- What is seen by `g` is nothing of the edge engine, of its fields or of the free values. -/
structure OffEdge {β : Type} (g : Dev → β) : Prop extends Off Fld.Engine g where
  edge : ∀ d e, g { d with edge := e } = g d
  free : ∀ d n, g { d with free := n } = g d

theorem OffEdge.rd {k : Fld} (h : ∀ f : Fld, f.Engine → k.key ≠ f.key) : OffEdge (Dev.rd · k) := ⟨.rd h, fun _ _ => rfl, fun _ _ => rfl⟩

/-- A field below the edge engine's is none of them. -/
theorem Fld.Engine.apart {k f : Fld} (hf : f.Engine) (h : k.key < 0x60000 * 32) : k.key ≠ f.key := by
  have := hf.1
  simp only [Fld.key] at h ⊢
  omega

theorem OffEdge.quiesced : OffEdge (Dev.rd · F.EDG_STAT_QUIESCED) := .rd fun _ hf h => hf.2 h.symm

section
variable {β : Type} {S : Nat → Prop} {g : Dev → β} (hg : OffEdge g)
include hg

theorem OffEdge.pins : OffPins g := ⟨hg.edge, fun d v => hg.wr d _ v (by unfold Fld.Engine; decide)⟩

theorem OffEdge.outputs : OffOutputs g :=
  ⟨hg.pins, fun d v => hg.wr d _ v (by unfold Fld.Engine; decide), fun d v => hg.wr d _ v (by unfold Fld.Engine; decide)⟩
theorem OffEdge.setCh (d : Dev) (k : Nat) (x : ChSt) : g (d.setCh k x) = g d := hg.edge d _
theorem OffEdge.setTb (d : Dev) (k : Nat) (x : TbSt) : g (d.setTb k x) = g d := hg.edge d _

theorem Wk.keeps_pairOff (h17 : S 17) (w : Wk) (k : Nat) : w.Keeps S g (w.pairOff k) := by
  unfold Wk.pairOff
  refine .trans (.trans (.up ?_) (Wk.keeps_pairLevel hg.pins h17 _ k 2 _)) (Wk.keeps_aim hg.pins _ k)
  dsimp only
  split
  · exact hg.setCh _ _ _
  · rfl

theorem Dev.clearTbs_keeps (d : Dev) : g d.clearTbs = g d :=
  foldl_keeps (fun t ht e => by
    have ht : t < 64 := by simpa using ht
    rw [hg.setTb, hg.wr _ _ _ ?_, hg.wr _ _ _ ?_]
    · simp only [Fld.Engine, Fld.key, F.TB_CTRL_EN, F.EDG_STAT_QUIESCED]; omega
    · simp only [Fld.Engine, Fld.key, F.TB_STAT_RUN, F.EDG_STAT_QUIESCED]; omega) d

theorem Dev.clearChs_keeps (d : Dev) : g d.clearChs = g d :=
  foldl_keeps (fun c hc e => by
    have hc : c < 256 := by simpa using hc
    rw [hg.setCh, hg.wr _ _ _ ?_]
    simp only [Fld.Engine, Fld.key, F.CH_CTRL_EN, F.EDG_STAT_QUIESCED]; omega) d

end
end Sys2Proof.Machine

/-! Frames of the twin partner and of its beads (R334, R337, R339, R344, R561). -/
namespace Sys2Proof.Machine

/-! ## What a TWIN frame notes of H1 -/

/-- What the twin notes of the partner's last valid header: its state, its epoch, and the frame that it came in. -/
def TwnSt.heading (t : TwnSt) : Option Nat × Nat × Option (BitVec 32) := (t.pState, t.pEpoch, t.h1Got)

/-- What O36 speaks of behind the first valid header of a frame. -/
def Dev.h1View (d : Dev) := ((d.rd F.TWN_STAT_H1_MISS, d.rd F.TWN_STAT_H1_UP), (d.twn.heading, d.frame, d.time, d.run))

/-- A field that is none of the two of H1. -/
def Fld.NotH1 (f : Fld) : Prop := F.TWN_STAT_H1_MISS.key ≠ f.key ∧ F.TWN_STAT_H1_UP.key ≠ f.key

theorem off_h1View : Off Fld.NotH1 Dev.h1View where
  wr d f v h := by
    obtain ⟨hm, hu⟩ := h
    simp only [Dev.h1View, Dev.wr_rd_ne d v hm, Dev.wr_rd_ne d v hu]
    rfl

theorem offReplies_h1View : OffReplies Dev.h1View where
  port d p f := by simp [Dev.h1View]
  last _ _ := rfl
  waits _ _ := rfl

theorem Dev.upTwn_h1View (d : Dev) {f : TwnSt → TwnSt} (h : ∀ t, (f t).heading = t.heading) : (d.upTwn f).h1View = d.h1View := by
  show ((d.rd F.TWN_STAT_H1_MISS, d.rd F.TWN_STAT_H1_UP), ((f d.twn).heading, d.frame, d.time, d.run)) = _
  rw [h]
  rfl

theorem Dev.abandonHandback_h1View (d : Dev) : d.abandonHandback.h1View = d.h1View := by
  refine ite_keeps (g := Dev.h1View) (fun _ => rfl) fun _ => ?_
  rw [Dev.abandon_keeps offReplies_h1View, off_h1View.wr _ _ _ (by unfold Fld.NotH1; decide), off_h1View.wr _ _ _ (by unfold Fld.NotH1; decide)]
  exact rfl

theorem Dev.hearHandback_h1View (d : Dev) (b : List Byte) : (d.hearHandback b).h1View = d.h1View := by
  refine ite_keeps (g := Dev.h1View) (fun _ => ite_keeps (fun _ => rfl) fun _ => ite_keeps (fun _ => ?_) fun _ => rfl)
    fun _ => .trans (ite_keeps (g := Dev.h1View) (fun _ => Dev.abandonHandback_h1View _) fun _ => rfl) (rfl)
  rw [off_h1View.wr _ _ _ (by unfold Fld.NotH1; decide), off_h1View.wr _ _ _ (by unfold Fld.NotH1; decide)]
  exact rfl

/-- A unit in SYNC takes its time from its twin. -/
theorem Dev.enterSync_h1View (d : Dev) : d.enterSync.h1View = d.h1View := by
  have hset : (d.setTwin 2).h1View = d.h1View :=
    (Dev.noteRun_keeps offReplies_h1View.toOffPorts _ _).trans (off_h1View.wr _ _ _ (by unfold Fld.NotH1; decide))
  have htwin : (d.setTwin 2).rd F.TWN_STAT_STATE = 2 := (Dev.noteRun_keeps (OffPorts.rd _) _ _).trans (Dev.wr_rd _ _ _)
  have hsrc : (d.setTwin 2).tsrcNow = 2 := by simp [Dev.tsrcNow, htwin]
  refine .trans (Dev.upTwn_h1View _ fun _ => rfl) (.trans (ite_keeps (g := Dev.h1View) (fun _ => rfl) fun _ => ?_) hset)
  rw [hsrc]
  exact off_h1View.wr _ _ _ (by unfold Fld.NotH1; decide)

theorem Dev.takeMgt_h1View (d : Dev) (m : Mgt) : (d.takeMgt m).h1View = d.h1View := by
  cases m with
  | stg addr v => rfl
  | cmd op ps due =>
    exact ite_keeps (g := Dev.h1View) (fun _ => rfl) fun _ => ite_keeps (fun _ => rfl) fun _ => rfl
  | status img coef cfg run den miss sent =>
    refine .trans (ite_keeps (g := Dev.h1View) (fun _ => Dev.enterSync_h1View _) fun _ => rfl) ?_
    exact (Dev.noteRun_keeps offReplies_h1View.toOffPorts _ _).trans (rfl)

theorem Dev.sendRelay_h1View (d : Dev) (lane : Nat) (hdr : List Byte) (o s : Nat) (recs : List Byte) : (d.sendRelay lane hdr o s recs).h1View = d.h1View := by
  unfold Dev.sendRelay
  split
  · rfl
  · rfl

theorem Dev.twinBody_h1View (d : Dev) (lane : Nat) (b : List Byte) : (d.twinBody lane b).h1View = d.h1View := by
  unfold Dev.twinBody
  extract_lets hdr body n nst shadow act d1
  refine ite_keeps (g := Dev.h1View) (fun _ => rfl) fun _ => ?_
  split
  extract_lets vals
  split
  extract_lets d2
  have h1 : d1.h1View = d.h1View := off_h1View.wr _ _ _ (by unfold Fld.NotH1; decide)
  have h2 : d2.h1View = d1.h1View := ite_keeps (g := Dev.h1View) (fun _ => rfl) fun _ =>
    (foldl_keeps (fun m _ e => ite_keeps (g := Dev.h1View) (fun _ => e.takeMgt_h1View m) fun _ => rfl) _).trans rfl
  exact .trans (ite_keeps (g := Dev.h1View) (fun _ => (foldl_keeps (fun x _ e => e.sendRelay_h1View lane hdr _ _ _) _).trans rfl) fun _ => rfl) (h2.trans h1)


/-! ## Following the partner -/

/-- The discipline sends no message but that LOCK is lost. -/
theorem Wk.discipline_ms {w : Wk} {off : Int} (h : w.ms = []) : ∀ m ∈ (w.discipline off).ms, m.tag = (37, 0, 0) := by
  unfold Wk.discipline Wk.on
  extract_lets t big w1 w2
  have h2 : w2.ms = [] := by
    show (if _ then _ else w1).ms = []
    split
    · exact h
    · exact h
  split
  · simp [Wk.raise, h2, Msg.tag]
  · simp [h2]

/-- The discipline changes the time, LOCK and COARSE alone. -/
theorem Wk.keeps_discipline {β : Type} {S : Nat → Prop} {g : Dev → β} (ht : ∀ d t, g { d with time := t } = g d)
    (hl : ∀ d v, g (d.wr F.TIM_STAT_LOCK v) = g d) (hc : ∀ d v, g (d.wr F.TIM_STAT_COARSE v) = g d) (h37 : S 37) (w : Wk) (off : Int) :
    w.Keeps S g (w.discipline off) := by
  unfold Wk.discipline
  exact .trans (.trans (.up (ht _ _)) (.on fun _ => .up ((hc _ _).trans (hl _ _)))) (.on fun _ => .trans (.up (hl _ _)) (.raise h37))

/-! ## The safe state -/

/-- Nothing but the lines changes. -/
theorem Dev.sendQs_keeps {β : Type} {g : Dev → β} (h : ∀ d l o, g { d with lines := l, os := o } = g d) (d : Dev) : g d.sendQs = g d :=
  ite_keeps (fun _ => foldl_keeps (fun _ _ _ => h _ _ _) d) fun _ => rfl

/-- What of the safe state is the outputs' and the lines'. -/
theorem Dev.toSafe_sees {β : Type} {g : Dev → β} (h : ∀ d e f, g { d with edge := e, frame := f } = g d) (hl : ∀ d l o, g { d with lines := l, os := o } = g d) (d : Dev) :
    g d.toSafe = g ((d.clearEnables.wr F.EDG_STAT_QUIESCED 1).wr F.EDG_STAT_SAFE 1).pinsSafe :=
  (h (((d.clearEnables.wr F.EDG_STAT_QUIESCED 1).wr F.EDG_STAT_SAFE 1).pinsSafe.sendQs) _ _).trans (Dev.sendQs_keeps hl _)

theorem Dev.toSafe_quiesced (d : Dev) : d.toSafe.rd F.EDG_STAT_QUIESCED = 1 := by
  rw [Dev.toSafe_sees (g := (Dev.rd · F.EDG_STAT_QUIESCED)) (fun _ _ _ => rfl) (fun _ _ _ => rfl), Dev.pinsSafe_keeps OffEdge.quiesced.pins, Dev.wr_rd_ne _ _ (by decide), Dev.wr_rd]
  rfl

theorem Dev.enterSafe_quiesced (d : Dev) (c : Nat) : (d.enterSafe c).rd F.EDG_STAT_QUIESCED = 1 := by
  unfold Dev.enterSafe
  dsimp only
  split
  next h =>
    have hlt := Dev.rd_lt (d.abandon [.arm, .precharge, .softStart] c) F.EDG_STAT_QUIESCED
    simp only [Dev.safe, Dev.rdB, decide_eq_true_eq] at h
    simp only [F.EDG_STAT_QUIESCED] at hlt h ⊢
    omega
  next => exact Dev.toSafe_quiesced _

theorem OffReplies.run : OffReplies Dev.run := ⟨OffPorts.run, fun _ _ => rfl⟩

theorem OffEdge.run : OffEdge Dev.run := ⟨⟨fun _ _ _ _ => rfl⟩, fun _ _ => rfl, fun _ _ => rfl⟩

theorem Dev.toSafe_run (d : Dev) : d.toSafe.run = d.run := by
  rw [Dev.toSafe_sees (g := Dev.run) (fun _ _ _ => rfl) (fun _ _ _ => rfl), Dev.pinsSafe_keeps OffEdge.run.pins]
  have enables : d.clearEnables.run = d.clearTbs.clearChs.run := by simp only [Dev.clearEnables]
  rw [Dev.wr_run, Dev.wr_run, enables]
  exact (Dev.clearChs_keeps OffEdge.run _).trans (Dev.clearTbs_keeps OffEdge.run d)

theorem Dev.enterSafe_run (d : Dev) (c : Nat) : (d.enterSafe c).run = d.run :=
  .trans (ite_keeps (g := Dev.run) (fun _ => rfl) fun _ => Dev.toSafe_run _) (Dev.abandon_keeps OffReplies.run d _ c)


/-! ## TWIN_FRAME_RECEIVE -/

/-- A valid header of the partner, on a TWIN lane of a twin (Table 12-3, R334, R561). -/
structure Dev.HearsPartner (d : Dev) (lane : Nat) (b : List Byte) : Prop where
  len : 32 ≤ b.length
  type : le b 0 1 = 0x31
  crc : crc8 (b.take 31) = le b 31 1
  lane : d.role lane = 2
  state : d.rd F.TWN_STAT_STATE ≠ 0

theorem Dev.HearsPartner.obeyed {d : Dev} {lane : Nat} {b : List Byte} (h : d.HearsPartner lane b) :
    ¬ (b.length < 32 ∨ le b 0 1 ≠ 0x31 ∨ crc8 (b.take 31) ≠ le b 31 1 ∨ d.role lane ≠ 2 ∨ d.twin = 0) := by
  have hs : d.twin ≠ 0 := h.state
  simp [h.len, h.type, h.crc, h.lane, hs]

/-- What a header tells changes nothing but the twin's notes and PREF. -/
theorem Dev.hearTwin_rd (d : Dev) (b : List Byte) {k : Fld} (h : k.key ≠ F.TWN_CTRL_PREF.key) : (d.hearTwin b).rd k = d.rd k :=
  ite_keeps (g := (Dev.rd · k)) (fun _ => Dev.wr_rd_ne _ _ h) fun _ => rfl

/-- What a header tells, as far as it is not PREF. -/
theorem Dev.hearTwin_sees {β : Type} {g : Dev → β} (h : ∀ d v, g (d.wr F.TWN_CTRL_PREF v) = g d) (d : Dev) (b : List Byte) :
    g (d.hearTwin b) = g (d.upTwn fun t => { t with
      pState := some (le b 1 1 / 4 % 8), pEpoch := le b 4 4, hi := max t.hi (le b 4 4), lostSb := if le b 1 1 / 4 % 8 = 3 then false else t.lostSb,
      yieldSeen := bitOf (le b 1 1) 5, since := if le b 1 1 / 4 % 8 = 3 then t.since else none }) :=
  ite_keeps (fun _ => h _ _) fun _ => rfl

theorem Dev.hearTwin_heading (d : Dev) (b : List Byte) : (d.hearTwin b).twn.heading = (some (le b 1 1 / 4 % 8), le b 4 4, d.twn.h1Got) :=
  Dev.hearTwin_sees (g := fun d => d.twn.heading) (fun _ _ => rfl) d b

theorem Dev.hearTwin_still (d : Dev) (b : List Byte) : ((d.hearTwin b).frame, (d.hearTwin b).time, (d.hearTwin b).run) = (d.frame, d.time, d.run) :=
  Dev.hearTwin_sees (g := fun d => (d.frame, d.time, d.run)) (fun _ _ => rfl) d b

theorem Dev.hearTwin_notes (d : Dev) (b : List Byte) : ((d.hearTwin b).twn.h1Done, (d.hearTwin b).twn.aligned) = (d.twn.h1Done, d.twn.aligned) :=
  Dev.hearTwin_sees (g := fun d => (d.twn.h1Done, d.twn.aligned)) (fun _ _ => rfl) d b

/-- A shadow takes its frames from an ACTIVE partner (R339). -/
def Dev.takesFrames (d : Dev) (b : List Byte) : Bool := le b 1 1 / 4 % 8 = 4 && (d.twin = 2 || d.twin = 3)

theorem Dev.h1Now_iff (d : Dev) (b : List Byte) : d.h1Now b = true ↔ d.twn.h1Done ≠ some d.frame.k ∧
    (d.twin = 1 ∨ le b 2 2 = seqOf d.frame.k ∨ (le b 1 1 / 4 % 8 = 4 ∧ (d.twin = 2 ∨ d.twin = 3)) ∧ ¬ (d.twn.aligned = true ∧ le b 2 2 = seqOf (d.frame.k - 1))) := by
  simp [Dev.h1Now, or_assoc, imp_iff_not_or]

theorem Dev.takesFrames_iff (d : Dev) (b : List Byte) : d.takesFrames b = true ↔ le b 1 1 / 4 % 8 = 4 ∧ (d.twin = 2 ∨ d.twin = 3) := by
  simp [Dev.takesFrames]

/-- What a header tells does not change whether it counts, nor whose frames are taken. -/
theorem Dev.hearTwin_h1Now (d : Dev) (b : List Byte) : (d.hearTwin b).h1Now b = d.h1Now b := by
  have hnotes := d.hearTwin_notes b
  have hstill := d.hearTwin_still b
  simp only [Prod.mk.injEq] at hnotes hstill
  have hstate : (d.hearTwin b).twin = d.twin := d.hearTwin_rd b (by decide)
  unfold Dev.h1Now
  rw [hnotes.1, hnotes.2, hstill.1, hstate]

theorem Dev.hearTwin_takesFrames (d : Dev) (b : List Byte) : (d.hearTwin b).takesFrames b = d.takesFrames b := by
  have hstate : (d.hearTwin b).twin = d.twin := d.hearTwin_rd b (by decide)
  unfold Dev.takesFrames
  rw [hstate]

/-- What a shadow does with the header of the unit whose frames it takes. -/
def Wk.takeFrames (w : Wk) (lane : Nat) (b : List Byte) : Wk :=
  (w.follow (BitVec.ofNat 32 (le b 16 4) + 1) ((le b 2 2 + 1) % 65536) (BitVec.ofNat 64 (le b 8 8)) (w.d.time.now - w.d.twinArrival lane b).toInt).up
    fun d => (d.wr F.LPE_FCNT (le b 16 4)).upTwn fun t => { t with aligned := true }

/-- The first copy of a frame's header ends the misses of H1. -/
def Dev.h1Hear (d : Dev) (b : List Byte) : Dev :=
  (((d.wr F.TWN_STAT_H1_MISS 0).wr F.TWN_STAT_H1_UP 1).upTwn fun t => { t with h1Got := some d.frame.k, lost1 := false, lostAll := false }).hearHandback b

/-- The first valid header of the present frame is obeyed as a whole. -/
theorem Wk.twinReceive_first {w : Wk} {lane : Nat} {b : List Byte} (h : w.d.HearsPartner lane b) (hu : le b 1 1 % 2 ≠ w.d.unit)
    (hnow : (w.d.hearTwin b).h1Now b = true) (hnew : w.d.twn.h1Got ≠ some w.d.frame.k) :
    w.twinReceive lane b = ((((w.up (·.hearTwin b)).on ((w.d.hearTwin b).takesFrames b) (·.takeFrames lane b)).up (·.h1Hear b)).up (·.twinBody lane b)) := by
  have hgot : (w.d.hearTwin b).twn.h1Got = w.d.twn.h1Got := congrArg (·.2.2) (w.d.hearTwin_heading b)
  have hfr : (w.d.hearTwin b).frame = w.d.frame := congrArg (·.1) (w.d.hearTwin_still b)
  unfold Wk.twinReceive
  rw [if_neg h.obeyed, if_neg hu]
  simp only [Wk.up_d, hnow, hgot, hfr, hnew, decide_false, Bool.false_and, Bool.not_false, Bool.not_true, Bool.false_eq_true, if_false, Wk.on_true]
  rfl

theorem Dev.h1Hear_h1View (d : Dev) (b : List Byte) :
    (d.h1Hear b).h1View = ((0, 1), ((d.twn.pState, d.twn.pEpoch, some d.frame.k), d.frame, d.time, d.run)) := by
  have hne : F.TWN_STAT_H1_MISS.key ≠ F.TWN_STAT_H1_UP.key := by decide
  refine (Dev.hearHandback_h1View _ b).trans ?_
  show ((((d.wr F.TWN_STAT_H1_MISS 0).wr F.TWN_STAT_H1_UP 1).rd F.TWN_STAT_H1_MISS, ((d.wr F.TWN_STAT_H1_MISS 0).wr F.TWN_STAT_H1_UP 1).rd F.TWN_STAT_H1_UP), _) = _
  rw [Dev.wr_rd_ne _ _ hne, Dev.wr_rd, Dev.wr_rd]
  rfl

/-- Taking the partner's frames leaves what the header told, and sends no message but that LOCK is lost. -/
theorem Wk.takeFrames_keeps (w : Wk) (lane : Nat) (b : List Byte) :
    ((w.takeFrames lane b).d.twn.heading, (w.takeFrames lane b).d.run) = (w.d.twn.heading, w.d.run) ∧
      (w.ms = [] → ∀ m ∈ (w.takeFrames lane b).ms, m.tag = (37, 0, 0)) := by
  refine ⟨?_, fun h => Wk.discipline_ms h⟩
  refine .trans (b := _) ?_ (Wk.keeps_discipline (S := anySource) (g := fun d => (d.twn.heading, d.run)) (fun _ _ => rfl) (fun _ _ => rfl) (fun _ _ => rfl) trivial w
    (w.d.time.now - w.d.twinArrival lane b).toInt).dev
  exact ite_keeps (g := fun d => (d.twn.heading, d.run)) (fun _ => rfl) fun _ => rfl

/-- TWIN_FRAME_RECEIVE of an uninterrupted frame. -/
theorem exec_twinFrame (s : State) (lane : Nat) (b : List Byte) :
    exec (.twinFrameReceive lane ⟨b, false⟩) s = .next (s.settleWk s.vault (s.wk.twinReceive lane b)) := rfl

/-- What the first valid header of a frame does (R337, R339). -/
theorem Dev.HearsPartner.first {s : State} {lane : Nat} {b : List Byte} (h : s.dev.HearsPartner lane b) (hu : le b 1 1 % 2 ≠ s.dev.rd F.TWN_STAT_UNIT)
    (hnow : (s.dev.hearTwin b).h1Now b = true) (hnew : s.dev.twn.h1Got ≠ some s.dev.frame.k) :
    Leaves (.twinFrameReceive lane ⟨b, false⟩) s fun d ms => d.rd F.TWN_STAT_H1_MISS = 0 ∧ d.rd F.TWN_STAT_H1_UP = 1 ∧ d.twn.pState = some (le b 1 1 / 4 % 8) ∧
      d.twn.pEpoch = le b 4 4 ∧ d.twn.h1Got = some d.frame.k ∧ ((s.dev.hearTwin b).takesFrames b = false → d.frame = s.dev.frame ∧ d.time = s.dev.time ∧ ms = []) ∧
      (∀ m ∈ ms, m.tag = (37, 0, 0)) ∧ d.run = s.dev.run := by
  have told := s.dev.hearTwin_heading b
  have still := s.dev.hearTwin_still b
  simp only [Prod.mk.injEq] at still
  obtain ⟨hframe, htime, hrun⟩ := still
  obtain ⟨w, hw⟩ : ∃ w, (s.wk.up (·.hearTwin b)).on ((s.dev.hearTwin b).takesFrames b) (·.takeFrames lane b) = w := ⟨_, rfl⟩
  have heard : s.wk.twinReceive lane b = (w.up (·.h1Hear b)).up (·.twinBody lane b) := hw ▸ Wk.twinReceive_first (w := s.wk) h hu hnow hnew
  have hd : w.d.twn.heading = (some (le b 1 1 / 4 % 8), le b 4 4, s.dev.twn.h1Got) ∧ w.d.run = s.dev.run ∧ (∀ m ∈ w.ms, m.tag = (37, 0, 0)) ∧
      ((s.dev.hearTwin b).takesFrames b = false → w.d.frame = s.dev.frame ∧ w.d.time = s.dev.time ∧ w.ms = []) := by
    subst hw
    cases hf : (s.dev.hearTwin b).takesFrames b with
    | true =>
      obtain ⟨kept, sent⟩ := (s.wk.up (·.hearTwin b)).takeFrames_keeps lane b
      simp only [Prod.mk.injEq] at kept
      exact ⟨kept.1.trans told, kept.2.trans hrun, sent rfl, fun h => nomatch h⟩
    | false =>
      rw [Wk.on_false]
      refine ⟨told, hrun, ?_, fun _ => ⟨hframe, htime, rfl⟩⟩
      exact fun m (hm : m ∈ ([] : List Msg)) => nomatch hm
  obtain ⟨hhead, hwrun, hms, hstill⟩ := hd
  have view := ((w.d.h1Hear b).twinBody_h1View lane b).trans (w.d.h1Hear_h1View b)
  simp only [Dev.h1View, TwnSt.heading, Prod.mk.injEq] at view hhead
  obtain ⟨⟨hmiss, hup⟩, ⟨hps, hpe, hgot⟩, hfr, htm, hrn⟩ := view
  refine ⟨_, (exec_twinFrame s lane b).trans (by rw [heard]), ?_⟩
  exact ⟨hmiss, hup, hps.trans hhead.1, hpe.trans hhead.2.1, hgot.trans (congrArg (fun f => some f.k) hfr.symm),
    fun hf => ⟨hfr.trans (hstill hf).1, htm.trans (hstill hf).2.1, (hstill hf).2.2⟩, hms, hrn.trans hwrun⟩

/-! ## The rows -/

/-- A header that DOWNLINK_HEADER_RECEIVE does not obey (R344). -/
def State.IgnoresHeader (s : State) (lane : Nat) (b : List Byte) : Prop :=
  s.vault.lockout = true ∨ hdrOk 1 b = false ∨ s.dev.role lane ≠ 1 ∨ s.dev.rd F.TWN_STAT_STATE = 0 ∨ s.dev.rd F.TWN_STAT_STATE = 4 ∨
    le b 4 4 ≠ s.dev.twn.pEpoch ∨ s.dev.twn.pState ≠ some 4

theorem exec_downlinkHeader (s : State) (lane : Nat) (b : List Byte) :
    exec (.downlinkHeaderReceive lane ⟨b, false⟩) s = .next (s.settleWk s.vault
      (if s.vault.lockout = true ∨ (!hdrOk 1 b) = true ∨ s.dev.role lane ≠ 1 ∨ s.dev.twin = 0 ∨ s.dev.twin = 4 ∨ le b 4 4 ≠ s.dev.twn.pEpoch ∨ s.dev.twn.pState ≠ some 4 then s.wk
        else if bitOf (le b 16 4) 24 then s.wk.up (·.enterSafe 6) else (s.wk.up (·.wr F.EDG_STAT_QUIESCED 0)).syncOutputs)) := rfl

theorem downlinkHeader_ignored {s : State} {lane : Nat} {b : List Byte} (h : s.IgnoresHeader lane b) : exec (.downlinkHeaderReceive lane ⟨b, false⟩) s = .next s := by
  rw [exec_downlinkHeader, if_pos (by simpa [State.IgnoresHeader, Dev.twin] using h), s.settleWk_wk]

theorem downlinkHeader_obeyed {s : State} {lane : Nat} {b : List Byte} (h : ¬ s.IgnoresHeader lane b) : exec (.downlinkHeaderReceive lane ⟨b, false⟩) s =
    .next (s.settleWk s.vault (if bitOf (le b 16 4) 24 then s.wk.up (·.enterSafe 6) else (s.wk.up (·.wr F.EDG_STAT_QUIESCED 0)).syncOutputs)) := by
  rw [exec_downlinkHeader, if_neg (by simpa [State.IgnoresHeader, Dev.twin] using h)]

/-- Settles O36: the twin's rows through what the first header does, the others by their guards. -/
theorem framesOfThePartnerAndItsBeads : Obligations.FramesOfThePartnerAndItsBeads := by
  refine ⟨fun s lane n b e => ⟨?_, ?_, ?_, ?_⟩, fun s lane b h => ?_, fun s lane b hlen hty hcrc hu hrole hst => ?_, fun s lane b hlen hty hcrc hu hrole hst => ⟨fun hdone => ?_, fun hdone hnew hpres => ?_⟩,
    fun s lane b hl hh hr h0 h4 he hp => ⟨fun hq => ?_, fun hq => ?_⟩, fun s lane b h => ?_, fun s n b e hn htw => ⟨fun hen hh => ?_, fun hen => ?_, fun hh hout => ?_⟩⟩
  case refine_1 => exact congrArg _ s.settleWk_wk
  case refine_2 => exact congrArg _ s.settleWk_wk
  case refine_3 => exact congrArg _ s.settleWk_wk
  case refine_4 => exact congrArg _ s.settleWk_wk
  case refine_5 =>
    have ignored : s.wk.twinReceive lane b = s.wk := if_pos h
    rw [exec_twinFrame, ignored, s.settleWk_wk]
  case refine_6 =>
    have own : s.wk.twinReceive lane b = s.wk.up (·.upTwn fun t => { t with clash := true }) :=
      (if_neg (Dev.HearsPartner.obeyed ⟨hlen, hty, hcrc, hrole, hst⟩)).trans (if_pos hu)
    rw [exec_twinFrame, own, s.settleWk_up (by rfl) (by rfl)]
    rfl
  case refine_7 =>
    have late : (s.wk.d.hearTwin b).h1Now b = false :=
      (s.dev.hearTwin_h1Now b).trans (by simpa using mt (s.dev.h1Now_iff b).1 fun h => h.1 hdone)
    have noted : s.wk.twinReceive lane b = s.wk.up (·.hearTwin b) :=
      (if_neg (Dev.HearsPartner.obeyed ⟨hlen, hty, hcrc, hrole, hst⟩)).trans ((if_neg hu).trans (if_pos (by simpa using late)))
    rw [exec_twinFrame, noted, s.settleWk_up (s.dev.hearTwin_rd b (by decide)) (s.dev.hearTwin_rd b (by decide))]
  case refine_8 =>
    have now : (s.dev.hearTwin b).h1Now b = true := (s.dev.hearTwin_h1Now b).trans ((s.dev.h1Now_iff b).2 ⟨hdone, hpres⟩)
    refine (Dev.HearsPartner.first ⟨hlen, hty, hcrc, hrole, hst⟩ hu now hnew).imp fun w hw => ⟨hw.1, ?_⟩
    obtain ⟨_, h1, h2, h3, h4, h5, h6, h7, h8⟩ := hw
    exact ⟨h1, h2, h3, h4, h5, fun hf => h6 ((s.dev.hearTwin_takesFrames b).trans (by simpa using mt (s.dev.takesFrames_iff b).1 hf)), h7, h8⟩
  case refine_9 =>
    have obeyed : ¬ s.IgnoresHeader lane b := by simp [State.IgnoresHeader, hl, hh, hr, h0, h4, he, hp]
    refine ⟨_, (downlinkHeader_obeyed obeyed).trans (by rw [if_pos hq]), s.dev.enterSafe_quiesced 6, rfl, s.dev.enterSafe_run 6⟩
  case refine_10 =>
    have obeyed : ¬ s.IgnoresHeader lane b := by simp [State.IgnoresHeader, hl, hh, hr, h0, h4, he, hp]
    refine ⟨_, (downlinkHeader_obeyed obeyed).trans (by rw [if_neg (by simp [hq])]), ?_, ?_⟩
    · exact (Wk.keeps_syncOutputs (S := anySource) OffEdge.quiesced.outputs trivial _).dev.trans (Dev.wr_rd _ _ _)
    · exact (Wk.keeps_syncOutputs (S := anySource) OffEdge.run.outputs trivial _).dev
  case refine_11 => exact downlinkHeader_ignored h
  case refine_12 =>
    have bad : s.wk.uplinkFrame n b = s.wk.up (·.inc (F.STR_ERR_UPL_CRC n)) := by
      have hen' : s.wk.d.rdB (F.STR_CTRL_EN n) = true := by simp [Dev.rdB, show s.wk.d = s.dev from rfl, hen]
      unfold Wk.uplinkFrame
      rw [if_neg (by simp [hen']; omega), if_pos (by simp [hh])]
    rw [exec_uplink, bad, s.settleWk_uplCrc htw]
    rfl
  case refine_13 =>
    have off : s.wk.uplinkFrame n b = s.wk := if_pos (.inr (by simp [Dev.rdB, show s.wk.d = s.dev from rfl, hen]))
    rw [exec_uplink, off, Wk.twinUplink_off htw, s.settleWk_wk]
  case refine_14 =>
    have out : s.wk.uplinkFrame n b = s.wk := by
      refine ite_eq_left_iff.2 fun _ => ?_
      rw [if_neg (by simp [hh]), if_pos (by simpa [Dev.running, Dev.rdB, show s.wk.d = s.dev from rfl] using hout)]
    rw [exec_uplink, out, Wk.twinUplink_off htw, s.settleWk_wk]

end Sys2Proof.Machine

/-! The passing of device time: what it leaves alone (R37, R38, R43, R45). -/
namespace Sys2Proof.Machine

/-- What is seen by `g` is nothing of the time, the epoch with its mark, or the outputs' pins. -/
structure OffTime {β : Type} (g : Dev → β) : Prop extends OffPins g where
  time : ∀ d t, g { d with time := t } = g d
  epoch : ∀ d v, g (d.wr F.TIM_EPOCH v) = g d
  wrap : ∀ d v, g (d.wr F.TIM_STAT_WRAP v) = g d

/-- A field that passing time leaves (`Fld.still`). -/
theorem OffTime.rd {f : Fld} (h : f.still = true) : OffTime (Dev.rd · f) := by
  simp only [Fld.still, Bool.and_eq_true, decide_eq_true_eq] at h
  obtain ⟨⟨⟨_, hepoch⟩, hwrap⟩, hilk⟩ := h
  exact ⟨⟨fun _ _ => rfl, fun d v => Dev.wr_rd_ne d v hilk⟩, fun _ _ => rfl, fun d v => Dev.wr_rd_ne d v hepoch, fun d v => Dev.wr_rd_ne d v hwrap⟩

/-- A wrap changes the epoch and its mark alone. -/
theorem Wk.keeps_wrap {β : Type} {S : Nat → Prop} {g : Dev → β} (he : ∀ d v, g (d.wr F.TIM_EPOCH v) = g d) (hw : ∀ d v, g (d.wr F.TIM_STAT_WRAP v) = g d)
    (h97 : S 97) (w : Wk) (b : Bool) : w.Keeps S g (w.wrap b) :=
  .trans (.up ((hw _ _).trans (he _ _))) (.raise h97)

section
variable {β : Type} {S : Nat → Prop} {g : Dev → β} (hg : OffTime g) (h97 : S 97) (h17 : S 17)
include hg h97 h17

theorem Wk.keeps_edges (w : Wk) (n : Nat) : w.Keeps S g (w.edges n) := by
  unfold Wk.edges
  extract_lets t tot w1
  have moved : w.Keeps S g w1 := .up (hg.time _ _)
  generalize List.range (tot / 2 ^ 96) = l
  clear_value w1
  exact (moved.trans (.each fun _ _ u => u.keeps_wrap hg.epoch hg.wrap h97 false)).trans (Wk.keeps_releasePins hg.toOffPins h17 _)

end

/-- The time after `n` edges of the TIM clock. -/
theorem Wk.edges_time (w : Wk) (n : Nat) : (w.edges n).d.time =
    { w.d.time with
      now := BitVec.ofNat 64 ((w.d.time.now.toNat * 2 ^ 32 + w.d.time.rem.toNat + n * (w.d.time.incI * 2 ^ 32 + w.d.time.incF)) / 2 ^ 32)
      rem := BitVec.ofNat 32 (w.d.time.now.toNat * 2 ^ 32 + w.d.time.rem.toNat + n * (w.d.time.incI * 2 ^ 32 + w.d.time.incF))
      rt := w.d.time.rt + 512 * n } := by
  have pins : OffPins Dev.time := ⟨fun _ _ => rfl, fun _ _ => rfl⟩
  unfold Wk.edges
  extract_lets t tot w1
  have moved (l : List Nat) : (w1.each l fun _ w => w.wrap false).releasePins.d.time = w1.d.time :=
    (Wk.keeps_releasePins (S := anySource) pins trivial _).dev.trans (Wk.Keeps.each (S := anySource) (g := Dev.time) fun _ _ _ => .trans (.up rfl) (.raise trivial)).dev
  exact moved _

end Sys2Proof.Machine

/-! The commands that set device time and a pulse output (R38, R41, R51, R452). -/
namespace Sys2Proof.Machine

/-! ## The checks of an accepted command -/

theorem State.accepts_port {s : State} {op : Nat} {h : Hdr} {ps : List Word} {c : Cmd} (a : s.accepts op h ps c = true) : h.port < 2 :=
  (State.accepts_iff.1 a).1

theorem refused_or_eq_none {a b : Refused} : a.or b = none ↔ a = none ∧ b = none := by
  cases a with
  | none => exact ⟨fun h => ⟨rfl, h⟩, fun h => h.2⟩
  | some x => exact ⟨(nomatch ·), fun h => nomatch h.1⟩

theorem State.accepts_check {s : State} {op : Nat} {h : Hdr} {ps : List Word} {c : Cmd} (a : s.accepts op h ps c = true) : c.check (s.taking op h ps) = none := by
  have v := (State.accepts_iff.1 a).2.2.2
  exact (refused_or_eq_none.1 v).2

theorem no_eq_none (c : Bool) (st : Status) (det : Nat) : no c st det = none ↔ c = false := by
  cases c <;> simp [no]

theorem badParam_eq_none (c : Bool) (i : Nat) : badParam c i = none ↔ c = false := no_eq_none c _ _

/-! ## TIME_INC -/

theorem pw_lt (ps : List Word) (i : Nat) : pw ps i < 2 ^ 32 := (ps.getD i 0).isLt

/-- TIME_INC of increments in range, in force at once. -/
theorem timeInc_accepted {s : State} {h : Hdr} {ps : List Word} (a : s.accepts 0x0701 h ps (timeIncCmd h ps) = true) :
    exec (.timeInc h ps) s = .next (s.answered 0x0701 h ps []
      fun d => { (d.wr F.TIM_INC_FRAC (pw ps 0)).wr F.TIM_INC_INT (pw ps 1) with time := { d.time with incI := pw ps 1, incF := pw ps 0 } }) := by
  have c := State.accepts_check a
  simp only [timeIncCmd, refused_or_eq_none, badParam_eq_none, Bool.not_eq_false', Bool.and_eq_true, decide_eq_true_eq] at c
  have hfrac : (((s.dev.takePkt 0x0701 h ps).wr F.TIM_INC_FRAC (pw ps 0)).wr F.TIM_INC_INT (pw ps 1)).rd F.TIM_INC_FRAC = pw ps 0 := by
    rw [Dev.wr_rd_ne _ _ (by decide), Dev.wr_rd]
    exact Nat.mod_eq_of_lt (pw_lt ps 0)
  have other {k : Fld} (h1 : k.key ≠ F.TIM_INC_INT.key) (h2 : k.key ≠ F.TIM_INC_FRAC.key) :
      (((s.dev.takePkt 0x0701 h ps).wr F.TIM_INC_FRAC (pw ps 0)).wr F.TIM_INC_INT (pw ps 1)).rd k = s.dev.rd k := by
    rw [Dev.wr_rd_ne _ _ h1, Dev.wr_rd_ne _ _ h2, Dev.takePkt_rd]
  refine State.command_did a ?_ rfl ?_ ?_
  · show Dev.replyOk (if _ then _ else _) h 0x0701 [] = _
    rw [if_pos c.1]
    exact congrArg (fun n => Dev.replyOk { ((s.dev.takePkt 0x0701 h ps).wr F.TIM_INC_FRAC (pw ps 0)).wr F.TIM_INC_INT (pw ps 1) with
      time := { (s.dev.takePkt 0x0701 h ps).time with incI := pw ps 1, incF := n } } h 0x0701 []) hfrac
  · exact (Dev.replyOk_rd _ _ _ _ _).trans (other (by decide) (by decide))
  · exact (Dev.replyOk_rd _ _ _ _ _).trans (other (by decide) (by decide))

/-! ## TIME_STEP -/

/-- The exponent is the smallest that brings the mantissa below 4,096 (Table 14-3). -/
theorem mantissa_spec (f : Nat) : ∀ e n : Nat, n < 4096 * 2 ^ f → ∃ j, (mantissa f e n).1 = e + j ∧ (mantissa f e n).2 = n / 2 ^ j ∧
    (mantissa f e n).2 < 4096 ∧ (j = 0 ∨ 2048 ≤ (mantissa f e n).2) := by
  induction f with
  | zero =>
    intro e n h
    have h' : n < 4096 := by simpa using h
    exact ⟨0, rfl, by simp [mantissa, Nat.mod_eq_of_lt h'], Nat.mod_lt _ (by omega), .inl rfl⟩
  | succ f ih =>
    intro e n h
    unfold mantissa
    split
    next hn => exact ⟨0, rfl, by simp, hn, .inl rfl⟩
    next hn =>
      obtain ⟨j, he, hm, hlt, hj⟩ := ih (e + 1) (n / 2) (by rw [Nat.pow_succ] at h; omega)
      refine ⟨j + 1, by omega, ?_, hlt, .inr ?_⟩
      · rw [hm, Nat.div_div_eq_div_mul, Nat.pow_succ']
      · rcases hj with rfl | hj
        · rw [hm]
          simp only [Nat.pow_zero, Nat.div_one]
          omega
        · exact hj

theorem sext_natAbs (v : Nat) : (sext 64 v).natAbs ≤ 2 ^ 63 := by
  have := Nat.mod_lt v (Nat.two_pow_pos 64)
  unfold sext
  split <;> omega

/-- The tag of TIME_STEPPED. -/
def steppedTag (off : Int) : Nat × Nat × Nat := (74, b2n (off < 0) * 128 + (mantissa 64 0 (off.natAbs / 65536)).1, (mantissa 64 0 (off.natAbs / 65536)).2)

theorem steppedTag_spec {off : Int} (h : off.natAbs ≤ 2 ^ 63) : ∃ e m : Nat, steppedTag off = (74, b2n (decide (off < 0)) * 128 + e, m) ∧
    m = off.natAbs / 65536 / 2 ^ e ∧ m < 4096 ∧ (e = 0 ∨ 2048 ≤ m) := by
  obtain ⟨j, he, hm, hlt, hj⟩ := mantissa_spec 64 0 (off.natAbs / 65536) (by omega)
  rw [Nat.zero_add] at he
  exact ⟨j, _, by rw [steppedTag, he], hm, hlt, hj⟩

/-- What a step of time moves: the device time, the origin of the frames, and STEPPED; real time goes on. -/
theorem Wk.stepTime_sees (w : Wk) (off : Int) :
    (w.stepTime off).d.time.now = w.d.time.now + BitVec.ofInt 64 off ∧ (w.stepTime off).d.frame.origin = w.d.frame.origin + BitVec.ofInt 64 off ∧
      (w.stepTime off).d.time.rt = w.d.time.rt ∧ (w.stepTime off).d.rd F.TIM_STAT_STEPPED = 1 ∧
      ∀ f : Fld, f.still = true → f.key ≠ F.TIM_STAT_STEPPED.key → (w.stepTime off).d.rd f = w.d.rd f := by
  unfold Wk.stepTime
  extract_lets t w1 w2 w3
  have tail {β : Type} {g : Dev → β} (he : ∀ d v, g (d.wr F.TIM_EPOCH v) = g d) (hw : ∀ d v, g (d.wr F.TIM_STAT_WRAP v) = g d) :
      g (w3.on (decide (t < 0)) (·.wrap true)).d = g w2.d :=
    (Wk.Keeps.trans (S := anySource) (b := w3) (.on fun _ => Wk.keeps_wrap he hw trivial _ _) (.on fun _ => Wk.keeps_wrap he hw trivial _ _)).dev
  have now : BitVec.ofInt 64 t = w.d.time.now + BitVec.ofInt 64 off := by
    rw [BitVec.ofInt_add]
    simp
  refine ⟨(tail (g := fun d => d.time.now) (fun _ _ => rfl) fun _ _ => rfl).trans now, tail (g := fun d => d.frame.origin) (fun _ _ => rfl) fun _ _ => rfl,
    tail (g := fun d => d.time.rt) (fun _ _ => rfl) fun _ _ => rfl, ?_, fun f hf hne => ?_⟩
  · exact (tail (g := (Dev.rd · F.TIM_STAT_STEPPED)) (fun _ _ => Dev.wr_rd_ne _ _ (by decide)) fun _ _ => Dev.wr_rd_ne _ _ (by decide)).trans (Dev.wr_rd _ _ _)
  · exact (tail (g := (Dev.rd · f)) (OffTime.rd hf).epoch (OffTime.rd hf).wrap).trans (Dev.wr_rd_ne _ _ hne)

theorem Wk.stepTime_steady (w : Wk) (off : Int) : w.Keeps anySource (Dev.rd · F.TIM_STAT_TSRC) (w.stepTime off) := by
  unfold Wk.stepTime
  have hg : OffTime (Dev.rd · F.TIM_STAT_TSRC) := .rd (by decide)
  refine .trans (.trans (.trans (.up ?_) (.up (Dev.wr_rd_ne _ _ (by decide)))) (.on fun _ => Wk.keeps_wrap hg.epoch hg.wrap trivial _ _))
    (.on fun _ => Wk.keeps_wrap hg.epoch hg.wrap trivial _ _)
  rfl

/-- A step at this edge, in a unit that follows no other (R41, R47). -/
theorem Wk.stepNow_sees {w : Wk} (hf : w.d.followsTime = false) (off : Int) :
    (w.stepNow off).d = (w.stepTime off).d.wr F.TIM_STAT_COARSE 0 ∧ (w.stepNow off).ms.getLast?.map Msg.tag = some (steppedTag off) := by
  have steady : (w.stepTime off).d.rd F.TIM_STAT_TSRC = w.d.rd F.TIM_STAT_TSRC := (w.stepTime_steady off).dev
  have hf' : (w.stepTime off).d.followsTime = false := by
    simp only [Dev.followsTime] at hf ⊢
    rw [steady, hf]
  constructor
  · show (if (w.stepTime off).d.followsTime = true then _ else _) = _
    rw [hf']
    rfl
  · show (((w.stepTime off).raise 74 _ _).ms.getLast?).map Msg.tag = _
    simp only [Wk.raise, List.getLast?_concat, Option.map_some]
    rfl

theorem timeStep_accepted {s : State} {h : Hdr} {ps : List Word} (a : s.accepts 0x0700 h ps (timeStepCmd h ps) = true) :
    let t := s.dev.time
    let off := sext 64 (pw ps 0 + pw ps 1 * 2 ^ 32)
    let edge : BitVec 64 := BitVec.ofNat 64 ((t.now.toNat * 2 ^ 32 + t.rem.toNat + (t.incI * 2 ^ 32 + t.incF)) / 2 ^ 32)
    Leaves (.timeStep h ps) s fun d ms =>
      d.time.now = edge + BitVec.ofInt 64 off ∧ d.frame.origin = s.dev.frame.origin + BitVec.ofInt 64 off ∧ d.time.rt = t.rt + 512 ∧
        d.rd F.TIM_STAT_STEPPED = 1 ∧ d.rd F.TIM_STAT_COARSE = 0 ∧
        (∀ f : Fld, f.addr ≠ F.TIM_STAT_STEPPED.addr → f.still = true → d.rd f = s.dev.rd f) ∧
        (∃ e m : Nat, ms.getLast?.map Msg.tag = some (74, b2n (decide (off < 0)) * 128 + e, m) ∧ m = off.natAbs / 65536 / 2 ^ e ∧ m < 4096 ∧ (e = 0 ∨ 2048 ≤ m)) ∧
        Replied (s.withDev d) h 0x0700 .ok 0 [d.time.now.toNat % 2 ^ 32, d.time.now.toNat / 2 ^ 32] := by
  intro t off edge
  obtain ⟨w, hw⟩ : ∃ w, (s.taking 0x0700 h ps).edges 1 = w := ⟨_, rfl⟩
  have kept {β : Type} {g : Dev → β} (hg : OffTime g) : g w.d = g (s.dev.takePkt 0x0700 h ps) := hw ▸ ((s.taking 0x0700 h ps).keeps_edges (S := anySource) hg trivial trivial 1).dev
  have htsrc : w.d.rd F.TIM_STAT_TSRC = s.dev.rd F.TIM_STAT_TSRC := (kept (.rd (by decide))).trans (Dev.takePkt_rd _ _ _ _ _)
  have htime0 : (s.dev.takePkt 0x0700 h ps).time = t := Dev.takePkt_keeps OffPorts.time _ _ _ _
  have htime := hw ▸ (s.taking 0x0700 h ps).edges_time 1
  rw [State.taking_d, htime0] at htime
  have free : w.d.followsTime = false := by
    have c := State.accepts_check a
    simp only [timeStepCmd, no_eq_none] at c
    have hc : (s.taking 0x0700 h ps).d.rd F.TIM_STAT_TSRC = s.dev.rd F.TIM_STAT_TSRC := Dev.takePkt_rd _ _ _ _ _
    simp only [Dev.followsTime] at c ⊢
    rw [htsrc, ← hc, c]
  obtain ⟨hnow, horigin, hrt, hstep, hrd⟩ := w.stepTime_sees off
  obtain ⟨hd, hlast⟩ := Wk.stepNow_sees free off
  obtain ⟨u, hu⟩ : ∃ u, w.stepNow off = u := ⟨_, rfl⟩
  rw [hu] at hd hlast
  have hact : (timeStepCmd h ps).act (s.taking 0x0700 h ps) = u.ok 0x0700 h [u.d.time.now.toNat % 2 ^ 32, u.d.time.now.toNat / 2 ^ 32] := by
    subst hu hw
    rfl
  have hreply (x y : Nat) : (u.d.replyOk h 0x0700 [x, y]).time = u.d.time := Dev.reply_keeps OffPorts.time _ _ _ _ _ _
  obtain ⟨e, m, htag, hm, hlt, he⟩ := steppedTag_spec (sext_natAbs (pw ps 0 + pw ps 1 * 2 ^ 32))
  refine leaves_of_accepts (exec_timeStep h ps s) a ?_
  simp only [hact, Wk.ok_d, Wk.ok_ms, Dev.replyOk_rd, hreply]
  refine ⟨?_, ?_, ?_, ?_, ?_, fun f hne hf => ?_, ⟨e, m, hlast.trans (congrArg some htag), hm, hlt, he⟩, ?_⟩
  · rw [hd, Dev.wr_time, hnow, htime]
    simp [edge]
  · have hframe : (u.d.replyOk h 0x0700 [u.d.time.now.toNat % 2 ^ 32, u.d.time.now.toNat / 2 ^ 32]).frame = u.d.frame := Dev.reply_keeps OffPorts.frame _ _ _ _ _ _
    have hw0 : w.d.frame = s.dev.frame := (kept ⟨⟨fun _ _ => rfl, fun _ _ => rfl⟩, fun _ _ => rfl, fun _ _ => rfl, fun _ _ => rfl⟩).trans (Dev.takePkt_keeps OffPorts.frame _ _ _ _)
    rw [hframe, hd, Dev.wr_frame, horigin, hw0]
  · rw [hd, Dev.wr_time, hrt, htime]
  · rw [hd, Dev.wr_rd_ne _ _ (by decide), hstep]
  · rw [hd, Dev.wr_rd]
    rfl
  · have hlo : f.lo < 32 := by
      simp only [Fld.still, Bool.and_eq_true, decide_eq_true_eq] at hf
      exact hf.1.1.1
    have apart (l : Nat) (hl : l < 32) : f.key ≠ 0x6004 * 32 + l := by
      simp only [F.TIM_STAT_STEPPED] at hne
      simp only [Fld.key]
      omega
    rw [hd, Dev.wr_rd_ne _ _ (apart 0 (by omega)), hrd f hf (apart 9 (by omega)), kept (.rd hf), Dev.takePkt_rd]
  · exact Dev.reply_replied s _ h 0x0700 .ok 0 _ (State.accepts_port a) (.inl rfl)

/-! ## PULSE_SET -/

/-- The registers of pulse output `n` before its MODE and its target are written. -/
def Dev.pulseBase (d : Dev) (ps : List Word) (n : Nat) : Dev :=
  ((((d.wr (F.TIM_OUT_PER_LO n) (pw ps 4)).wr (F.TIM_OUT_PER_HI n) (pw ps 5)).wr (F.TIM_OUT_WIDTH n) (pw ps 6)).wr (F.TIM_OUT_CTRL_POL n) (bits (pw ps 1) 2 1)).wr
    (F.TIM_OUT_TGT_LO n) (pw ps 2)

/-- The registers of pulse output `n` as PULSE_SET leaves them; PEND is clear before the target where MODE 0 was written. -/
def Dev.pulseRegs (d : Dev) (ps : List Word) (n mode : Nat) : Dev :=
  let d := (d.pulseBase ps n).wr (F.TIM_OUT_CTRL_MODE n) mode
  ((if mode = 0 then d.wr (F.TIM_OUT_CTRL_PEND n) 0 else d).wr (F.TIM_OUT_TGT_HI n) (pw ps 3)).wr (F.TIM_OUT_CTRL_PEND n) 1

section
variable (d : Dev) (ps : List Word) (n mode : Nat)

theorem Dev.pulseRegs_rd_ne {f : Fld} (h1 : f.key ≠ (F.TIM_OUT_CTRL_PEND n).key) (h2 : f.key ≠ (F.TIM_OUT_TGT_HI n).key) :
    (d.pulseRegs ps n mode).rd f = ((d.pulseBase ps n).wr (F.TIM_OUT_CTRL_MODE n) mode).rd f := by
  unfold Dev.pulseRegs
  rw [Dev.wr_rd_ne _ _ h1, Dev.wr_rd_ne _ _ h2]
  exact ite_keeps (g := (Dev.rd · f)) (fun _ => Dev.wr_rd_ne _ _ h1) fun _ => rfl

theorem Dev.pulseRegs_pend : (d.pulseRegs ps n mode).rd (F.TIM_OUT_CTRL_PEND n) = 1 := Dev.wr_rd _ _ _

theorem Dev.pulseRegs_tgtHi : (d.pulseRegs ps n mode).rd (F.TIM_OUT_TGT_HI n) = pw ps 3 := by
  unfold Dev.pulseRegs
  rw [Dev.wr_rd_ne _ _ (by simp only [Fld.key, F.TIM_OUT_TGT_HI, F.TIM_OUT_CTRL_PEND]; omega), Dev.wr_rd]
  exact Nat.mod_eq_of_lt (pw_lt ps 3)

theorem Dev.pulseRegs_mode : (d.pulseRegs ps n mode).rd (F.TIM_OUT_CTRL_MODE n) = mode % 4 := by
  rw [Dev.pulseRegs_rd_ne, Dev.wr_rd]
  · rfl
  · simp only [Fld.key, F.TIM_OUT_CTRL_MODE, F.TIM_OUT_CTRL_PEND]; omega
  · simp only [Fld.key, F.TIM_OUT_CTRL_MODE, F.TIM_OUT_TGT_HI]; omega

/-- A field of the output's block that is neither MODE, PEND nor TGT_HI. -/
theorem Dev.pulseRegs_base {f : Fld} (h0 : f.key ≠ (F.TIM_OUT_CTRL_MODE n).key) (h1 : f.key ≠ (F.TIM_OUT_CTRL_PEND n).key) (h2 : f.key ≠ (F.TIM_OUT_TGT_HI n).key) :
    (d.pulseRegs ps n mode).rd f = (d.pulseBase ps n).rd f := by
  rw [Dev.pulseRegs_rd_ne d ps n mode h1 h2, Dev.wr_rd_ne _ _ h0]

theorem Dev.pulseBase_tgtLo : (d.pulseBase ps n).rd (F.TIM_OUT_TGT_LO n) = pw ps 2 :=
  (Dev.wr_rd _ _ _).trans (Nat.mod_eq_of_lt (pw_lt ps 2))

theorem Dev.pulseBase_pol : (d.pulseBase ps n).rd (F.TIM_OUT_CTRL_POL n) = bits (pw ps 1) 2 1 := by
  unfold Dev.pulseBase
  rw [Dev.wr_rd_ne _ _ (by simp only [Fld.key, F.TIM_OUT_CTRL_POL, F.TIM_OUT_TGT_LO]; omega), Dev.wr_rd]
  exact Nat.mod_mod _ 2

theorem Dev.pulseBase_width : (d.pulseBase ps n).rd (F.TIM_OUT_WIDTH n) = pw ps 6 := by
  unfold Dev.pulseBase
  rw [Dev.wr_rd_ne, Dev.wr_rd_ne, Dev.wr_rd]
  · exact Nat.mod_eq_of_lt (pw_lt ps 6)
  · simp only [Fld.key, F.TIM_OUT_WIDTH, F.TIM_OUT_CTRL_POL]; omega
  · simp only [Fld.key, F.TIM_OUT_WIDTH, F.TIM_OUT_TGT_LO]; omega

theorem Dev.pulseBase_perHi : (d.pulseBase ps n).rd (F.TIM_OUT_PER_HI n) = pw ps 5 % 65536 := by
  unfold Dev.pulseBase
  rw [Dev.wr_rd_ne, Dev.wr_rd_ne, Dev.wr_rd_ne, Dev.wr_rd]
  · rfl
  · simp only [Fld.key, F.TIM_OUT_PER_HI, F.TIM_OUT_WIDTH]; omega
  · simp only [Fld.key, F.TIM_OUT_PER_HI, F.TIM_OUT_CTRL_POL]; omega
  · simp only [Fld.key, F.TIM_OUT_PER_HI, F.TIM_OUT_TGT_LO]; omega

theorem Dev.pulseBase_perLo : (d.pulseBase ps n).rd (F.TIM_OUT_PER_LO n) = pw ps 4 := by
  unfold Dev.pulseBase
  rw [Dev.wr_rd_ne, Dev.wr_rd_ne, Dev.wr_rd_ne, Dev.wr_rd_ne, Dev.wr_rd]
  · exact Nat.mod_eq_of_lt (pw_lt ps 4)
  · simp only [Fld.key, F.TIM_OUT_PER_LO, F.TIM_OUT_PER_HI]; omega
  · simp only [Fld.key, F.TIM_OUT_PER_LO, F.TIM_OUT_WIDTH]; omega
  · simp only [Fld.key, F.TIM_OUT_PER_LO, F.TIM_OUT_CTRL_POL]; omega
  · simp only [Fld.key, F.TIM_OUT_PER_LO, F.TIM_OUT_TGT_LO]; omega

/-- Registers outside the output's block stay. -/
theorem Dev.pulseRegs_other {f : Fld} (hlo : f.lo < 32) (h : f.addr < 0x6100 + 32 * n ∨ 0x6120 + 32 * n ≤ f.addr) : (d.pulseRegs ps n mode).rd f = d.rd f := by
  have apart {k : Fld} (h1 : 0x6100 + n * 32 ≤ k.addr) (h2 : k.addr < 0x6120 + n * 32) (hl : k.lo < 32) : f.key ≠ k.key := by
    simp only [Fld.key]
    omega
  have hpend : f.key ≠ (F.TIM_OUT_CTRL_PEND n).key := apart (by simp [F.TIM_OUT_CTRL_PEND]) (by simp [F.TIM_OUT_CTRL_PEND]) (by simp [F.TIM_OUT_CTRL_PEND])
  have hmode : f.key ≠ (F.TIM_OUT_CTRL_MODE n).key := apart (by simp [F.TIM_OUT_CTRL_MODE]) (by simp [F.TIM_OUT_CTRL_MODE]) (by simp [F.TIM_OUT_CTRL_MODE])
  have hpol : f.key ≠ (F.TIM_OUT_CTRL_POL n).key := apart (by simp [F.TIM_OUT_CTRL_POL]) (by simp [F.TIM_OUT_CTRL_POL]) (by simp [F.TIM_OUT_CTRL_POL])
  have htlo : f.key ≠ (F.TIM_OUT_TGT_LO n).key := apart (by simp only [F.TIM_OUT_TGT_LO]; omega) (by simp only [F.TIM_OUT_TGT_LO]; omega) (by simp [F.TIM_OUT_TGT_LO])
  have hthi : f.key ≠ (F.TIM_OUT_TGT_HI n).key := apart (by simp only [F.TIM_OUT_TGT_HI]; omega) (by simp only [F.TIM_OUT_TGT_HI]; omega) (by simp [F.TIM_OUT_TGT_HI])
  have hplo : f.key ≠ (F.TIM_OUT_PER_LO n).key := apart (by simp only [F.TIM_OUT_PER_LO]; omega) (by simp only [F.TIM_OUT_PER_LO]; omega) (by simp [F.TIM_OUT_PER_LO])
  have hphi : f.key ≠ (F.TIM_OUT_PER_HI n).key := apart (by simp only [F.TIM_OUT_PER_HI]; omega) (by simp only [F.TIM_OUT_PER_HI]; omega) (by simp [F.TIM_OUT_PER_HI])
  have hwid : f.key ≠ (F.TIM_OUT_WIDTH n).key := apart (by simp only [F.TIM_OUT_WIDTH]; omega) (by simp only [F.TIM_OUT_WIDTH]; omega) (by simp [F.TIM_OUT_WIDTH])
  rw [Dev.pulseRegs_base d ps n mode hmode hpend hthi]
  unfold Dev.pulseBase
  rw [Dev.wr_rd_ne _ _ htlo, Dev.wr_rd_ne _ _ hpol, Dev.wr_rd_ne _ _ hwid, Dev.wr_rd_ne _ _ hphi, Dev.wr_rd_ne _ _ hplo]

end

/-- The output as its MODE is written (R51, R52), its rules being kept. -/
def PulseOut.setMode (x : PulseOut) (mode was : Nat) (now : BitVec 64) (inc : Nat) : PulseOut :=
  if mode = 0 then { x with armed := false, active := false, held := none, passed := none, edge := if x.active then now + BitVec.ofNat 64 inc else x.edge }
  else if was = 0 && x.armed then x.aim x.target now else x

theorem PulseOut.setMode_per (x : PulseOut) (mode was : Nat) (now : BitVec 64) (inc : Nat) : (x.setMode mode was now inc).per = x.per := by
  unfold PulseOut.setMode PulseOut.aim
  split_ifs <;> rfl

theorem PulseOut.setMode_active (x : PulseOut) (mode was : Nat) (now : BitVec 64) (inc : Nat) : (x.setMode mode was now inc).active = (x.active && decide (mode ≠ 0)) := by
  unfold PulseOut.setMode PulseOut.aim
  split_ifs with h0 <;> simp [h0]

theorem PulseOut.setMode_target {x : PulseOut} {mode : Nat} (h : mode ≠ 0) (was : Nat) (now : BitVec 64) (inc : Nat) : (x.setMode mode was now inc).target = x.target := by
  unfold PulseOut.setMode PulseOut.aim
  rw [if_neg h]
  split_ifs <;> rfl

/-- The output as its target is written (R51). -/
def PulseOut.setTarget (x : PulseOut) (t now : BitVec 64) : PulseOut := if x.active then { x with held := some t } else x.aim t now

theorem PulseOut.setTarget_per (x : PulseOut) (t now : BitVec 64) : (x.setTarget t now).per = x.per := by
  unfold PulseOut.setTarget PulseOut.aim
  split_ifs <;> rfl

theorem PulseOut.setTarget_active {x : PulseOut} (h : x.active = true) (t now : BitVec 64) : (x.setTarget t now).held = some t ∧ (x.setTarget t now).target = x.target := by
  unfold PulseOut.setTarget
  rw [if_pos h]
  exact ⟨rfl, rfl⟩

theorem PulseOut.setTarget_idle {x : PulseOut} (h : x.active = false) (t now : BitVec 64) : (x.setTarget t now).target = t ∧ (x.setTarget t now).armed = true := by
  unfold PulseOut.setTarget
  rw [if_neg (by simp [h])]
  exact ⟨rfl, rfl⟩

/-- A write of MODE where the rules of R52 are kept. -/
theorem Wk.outMode_d {w : Wk} {n mode : Nat} (hm : mode = 0 ∨ mode ≤ 2 ∧ outRulesOk mode (w.d.out n).per (w.d.rd (F.TIM_OUT_WIDTH n)) = true) :
    (w.outMode n mode).d = (if mode = 0 then (w.d.wr (F.TIM_OUT_CTRL_MODE n) mode).wr (F.TIM_OUT_CTRL_PEND n) 0 else w.d.wr (F.TIM_OUT_CTRL_MODE n) mode).setOut n
      ((w.d.out n).setMode mode (w.d.rd (F.TIM_OUT_CTRL_MODE n)) w.d.time.now w.d.time.incI) := by
  unfold Wk.outMode PulseOut.setMode
  by_cases h0 : mode = 0
  · subst h0
    rfl
  · have hrules := hm.resolve_left h0
    simp only [h0, if_false, hrules, and_self, if_true]
    rfl

/-- A write of TGT_HI. -/
theorem Wk.outTgtHi_d (w : Wk) (n v : Nat) : (w.outTgtHi n v).d = ((w.d.wr (F.TIM_OUT_TGT_HI n) v).wr (F.TIM_OUT_CTRL_PEND n) 1).setOut n
    ((w.d.out n).setTarget (BitVec.ofNat 64 (v * 2 ^ 32 + ((w.d.wr (F.TIM_OUT_TGT_HI n) v).wr (F.TIM_OUT_CTRL_PEND n) 1).rd (F.TIM_OUT_TGT_LO n))) w.d.time.now) := by
  unfold Wk.outTgtHi PulseOut.setTarget
  show (if (w.d.out n).active then _ else _) = _
  split
  · rfl
  · rfl

theorem Wk.outMode_ms (w : Wk) (n mode : Nat) : (w.outMode n mode).ms = w.ms := by
  unfold Wk.outMode Wk.outRej
  dsimp only
  split_ifs <;> rfl

theorem Wk.outTgtHi_ms (w : Wk) (n v : Nat) : (w.outTgtHi n v).ms = w.ms := rfl

/-- What PULSE_SET's writes leave of the registers, the outputs and the rest, where the rules of R52 are kept. -/
theorem Wk.pulseSet_sees {w : Wk} {d : Dev} {ps : List Word} {n mode : Nat} {x : PulseOut} (hd : w.d = (d.pulseBase ps n).setOut n x)
    (hm : mode = 0 ∨ mode ≤ 2 ∧ outRulesOk mode (w.d.out n).per (w.d.rd (F.TIM_OUT_WIDTH n)) = true) :
    let e := ((w.outMode n mode).outTgtHi n (pw ps 3)).d
    e.regs = (d.pulseRegs ps n mode).regs ∧ (∀ m, m ≠ n → e.out m = d.out m) ∧ e.time.now = d.time.now ∧ e.run = d.run ∧ e.waits = d.waits ∧
      ∃ was inc, e.out n = (x.setMode mode was d.time.now inc).setTarget (BitVec.ofNat 64 (pw ps 3 * 2 ^ 32 + pw ps 2)) d.time.now := by
  intro e
  have hud := Wk.outMode_d hm
  have he : e = _ := (w.outMode n mode).outTgtHi_d n (pw ps 3)
  have hx : w.d.out n = x := by rw [hd, Dev.setOut_out]
  have regs : (((w.outMode n mode).d.wr (F.TIM_OUT_TGT_HI n) (pw ps 3)).wr (F.TIM_OUT_CTRL_PEND n) 1).regs = (d.pulseRegs ps n mode).regs := by
    rw [hud, hd]
    unfold Dev.pulseRegs
    split
    · rfl
    · rfl
  have htgt : (((w.outMode n mode).d.wr (F.TIM_OUT_TGT_HI n) (pw ps 3)).wr (F.TIM_OUT_CTRL_PEND n) 1).rd (F.TIM_OUT_TGT_LO n) = pw ps 2 := by
    refine (congrArg (fun r => tget (F.TIM_OUT_TGT_LO n).rst r (F.TIM_OUT_TGT_LO n).key % 2 ^ (F.TIM_OUT_TGT_LO n).width) regs).trans ?_
    refine .trans (Dev.pulseRegs_base d ps n mode ?_ ?_ ?_) (Dev.pulseBase_tgtLo d ps n)
    · simp only [Fld.key, F.TIM_OUT_TGT_LO, F.TIM_OUT_CTRL_MODE]; omega
    · simp only [Fld.key, F.TIM_OUT_TGT_LO, F.TIM_OUT_CTRL_PEND]; omega
    · simp only [Fld.key, F.TIM_OUT_TGT_LO, F.TIM_OUT_TGT_HI]; omega
  have rest {β : Type} {g : Dev → β} (hw : ∀ d f v, g (d.wr f v) = g d) (ho : ∀ d y, g (Dev.setOut d n y) = g d) : g e = g d := by
    rw [he, ho, hw, hw, hud, ho, hd]
    refine (ite_keeps (d := (d.pulseBase ps n).setOut n x) (fun _ => ?_) fun _ => hw _ _ _).trans ?_
    · rw [hw, hw]
    · rw [ho]
      simp only [Dev.pulseBase, hw]
  refine ⟨?_, fun m hne => ?_, rest (g := fun d => d.time.now) (fun _ _ _ => rfl) fun _ _ => rfl, rest (g := Dev.run) (fun _ _ _ => rfl) fun _ _ => rfl,
    rest (g := Dev.waits) (fun _ _ _ => rfl) fun _ _ => rfl,
    w.d.rd (F.TIM_OUT_CTRL_MODE n), w.d.time.incI, ?_⟩
  · rw [he, Dev.setOut_regs, regs]
  · exact rest (g := (Dev.out · m)) (fun _ _ _ => rfl) fun d y => Dev.setOut_out_ne d n m y hne
  · have hnow : w.d.time.now = d.time.now := by rw [hd]; rfl
    have hnow' : (w.outMode n mode).d.time.now = d.time.now := by
      rw [hud, hnow.symm]
      exact ite_keeps (g := fun d : Dev => d.time.now) (fun _ => rfl) fun _ => rfl
    have hout : (w.outMode n mode).d.out n = x.setMode mode (w.d.rd (F.TIM_OUT_CTRL_MODE n)) d.time.now w.d.time.incI := by rw [hud, Dev.setOut_out, hx, hnow]
    rw [he, Dev.setOut_out, htgt, hout, hnow']

theorem pulseSet_accepted {s : State} {h : Hdr} {ps : List Word} (a : s.accepts 0x0702 h ps (pulseSetCmd h ps) = true) :
    let n := pw ps 0 % 8
    let mode := pw ps 1 % 4
    let go : BitVec 64 := BitVec.ofNat 64 (pw ps 3 * 2 ^ 32 + pw ps 2)
    let wait : Bool := (s.dev.out n).active && decide (mode ≠ 0)
    n < 5 ∧ Does (.pulseSet h ps) s fun t =>
      t.dev.rd (F.TIM_OUT_CTRL_MODE n) = mode ∧ t.dev.rd (F.TIM_OUT_CTRL_POL n) = bits (pw ps 1) 2 1 ∧ t.dev.rd (F.TIM_OUT_CTRL_PEND n) = 1 ∧
        t.dev.rd (F.TIM_OUT_TGT_LO n) = pw ps 2 ∧ t.dev.rd (F.TIM_OUT_TGT_HI n) = pw ps 3 ∧ t.dev.rd (F.TIM_OUT_PER_LO n) = pw ps 4 ∧
        t.dev.rd (F.TIM_OUT_PER_HI n) = pw ps 5 % 65536 ∧ t.dev.rd (F.TIM_OUT_WIDTH n) = pw ps 6 ∧
        (t.dev.out n).per = pw ps 5 % 65536 * 2 ^ 32 + pw ps 4 ∧
        (if wait then (t.dev.out n).held = some go ∧ (t.dev.out n).target = (s.dev.out n).target else (t.dev.out n).target = go ∧ (t.dev.out n).armed = true) ∧
        (∀ m : Nat, m ≠ n → t.dev.out m = s.dev.out m) ∧
        (∀ f : Fld, f.lo < 32 → (f.addr < 0x6100 + 32 * n ∨ 0x6120 + 32 * n ≤ f.addr) → t.dev.rd f = s.dev.rd f) ∧
        t.vault = s.vault ∧ t.dev.time.now = s.dev.time.now ∧ t.dev.run = s.dev.run ∧ t.dev.waits = s.dev.waits := by
  intro n mode go wait
  have c := State.accepts_check a
  simp only [pulseSetCmd, refused_or_eq_none, badParam_eq_none, decide_eq_false_iff_not, Bool.not_eq_false'] at c
  obtain ⟨hn, hm3, -, hrules⟩ := c
  have hmlt : mode < 4 := Nat.mod_lt _ (by omega)
  have hm3 : mode ≠ 3 := hm3
  obtain ⟨d0, hd0⟩ : ∃ d0, s.dev.takePkt 0x0702 h ps = d0 := ⟨_, rfl⟩
  obtain ⟨per, hper⟩ : ∃ per, per = pw ps 5 % 65536 * 2 ^ 32 + pw ps 4 := ⟨_, rfl⟩
  have htime0 : d0.time = s.dev.time := hd0 ▸ Dev.takePkt_keeps OffPorts.time _ _ _ _
  have hout0 (m : Nat) : d0.out m = s.dev.out m := by simp only [Dev.out, htime0]
  obtain ⟨w, hw⟩ : ∃ w, (s.taking 0x0702 h ps).up (fun d => (d.pulseBase ps n).setOut n { (d.pulseBase ps n).out n with per := pw ps 5 % 65536 * 2 ^ 32 + pw ps 4 }) = w := ⟨_, rfl⟩
  have hd : w.d = (d0.pulseBase ps n).setOut n { d0.out n with per := per } := by subst hw hd0 hper; rfl
  have hact : (pulseSetCmd h ps).act (s.taking 0x0702 h ps) = ((w.outMode n mode).outTgtHi n (pw ps 3)).ok 0x0702 h [] := by subst hw; rfl
  have hmode : mode = 0 ∨ mode ≤ 2 ∧ outRulesOk mode (w.d.out n).per (w.d.rd (F.TIM_OUT_WIDTH n)) = true := by
    refine .inr ⟨by omega, ?_⟩
    rw [hd, Dev.setOut_out, Dev.setOut_rd, Dev.pulseBase_width, hper]
    exact hrules
  have hx : w.d.out n = { d0.out n with per := per } := by rw [hd, Dev.setOut_out]
  obtain ⟨hregs, hother, hnow, hrun, hwaits, was, inc, hout⟩ := Wk.pulseSet_sees hd hmode
  obtain ⟨e, he⟩ : ∃ e, ((w.outMode n mode).outTgtHi n (pw ps 3)).d = e := ⟨_, rfl⟩
  rw [he] at hregs hother hnow hrun hwaits hout
  have hrd (f : Fld) : (e.replyOk h 0x0702 []).rd f = (d0.pulseRegs ps n mode).rd f :=
    (Dev.replyOk_rd _ _ _ _ _).trans (congrArg (fun r => tget f.rst r f.key % 2 ^ f.width) hregs)
  have hkeep {f : Fld} (hlo : f.lo < 32) (hf : f.addr < 0x6100 + 32 * n ∨ 0x6120 + 32 * n ≤ f.addr) : (e.replyOk h 0x0702 []).rd f = s.dev.rd f := by
    rw [hrd, Dev.pulseRegs_other d0 ps n mode hlo hf, ← hd0, Dev.takePkt_rd]
  have htime : (e.replyOk h 0x0702 []).time = e.time := Dev.reply_keeps OffPorts.time _ _ _ _ _ _
  have houts (m : Nat) : (e.replyOk h 0x0702 []).out m = e.out m := by simp only [Dev.out, htime]
  have hexec : exec (.pulseSet h ps) s = .next (s.withDev (e.replyOk h 0x0702 [])) :=
    (exec_pulseSet h ps s).trans (State.command_did a (by rw [hact, Wk.ok_d, he]) (by rw [hact, Wk.ok_ms, Wk.outTgtHi_ms, Wk.outMode_ms, ← hw]; rfl)
      (hkeep (by decide) (.inr (by simp only [F.STK_STAT_ROLE]; omega))) (hkeep (by decide) (.inr (by simp only [F.TWN_STAT_STATE]; omega))))
  refine ⟨by omega, _, hexec, ?_⟩
  have base {f : Fld} := d0.pulseRegs_base ps n mode (f := f)
  simp only [hrd, houts, htime, hout]
  refine ⟨(d0.pulseRegs_mode ps n mode).trans (Nat.mod_eq_of_lt hmlt), ?_, d0.pulseRegs_pend ps n mode, ?_, d0.pulseRegs_tgtHi ps n mode, ?_, ?_, ?_, ?_, ?_, fun m hne => (hother m hne).trans (hout0 m),
    fun f hlo hf => (hrd f).symm.trans (hkeep hlo hf), trivial, hnow.trans (by rw [htime0]), ?_, ?_⟩
  · refine (base ?_ ?_ ?_).trans (d0.pulseBase_pol ps n)
    · simp only [Fld.key, F.TIM_OUT_CTRL_POL, F.TIM_OUT_CTRL_MODE]; omega
    · simp only [Fld.key, F.TIM_OUT_CTRL_POL, F.TIM_OUT_CTRL_PEND]; omega
    · simp only [Fld.key, F.TIM_OUT_CTRL_POL, F.TIM_OUT_TGT_HI]; omega
  · refine (base ?_ ?_ ?_).trans (d0.pulseBase_tgtLo ps n)
    · simp only [Fld.key, F.TIM_OUT_TGT_LO, F.TIM_OUT_CTRL_MODE]; omega
    · simp only [Fld.key, F.TIM_OUT_TGT_LO, F.TIM_OUT_CTRL_PEND]; omega
    · simp only [Fld.key, F.TIM_OUT_TGT_LO, F.TIM_OUT_TGT_HI]; omega
  · refine (base ?_ ?_ ?_).trans (d0.pulseBase_perLo ps n)
    · simp only [Fld.key, F.TIM_OUT_PER_LO, F.TIM_OUT_CTRL_MODE]; omega
    · simp only [Fld.key, F.TIM_OUT_PER_LO, F.TIM_OUT_CTRL_PEND]; omega
    · simp only [Fld.key, F.TIM_OUT_PER_LO, F.TIM_OUT_TGT_HI]; omega
  · refine (base ?_ ?_ ?_).trans (d0.pulseBase_perHi ps n)
    · simp only [Fld.key, F.TIM_OUT_PER_HI, F.TIM_OUT_CTRL_MODE]; omega
    · simp only [Fld.key, F.TIM_OUT_PER_HI, F.TIM_OUT_CTRL_PEND]; omega
    · simp only [Fld.key, F.TIM_OUT_PER_HI, F.TIM_OUT_TGT_HI]; omega
  · refine (base ?_ ?_ ?_).trans (d0.pulseBase_width ps n)
    · simp only [Fld.key, F.TIM_OUT_WIDTH, F.TIM_OUT_CTRL_MODE]; omega
    · simp only [Fld.key, F.TIM_OUT_WIDTH, F.TIM_OUT_CTRL_PEND]; omega
    · simp only [Fld.key, F.TIM_OUT_WIDTH, F.TIM_OUT_TGT_HI]; omega
  · rw [PulseOut.setTarget_per, PulseOut.setMode_per, hper]
  · have hact : (PulseOut.setMode { d0.out n with per := per } mode was d0.time.now inc).active = wait := by rw [PulseOut.setMode_active, hout0]
    split
    next hwait =>
      have h0 : mode ≠ 0 := by simpa using (Bool.and_eq_true_iff.1 hwait).2
      obtain ⟨hheld, htarget⟩ := PulseOut.setTarget_active (hact.trans hwait) go d0.time.now
      exact ⟨hheld, htarget.trans ((PulseOut.setMode_target h0 was _ inc).trans (by rw [hout0]))⟩
    next hwait => exact PulseOut.setTarget_idle (hact.trans (by simpa using hwait)) go d0.time.now
  · exact (Dev.reply_keeps OffPorts.run _ _ _ _ _ _).trans (hrun.trans (hd0 ▸ Dev.takePkt_keeps OffPorts.run _ _ _ _))
  · exact (Dev.reply_keeps OffPorts.waits _ _ _ _ _ _).trans (hwaits.trans (hd0 ▸ Dev.takePkt_keeps OffPorts.waits _ _ _ _))

/-- Settles O16: each of the three commands by what its writes leave. -/
theorem timeCommands : Obligations.TimeCommands :=
  ⟨fun _ _ _ a => timeInc_accepted a, fun _ _ _ a => timeStep_accepted a, fun _ _ _ a => pulseSet_accepted a⟩

end Sys2Proof.Machine

/-! Staged sets (R438 to R440, R464): which fields a set's values reach, and what follows from a set that applies. -/
namespace Sys2Proof.Machine

/-! ## What follows from a set that has applied -/

/-- A field of the map that no staged set holds. -/
def Fld.unstaged (k : Fld) : Bool := (fldOf k.key).all fun f => decide (f.app ≠ .stg)

/-- A staged field is none of them. -/
theorem Fld.staged_ne {f k : Fld} (ha : f.app = .stg) (hf : fldOf f.key = some f) (h : k.unstaged = true) : f.key ≠ k.key := by
  intro e
  rw [Fld.unstaged, ← e, hf] at h
  simp [ha] at h

theorem unstaged_bead : ∀ b < 96, ∀ k ∈ [F.BTH_STAT_HOT b, F.BTH_EXC_THM_BEXC b, F.BTH_TMAX b, F.BTH_STAT_BROKEN b, F.BTH_HELD b,
    F.BDT_STATE b, F.BDT_STATE_READY b, F.BDT_STATE_FAILED b, F.BDT_STATE_UNCONF b, F.BDT_TCHG b], k.unstaged = true := by decide +kernel

theorem unstaged_chEn : ∀ c < 256, (F.CH_CTRL_EN c).unstaged = true := by decide +kernel

theorem Fld.Sensor.unstaged {f : Fld} (h : f.Sensor) : f.unstaged = true := by
  rcases h with h | ⟨b, hb, h⟩
  · revert f
    decide +kernel
  · exact unstaged_bead b hb f (List.mem_of_mem_take (i := 5) h)

/-- What is seen by `g` is nothing of the beads and sensors, of the values that wait, or of fields that no staged set holds. -/
structure OffSet {β : Type} (g : Dev → β) : Prop extends Off (·.unstaged = true) g where
  bead : ∀ d b x, g (Dev.setBead d b x) = g d
  sens : ∀ d i x, g (Dev.setSens d i x) = g d
  frm : ∀ d l, g { d with frm := l } = g d

theorem OffSet.sensors {β : Type} {g : Dev → β} (h : OffSet g) : OffSensors g := ⟨h.toOff.mono fun _ hf => hf.unstaged, h.sens, fun d b x _ => h.bead d b x⟩

section
variable {β : Type} {g : Dev → β} (hg : OffSet g)
include hg

theorem Dev.frmNext_keeps (d : Dev) {f : Fld} (h : f.unstaged = true) (v : Nat) : g (d.frmNext f v) = g d :=
  ite_keeps (fun _ => (hg.wr _ _ _ h).trans (hg.frm _ _)) fun _ => hg.frm _ _

theorem Dev.legsOn_keeps (d : Dev) (b : Nat) (on : Bool) : g (d.legsOn b on) = g d :=
  foldl_keeps (fun c hc e => Dev.frmNext_keeps hg e (unstaged_chEn c (by
    rcases List.mem_append.1 hc with h | h <;> simpa using (List.mem_filter.1 h).1)) _) d

theorem Dev.beadGone_keeps (d : Dev) {b : Nat} (h : b < 96) : g (d.beadGone b) = g d := by
  refine ite_keeps (fun _ => hg.bead _ _ _) fun _ => ?_
  rw [hg.wr _ _ _ (unstaged_bead b h _ (by simp)), hg.wr _ _ _ (unstaged_bead b h _ (by simp)), hg.wr _ _ _ (unstaged_bead b h _ (by simp)),
    hg.wr _ _ _ (unstaged_bead b h _ (by simp)), hg.wr _ _ _ (unstaged_bead b h _ (by simp)), hg.bead]
  exact Dev.legsOn_keeps hg d b false

theorem Dev.startDiscovery_keeps (d : Dev) (b s : Nat) : g (d.startDiscovery b s) = g d := hg.bead _ _ _

theorem Dev.afterEnable_keeps (d old : Dev) : g (d.afterEnable old) = g d := foldl_keeps (fun b _ e => Dev.enableFollow_keeps hg.sensors e old b) d

omit hg in
theorem Dev.standing_bead {d : Dev} {x : Nat × Nat × Nat} (h : x ∈ d.standing) : x.1 < 96 := by
  simp only [Dev.standing, List.mem_flatMap, List.mem_filterMap] at h
  obtain ⟨s, -, p, -, hp⟩ := h
  split at hp
  next hc =>
    cases hp
    exact hc.2
  next => exact nomatch hp

theorem Dev.afterSet_keeps (d old : Dev) : g (d.afterSet old) = g d := by
  unfold Dev.afterSet
  refine (foldl_keeps (fun e _ u => ite_keeps (fun _ => Dev.resetSens_keeps hg.sensors u e.1) fun _ => rfl) _).trans
    ((Dev.afterEnable_keeps hg _ _).trans ((foldl_keeps (fun x _ u => ite_keeps (fun _ => Dev.startDiscovery_keeps hg u _ _) fun _ => rfl) _).trans
      (foldl_keeps (fun x hx u => Dev.beadGone_keeps hg u (Dev.standing_bead (List.mem_filter.1 hx).1)) d)))

end

/-! ## The values of a set (R440) -/

theorem tget_absent {α : Type} {d : α} {l : Tab α} {k : Nat} (h : ∀ e ∈ l, e.1 ≠ k) : tget d l k = d := by
  induction l with
  | nil => rfl
  | cons e l ih => exact (if_neg (h e (by simp))).trans (ih fun x hx => h x (by simp [hx]))

/-- A fold of writes through the register map: a field reads what the entries of its key have written last. -/
theorem Dev.wrKey_rd_ne (d : Dev) {key : Nat} (v : Nat) {f : Fld} (h : f.key ≠ key) : (d.wrKey key v).rd f = d.rd f := by
  unfold Dev.wrKey
  split
  next k hk => exact Dev.wr_rd_ne d v (by rw [fldOf_key hk]; exact h)
  next => rfl

theorem Dev.wrKey_rd (d : Dev) {f : Fld} (h : fldOf f.key = some f) (v : Nat) : (d.wrKey f.key v).rd f = v % 2 ^ f.width := by
  unfold Dev.wrKey
  rw [h]
  exact Dev.wr_rd d f v

/-- The pending copy of a set takes effect field by field. -/
theorem Dev.stgFold_rd {f : Fld} (hf : fldOf f.key = some f) (l : Tab (Option Nat)) : ∀ d : Dev, twf none l = true →
    (l.foldl (fun d e => match e.2 with | some v => d.wrKey e.1 v | none => d) d).rd f = (match tget none l f.key with | some v => v % 2 ^ f.width | none => d.rd f) := by
  induction l with
  | nil => exact fun _ _ => rfl
  | cons e l ih =>
    obtain ⟨j, o⟩ := e
    intro d h
    simp only [twf, Bool.and_eq_true, decide_eq_true_eq, List.all_eq_true] at h
    obtain ⟨⟨ho, hl⟩, hr⟩ := h
    obtain ⟨v, rfl⟩ := Option.ne_none_iff_exists'.1 ho
    refine (ih _ hr).trans ?_
    by_cases hj : j = f.key
    · subst hj
      have later : tget none l f.key = none := tget_absent fun e he => Nat.ne_of_gt (hl e he)
      rw [later]
      simp only [tget, if_true]
      exact Dev.wrKey_rd d hf v
    · simp only [tget, hj, if_false]
      split
      · rfl
      · exact Dev.wrKey_rd_ne d v (Ne.symm hj)

theorem Dev.copied_lt (d : Dev) (f : Fld) : d.copied f < 2 ^ f.width := by
  unfold Dev.copied
  split
  · exact Nat.mod_lt _ (Nat.two_pow_pos _)
  · exact d.rd_lt f

/-- Writing copied values: a field that is written, or that has the copied value already, reads it. -/
theorem Dev.copyFold_rd {d : Dev} {f : Fld} (hf : fldOf f.key = some f) (l : Tab Nat) : ∀ x : Dev, x.rd f = d.copied f ∨ (∃ e ∈ l, e.1 = f.key) →
    (l.foldl (fun x e => match fldOf e.1 with | some k => x.wr k (d.copied k) | none => x) x).rd f = d.copied f := by
  induction l with
  | nil => exact fun x h => h.elim id fun ⟨_, he, _⟩ => nomatch he
  | cons e l ih =>
    intro x h
    refine ih _ ?_
    by_cases he : e.1 = f.key
    · left
      simp only [he, hf]
      exact (Dev.wr_rd x f _).trans (Nat.mod_eq_of_lt (d.copied_lt f))
    · refine h.imp (fun hx => ?_) fun ⟨y, hy, hk⟩ => ⟨y, (List.mem_cons.1 hy).resolve_left fun hye => he (hye ▸ hk), hk⟩
      simp only
      split
      next k hk => exact (Dev.wr_rd_ne x _ (by rw [fldOf_key hk]; exact Ne.symm he)).trans hx
      next => exact hx

/-- Where a staged field is listed neither in the registers nor in the copy, it has its reset value in both. -/
theorem Dev.applyCopy_rd (d : Dev) {f : Fld} (ha : f.app = .stg) (hf : fldOf f.key = some f) : d.applyCopy.rd f = d.copied f := by
  unfold Dev.applyCopy
  cases hb : d.stgCopy with
  | none => simp only [Dev.copied, hb]
  | some b =>
    refine Dev.copyFold_rd hf _ d ?_
    by_cases h : ∃ e ∈ stgRegs d.regs ++ b, e.1 = f.key
    · exact .inr h
    · left
      have absent : ∀ e ∈ stgRegs d.regs ++ b, e.1 ≠ f.key := fun e he hk => h ⟨e, he, hk⟩
      have hregs : tget f.rst d.regs f.key = f.rst := tget_absent fun e he hk =>
        absent e (List.mem_append_left _ (List.mem_filter.2 ⟨he, by simp [hk, hf, ha]⟩)) hk
      have hcopy : tget f.rst b f.key = f.rst := tget_absent fun e he => absent e (List.mem_append_right _ he)
      simp only [Dev.rd, Dev.copied, hb, hregs, hcopy]

/-- The value of a staged field once the set has applied. -/
theorem Dev.stageValues_rd (d : Dev) {f : Fld} (ha : f.app = .stg) (hf : fldOf f.key = some f) (h : twf none d.stg = true) :
    d.stageValues.rd f = (match tget none d.stg f.key with | some v => v % 2 ^ f.width | none => d.copied f) := by
  refine (Dev.stgFold_rd hf d.stg d.applyCopy h).trans ?_
  rw [d.applyCopy_rd ha hf]

/-- A set's values reach the registers alone, and the set closes. -/
theorem Dev.stageValues_keeps {β : Type} {g : Dev → β} (hw : ∀ d f v, g (Dev.wr d f v) = g d) (hc : ∀ d, g (Dev.closeSet d) = g d) (d : Dev) : g d.stageValues = g d := by
  have copy : g d.applyCopy = g d := by
    unfold Dev.applyCopy
    split
    · exact foldl_keeps (fun e _ x => by split; exacts [hw _ _ _, rfl]) d
    · rfl
  have key (x : Dev) (k v : Nat) : g (x.wrKey k v) = g x := by
    unfold Dev.wrKey
    split
    · exact hw _ _ _
    · rfl
  refine (hc _).trans (.trans (foldl_keeps (fun e _ x => ?_) d.applyCopy) copy)
  split
  · exact key _ _ _
  · rfl

/-! ## STAGE_APPLY -/

theorem stageApply_offence {s : State} {h : Hdr} {ps : List Word} {a : Nat} (acc : s.accepts Config.opStageApply h ps (stageApplyCmd h ps) = true)
    (ho : (s.dev.takePkt Config.opStageApply h ps).stageOffence = some a) :
    exec (.stageApply h ps) s = .next (s.withDev
      (((s.dev.takePkt Config.opStageApply h ps).notify 4 [9, if s.dev.running then seqOf s.dev.dueNext else 0]).reply h Config.opStageApply .stageInconsistent a [])) := by
  have hframe : (s.dev.takePkt Config.opStageApply h ps).frame = s.dev.frame := Dev.takePkt_keeps OffPorts.frame _ _ _ _
  have hrun : (s.dev.takePkt Config.opStageApply h ps).running = s.dev.running := by simp only [Dev.running, Dev.rdB, Dev.takePkt_rd]
  have hdue : (s.dev.takePkt Config.opStageApply h ps).dueNext = s.dev.dueNext := by simp only [Dev.dueNext, hframe]
  have hact : (stageApplyCmd h ps).act (s.taking Config.opStageApply h ps) =
      ((s.taking Config.opStageApply h ps).up fun d => d.notify 4 [9, if d.running then seqOf d.dueNext else 0]).refuse Config.opStageApply h (.stageInconsistent, a) := by
    simp only [stageApplyCmd, State.taking_d, ho]
  refine (exec_stageApply h ps s).trans (State.command_did acc ?_ (by rw [hact]; rfl) ?_ ?_)
  · rw [hact, ← hrun, ← hdue]
    rfl
  · rw [Dev.reply_rd, Dev.notify_rd, Dev.takePkt_rd]
  · rw [Dev.reply_rd, Dev.notify_rd, Dev.takePkt_rd]

theorem stageApply_waits {s : State} {h : Hdr} {ps : List Word} (acc : s.accepts Config.opStageApply h ps (stageApplyCmd h ps) = true)
    (ho : (s.dev.takePkt Config.opStageApply h ps).stageOffence = none) (hr : s.dev.running = true) :
    exec (.stageApply h ps) s = .next (s.begun Config.opStageApply h ps (fun d => { kind := .stageApply, hdr := h, op := Config.opStageApply, due := some d.dueNext })
      (fun d => some d.dueNext) fun d => { d with stage := some ⟨h.port, some d.dueNext⟩ }) := by
  have hrun : (s.dev.takePkt Config.opStageApply h ps).running = true := by simpa only [Dev.running, Dev.rdB, Dev.takePkt_rd] using hr
  have hact : (stageApplyCmd h ps).act (s.taking Config.opStageApply h ps) =
      ((s.taking Config.opStageApply h ps).up fun d => ({ d with stage := some ⟨h.port, some (s.taking Config.opStageApply h ps).d.dueNext⟩ }).wait
        { kind := .stageApply, hdr := h, op := Config.opStageApply, due := some (s.taking Config.opStageApply h ps).d.dueNext }).mirror
        Config.opStageApply ps (s.taking Config.opStageApply h ps).d.dueNext := by
    simp only [stageApplyCmd, State.taking_d, ho, hrun, if_true]
  refine (exec_stageApply h ps s).trans (State.command_did acc (by rw [hact]; rfl) (by rw [hact]; rfl) ?_ ?_)
  · exact (Dev.mirror_rd _ _ _).trans (Dev.takePkt_rd _ _ _ _ _)
  · exact (Dev.mirror_rd _ _ _).trans (Dev.takePkt_rd _ _ _ _ _)

/-- A change of the service maps is told, and changes the Olgen table alone (R484). -/
theorem Wk.keeps_olgSync {β : Type} {S : Nat → Prop} {g : Dev → β} (hp : OffPorts g) (ho : ∀ d o, g { d with olg := o } = g d) (h99 : S 99) (w : Wk) : w.Keeps S g w.olgSync := by
  unfold Wk.olgSync
  exact .ite (fun _ => .refl w) fun _ => .trans (.up ((Dev.notify_keeps g hp.port _ _ _).trans (ho _ _))) (.raise h99)

theorem Wk.olgSync_ms (w : Wk) : ∀ m ∈ w.olgSync.ms, m ∈ w.ms ∨ m.tag = (99, 0, 0) := by
  unfold Wk.olgSync
  intro m hm
  dsimp only at hm
  split at hm
  · exact .inl hm
  · refine (List.mem_append.1 hm).imp id fun h => ?_
    rw [List.mem_singleton.1 h]
    rfl

/-- The device as a set applies while the frame generator stands (R464): the values, what follows, and the end of step 5. -/
def Dev.stageAtOnce (d : Dev) : Dev :=
  let e := d.stageValues.afterSet d
  (if (e.rd F.CLK_START_STEP = 5 && (e.rd (F.HST_PSTAT_KA 0) ≠ 0 || e.rd (F.HST_PSTAT_KA 1) ≠ 0)) = true then e.wr F.CLK_START_STEP 6 else e).notify 4 [0, 0]

/-- What follows from a set reaches no staged field and none of the command's own parts. -/
theorem Wk.stageAtOnce_keeps {β : Type} {g : Dev → β} (hs : OffSet g) (hp : OffPorts g) (ho : OffOutputs g) (hl : ∀ d o, g { d with olg := o } = g d) (w : Wk) :
    g (w.up (·.stageAtOnce)).syncOutputs.olgSync.d = g w.d.stageValues := by
  have after : g w.d.stageAtOnce = g w.d.stageValues :=
    (Dev.notify_keeps g hp.port _ _ _).trans ((ite_keeps (fun _ => hs.wr _ _ _ (by decide +kernel)) fun _ => rfl).trans (Dev.afterSet_keeps hs _ _))
  exact ((Wk.keeps_olgSync (S := anySource) hp hl trivial _).dev.trans (Wk.keeps_syncOutputs (S := anySource) ho trivial _).dev).trans after

theorem stageApply_atOnce {s : State} {h : Hdr} {ps : List Word} (acc : s.accepts Config.opStageApply h ps (stageApplyCmd h ps) = true)
    (ho : (s.dev.takePkt Config.opStageApply h ps).stageOffence = none) (hr : s.dev.running = false) :
    Leaves (.stageApply h ps) s fun d ms => d.stage = none ∧ d.stg = [] ∧ d.stgCopy = none ∧ d.run = s.dev.run ∧ d.waits = s.dev.waits ∧ Replied (s.withDev d) h Config.opStageApply .ok 0 [0] ∧
      (∀ m ∈ ms, m.fs = 17 ∨ m.tag = (99, 0, 0)) ∧
      ∀ f : Fld, f.app = .stg → fldOf f.key = some f → twf none s.dev.stg = true →
        d.rd f = (match tget none s.dev.stg f.key with | some v => v % 2 ^ f.width | none => s.dev.copied f) := by
  obtain ⟨d0, hd0⟩ : ∃ d0, s.dev.takePkt Config.opStageApply h ps = d0 := ⟨_, rfl⟩
  rw [hd0] at ho
  have hrun : d0.running = false := by simpa only [← hd0, Dev.running, Dev.rdB, Dev.takePkt_rd] using hr
  obtain ⟨w, hw⟩ : ∃ w, ((s.taking Config.opStageApply h ps).up (·.stageAtOnce)).syncOutputs.olgSync = w := ⟨_, rfl⟩
  have hact : (stageApplyCmd h ps).act (s.taking Config.opStageApply h ps) = w.ok Config.opStageApply h [0] := by
    simp only [stageApplyCmd, State.taking_d, ho, hd0, hrun, Bool.false_eq_true, if_false, ← hw]
    rfl
  have kept {β : Type} {g : Dev → β} (hs : OffSet g) (hp : OffPorts g) (hu : OffOutputs g) (hl : ∀ d o, g { d with olg := o } = g d) :
      g (w.d.replyOk h Config.opStageApply [0]) = g d0.stageValues := by
    rw [← hw, ← hd0]
    exact (Dev.reply_keeps hp _ _ _ _ _ _).trans (Wk.stageAtOnce_keeps hs hp hu hl (s.taking Config.opStageApply h ps))
  have parts := kept (g := fun d => ((d.stage, d.stg, d.stgCopy), d.run, d.waits)) ⟨⟨fun _ _ _ _ => rfl⟩, fun _ _ _ => rfl, fun _ _ _ => rfl, fun _ _ => rfl⟩
    ⟨fun d p f => by simp, fun _ _ => rfl⟩ ⟨⟨fun _ _ => rfl, fun _ _ => rfl⟩, fun _ _ => rfl, fun _ _ => rfl⟩ fun _ _ => rfl
  simp only [Prod.mk.injEq] at parts
  obtain ⟨⟨hstage, hstg, hcopy⟩, hrunst, hwaits⟩ := parts
  have steady {β : Type} {g : Dev → β} (hp : OffPorts g) (hc : ∀ d, g (Dev.closeSet d) = g d) (hv : ∀ d f v, g (Dev.wr d f v) = g d) : g d0.stageValues = g s.dev :=
    (Dev.stageValues_keeps hv hc d0).trans (hd0 ▸ Dev.takePkt_keeps hp _ _ _ _)
  have hstg0 : d0.stg = s.dev.stg := hd0 ▸ Dev.takePkt_keeps OffPorts.stg _ _ _ _
  have hcopied (f : Fld) : d0.copied f = s.dev.copied f := by
    have hc : d0.stgCopy = s.dev.stgCopy := hd0 ▸ Dev.takePkt_keeps ⟨fun d p f => by simp, fun _ _ => rfl⟩ _ _ _ _
    have hr : d0.rd f = s.dev.rd f := hd0 ▸ Dev.takePkt_rd _ _ _ _ _
    simp only [Dev.copied, hc, hr]
  refine leaves_of_accepts (exec_stageApply h ps s) acc ?_
  simp only [hact, Wk.ok_d, Wk.ok_ms]
  refine ⟨hstage, hstg, hcopy, hrunst.trans (steady OffPorts.run (fun _ => rfl) fun _ _ _ => rfl), hwaits.trans (steady OffPorts.waits (fun _ => rfl) fun _ _ _ => rfl),
    Dev.reply_replied s _ h _ .ok 0 [0] (State.accepts_port acc) (.inl rfl), fun m hm => ?_, fun f ha hf htw => ?_⟩
  · obtain ⟨l, hl, hs⟩ := (Wk.keeps_syncOutputs (S := (· = 17)) (g := Dev.run) OffEdge.run.outputs rfl ((s.taking Config.opStageApply h ps).up (·.stageAtOnce))).ms
    rw [← hw] at hm
    refine (Wk.olgSync_ms _ m hm).imp (fun hm => hs m ?_) id
    rw [hl] at hm
    simpa using hm
  · have hne {k : Fld} (hk : k.unstaged = true) (d : Dev) (v : Nat) : (d.wr k v).rd f = d.rd f := Dev.wr_rd_ne d v (Fld.staged_ne ha hf hk)
    rw [kept (g := (Dev.rd · f)) ⟨⟨fun d k v hk => hne hk d v⟩, fun _ _ _ => rfl, fun _ _ _ => rfl, fun _ _ => rfl⟩ (OffPorts.rd f)
      ⟨⟨fun _ _ => rfl, hne (by decide +kernel)⟩, hne (by decide +kernel), hne (by decide +kernel)⟩ fun _ _ => rfl,
      Dev.stageValues_rd d0 ha hf (hstg0 ▸ htw), hstg0, hcopied]

/-- Settles O18: a set that breaks a rule, one that waits, and one that applies at once. -/
theorem stageApplyTakesTheWholeSetOrNothing : Obligations.StageApplyTakesTheWholeSetOrNothing :=
  ⟨fun _ _ _ _ acc ho => stageApply_offence acc ho, fun _ _ _ acc ho hr => stageApply_waits acc ho hr, fun _ _ _ acc ho hr => stageApply_atOnce acc ho hr⟩

end Sys2Proof.Machine

/-! A FRAME_BOUNDARY after which a held STAGE_APPLY overwrites the number and the window of the frame (R17, R21, R464). -/
namespace Sys2Proof.Machine

/-- The packet that the twin holds: of an opcode that none of the other held commands has. -/
def strayPkt : Pkt := ⟨0, ⟨0, false, 0, 0, 0, false⟩, []⟩

/-- Frames run, in the guard window, and a set is open whose values name SYS_FRM_STAT.SEQ and .WINDOW; a FRM value that is due stops
the frame generator at the boundary, behind which a held command is judged as a STAGE_APPLY: its set applies at once. -/
def strayState : State :=
  let d : Dev := (({} : Dev).wr F.SYS_FRM_CTRL_RUNNING 1).wr F.SYS_FRM_STAT_WINDOW 3
  { State.reset with dev := { d with
      stage := some ⟨0, none⟩
      stg := [(F.SYS_FRM_STAT_SEQ.key, some 7), (F.SYS_FRM_STAT_WINDOW.key, some 1)]
      frm := [(F.SYS_FRM_CTRL_RUNNING.key, [(0, 0)])]
      twn := { d.twn with held := [strayPkt] } } }

/-- The work with no packet held any more. -/
def Wk.unheld (w : Wk) : Wk := w.up (·.upTwn fun t => { t with held := [] })

/-- A set applies at once. -/
def Wk.stagesNow (w : Wk) : Wk := (w.up (·.stageAtOnce)).syncOutputs.olgSync

section
variable {w : Wk}

/-- Nothing is refused before the check of the command's own. -/
theorem Wk.preCheck_stray (htwin : w.d.twin = 0) (hrec : w.d.sec.recovery = false) (hlock : w.v.lockout = false) :
    w.preCheck strayPkt.op strayPkt.hdr strayPkt.ps = none := by
  simp [Wk.preCheck, badForm, plenFor, plenRange, strayPkt, Refused.or, no, Wk.noState, hrec, hlock, Dev.serves, Dev.mirrorBlind, htwin, claspFor, Wk.writesStg]

theorem Wk.check_stray (hopen : w.d.stage = some ⟨0, none⟩) : (stageApplyCmd strayPkt.hdr strayPkt.ps).check w = none := by
  simp [stageApplyCmd, Wk.noState, no, Dev.openOf, hopen, strayPkt]

theorem Wk.act_stray (hrule : w.d.stageOffence = none) (hstands : w.d.running = false) :
    (stageApplyCmd strayPkt.hdr strayPkt.ps).act w = w.stagesNow.ok Config.opStageApply strayPkt.hdr [0] := by
  simp only [stageApplyCmd, hrule, hstands, Bool.false_eq_true, if_false]
  rfl

/-- The packet is judged as a STAGE_APPLY of the open set, and where every rule holds of it, it applies. -/
theorem Wk.judgeHeld_stray (hheld : w.d.twn.held = [strayPkt]) (htwin : w.unheld.d.twin = 0) (hrec : w.unheld.d.sec.recovery = false) (hlock : w.unheld.v.lockout = false)
    (hopen : w.unheld.d.stage = some ⟨0, none⟩) (hrule : w.unheld.d.stageOffence = none) (hstands : w.unheld.d.running = false) :
    w.judgeHeld = w.unheld.stagesNow.ok Config.opStageApply strayPkt.hdr [0] := by
  have hhold : w.unheld.d.holdsCmd strayPkt.op = false := by simp [Dev.holdsCmd, htwin]
  have hjudge : w.unheld.judge strayPkt.op strayPkt.hdr strayPkt.ps (stageApplyCmd strayPkt.hdr strayPkt.ps) =
      (stageApplyCmd strayPkt.hdr strayPkt.ps).act w.unheld := by
    rw [Wk.judge, Wk.preCheck_stray htwin hrec hlock, Wk.check_stray hopen]
    rfl
  have hone : w.judgeHeld = if w.unheld.d.holdsCmd strayPkt.op then w.unheld.up (·.upTwn fun t => { t with held := t.held ++ [strayPkt] })
      else w.unheld.judge strayPkt.op strayPkt.hdr strayPkt.ps (stageApplyCmd strayPkt.hdr strayPkt.ps) := by
    rw [Wk.judgeHeld, hheld]
    rfl
  rw [hone, hhold, if_neg Bool.false_ne_true, hjudge, Wk.act_stray hrule hstands]

end

set_option maxRecDepth 100000 in
/-- What the boundary itself leaves to the command that is judged. -/
theorem strayState_boundary : strayState.wk.frameBoundary.d.twn.held = [strayPkt] ∧ strayState.wk.frameBoundary.unheld.d.twin = 0 ∧
    strayState.wk.frameBoundary.unheld.d.sec.recovery = false ∧ strayState.wk.frameBoundary.unheld.v.lockout = false ∧
    strayState.wk.frameBoundary.unheld.d.stage = some ⟨0, none⟩ ∧ strayState.wk.frameBoundary.unheld.d.stageOffence = none ∧
    strayState.wk.frameBoundary.unheld.d.running = false := by
  decide +kernel

set_option maxRecDepth 100000 in
/-- The set's values are in force once it has applied. -/
theorem strayState_applies : strayState.wk.frameBoundary.unheld.stagesNow.d.rd F.SYS_FRM_STAT_SEQ = 7 ∧
    strayState.wk.frameBoundary.unheld.stagesNow.d.rd F.SYS_FRM_STAT_WINDOW = 1 := by
  decide +kernel

/-- The row in a state with frames running, nothing mirrored to apply, and a packet held. -/
theorem exec_frameBoundary_held {s : State} (hrun : s.wk.d.running = true) (hsched : s.wk.d.twn.sched = []) (hheld : s.wk.d.twn.held.isEmpty = false) :
    exec .frameBoundary s = .next (s.settleWk s.vault s.wk.frameBoundary.judgeHeld) := by
  have hnone : s.wk.mirroredDue = s.wk := by simp [Wk.mirroredDue, hsched]
  have hexec := (exec_frameBoundary s).trans (s.run_next _)
  rw [hrun, Wk.on_true, hnone, hheld, Bool.not_false, Wk.on_true] at hexec
  exact hexec

/-- The work of the row. -/
theorem strayState_runs : exec .frameBoundary strayState = .next (strayState.settleWk strayState.vault
    (strayState.wk.frameBoundary.unheld.stagesNow.ok Config.opStageApply strayPkt.hdr [0])) := by
  obtain ⟨hheld, htwin, hrec, hlock, hopen, hrule, hstands⟩ := strayState_boundary
  rw [exec_frameBoundary_held (by decide +kernel) rfl rfl, Wk.judgeHeld_stray (w := strayState.wk.frameBoundary) hheld htwin hrec hlock hopen hrule hstands]

theorem Wk.ok_rd (w : Wk) (op : Nat) (h : Hdr) (ws : List Nat) (f : Fld) : (w.ok op h ws).d.rd f = w.d.rd f := Dev.reply_rd _ _ _ _ _ _ _

/-- Two works that settle to the same outcome read the same. -/
theorem rd_of_settled {s : State} {u w : Wk} (h : Host.Outcome.next (ρ := Refusal) (φ := Fault) (s.settleWk s.vault u) = .next (s.settleWk s.vault w)) {f : Fld} (hf : f.quiet = true) :
    u.d.rd f = w.d.rd f :=
  ((s.settleWk_calm s.vault u).rd f hf).symm.trans ((congrArg (fun t : State => t.dev.rd f) (Host.Outcome.next.inj h)).trans ((s.settleWk_calm s.vault w).rd f hf))

/-- Whatever work the row is said to have done, it has left the set's values in both fields. -/
theorem strayState_leaves {P : Dev → List Msg → Prop} (h : Leaves .frameBoundary strayState P) :
    ∃ d ms, P d ms ∧ d.rd F.SYS_FRM_STAT_SEQ = 7 ∧ d.rd F.SYS_FRM_STAT_WINDOW = 1 := by
  obtain ⟨w, hw, hP⟩ := h
  obtain ⟨hseq, hwin⟩ := strayState_applies
  have seen {f : Fld} (hf : f.quiet = true) : w.d.rd f = strayState.wk.frameBoundary.unheld.stagesNow.d.rd f :=
    (rd_of_settled (hw.symm.trans strayState_runs) hf).trans (Wk.ok_rd _ _ _ _ _)
  exact ⟨w.d, w.ms, hP, (seen (by decide)).trans hseq, (seen (by decide)).trans hwin⟩

/-- Refutes O52: the state `strayState`, of frame 0, whose boundary leaves SYS_FRM_STAT.SEQ at 7. A held command behind the boundary
applies an open set that names SEQ, since the boundary has stopped the frame generator by a FRM value that names RUNNING. -/
theorem not_framesAreNumberedModulo65536 : ¬ Obligations.FramesAreNumberedModulo65536 := by
  unfold Obligations.FramesAreNumberedModulo65536
  rintro ⟨hboundary, -⟩
  obtain ⟨d, -, ⟨-, hk⟩, hseq, -⟩ := strayState_leaves (hboundary strayState (by decide +kernel) (by decide +kernel))
  have h1 : (strayState.dev.frame.k + 1).toNat % 65536 = 1 := by decide +kernel
  omega

/-- Refutes O51: the boundary of `strayState` leaves SYS_FRM_STAT.WINDOW at 1, for the same reason. -/
theorem not_framesPassThroughTheirWindows : ¬ Obligations.FramesPassThroughTheirWindows := by
  unfold Obligations.FramesPassThroughTheirWindows
  rintro ⟨-, -, -, -, -, -, -, -, hboundary⟩
  obtain ⟨d, -, ⟨-, -, hzero, -⟩, -, hwin⟩ := strayState_leaves (hboundary strayState (by decide +kernel) (by decide +kernel))
  omega

end Sys2Proof.Machine

/-! Start-up (R526, R527): what its steps do. -/
namespace Sys2Proof.Machine

/-! ## BIST_COMPLETE -/

/-- The repair of a row reaches the map of the rows and the number of free ones alone. -/
theorem Wk.keeps_bistRow {β : Type} {g : Dev → β} (hm : ∀ d m f, g (Dev.upLpe { d with rowMap := m } f) = g d) (hs : ∀ d v, g (d.wr F.LPE_ECC_SPARES_LEFT v) = g d)
    (w : Wk) (r : Nat) : w.Keeps anySource g (w.bistRow r) := by
  unfold Wk.bistRow
  extract_lets left sp
  exact .ite (fun _ => .refl w) fun _ => .ite (fun _ => .raise trivial) fun _ => .trans (.up ((hs _ _).trans (hm _ _ _))) (.raise trivial)

theorem Wk.raise_tags (w : Wk) (fs kind inst : Nat) : (w.raise fs kind inst).ms.map Msg.tag = w.ms.map Msg.tag ++ [(fs, kind, inst)] := List.map_append

/-- A row to repair takes a spare one, where there is one (R253). -/
theorem Wk.bistRow_spares {w : Wk} {r : Nat} (h : r < 1024) :
    (w.bistRow r).d.rd F.LPE_ECC_SPARES_LEFT = w.d.rd F.LPE_ECC_SPARES_LEFT - 1 ∧
      (w.bistRow r).ms.map Msg.tag = w.ms.map Msg.tag ++ [if 0 < w.d.rd F.LPE_ECC_SPARES_LEFT then (28, 0, r) else (61, 0, r)] := by
  have hlt := w.d.rd_lt F.LPE_ECC_SPARES_LEFT
  unfold Wk.bistRow
  extract_lets left sp
  rw [if_neg (by omega)]
  by_cases hl : left = 0
  · rw [if_pos hl, if_neg (by omega)]
    exact ⟨by simp only [Wk.raise_d]; omega, Wk.raise_tags _ _ _ _⟩
  · rw [if_neg hl, if_pos (by omega)]
    exact ⟨(Dev.wr_rd _ _ _).trans (Nat.mod_eq_of_lt (Nat.lt_of_le_of_lt (Nat.sub_le _ _) hlt)), Wk.raise_tags _ _ _ _⟩

/-- The message of the `n`th row to repair, of `left` spare rows. -/
def bistTag (left : Nat) (x : Nat × Nat) : Nat × Nat × Nat := if x.2 < left then (28, 0, x.1) else (61, 0, x.1)

theorem Wk.bistRows (rows : List Nat) : ∀ w : Wk, (∀ r ∈ rows, r < 1024) →
    (w.each rows fun r w => w.bistRow r).d.rd F.LPE_ECC_SPARES_LEFT = w.d.rd F.LPE_ECC_SPARES_LEFT - rows.length ∧
      (w.each rows fun r w => w.bistRow r).ms.map Msg.tag = w.ms.map Msg.tag ++ rows.zipIdx.map (bistTag (w.d.rd F.LPE_ECC_SPARES_LEFT)) := by
  induction rows with
  | nil => exact fun w _ => ⟨rfl, by simp [Wk.each]⟩
  | cons r rows ih =>
    intro w h
    obtain ⟨hleft, htags⟩ := ih (w.bistRow r) fun x hx => h x (by simp [hx])
    obtain ⟨hl, ht⟩ := w.bistRow_spares (h r (by simp))
    rw [hl] at hleft htags
    refine ⟨hleft.trans (by simp only [List.length_cons]; omega), htags.trans ?_⟩
    rw [ht, List.append_assoc, List.zipIdx_cons, List.zipIdx_succ, List.map_cons, List.map_map]
    refine congrArg₂ _ rfl (congrArg₂ List.cons rfl (List.map_congr_left fun x _ => ?_))
    simp only [bistTag, Function.comp, show x.2 < w.d.rd F.LPE_ECC_SPARES_LEFT - 1 ↔ x.2 + 1 < w.d.rd F.LPE_ECC_SPARES_LEFT by omega]

/-- The role of cluster `c` of those that passed. -/
def bistCode (mask c : Nat) : Nat :=
  if bitOf mask c then [0, 1, 2, 3, 8, 9].getD ((List.range c).filter fun j => bitOf mask j).length 15 else 15

theorem bistCode_lt (mask c : Nat) : bistCode mask c < 16 := by
  unfold bistCode
  split
  · generalize ((List.range c).filter fun j => bitOf mask j).length = n
    rcases n with _ | _ | _ | _ | _ | _ | n <;> simp
  · omega

/-- Of the clusters that passed, those before `c`. -/
theorem maskBits_before {c n : Nat} (h : c ≤ n) (mask : Nat) : (maskBits n mask).filter (decide <| · < c) = (List.range c).filter fun j => bitOf mask j := by
  obtain ⟨m, rfl⟩ := Nat.exists_eq_add_of_le h
  have behind : ((List.range m).map (c + ·)).filter (fun j => decide (j < c) && bitOf mask j) = [] := List.filter_eq_nil_iff.2 (by simp)
  rw [maskBits, List.filter_filter, List.range_add, List.filter_append, behind, List.append_nil]
  exact List.filter_congr fun j hj => by simp [List.mem_range.1 hj]

theorem bistRoles_eq (mask : Nat) : bistRoles mask = (List.range 6).foldl (fun a c => a + bistCode mask c * 16 ^ c) 0 := by
  unfold bistRoles bistCode
  extract_lets ok
  refine List.foldl_ext _ _ _ fun a c hc => ?_
  rw [maskBits_before (by have := List.mem_range.1 hc; omega)]

/-- The number of `n` digits to the base 16. -/
def hexSum (f : Nat → Nat) (n : Nat) : Nat := (List.range n).foldl (fun a c => a + f c * 16 ^ c) 0

theorem hexSum_succ (f : Nat → Nat) (n : Nat) : hexSum f (n + 1) = hexSum f n + f n * 16 ^ n := by
  simp [hexSum, List.range_succ]

theorem hexSum_lt {f : Nat → Nat} (hf : ∀ c, f c < 16) (n : Nat) : hexSum f n < 16 ^ n := by
  induction n with
  | zero => exact Nat.one_pos
  | succ n ih =>
    rw [hexSum_succ, Nat.pow_succ]
    have := Nat.mul_le_mul_right (16 ^ n) (Nat.le_of_lt_succ (hf n))
    omega

/-- Each digit of such a number. -/
theorem hexSum_digit {f : Nat → Nat} (hf : ∀ c, f c < 16) {c : Nat} : ∀ n, c < n → hexSum f n / 16 ^ c % 16 = f c := by
  intro n
  induction n with
  | zero => exact fun h => nomatch h
  | succ n ih =>
    intro h
    rw [hexSum_succ]
    rcases Nat.lt_or_eq_of_le (Nat.le_of_lt_succ h) with hc | rfl
    · obtain ⟨m, rfl⟩ := Nat.exists_eq_add_of_lt hc
      rw [show f (c + m + 1) * 16 ^ (c + m + 1) = 16 ^ c * (16 * (f (c + m + 1) * 16 ^ m)) by ring, Nat.add_mul_div_left _ _ (by positivity), Nat.add_mul_mod_self_left]
      exact ih hc
    · rw [Nat.add_mul_div_right _ _ (by positivity), Nat.div_eq_of_lt (hexSum_lt hf c), Nat.zero_add, Nat.mod_eq_of_lt (hf c)]

theorem bits_bistRoles {mask c : Nat} (h : c < 6) : bits (bistRoles mask % 2 ^ 24) (4 * c) 4 = bistCode mask c := by
  have sum : bistRoles mask = hexSum (bistCode mask) 6 := bistRoles_eq mask
  have small : hexSum (bistCode mask) 6 < 2 ^ 24 := hexSum_lt (bistCode_lt mask) 6
  rw [sum, Nat.mod_eq_of_lt small, bits, Nat.shiftRight_eq_div_pow, Nat.pow_mul]
  exact hexSum_digit (bistCode_lt mask) 6 h

theorem Dev.olgBuild_keeps {β : Type} {g : Dev → β} (h : ∀ d o, g { d with olg := o } = g d) (d : Dev) (v : Vault) : g (d.olgBuild v) = g d := (h _ _).trans (h d _)

/-- BIST_COMPLETE in step 3. -/
theorem bistComplete_leaves {s : State} (mask : Nat) {rows : List Nat} (h3 : s.dev.rd F.CLK_START_STEP = 3) (hr : ∀ r ∈ rows, r < 1024) :
    Leaves (.bistComplete mask rows) s fun d ms =>
      (∀ c < 6, bits (d.rd F.LPE_ROLE) (4 * c) 4 = bistCode mask c) ∧
      d.rd F.LPE_ECC_SPARES_LEFT = s.dev.rd F.LPE_ECC_SPARES_LEFT - rows.length ∧ d.olg.built = true ∧ d.olg.gen = 1 ∧ d.olg.spares = d.rd F.LPE_ECC_SPARES_LEFT ∧
      d.rd F.CLK_START_STEP = 5 ∧ ms.map Msg.tag = rows.zipIdx.map (bistTag (s.dev.rd F.LPE_ECC_SPARES_LEFT)) ++
        (if (maskBits 6 mask).length < 5 then [(0, mask % 64, 0)] else []) ∧ d.run = s.dev.run ∧
      ∀ f : Fld, f.key ≠ F.LPE_ROLE.key → f.key ≠ F.LPE_ECC_SPARES_LEFT.key → f.key ≠ F.CLK_START_STEP.key → d.rd f = s.dev.rd f := by
  obtain ⟨hleft, htags⟩ := Wk.bistRows rows s.wk hr
  have hfld {f : Fld} (hf : f.key ≠ F.LPE_ECC_SPARES_LEFT.key) : (s.wk.each rows fun r w => w.bistRow r).d.rd f = s.dev.rd f :=
    (Wk.Keeps.each (g := (Dev.rd · f)) fun r _ u => u.keeps_bistRow (fun _ _ _ => rfl) (fun d v => Dev.wr_rd_ne d v hf) r).dev
  have hrun : (s.wk.each rows fun r w => w.bistRow r).d.run = s.dev.run :=
    (Wk.Keeps.each (g := Dev.run) fun r _ u => u.keeps_bistRow (fun _ _ _ => rfl) (fun d v => Dev.wr_run d _ v) r).dev
  obtain ⟨w, hw⟩ : ∃ w, (s.wk.each rows fun r w => w.bistRow r) = w := ⟨_, rfl⟩
  rw [hw] at hleft htags
  rw [show s.wk.ms = [] from rfl, List.map_nil, List.nil_append, show s.wk.d = s.dev from rfl] at htags
  simp only [hw] at hfld hrun
  have hd : ((w.up (·.wr F.LPE_ROLE (bistRoles mask))).on (decide ((maskBits 6 mask).length < 5)) (·.raise 0 (mask % 64) 0)).d = w.d.wr F.LPE_ROLE (bistRoles mask) := by
    unfold Wk.on
    split <;> rfl
  have hexec := (exec_bistComplete mask rows s).trans (State.run_next s _)
  rw [if_neg (show ¬ s.wk.d.rd F.CLK_START_STEP ≠ 3 from not_not.2 h3), hw] at hexec
  refine ⟨_, hexec, ?_⟩
  simp only [Wk.up_d, hd, Wk.up_ms]
  have other {f : Fld} (d : Dev) (v : Vault) (hf : f.key ≠ F.CLK_START_STEP.key) : ((d.olgBuild v).wr F.CLK_START_STEP 5).rd f = d.rd f := Dev.wr_rd_ne _ _ hf
  refine ⟨fun c hc => ?_, ?_, rfl, rfl, ?_, Dev.wr_rd _ _ _, ?_, ?_, fun f h1 h2 h4 => ?_⟩
  · rw [other _ _ (by decide), Dev.wr_rd]
    exact bits_bistRoles hc
  · rw [other _ _ (by decide), Dev.wr_rd_ne _ _ (by decide), hleft]
    rfl
  · exact (other _ _ (by decide)).symm
  · unfold Wk.on
    split_ifs with h5 h6 h6
    · rw [Wk.raise_tags, Wk.up_ms, htags]
    · exact absurd (of_decide_eq_true h5) h6
    · exact absurd (decide_eq_true h6) h5
    · rw [Wk.up_ms, htags, List.append_nil]
  · rw [Dev.wr_run, Dev.olgBuild_keeps (g := Dev.run) fun _ _ => rfl, Dev.wr_run]
    exact hrun
  · rw [other _ _ h4, Dev.wr_rd_ne _ _ h1]
    exact hfld h2

/-! ## The steps after it -/

/-- Whether every configured position has answered since the frame generator started (R526). -/
theorem Dev.allAnswered_iff (d : Dev) :
    (d.placed.all fun x => (d.bead x.1).state0.isSome && (decide (d.rd (F.BDT_STATE x.1) ≠ 0) || (d.bead x.1).nodeId.isSome)) = true ↔
      ∀ x ∈ d.placed, (d.bead x.1).state0.isSome = true ∧ (d.rd (F.BDT_STATE x.1) ≠ 0 ∨ (d.bead x.1).nodeId.isSome = true) := by
  simp

/-- A row that works on the device alone, and touches neither the twin's state nor the role in the stack. -/
theorem State.run_up (s : State) {f : Dev → Dev} (h : ∀ k ∈ [F.STK_STAT_ROLE, F.TWN_STAT_STATE], (f s.dev).rd k = s.dev.rd k) :
    s.run (·.up f) = .next (s.withDev (f s.dev)) :=
  (s.run_next _).trans (congrArg _ (s.settleWk_up (h _ (by simp)) (h _ (by simp))))

theorem discoveryEnd_spec (s : State) (all : Prop) (hall : all ↔ ∀ x ∈ s.dev.placed, (s.dev.bead x.1).state0.isSome = true ∧
      (s.dev.rd (F.BDT_STATE x.1) ≠ 0 ∨ (s.dev.bead x.1).nodeId.isSome = true)) :
    (s.dev.rd F.CLK_START_STEP = 7 → all ∨ 64 ≤ s.dev.frame.k.toNat →
      exec .discoveryEnd s = .next (s.withDev ({ s.dev with sec := { s.dev.sec with stepAt := s.dev.frame.k } }.wr F.CLK_START_STEP 8))) ∧
    (s.dev.rd F.CLK_START_STEP ≠ 7 ∨ ¬ all ∧ s.dev.frame.k.toNat < 64 → exec .discoveryEnd s = .next s) := by
  have hexec := (exec_discoveryEnd s).trans (State.run_up s fun k hk => ite_keeps (g := (Dev.rd · k))
    (fun _ => Dev.wr_rd_ne _ _ (by fin_cases hk <;> decide)) fun _ => rfl)
  dsimp only at hexec
  have hans := hall.trans s.dev.allAnswered_iff.symm
  refine ⟨fun h7 ha => hexec.trans (by rw [if_pos ⟨h7, ha.imp_left hans.1⟩]), fun h => hexec.trans (congrArg (fun d => Host.Outcome.next (s.withDev d)) (if_neg ?_))⟩
  rintro ⟨h7, ha⟩
  rcases h with h | ⟨h, hk⟩
  · exact h h7
  · exact ha.elim (fun ha => h (hans.2 ha)) (Nat.not_le.2 hk)

/-- The device as step 8 ends (R527). -/
def Dev.timeLocked (d : Dev) : Dev :=
  let e := (d.wr F.CLK_START_NOLOCK d.unlocked.length).wr F.CLK_START_STEP 0
  if e.run = .boot then e.setRun .idle else e

theorem Dev.setRun_keeps {β : Type} {g : Dev → β} (hp : OffPorts g) (hr : ∀ d r, g { d with run := r } = g d) (hs : ∀ d v, g (d.wr F.CLK_STAT_PSTATE v) = g d)
    (d : Dev) (r : RunState) : g (d.setRun r) = g d :=
  ite_keeps (fun _ => rfl) fun _ => (Dev.noteRun_keeps hp _ _).trans ((hs _ _).trans (hr _ _))

theorem Dev.setRun_run (d : Dev) (r : RunState) : (d.setRun r).run = r := by
  unfold Dev.setRun
  split
  · assumption
  · exact Dev.noteRun_keeps OffPorts.run _ _

theorem Dev.timeLocked_rd (d : Dev) {f : Fld} (h : f.key ≠ F.CLK_STAT_PSTATE.key) :
    d.timeLocked.rd f = ((d.wr F.CLK_START_NOLOCK d.unlocked.length).wr F.CLK_START_STEP 0).rd f :=
  ite_keeps (g := (Dev.rd · f)) (fun _ => Dev.setRun_keeps (OffPorts.rd f) (fun _ _ => rfl) (fun e v => Dev.wr_rd_ne e v h) _ _) fun _ => rfl

theorem Dev.timeLocked_run (d : Dev) : d.timeLocked.run = if d.run = .boot then .idle else d.run := by
  unfold Dev.timeLocked
  extract_lets e
  have he : e.run = d.run := rfl
  rw [he]
  split
  · exact Dev.setRun_run _ _
  · rfl

/-- Step 8 ends once every COLD bead has shown LOCK and the unit's time is locked, or after 1,024 frames. -/
theorem exec_timeLockStepEnd_if (s : State) : exec .timeLockStepEnd s = .next (s.withDev
    (if s.dev.rd F.CLK_START_STEP = 8 ∧ ((s.dev.unlocked.isEmpty ∧ (if s.dev.followsTime then s.dev.rdB F.TIM_STAT_LOCK else !s.dev.rdB F.TIM_STAT_COARSE)) ∨
      1024 ≤ (s.dev.frame.k - s.dev.sec.stepAt).toNat) then s.dev.timeLocked else s.dev)) :=
  (exec_timeLockStepEnd s).trans (State.run_up s fun k hk => ite_keeps (g := (Dev.rd · k))
    (fun _ => (s.dev.timeLocked_rd (by fin_cases hk <;> decide)).trans
      ((Dev.wr_rd_ne _ _ (by fin_cases hk <;> decide)).trans (Dev.wr_rd_ne _ _ (by fin_cases hk <;> decide)))) fun _ => rfl)

/-- Whether the unit's own time is locked, where it follows another, else not COARSE. -/
theorem Dev.ownTime_iff (d : Dev) : (if d.followsTime then d.rdB F.TIM_STAT_LOCK else !d.rdB F.TIM_STAT_COARSE) = true ↔
    if d.rd F.TIM_STAT_TSRC = 0 then d.rd F.TIM_STAT_COARSE = 0 else d.rd F.TIM_STAT_LOCK = 1 := by
  have lt1 {f : Fld} (h : f.width = 1) : d.rd f < 2 := by simpa [h] using d.rd_lt f
  have hl : d.rd F.TIM_STAT_LOCK < 2 := lt1 rfl
  have hc : d.rd F.TIM_STAT_COARSE < 2 := lt1 rfl
  by_cases h : d.rd F.TIM_STAT_TSRC = 0
  · simp only [Dev.followsTime, h, ne_eq, not_true, decide_false, Bool.false_eq_true, if_false, if_true, Dev.rdB, Bool.not_eq_true', decide_eq_false_iff_not]
    omega
  · simp only [Dev.followsTime, h, ne_eq, not_false_iff, decide_true, if_false, if_true, Dev.rdB, decide_eq_true_eq]
    omega

theorem timeLockStepEnd_spec (s : State) (cold : List Nat) (hcold : cold = s.dev.unlocked) (ended : Prop)
    (hend : ended ↔ (cold = [] ∧ (if s.dev.rd F.TIM_STAT_TSRC = 0 then s.dev.rd F.TIM_STAT_COARSE = 0 else s.dev.rd F.TIM_STAT_LOCK = 1)) ∨
      1024 ≤ (s.dev.frame.k - s.dev.sec.stepAt).toNat) :
    (s.dev.rd F.CLK_START_STEP = 8 → ended → Does .timeLockStepEnd s fun t => t.dev.rd F.CLK_START_STEP = 0 ∧ t.dev.rd F.CLK_START_NOLOCK = cold.length ∧
      t.dev.run = (if s.dev.run = .boot then .idle else s.dev.run) ∧ t.vault = s.vault ∧
      ∀ f : Fld, f.key ≠ F.CLK_START_STEP.key → f.key ≠ F.CLK_START_NOLOCK.key → f.key ≠ F.CLK_STAT_PSTATE.key → t.dev.rd f = s.dev.rd f) ∧
    (s.dev.rd F.CLK_START_STEP ≠ 8 ∨ ¬ ended → exec .timeLockStepEnd s = .next s) := by
  subst hcold
  have hexec := exec_timeLockStepEnd_if s
  have hown := s.dev.ownTime_iff
  have iff := hend.trans (or_congr_left (and_congr List.isEmpty_iff.symm hown.symm))
  refine ⟨fun h8 he => ⟨s.withDev s.dev.timeLocked, hexec.trans (by rw [if_pos ⟨h8, iff.1 he⟩]), ?_, ?_, s.dev.timeLocked_run, rfl, fun f h1 h2 h3 => ?_⟩,
    fun h => hexec.trans (congrArg (fun d => Host.Outcome.next (s.withDev d)) (if_neg ?_))⟩
  · exact (s.dev.timeLocked_rd (by decide)).trans (Dev.wr_rd _ _ _)
  · refine (s.dev.timeLocked_rd (by decide)).trans ((Dev.wr_rd_ne _ _ (by decide)).trans ((Dev.wr_rd _ _ _).trans (Nat.mod_eq_of_lt ?_)))
    have few : s.dev.unlocked.length ≤ 96 := (List.length_filter_le _ _).trans (by simp)
    exact Nat.lt_of_le_of_lt few (by decide)
  · exact (s.dev.timeLocked_rd h3).trans ((Dev.wr_rd_ne _ _ h1).trans (Dev.wr_rd_ne _ _ h2))
  · rintro ⟨h8, he⟩
    exact h.elim (fun h => h h8) fun h => h (iff.2 he)

/-! ## The crystal and the header's CRC -/

theorem aonCrystalStable_sets (s : State) : exec .aonCrystalStable s = .next (s.withDev (s.dev.wr F.CLK_STAT_XTAL 1)) :=
  (exec_aonCrystalStable s).trans (State.run_up s fun k hk => Dev.wr_rd_ne _ _ (by fin_cases hk <;> decide))

theorem olgCrcUpdate_follows {s : State} (h : s.dev.olg.crcDue = true) :
    exec .olgCrcUpdate s = .next (s.withDev { s.dev with olg := { s.dev.olg with crcDue := false, crc := s.dev.olgCrc s.vault } }) := by
  have hexec := (exec_olgCrcUpdate s).trans (s.run_next _)
  rw [show s.wk.d.olg.crcDue = true from h, Wk.on_true] at hexec
  exact hexec.trans (congrArg _ (s.settleWk_up rfl rfl))

end Sys2Proof.Machine

/-! What a boundary leaves alone (R18, R22): the frame generator's own fields, the numbers of the frames, the time. -/
namespace Sys2Proof.Machine

/-! ## Views of what a boundary does not do -/

/-- A register field above those of the frame generator. -/
def Fld.Later (f : Fld) : Prop := 0x4400 ≤ f.addr

/-- What is seen by `g` is of the fields up to the frame generator's, of the time and of the frame. -/
structure OffBoundary {β : Type} (g : Dev → β) : Prop extends Off Fld.Later g where
  rest : ∀ d e : Dev, e.regs = d.regs → e.time = d.time → e.frame = d.frame → g e = g d

/-- What is seen by `g` is of the fields up to the frame generator's, and of the numbers of the frames. -/
structure OffClock {β : Type} (g : Dev → β) : Prop extends Off Fld.Later g where
  clock : ∀ d e : Dev, e.regs = d.regs → e.frame.k = d.frame.k → e.frame.base = d.frame.base → g e = g d

theorem OffClock.boundary {β : Type} {g : Dev → β} (hg : OffClock g) : OffBoundary g :=
  ⟨hg.toOff, fun d e hr _ hf => hg.clock d e hr (by rw [hf]) (by rw [hf])⟩

theorem OffClock.time {β : Type} {g : Dev → β} (hg : OffClock g) (d : Dev) (t : TimeSt) : g { d with time := t } = g d := hg.clock _ _ rfl rfl rfl

theorem OffClock.running : OffClock (Dev.rd · F.SYS_FRM_CTRL_RUNNING) where
  wr d f v h := Dev.wr_rd_ne d v (by simp only [Fld.Later, Fld.key, F.SYS_FRM_CTRL_RUNNING] at h ⊢; omega)
  clock d e hr _ _ := by simp only [Dev.rd, hr]

theorem OffClock.numbers : OffClock fun d => (d.frame.k, d.frame.base) := ⟨⟨fun _ _ _ _ => rfl⟩, fun _ _ _ hk hb => Prod.ext hk hb⟩

section
variable {β : Type} {g : Dev → β} (hg : OffBoundary g)
include hg

theorem OffBoundary.ports : OffPorts g where
  port d p f := by
    unfold Dev.upPort
    split <;> exact hg.rest _ _ rfl rfl rfl
  last d n := hg.rest _ _ rfl rfl rfl

theorem OffBoundary.replies : OffReplies g := ⟨hg.ports, fun _ _ => hg.rest _ _ rfl rfl rfl⟩

theorem OffBoundary.engine : OffEdge g :=
  ⟨hg.toOff.mono fun _ h => Nat.le_trans (by decide) h.1, fun _ _ => hg.rest _ _ rfl rfl rfl, fun _ _ => hg.rest _ _ rfl rfl rfl⟩

theorem OffBoundary.upLpe (d : Dev) (f : LpeSt → LpeSt) : g (d.upLpe f) = g d := hg.rest _ _ rfl rfl rfl
theorem OffBoundary.upTwn (d : Dev) (f : TwnSt → TwnSt) : g (d.upTwn f) = g d := hg.rest _ _ rfl rfl rfl
theorem OffBoundary.upStk (d : Dev) (f : StkSt → StkSt) : g (d.upStk f) = g d := hg.rest _ _ rfl rfl rfl
theorem OffBoundary.setBead (d : Dev) (b : Nat) (x : BeadSt) : g (d.setBead b x) = g d := hg.rest _ _ rfl rfl rfl
theorem OffBoundary.setLane (d : Dev) (n : Nat) (x : LaneSt) : g (d.setLane n x) = g d := hg.rest _ _ rfl rfl rfl
theorem OffBoundary.setAcc (d : Dev) (a : Nat) (x : AccSt) : g (d.setAcc a x) = g d := hg.rest _ _ rfl rfl rfl
theorem OffBoundary.setConv (d : Dev) (p : Nat) (x : ConvSt) : g (d.setConv p x) = g d := hg.rest _ _ rfl rfl rfl
theorem OffBoundary.acq (d : Dev) (a : AcqSt) : g { d with acq := a } = g d := hg.rest _ _ rfl rfl rfl
theorem OffBoundary.adcMap (d : Dev) (m : Tab Nat) : g { d with adcMap := m } = g d := hg.rest _ _ rfl rfl rfl
theorem OffBoundary.ainMap (d : Dev) (m : Tab Nat) : g { d with ainMap := m } = g d := hg.rest _ _ rfl rfl rfl
theorem OffBoundary.strands (d : Dev) (m : Tab StrandSt) : g { d with strands := m } = g d := hg.rest _ _ rfl rfl rfl
theorem OffBoundary.putS (d : Dev) (w v : Nat) : g (d.putS w v) = g d := hg.upLpe _ _

theorem Wk.keeps_olgSync_boundary (w : Wk) : w.Keeps anySource g w.olgSync := w.keeps_olgSync hg.ports (fun _ _ => hg.rest _ _ rfl rfl rfl) trivial

/-! ## The loop engine and bead service -/

theorem Dev.lpeBoundary_keeps (d : Dev) (n : Nat) : g (d.lpeBoundary n) = g d := by
  unfold Dev.lpeBoundary
  extract_lets d1 sw d2 d3 run d4 d5 d6 d7 d8 d9
  have h1 : g d1 = g d := hg.wr _ _ _ (by simp only [Fld.Later, F.LPE_FCNT]; omega)
  have h2 : g d2 = g d1 := (hg.upLpe _ _).trans (hg.wr _ _ _ (by simp only [Fld.Later, F.LPE_STAT_SWAPPED]; omega))
  have h3 : g d3 = g d2 := ite_keeps (fun _ => (hg.wr _ _ _ (by simp only [Fld.Later, F.LPE_COEF_SWAP_PEND]; omega)).trans
    (hg.wr _ _ _ (by simp only [Fld.Later, F.LPE_COEF_BANK]; omega))) fun _ => rfl
  have h7 : g d7 = g d3 := (hg.upLpe _ _).trans ((hg.upLpe _ _).trans ((hg.upLpe _ _).trans (hg.upLpe _ _)))
  have h8 : g d8 = g d7 := by
    unfold d8
    split
    · exact (hg.wr _ _ _ (by simp only [Fld.Later, F.LPE_STAT_VOTE_P]; omega)).trans (hg.wr _ _ _ (by simp only [Fld.Later, F.LPE_STAT_VOTING]; omega))
    · exact hg.wr _ _ _ (by simp only [Fld.Later, F.LPE_STAT_VOTING]; omega)
  refine (ite_keeps (fun _ => ?_) fun _ => rfl).trans (h8.trans (h7.trans (h3.trans (h2.trans h1))))
  split
  · exact (hg.wr _ _ _ (by simp only [Fld.Later, F.LPE_ROLE]; omega)).trans (hg.upLpe _ _)
  · exact hg.upLpe _ _

theorem Wk.keeps_remapBoundary (w : Wk) : w.Keeps anySource g w.remapBoundary := by
  unfold Wk.remapBoundary
  refine .ite (fun _ => .refl w) fun _ => .trans (.trans (.each fun row _ u => ?_) (.up (hg.upLpe _ _))) (Wk.keeps_olgSync_boundary hg _)
  refine .trans (.trans (.up (hg.rest _ _ rfl rfl rfl)) (.up ?_)) (.raise trivial)
  exact (hg.wr _ _ _ (by simp only [Fld.Later, F.LPE_ECC_CNT_REMAPS]; omega)).trans ((hg.wr _ _ _ (by simp only [Fld.Later, F.LPE_ECC_SPARES_LEFT]; omega)).trans (hg.upLpe _ _))

theorem Wk.keeps_svcBoundary (w : Wk) : w.Keeps anySource g w.svcBoundary := by
  unfold Wk.svcBoundary
  refine .trans (.up (foldl_keeps (fun b _ d => ?_) _)) (.each fun n _ u => .ite (fun _ => .refl u) fun _ =>
    .trans (.trans (.up (hg.rest _ _ rfl rfl rfl)) (.on fun _ => .raise trivial)) (.on fun _ => .raise trivial))
  split
  · rfl
  · refine (hg.setBead _ _ _).trans ((hg.wr _ _ _ (by simp only [Fld.Later, F.BDT_TCHG]; omega)).trans ((hg.wr _ _ _ (by simp only [Fld.Later, F.BDT_STATE]; omega)).trans ?_))
    refine (ite_keeps (fun _ => rfl) fun _ => hg.wr _ _ _ (by simp only [Fld.Later, F.BDT_STATE_READY]; omega)).trans ?_
    exact ite_keeps (fun _ => hg.wr _ _ _ (by simp only [Fld.Later, F.BDT_STATE_FAILED]; omega)) fun _ => rfl

/-! ## The acquisition -/

theorem Dev.showWindow_keeps (d : Dev) (a : Nat) : g (d.showWindow a) = g d := by
  unfold Dev.showWindow
  extract_lets x o d1
  have h1 : g d1 = g d := by
    unfold d1
    rw [hg.wrB _ (by simp only [Fld.Later, F.ACC_STAT_EMPTY]; omega), hg.wrB _ (by simp only [Fld.Later, F.ACC_STAT_OVR]; omega),
      hg.wr _ _ _ (by simp only [Fld.Later, F.ACC_STAT_TNT]; omega), hg.wr _ _ _ (by simp only [Fld.Later, F.ACC_STAT_COUNT]; omega)]
  split
  · exact h1
  · extract_lets p q d2
    rw [hg.setAcc, hg.wr _ _ _ (by simp only [Fld.Later, F.ACC_EXT_MAX]; omega), hg.wr _ _ _ (by simp only [Fld.Later, F.ACC_EXT_MIN]; omega),
      hg.wr _ _ _ (by simp only [Fld.Later, F.ACC_MEAN]; omega), h1]

theorem Dev.closeLong_keeps (d : Dev) (a : Nat) : g (d.closeLong a) = g d := by
  unfold Dev.closeLong Dev.showLong
  extract_lets x
  split
  · exact hg.setAcc _ _ _
  · rw [hg.wr _ _ _ (by simp only [Fld.Later, F.ACC_LEXT_LMAX]; omega), hg.wr _ _ _ (by simp only [Fld.Later, F.ACC_LEXT_LMIN]; omega), hg.setAcc]

theorem Wk.keeps_closeWindow (w : Wk) (a gain ofs : Nat) (first : Bool) : w.Keeps anySource g (w.closeWindow a gain ofs first) := by
  unfold Wk.closeWindow
  exact .trans (.up ((Dev.showWindow_keeps hg _ a).trans (hg.setAcc _ _ _))) (.on fun _ => .raise trivial)

theorem Dev.setSeq_keeps (d : Dev) (c : Nat) (x : SeqSt) : g (d.setSeq c x) = g d :=
  (hg.wr _ _ _ (by simp only [Fld.Later, F.ADC_STAT_SLOT]; omega)).trans (hg.rest _ _ rfl rfl rfl)

theorem Dev.startReg_keeps (d : Dev) (c : Nat) : g (d.startReg c) = g d :=
  (hg.wr _ _ _ (by simp only [Fld.Later, F.ADC_STAT_REG_RUN]; omega)).trans (Dev.setSeq_keeps hg _ _ _)

theorem Wk.keeps_regTrigger (w : Wk) (c : Nat) : w.Keeps anySource g (w.regTrigger c) :=
  .ite (fun _ => .refl w) fun _ => .ite (fun _ => .up (Dev.startReg_keeps hg _ c)) fun _ =>
    .ite (fun _ => .up (hg.wr _ _ _ (by simp only [Fld.Later, F.ADC_STAT_REG_Q]; omega))) fun _ =>
      .trans (.up (hg.inc _ (by simp only [Fld.Later, F.ADC_CNT_REG_OVR]; omega))) (.raise trivial)

theorem Wk.keeps_seqBoundary (w : Wk) (c : Nat) : w.Keeps anySource g (w.seqBoundary c) := by
  unfold Wk.seqBoundary
  exact .trans (.trans (.on fun _ => .up ((Dev.startReg_keeps hg _ c).trans (Dev.setSeq_keeps hg _ _ _))) (.on fun _ => .up (Dev.startReg_keeps hg _ c)))
    (.on fun _ => Wk.keeps_regTrigger hg _ c)

theorem Dev.handOver_keeps (d : Dev) (c src dst : Nat) : g (d.handOver c src dst) = g d :=
  (hg.wr _ _ _ (by simp only [Fld.Later, F.ADC_STAT_PHYS]; omega)).trans ((hg.wr _ _ _ (by simp only [Fld.Later, F.ADC_TAINT]; omega)).trans (hg.setConv _ _ _))

theorem Wk.keeps_checkResult (w : Wk) (c : Nat) : w.Keeps anySource g (w.checkResult c) := by
  unfold Wk.checkResult
  extract_lets x t on od gn gd bad twice w1 w2 w3 w4
  refine .ite (fun _ => .refl w) fun _ => ?_
  have h1 : w.Keeps anySource g w1 := .up (by
    rw [hg.wrB _ (by simp only [Fld.Later, F.ADC_CST_FAILED]; omega), hg.wr _ _ _ (by simp only [Fld.Later, F.ADC_CST_CHECKS]; omega),
      hg.wr _ _ _ (by simp only [Fld.Later, F.ADC_CHK_GAIN]; omega), hg.wr _ _ _ (by simp only [Fld.Later, F.ADC_CHK_OFS]; omega)])
  have h2 : w.Keeps anySource g w2 := h1.trans (.on fun _ => .raise trivial)
  refine .ite (fun _ => h2.trans (.trans (.up ?_) (.raise trivial))) fun _ => .ite (fun _ => h2.trans ?_) fun _ => h2
  · exact (hg.wr _ _ _ (by simp only [Fld.Later, F.ACQ_CHK_REF_FAULT]; omega)).trans (hg.wr _ _ _ (by simp only [Fld.Later, F.ACQ_CHK_EN]; omega))
  · have h3 : w2.Keeps anySource g w3 := .up ((hg.adcMap (w2.d.wr (F.ADC_CST_RETIRED c) 1) _).trans
      (hg.wr _ _ _ (by simp only [Fld.Later, F.ADC_CST_RETIRED]; omega)))
    have h4 : w3.Keeps anySource g w4 := .on fun _ => .up (hg.rest _ _ rfl rfl rfl)
    exact (h3.trans h4).trans ((Wk.keeps_olgSync_boundary hg _).trans (.raise trivial))

theorem Wk.keeps_checkBoundary (w : Wk) : w.Keeps anySource g w.checkBoundary := by
  unfold Wk.checkBoundary
  extract_lets w1 n c w3
  have h1 : w.Keeps anySource g w1 := by
    unfold w1
    split
    · exact .refl w
    · exact .trans (.trans (.trans (.on fun _ => Wk.keeps_checkResult hg _ _) (.up (hg.setConv _ _ _))) (.on fun _ => .up (Dev.handOver_keeps hg _ _ _ _)))
        (.up (hg.rest _ _ rfl rfl rfl))
  refine h1.trans (.ite (fun _ => .up (hg.rest _ _ rfl rfl rfl)) fun _ => .ite (fun _ => .up (hg.rest _ _ rfl rfl rfl)) fun _ => ?_)
  exact .trans (.up (hg.rest _ _ rfl rfl rfl)) (.on fun _ => .up (Dev.handOver_keeps hg _ _ _ _))

theorem Wk.keeps_ainBoundary (w : Wk) : w.Keeps anySource g w.ainBoundary := by
  unfold Wk.ainBoundary
  extract_lets l
  refine .trans (.up ?_) (.each fun _ _ _ => .raise trivial)
  exact (hg.acq (List.foldl _ w.d l) _).trans (foldl_keeps (fun _ _ d => hg.ainMap d _) w.d)

theorem Wk.keeps_acqBoundary (w : Wk) (p : Prior) (first : Bool) : w.Keeps anySource g (w.acqBoundary p first) := by
  unfold Wk.acqBoundary
  refine .trans (.trans (.trans (.trans (.trans (Wk.keeps_ainBoundary hg w) (.up ?_)) (.each fun a _ u => ?_)) (.up ?_)) (Wk.keeps_checkBoundary hg _))
    (.each fun c _ u => u.keeps_seqBoundary hg c)
  · exact ite_keeps (fun _ => rfl) fun _ => hg.rest _ _ rfl rfl rfl
  · exact .trans (Wk.keeps_closeWindow hg u a _ _ first) (.on fun _ => .up (Dev.closeLong_keeps hg _ a))
  · exact foldl_keeps (fun c _ d => Dev.setSeq_keeps hg d c _) _

/-! ## The boundary's work as a whole -/

theorem Wk.keeps_boundaryWork (w : Wk) (p : Prior) (first : Bool) : w.Keeps anySource g (w.boundaryWork p first) := by
  unfold Wk.boundaryWork
  refine .trans (.trans (.trans (.up ?_) (Wk.keeps_remapBoundary hg _)) (Wk.keeps_svcBoundary hg _)) (Wk.keeps_acqBoundary hg _ p first)
  exact (hg.wrB _ (by simp only [Fld.Later, F.LPE_STAT_RUNNING]; omega) _).trans ((Dev.lpeBoundary_keeps hg _ _).trans (hg.rest _ _ rfl rfl rfl))

end

end Sys2Proof.Machine

/-! The end of a boundary, and the first one: FRAME_GENERATOR_START (R18, R22). -/
namespace Sys2Proof.Machine

section
variable {β : Type} {g : Dev → β} (hg : OffBoundary g)
include hg

/-! ## Toggles, strands and lanes -/

theorem Wk.keeps_denBoundary (w : Wk) : w.Keeps anySource g w.denBoundary := by
  unfold Wk.denBoundary
  refine .trans (.each fun m _ u => ?_) (.up (hg.engine.outputs.den _ _))
  split
  · exact .refl u
  · exact .trans (.up (hg.engine.edge _ _)) (.on fun _ => .each fun k _ v => v.keeps_pairOff hg.engine trivial k)

theorem Dev.strandEnds_keeps (d : Dev) (s : Nat) : g (d.strandEnds s) = g d := by
  unfold Dev.strandEnds
  extract_lets a b d1
  have h1 : g d1 = g d := hg.wrB _ (by simp only [Fld.Later, F.STR_STAT_UP]; omega) _
  have broken : g (d1.wr (F.STR_STAT_BROKEN s) 1) = g d1 := hg.wr _ _ _ (by simp only [Fld.Later, F.STR_STAT_BROKEN]; omega)
  refine (ite_keeps (d := d1) (fun _ => rfl) fun _ => ite_keeps (fun _ => rfl) fun _ => ite_keeps (fun _ => ?_) fun _ => broken).trans h1
  exact (hg.wr _ _ _ (by simp only [Fld.Later, F.STR_STAT_BREAK]; omega)).trans broken

theorem Dev.rejoinLanes_keeps (d : Dev) : g d.rejoinLanes = g d := by
  refine foldl_keeps (fun n _ u => ite_keeps (fun _ => ?_) fun _ => rfl) d
  have up : g ((u.wr (F.LANE_STAT_PHASE n) 2).setLane n { u.lane n with bring := .none, rejoin := false }) = g u :=
    (hg.setLane _ _ _).trans (hg.wr _ _ _ (by simp only [Fld.Later, F.LANE_STAT_PHASE]; omega))
  refine (ite_keeps (fun _ => (ite_keeps (fun _ => ?_) fun _ => rfl).trans (Dev.strandEnds_keeps hg _ _)) fun _ => rfl).trans up
  exact (hg.wr _ _ _ (by simp only [Fld.Later, F.STR_STAT_BREAK]; omega)).trans (hg.wr _ _ _ (by simp only [Fld.Later, F.STR_STAT_BROKEN]; omega))

theorem Dev.rejoinBoundary_keeps (d : Dev) : g d.rejoinBoundary = g d := (hg.strands d.rejoinLanes _).trans (Dev.rejoinLanes_keeps hg d)

/-! ## The twin and the stack -/

theorem Dev.setTwin_keeps (d : Dev) (st : Nat) : g (d.setTwin st) = g d :=
  (Dev.noteRun_keeps hg.ports _ _).trans (hg.wr _ _ _ (by simp only [Fld.Later, F.TWN_STAT_STATE]; omega))

theorem Dev.sendFrame_keeps (d : Dev) (n : Nat) (t : BitVec 64) (b : List Byte) : g (d.sendFrame n t b) = g d := hg.rest _ _ rfl rfl rfl

theorem Dev.upwardSend_keeps (d : Dev) (e : Nat) (late : BitVec 64) : g (d.upwardSend e late) = g d := by
  unfold Dev.upwardSend
  split
  · rfl
  · exact (hg.upStk _ _).trans (Dev.sendFrame_keeps hg _ _ _ _)

theorem Dev.dropDelays_keeps (d : Dev) : g d.dropDelays = g d := (hg.wr _ _ _ (by simp only [Fld.Later, F.STK_D_MAX]; omega)).trans (hg.upStk _ _)

section
variable (ht : ∀ d v, g (Dev.setTsrc d v) = g d)
include ht

omit hg in
theorem Dev.retime_keeps (d : Dev) : g d.retime = g d := ite_keeps (fun _ => rfl) fun _ => ht d _

theorem Dev.enterListen_keeps (d : Dev) : g d.enterListen = g d :=
  (hg.upTwn _ _).trans ((Dev.retime_keeps ht _).trans (Dev.setTwin_keeps hg d 1))

theorem Dev.enterSync_keeps (d : Dev) : g d.enterSync = g d :=
  (hg.upTwn _ _).trans ((Dev.retime_keeps ht _).trans (Dev.setTwin_keeps hg d 2))

theorem Wk.keeps_twinBoundary (w : Wk) : w.Keeps anySource g w.twinBoundary := by
  unfold Wk.twinBoundary
  have outputs (u : Wk) : u.Keeps anySource g u.syncOutputs := u.keeps_syncOutputs hg.engine.outputs trivial
  extract_lets en w1 meets w2 w3 w4 w5 w6 w7 w8
  refine .ite (fun _ => .on fun _ => .trans (.up ?_) (outputs _)) fun _ => .ite (fun _ => .trans (.up (Dev.enterListen_keeps hg ht _)) (outputs _)) fun _ => ?_
  · exact (hg.upTwn _ _).trans ((Dev.retime_keeps ht _).trans (Dev.setTwin_keeps hg _ 0))
  have h1 : w.Keeps anySource g w1 := .up (hg.upTwn _ _)
  have h2 : w1.Keeps anySource g w2 := .up (hg.upTwn _ _)
  have h3 : w2.Keeps anySource g w3 := .on fun _ => .up (Dev.enterSync_keeps hg ht _)
  have h4 : w3.Keeps anySource g w4 := by
    unfold w4
    split
    · exact .on fun _ => .up (foldl_keeps (fun x _ d => hg.putS d x.1 x.2) _)
    · exact .refl _
  have h5 : w4.Keeps anySource g w5 := .up ((hg.upTwn _ _).trans (hg.wrB _ (by simp only [Fld.Later, F.TWN_STAT_SYNCED]; omega) _))
  have h6 : w5.Keeps anySource g w6 := .up (hg.upTwn _ _)
  have h7 : w6.Keeps anySource g w7 := .on fun _ => .up ((Dev.settle_keeps hg.replies _ _ _).trans
    ((hg.wr _ _ _ (by simp only [Fld.Later, F.TWN_HBK_HBK_SEQ]; omega)).trans ((hg.wr _ _ _ (by simp only [Fld.Later, F.TWN_STAT_HBK_PEND]; omega)).trans (hg.upTwn _ _))))
  have h8 : w7.Keeps anySource g w8 := by
    unfold w8
    split
    · exact .up ((hg.upTwn _ _).trans (ite_keeps (fun _ => hg.wr _ _ _ (by simp only [Fld.Later, F.GSV_DEN_EN]; omega)) fun _ => rfl))
    · exact .refl _
  exact (h1.trans (h2.trans (h3.trans (h4.trans (h5.trans (h6.trans (h7.trans h8))))))).trans (.trans (.up (hg.upTwn _ _)) (outputs _))

theorem Dev.setStkRole_keeps (d : Dev) (r : Nat) : g (d.setStkRole r) = g d := by
  have role : g (d.wr F.STK_STAT_ROLE r).retime = g d := (Dev.retime_keeps ht _).trans (hg.wr _ _ _ (by simp only [Fld.Later, F.STK_STAT_ROLE]; omega))
  exact (ite_keeps (fun _ => rfl) fun _ => hg.upStk _ _).trans role

theorem Dev.stkHeadOn_keeps (d : Dev) (r : Nat) : g (d.stkHeadOn r) = g d := by
  unfold Dev.stkHeadOn
  extract_lets e d0 d1
  have h1 : g d1 = g d := by
    unfold d1
    rw [hg.wr _ _ _ (by simp only [Fld.Later, F.STK_STAT_SP_STALE]; omega), hg.wr _ _ _ (by simp only [Fld.Later, F.STK_STAT_MISS]; omega),
      hg.wr _ _ _ (by simp only [Fld.Later, F.STK_STAT_MASTER_ID]; omega), hg.wr _ _ _ (by simp only [Fld.Later, F.STK_EPOCH]; omega), Dev.setStkRole_keeps hg ht]
  exact (hg.upStk _ _).trans h1

theorem Wk.keeps_stkBoundary (w : Wk) : w.Keeps anySource g w.stkBoundary := by
  unfold Wk.stkBoundary
  extract_lets w1 w2 w3 down0 down w4
  refine .ite (fun _ => .on fun _ => .up ?_) fun _ => ?_
  · exact (hg.upStk _ _).trans ((hg.wr _ _ _ (by simp only [Fld.Later, F.STK_STAT_SP_STALE]; omega)).trans
      ((hg.wr _ _ _ (by simp only [Fld.Later, F.STK_STAT_MISS]; omega)).trans (Dev.setStkRole_keeps hg ht _ 0)))
  have h1 : w.Keeps anySource g w1 := .on fun _ => .up (by
    split
    · exact Dev.stkHeadOn_keeps hg ht _ 1
    · exact Dev.setStkRole_keeps hg ht _ 2
    · exact Dev.setStkRole_keeps hg ht _ 3)
  have h2 : w1.Keeps anySource g w2 := .up (hg.upStk _ _)
  have h3 : w2.Keeps anySource g w3 := .up (Dev.dropDelays_keeps hg _)
  have h4 : w3.Keeps anySource g w4 := .each fun _ _ _ => .raise trivial
  refine (h1.trans (h2.trans (h3.trans h4))).trans (.up ?_)
  have noted : g ((w4.d.wrB F.STK_STAT_BROKEN (!down.isEmpty)).upStk fun t => { t with lost := down }) = g w4.d :=
    (hg.upStk _ _).trans (hg.wrB _ (by simp only [Fld.Later, F.STK_STAT_BROKEN]; omega) _)
  exact (ite_keeps (fun _ => rfl) fun _ => (ite_keeps (fun _ => Dev.upwardSend_keeps hg _ _ _) fun _ => rfl).trans
    (ite_keeps (fun _ => Dev.upwardSend_keeps hg _ _ _) fun _ => rfl)).trans noted

/-- What follows the discipline of the time, but for the number of the frame and the window. -/
theorem Wk.keeps_afterDiscipline (w : Wk) : w.Keeps anySource g w.twinBoundary.stkBoundary.olgSync :=
  ((Wk.keeps_twinBoundary hg ht w).trans (Wk.keeps_stkBoundary hg ht _)).trans (Wk.keeps_olgSync_boundary hg _)

end

/-- What of the end of a boundary comes before the discipline of the time. -/
def Wk.beforeDiscipline (w : Wk) : Wk :=
  w.denBoundary.up fun d => (List.range 96).foldl (fun d b => if (d.bead b).got then d.setBead b { d.bead b with got := false } else d) d.rejoinBoundary

theorem Wk.keeps_beforeDiscipline (w : Wk) : w.Keeps anySource g w.beforeDiscipline :=
  (Wk.keeps_denBoundary hg w).trans (.up ((foldl_keeps (fun _ _ _ => ite_keeps (fun _ => hg.setBead _ _ _) fun _ => rfl) _).trans (Dev.rejoinBoundary_keeps hg _)))

end

/-- The frame that a boundary ends with shows its number, in the uplink window. -/
def Dev.showFrame (d : Dev) : Dev := (d.wr F.SYS_FRM_STAT_SEQ (seqOf d.frame.k)).wr F.SYS_FRM_STAT_WINDOW 0

theorem Wk.boundaryEnd_eq (w : Wk) : w.boundaryEnd = w.beforeDiscipline.disciplineBoundary.twinBoundary.stkBoundary.olgSync.up (·.showFrame) := rfl

/-! ## The discipline of the time -/

theorem OffClock.tsrc {β : Type} {g : Dev → β} (hg : OffClock g) (d : Dev) (v : Nat) : g (d.setTsrc v) = g d := by
  unfold Dev.setTsrc
  split
  · exact hg.wr _ _ _ (by simp only [Fld.Later, F.TIM_STAT_TSRC]; omega)
  · exact (hg.time ((d.wr F.TIM_STAT_TSRC 0).wr F.TIM_STAT_LOCK 0) _).trans
      ((hg.wr _ _ _ (by simp only [Fld.Later, F.TIM_STAT_LOCK]; omega)).trans (hg.wr _ _ _ (by simp only [Fld.Later, F.TIM_STAT_TSRC]; omega)))

theorem Wk.keeps_stepNow {β : Type} {g : Dev → β} (hg : OffClock g) (w : Wk) (off : Int) : w.Keeps anySource g (w.stepNow off) := by
  have wrap (u : Wk) (b : Bool) : u.Keeps anySource g (u.wrap b) := Wk.keeps_wrap (fun _ _ => hg.wr _ _ _ (by simp only [Fld.Later, F.TIM_EPOCH]; omega))
    (fun _ _ => hg.wr _ _ _ (by simp only [Fld.Later, F.TIM_STAT_WRAP]; omega)) trivial u b
  have step : w.Keeps anySource g (w.stepTime off) := by
    unfold Wk.stepTime
    exact .trans (.trans (.trans (.up (hg.clock _ _ rfl rfl rfl)) (.up (hg.wr _ _ _ (by simp only [Fld.Later, F.TIM_STAT_STEPPED]; omega)))) (.on fun _ => wrap _ _))
      (.on fun _ => wrap _ _)
  unfold Wk.stepNow
  split
  exact step.trans (.trans (.raise trivial) (.up (ite_keeps (fun _ => rfl) fun _ => hg.wr _ _ _ (by simp only [Fld.Later, F.TIM_STAT_COARSE]; omega))))

theorem Wk.keeps_disciplineBoundary {β : Type} {g : Dev → β} (hg : OffClock g) (w : Wk) : w.Keeps anySource g w.disciplineBoundary := by
  unfold Wk.disciplineBoundary
  extract_lets w1
  refine .ite (fun _ => .refl w) fun _ => ?_
  have h1 : w.Keeps anySource g w1 := by
    unfold w1
    split
    · exact (Wk.keeps_stepNow hg w _).trans (.up (hg.time _ _))
    · exact .refl w
  split
  · exact .ite (fun _ => h1.trans (.up (hg.time _ _))) fun _ => h1.trans (.up (hg.time _ _))
  · exact h1

/-- With no step due, the discipline changes the increment alone (R40). -/
theorem Wk.disciplineBoundary_now {w : Wk} (h : w.d.time.stepDue = none) :
    (w.disciplineBoundary.d.frame.origin, w.disciplineBoundary.d.time.now) = (w.d.frame.origin, w.d.time.now) := by
  unfold Wk.disciplineBoundary
  rw [h]
  dsimp only
  split_ifs
  · rfl
  · split
    · split <;> rfl
    · rfl

/-- What of the end of a boundary is seen of the frame generator and of the frame's numbers. -/
theorem Wk.boundaryEnd_sees {β : Type} {g : Dev → β} (hg : OffClock g) (w : Wk) : ∃ d : Dev, g d = g w.d ∧ w.boundaryEnd.d = d.showFrame :=
  ⟨w.beforeDiscipline.disciplineBoundary.twinBoundary.stkBoundary.olgSync.d, ((Wk.keeps_beforeDiscipline hg.boundary w).trans ((Wk.keeps_disciplineBoundary hg _).trans (Wk.keeps_afterDiscipline hg.boundary hg.tsrc _))).dev, by rw [Wk.boundaryEnd_eq, Wk.up_d]⟩

end Sys2Proof.Machine

/-! FRAME_GENERATOR_START: frame 0 begins now (R18). -/
namespace Sys2Proof.Machine

/-- The frame generator runs from now on, with no frame behind it. -/
def Dev.runNow (d : Dev) : Dev :=
  ({ d with frame := d.frame.restart d.time.now d.time.rt }.upTwn fun t => { t with h1Got := none, h1Done := none, aligned := false }).wr F.SYS_FRM_CTRL_RUNNING 1

/-- A unit of a twin enters LISTEN as its frames begin (R335). -/
def Dev.listenFirst (d : Dev) : Dev := if d.rdB F.TWN_CTRL_EN then d.enterListen else d

theorem Wk.startFrames_eq (w : Wk) :
    w.startFrames = ((w.up fun d => d.runNow.listenFirst.swapNow 0).boundaryWork w.d.prior true).boundaryEnd.up (·.upTwn fun t => { t with listen := 0 }) := rfl

theorem Dev.swapNow_keeps {β : Type} {g : Dev → β} (hg : OffBoundary g) (d : Dev) (k : BitVec 32) : g (d.swapNow k) = g d :=
  ite_keeps (fun _ => rfl) fun _ => (Dev.settle_keeps hg.replies _ _ _).trans ((hg.upLpe _ _).trans
    ((hg.wr _ _ _ (by simp only [Fld.Later, F.LPE_COEF_SWAP_PEND]; omega)).trans (hg.wr _ _ _ (by simp only [Fld.Later, F.LPE_COEF_BANK]; omega))))

theorem Dev.listenFirst_keeps {β : Type} {g : Dev → β} (hg : OffBoundary g) (ht : ∀ d v, g (Dev.setTsrc d v) = g d) (d : Dev) : g d.listenFirst = g d :=
  ite_keeps (fun _ => Dev.enterListen_keeps hg ht d) fun _ => rfl

theorem Dev.shown_frame (d : Dev) (f : TwnSt → TwnSt) : (d.showFrame.upTwn f).frame = d.frame := rfl

theorem Dev.runNow_numbers (d : Dev) : (d.runNow.frame.k, d.runNow.frame.base) = (0, 0) := rfl

/-- What the first boundary shows of the frame generator and of the frame's numbers. -/
theorem Wk.startFrames_sees {β : Type} {g : Dev → β} (hg : OffClock g) (w : Wk) :
    ∃ d : Dev, g d = g w.d.runNow ∧ w.startFrames.d = d.showFrame.upTwn fun t => { t with listen := 0 } := by
  rw [Wk.startFrames_eq, Wk.up_d]
  obtain ⟨d, hd, hw⟩ := Wk.boundaryEnd_sees hg ((w.up fun d => d.runNow.listenFirst.swapNow 0).boundaryWork w.d.prior true)
  refine ⟨d, hd.trans ((Wk.keeps_boundaryWork hg.boundary _ _ _).dev.trans ?_), by rw [hw]⟩
  exact (Dev.swapNow_keeps hg.boundary _ 0).trans (Dev.listenFirst_keeps hg.boundary hg.tsrc _)

/-! ## The date of frame 0 -/

/-- The date from which frames count, and the device time. -/
def Dev.epochNow (d : Dev) : BitVec 64 × BitVec 64 := (d.frame.origin, d.time.now)

theorem OffBoundary.epochNow : OffBoundary Dev.epochNow :=
  ⟨⟨fun _ _ _ _ => rfl⟩, fun _ _ _ ht hf => Prod.ext (congrArg FrameSt.origin hf) (congrArg TimeSt.now ht)⟩

theorem Dev.setTsrc_epochNow (d : Dev) (v : Nat) : (d.setTsrc v).epochNow = d.epochNow := by
  unfold Dev.setTsrc
  split <;> rfl

theorem Dev.shown_epochNow (d : Dev) (f : TwnSt → TwnSt) : (d.showFrame.upTwn f).epochNow = d.epochNow := rfl

theorem OffBoundary.time : OffBoundary Dev.time := ⟨⟨fun _ _ _ _ => rfl⟩, fun _ _ _ ht _ => ht⟩

theorem Dev.setTsrc_stepDue {d : Dev} (h : d.time.stepDue = none) (v : Nat) : (d.setTsrc v).time.stepDue = none := by
  unfold Dev.setTsrc
  split
  · exact h
  · rfl

theorem Dev.listenFirst_stepDue {d : Dev} (h : d.time.stepDue = none) : d.listenFirst.time.stepDue = none := by
  have htwin : (d.setTwin 1).time.stepDue = none := (congrArg TimeSt.stepDue (Dev.setTwin_keeps OffBoundary.time d 1)).trans h
  unfold Dev.listenFirst
  split
  · show (d.setTwin 1).retime.time.stepDue = none
    unfold Dev.retime
    split
    · exact htwin
    · exact Dev.setTsrc_stepDue htwin _
  · exact h

/-- Where no step of device time is due, frame 0 begins now. -/
theorem Wk.startFrames_epochNow {w : Wk} (h : w.d.time.stepDue = none) : w.startFrames.d.epochNow = w.d.runNow.epochNow := by
  obtain ⟨w1, hw1⟩ : ∃ w1, (w.up fun d => d.runNow.listenFirst.swapNow 0).boundaryWork w.d.prior true = w1 := ⟨_, rfl⟩
  have begun {β : Type} {g : Dev → β} (hg : OffBoundary g) : g w1.beforeDiscipline.d = g w.d.runNow.listenFirst := by
    rw [← hw1]
    exact (Wk.keeps_beforeDiscipline hg _).dev.trans ((Wk.keeps_boundaryWork hg _ _ _).dev.trans (Dev.swapNow_keeps hg _ 0))
  have none : w1.beforeDiscipline.d.time.stepDue = none := (congrArg TimeSt.stepDue (begun .time)).trans (Dev.listenFirst_stepDue h)
  have ended : w.startFrames.d.epochNow = w1.beforeDiscipline.disciplineBoundary.twinBoundary.stkBoundary.olgSync.d.epochNow := by
    rw [Wk.startFrames_eq, hw1, Wk.boundaryEnd_eq, Wk.up_d, Wk.up_d, Dev.shown_epochNow]
  calc w.startFrames.d.epochNow = _ := ended
    _ = w1.beforeDiscipline.disciplineBoundary.d.epochNow := (Wk.keeps_afterDiscipline .epochNow Dev.setTsrc_epochNow _).dev
    _ = w1.beforeDiscipline.d.epochNow := Wk.disciplineBoundary_now none
    _ = w.d.runNow.listenFirst.epochNow := begun .epochNow
    _ = w.d.runNow.epochNow := Dev.listenFirst_keeps .epochNow Dev.setTsrc_epochNow _

/-! ## The row -/

/-- FRAME_GENERATOR_START in step 6 with every configured link up. -/
theorem frameGeneratorStart_leaves {s : State} (hr : s.dev.running = false) (h6 : s.dev.rd F.CLK_START_STEP = 6) (hl : s.dev.linksUp = true) :
    Leaves .frameGeneratorStart s fun d _ => d.rd F.SYS_FRM_CTRL_RUNNING = 1 ∧ d.rd F.SYS_FRM_STAT_SEQ = 0 ∧ d.rd F.SYS_FRM_STAT_WINDOW = 0 ∧ d.rd F.CLK_START_STEP = 7 ∧
      d.frame.k = 0 ∧ d.frame.base = 0 ∧ (s.dev.time.stepDue = none → d.frame.origin = s.dev.time.now ∧ d.time.now = s.dev.time.now) := by
  have hexec := (exec_frameGeneratorStart s).trans (s.run_next _)
  have hgo : (!s.wk.d.running && decide (s.wk.d.rd F.CLK_START_STEP = 6) && s.wk.d.linksUp) = true := by
    simp [show s.wk.d = s.dev from rfl, hr, h6, hl]
  rw [hgo, Wk.on_true] at hexec
  refine ⟨_, hexec, ?_⟩
  rw [Wk.up_d]
  obtain ⟨d, hd, hw⟩ := Wk.startFrames_sees .running s.wk
  obtain ⟨e, he, hw'⟩ := Wk.startFrames_sees .numbers s.wk
  have other {f : Fld} (h : f.key ≠ F.CLK_START_STEP.key) : (s.wk.startFrames.d.wr F.CLK_START_STEP 7).rd f = d.showFrame.rd f := by
    rw [Dev.wr_rd_ne _ _ h, hw]
    rfl
  have other' {f : Fld} (h : f.key ≠ F.CLK_START_STEP.key) : (s.wk.startFrames.d.wr F.CLK_START_STEP 7).rd f = e.showFrame.rd f := by
    rw [Dev.wr_rd_ne _ _ h, hw']
    rfl
  have numbers : (s.wk.startFrames.d.frame.k, s.wk.startFrames.d.frame.base) = (0, 0) := by
    rw [hw', Dev.shown_frame]
    exact he.trans (Dev.runNow_numbers _)
  obtain ⟨hk, hbase⟩ := Prod.mk.inj numbers
  obtain ⟨hk', -⟩ := Prod.mk.inj (he.trans (Dev.runNow_numbers _))
  rw [Dev.wr_frame, Dev.wr_time]
  refine ⟨?_, ?_, ?_, Dev.wr_rd _ _ _, hk, hbase, fun hs => ?_⟩
  · rw [other (by decide), Dev.showFrame, Dev.wr_rd_ne _ _ (by decide), Dev.wr_rd_ne _ _ (by decide)]
    exact hd.trans (Dev.wr_rd _ _ _)
  · rw [other' (by decide), Dev.showFrame, Dev.wr_rd_ne _ _ (by decide), Dev.wr_rd, hk']
    rfl
  · rw [other (by decide), Dev.showFrame, Dev.wr_rd]
    rfl
  · exact Prod.mk.inj (Wk.startFrames_epochNow (w := s.wk) hs)

/-- Settles O34: the steps of start-up, each by its row. -/
theorem startUpSteps : Obligations.StartUpSteps :=
  ⟨fun _ mask _ h3 hr => bistComplete_leaves mask h3 hr, fun _ hr h6 hl => frameGeneratorStart_leaves hr h6 hl, fun s => discoveryEnd_spec s _ Iff.rfl,
    fun s => timeLockStepEnd_spec s _ rfl _ Iff.rfl, aonCrystalStable_sets, fun _ h => olgCrcUpdate_follows h⟩

end Sys2Proof.Machine

/-! Every row, and the step with an empty queue, answers a next state with the queue it was given (entry 3). -/
namespace Sys2Proof.Machine

/-- A next state with the queue of the state before. -/
def State.GoesOn (s : State) (o : Host.Outcome State Fault Refusal) : Prop := ∃ t, o = .next t ∧ t.pending = s.pending

theorem State.runThen_goesOn (s : State) (f : Wk → Wk) (g : Dev → Dev) : s.GoesOn (s.runThen f g) := ⟨_, rfl, rfl⟩

theorem State.commandV_goesOn (s : State) (op : Nat) (h : Hdr) (ps : List Word) (c : Cmd) : s.GoesOn (s.commandV op h ps c) := ⟨_, rfl, rfl⟩

/-- A start from step 2 completes, whether or not an identity slot fails its self-check (R501). -/
theorem State.boot_goesOn (s : State) (d : Dev) : s.GoesOn (s.boot d) := by
  unfold State.boot
  split
  · exact ⟨_, rfl, rfl⟩
  · exact ⟨_, rfl, rfl⟩

/-- POR_N_RELEASE completes with and without TEST_EN (R560). -/
theorem porNRelease_goesOn (k : Nat) (role ioh33 testEn : Bool) (s : State) : s.GoesOn (exec (.porNRelease k role ioh33 testEn) s) := by
  cases testEn with
  | true => exact ⟨_, rfl, rfl⟩
  | false => exact s.boot_goesOn _

/-- No row faults, is refused, or sends a command of its own: most run as `State.runThen`, the rest write the protected part. -/
theorem exec_goesOn (c : Instr) (s : State) : s.GoesOn (exec c s) := by
  cases hc : writesVault c with
  | false =>
    obtain ⟨f, g, hrun⟩ := runs_of_not_writesVault c hc s
    exact hrun ▸ s.runThen_goesOn f g
  | true =>
    cases c with
    | fltClear h ps => exact s.commandV_goesOn _ h ps _
    | keyProvision h ps => exact s.commandV_goesOn _ h ps _
    | ownerKey h ps => exact s.commandV_goesOn _ h ps _
    | hallmark h ps ok => exact s.commandV_goesOn _ h ps _
    | fuseWrite h ps => exact s.commandV_goesOn _ h ps _
    | vaonPowerOn => exact ⟨_, rfl, rfl⟩
    | corePowerOn => exact ⟨_, rfl, rfl⟩
    | porNRelease k role ioh33 testEn => exact porNRelease_goesOn k role ioh33 testEn s
    | resetNRelease k role => exact s.boot_goesOn _
    | _ => exact nomatch hc

/-- The block's own work is a row, a packet that no row tells of, or one clock edge. -/
theorem State.idle_goesOn (s : State) : s.GoesOn s.idle := by
  unfold State.idle
  cases s.dev.work with
  | row c => exact exec_goesOn c s
  | odd x => exact s.runThen_goesOn _ id
  | tick => exact s.runThen_goesOn _ id

/-- Settles O2: a step with an empty queue is the block's own work, which keeps the queue. -/
theorem emptyQueueStepCompletes : Obligations.EmptyQueueStepCompletes := by
  intro s hs
  obtain ⟨t, ht, hq⟩ := s.idle_goesOn
  refine ⟨t, ?_, hq.trans hs⟩
  unfold step
  rw [hs]
  exact ht

end Sys2Proof.Machine

/-! NET lanes: their link, and the frames that come and go by them (R60 to R63, R413, R455, R456). -/
namespace Sys2Proof.Machine

/-! ## Rows that work on the device alone -/

/-- A row whose work does nothing answers the state it was given. -/
theorem State.run_same (s : State) {f : Wk → Wk} (h : f s.wk = s.wk) : s.run f = .next s := by
  rw [State.run_next, h, s.settleWk_wk]

/-- A row whose work changes the device without a message, and neither the twin's state nor the role in the stack. -/
theorem State.run_upTo (s : State) {f : Wk → Wk} {g : Dev → Dev} (h : f s.wk = s.wk.up g) (hk : ∀ k ∈ [F.STK_STAT_ROLE, F.TWN_STAT_STATE], (g s.dev).rd k = s.dev.rd k) :
    s.run f = .next (s.withDev (g s.dev)) := by
  rw [State.run_next, h]
  exact congrArg _ (s.settleWk_up (hk _ (by simp)) (hk _ (by simp)))

/-- Fields whose address is not the stack's nor the twin's status are apart from what is notified. -/
theorem Fld.notified_ne {k f : Fld} (hk : k ∈ [F.STK_STAT_ROLE, F.TWN_STAT_STATE]) (hf : f.key < F.TWN_STAT_STATE.key ∨ F.STK_STAT_ROLE.key < f.key) : k.key ≠ f.key := by
  have two : k.key = F.STK_STAT_ROLE.key ∨ k.key = F.TWN_STAT_STATE.key := by
    simp only [List.mem_cons, List.not_mem_nil, or_false] at hk
    exact hk.imp (congrArg Fld.key) (congrArg Fld.key)
  have order : F.TWN_STAT_STATE.key < F.STK_STAT_ROLE.key := by decide
  omega

/-- The registers of the lanes stand above those of the twin and the stack. -/
theorem Fld.notified_ne_lane {k f : Fld} (hk : k ∈ [F.STK_STAT_ROLE, F.TWN_STAT_STATE]) (hf : 0x20000 ≤ f.addr) : k.key ≠ f.key :=
  Fld.notified_ne hk (.inr (by simp only [Fld.key, F.STK_STAT_ROLE]; omega))

/-! ## NET_AUTONEGOTIATION -/

theorem netAutonegotiation_up {s : State} {n : Nat} (h : s.dev.role n = 4) :
    exec (.netAutonegotiation n) s = .next (s.withDev (((s.dev.setLane n { s.dev.lane n with out := .data }).wr (F.LANE_STAT_RATE n) 0).wr (F.LANE_STAT_PHASE n) 2)) := by
  have hnet : decide (s.wk.d.role n = 4) = true := decide_eq_true h
  refine (exec_netAutonegotiation n s).trans (s.run_upTo (g := fun d => ((d.setLane n { d.lane n with out := .data }).wr (F.LANE_STAT_RATE n) 0).wr (F.LANE_STAT_PHASE n) 2)
    (by rw [hnet, Wk.on_true]) fun k hk => ?_)
  rw [Dev.wr_rd_ne _ _ (Fld.notified_ne_lane hk (by simp only [F.LANE_STAT_PHASE]; omega)),
    Dev.wr_rd_ne _ _ (Fld.notified_ne_lane hk (by simp only [F.LANE_STAT_RATE]; omega)), Dev.setLane_rd]

theorem netAutonegotiation_other {s : State} {n : Nat} (h : s.dev.role n ≠ 4) : exec (.netAutonegotiation n) s = .next s := by
  have hnet : decide (s.wk.d.role n = 4) = false := decide_eq_false h
  exact (exec_netAutonegotiation n s).trans (s.run_same (by rw [hnet, Wk.on_false]))

/-! ## NET_FRAME_RECEIVE -/

/-- A frame of a lane without a NET number, with a bad FCS, or too short or too long. -/
def Dev.dropsNet (d : Dev) (n : Nat) (ok : Bool) (b : List Byte) : Prop := d.netIndex n = none ∨ ok = false ∨ b.length < 60 ∨ 1518 < b.length

theorem netFrameReceive_dropped {s : State} {n : Nat} {ok : Bool} {b : List Byte} (ts : BitVec 64) (h : s.dev.dropsNet n ok b) : exec (.netFrameReceive n ok b ts) s = .next s := by
  refine (exec_netFrameReceive n ok b ts s).trans (s.run_same ?_)
  unfold Wk.netReceive
  split
  · rfl
  next i hi => exact if_pos (h.elim (fun h => nomatch hi.symm.trans h) fun h => h.imp_left fun h => by simp [h])

/-- A frame as the queues hold it (R456). -/
def Dev.netFrame (d : Dev) (n i : Nat) (b : List Byte) (ts : BitVec 64) : NetFrame :=
  ⟨b, i, d.rdB F.TIM_CTRL_NET_TS_EN, d.rdB F.TIM_STAT_COARSE, netStamp ts - BitVec.ofNat 64 (d.rd (F.LANE_NET_RXD n) * 65536 / 1000), d.rd F.TIM_EPOCH % 65536⟩

/-- The bytes that a queue of NET frames takes, each frame with its 16 bytes of information (entry 61). -/
def netSize (q : List NetFrame) : Nat := (q.map fun x => 16 + (x.bytes.length + 3) / 4 * 4).foldl (· + ·) 0

/-- A frame reaches one port: it is not taken there, dropped, or queued (R413). -/
def Dev.netInto (d : Dev) (f : NetFrame) (p : Nat) : Dev :=
  if !bitOf (d.rd (F.HST_CFG_NETL p)) f.lane then d
  else if 32 ≤ (d.port p).netq.length ∨ 24576 < netSize (d.port p).netq + 16 + f.bytes.length then d.inc (F.HST_NET_DROP p)
  else d.upPort p fun x => { x with netq := x.netq ++ [f] }

theorem netReceive_eq {w : Wk} {n i : Nat} {b : List Byte} (ts : BitVec 64) (hi : w.d.netIndex n = some i) (hlo : 60 ≤ b.length) (hhi : b.length ≤ 1518) :
    w.netReceive n true b ts = w.up fun d => (d.netInto (w.d.netFrame n i b ts) 0).netInto (w.d.netFrame n i b ts) 1 := by
  have one (u : Wk) (f : NetFrame) (p : Nat) : (if !bitOf (u.d.rd (F.HST_CFG_NETL p)) f.lane then u
      else if (u.d.port p).netq.length ≥ 32 ∨ netSize (u.d.port p).netq + 16 + f.bytes.length > 24576 then u.up (·.inc (F.HST_NET_DROP p))
      else u.up (·.upPort p fun x => { x with netq := x.netq ++ [f] })) = u.up (·.netInto f p) := by
    show _ = ({ u with d := u.d.netInto f p } : Wk)
    unfold Dev.netInto
    split_ifs <;> rfl
  unfold Wk.netReceive
  rw [hi]
  dsimp only
  rw [if_neg (by simp; omega)]
  exact (one _ (w.d.netFrame n i b ts) 1).trans (congrArg (Wk.up · (·.netInto (w.d.netFrame n i b ts) 1)) (one w (w.d.netFrame n i b ts) 0))

section
variable (d : Dev) (f : NetFrame) (p : Nat)

theorem Dev.netInto_rd_ne {k : Fld} (h : k.key ≠ (F.HST_NET_DROP p).key) : (d.netInto f p).rd k = d.rd k :=
  ite_keeps (g := (Dev.rd · k)) (fun _ => rfl) fun _ => ite_keeps (g := (Dev.rd · k)) (fun _ => Dev.inc_rd_ne d h) fun _ => Dev.upPort_rd _ _ _ _

/-- The other port sees nothing of it. -/
theorem Dev.netInto_port_ne {q : Nat} (h : (p = 0) ≠ (q = 0)) : (d.netInto f p).port q = d.port q :=
  ite_keeps (g := (Dev.port · q)) (fun _ => rfl) fun _ => ite_keeps (g := (Dev.port · q)) (fun _ => rfl) fun _ => Dev.upPort_port_ne d _ h

/-- Nothing but the ports and the registers is touched. -/
theorem Dev.netInto_rest (e : Dev) :
    { d.netInto f p with regs := e.regs, hpa := e.hpa, hpb := e.hpb } = { d with regs := e.regs, hpa := e.hpa, hpb := e.hpb } := by
  unfold Dev.netInto Dev.upPort
  split_ifs <;> rfl

/-- The queue has room for one more frame (R413, entry 61). -/
def Dev.netRoom : Prop := (d.port p).netq.length < 32 ∧ netSize (d.port p).netq + 16 + f.bytes.length ≤ 24576

variable {d f p}

theorem Dev.netInto_untaken (h : bitOf (d.rd (F.HST_CFG_NETL p)) f.lane = false) : d.netInto f p = d := if_pos (by simp [h])

theorem Dev.netInto_queued (h : bitOf (d.rd (F.HST_CFG_NETL p)) f.lane = true) (hr : d.netRoom f p) :
    d.netInto f p = d.upPort p fun x => { x with netq := x.netq ++ [f] } :=
  (if_neg (by simp [h])).trans (if_neg (by obtain ⟨h1, h2⟩ := hr; omega))

theorem Dev.netInto_full (h : bitOf (d.rd (F.HST_CFG_NETL p)) f.lane = true) (hr : ¬ d.netRoom f p) : d.netInto f p = d.inc (F.HST_NET_DROP p) :=
  (if_neg (by simp [h])).trans (if_pos (by unfold Dev.netRoom at hr; omega))

/-- What a frame does to the port it reaches, by whether the port takes the lane and has room. -/
theorem Dev.netInto_port :
    (bitOf (d.rd (F.HST_CFG_NETL p)) f.lane = false → (d.netInto f p).port p = d.port p ∧ (d.netInto f p).rd (F.HST_NET_DROP p) = d.rd (F.HST_NET_DROP p)) ∧
    (bitOf (d.rd (F.HST_CFG_NETL p)) f.lane = true → d.netRoom f p →
      (d.netInto f p).port p = { d.port p with netq := (d.port p).netq ++ [f] } ∧ (d.netInto f p).rd (F.HST_NET_DROP p) = d.rd (F.HST_NET_DROP p)) ∧
    (bitOf (d.rd (F.HST_CFG_NETL p)) f.lane = true → ¬ d.netRoom f p →
      (d.netInto f p).port p = d.port p ∧ (d.netInto f p).rd (F.HST_NET_DROP p) = min (d.rd (F.HST_NET_DROP p) + 1) 65535) := by
  refine ⟨fun h => ?_, fun h hr => ?_, fun h hr => ?_⟩
  · rw [Dev.netInto_untaken h]
    exact ⟨rfl, rfl⟩
  · rw [Dev.netInto_queued h hr]
    exact ⟨Dev.upPort_port _ _ _, Dev.upPort_rd _ _ _ _⟩
  · rw [Dev.netInto_full h hr]
    exact ⟨rfl, (Dev.wr_rd _ _ _).trans (Nat.mod_eq_of_lt (by simp only [F.HST_NET_DROP]; omega))⟩

end

theorem netDrop_key (p : Nat) : (F.HST_NET_DROP p).key = 0x7024 * 32 + 16 + p * 8192 := by
  simp only [Fld.key, F.HST_NET_DROP]
  omega

/-- NET_FRAME_RECEIVE of a good frame: each port by itself, and nothing else. -/
theorem netFrameReceive_taken {s : State} {n i : Nat} {b : List Byte} (ts : BitVec 64) (hi : s.dev.netIndex n = some i) (hlo : 60 ≤ b.length) (hhi : b.length ≤ 1518) :
    exec (.netFrameReceive n true b ts) s = .next (s.withDev ((s.dev.netInto (s.dev.netFrame n i b ts) 0).netInto (s.dev.netFrame n i b ts) 1)) := by
  refine (exec_netFrameReceive n true b ts s).trans (s.run_upTo (g := fun d => (d.netInto (s.dev.netFrame n i b ts) 0).netInto (s.dev.netFrame n i b ts) 1)
    (netReceive_eq (w := s.wk) ts hi hlo hhi) fun k hk => ?_)
  have below (p : Nat) (hp : p < 2) : k.key ≠ (F.HST_NET_DROP p).key := Fld.notified_ne hk (.inl (by rw [netDrop_key]; simp only [Fld.key, F.TWN_STAT_STATE]; omega))
  rw [Dev.netInto_rd_ne _ _ _ (below 1 (by omega)), Dev.netInto_rd_ne _ _ _ (below 0 (by omega))]

/-- What the two ports get of a frame: neither sees what the other does with it. -/
theorem Dev.netInto_both (d : Dev) (f : NetFrame) {p : Nat} (hp : p < 2) :
    ((d.netInto f 0).netInto f 1).port p = (d.netInto f p).port p ∧ ((d.netInto f 0).netInto f 1).rd (F.HST_NET_DROP p) = (d.netInto f p).rd (F.HST_NET_DROP p) := by
  have apart : (F.HST_NET_DROP 0).key ≠ (F.HST_NET_DROP 1).key := by decide
  obtain rfl | rfl : p = 0 ∨ p = 1 := by omega
  · exact ⟨Dev.netInto_port_ne _ f 1 (by simp), Dev.netInto_rd_ne _ f 1 apart⟩
  · have hrd (k : Fld) (hk : k.key ≠ (F.HST_NET_DROP 0).key) : (d.netInto f 0).rd k = d.rd k := Dev.netInto_rd_ne d f 0 hk
    have hport : (d.netInto f 0).port 1 = d.port 1 := Dev.netInto_port_ne d f 0 (by simp)
    have hnetl : (d.netInto f 0).rd (F.HST_CFG_NETL 1) = d.rd (F.HST_CFG_NETL 1) := hrd _ (by decide)
    have hdrop : (d.netInto f 0).rd (F.HST_NET_DROP 1) = d.rd (F.HST_NET_DROP 1) := hrd _ apart.symm
    have hroom : (d.netInto f 0).netRoom f 1 ↔ d.netRoom f 1 := by unfold Dev.netRoom; rw [hport]
    cases ht : bitOf (d.rd (F.HST_CFG_NETL 1)) f.lane with
    | false => rw [Dev.netInto_untaken ht, Dev.netInto_untaken (by rw [hnetl, ht])]; exact ⟨hport, hdrop⟩
    | true =>
      obtain ⟨-, hq, hf⟩ := Dev.netInto_port (d := d.netInto f 0) (f := f) (p := 1)
      obtain ⟨-, hq', hf'⟩ := Dev.netInto_port (d := d) (f := f) (p := 1)
      rw [hnetl, hport, hdrop] at hq hf
      by_cases hr : d.netRoom f 1
      · exact ⟨(hq ht (hroom.2 hr)).1.trans (hq' ht hr).1.symm, (hq ht (hroom.2 hr)).2.trans (hq' ht hr).2.symm⟩
      · exact ⟨(hf ht (mt hroom.1 hr)).1.trans (hf' ht hr).1.symm, (hf ht (mt hroom.1 hr)).2.trans (hf' ht hr).2.symm⟩

/-! ## NET_FRAME_SENT -/

/-- The device once the frame that waits on a port has left by a lane (R455). -/
def Dev.netLeft (d : Dev) (p n : Nat) (b : List Byte) : Dev :=
  { d.upPort p fun q => { q with netWait := none } with waits := [], tx := tput [] d.tx n (b ++ leBytes 4 (crc32 b)) }

theorem Dev.netLeft_rd (d : Dev) (p n : Nat) (b : List Byte) (f : Fld) : (d.netLeft p n b).rd f = d.rd f := Dev.upPort_rd d p _ f

/-- The words of the reply to a sent frame: the egress time of an event message whose time was asked for (R455). -/
def Dev.netWords (d : Dev) (n : Nat) (b : List Byte) (tsreq : Bool) (ts : BitVec 64) : List Nat :=
  let t := netStamp ts + BitVec.ofNat 64 (d.rd (F.LANE_NET_TXD n) * 65536 / 1000)
  if tsreq = true ∧ d.ptpEvent b = true then
    [t.toNat % 2 ^ 32, t.toNat / 2 ^ 32, d.rd F.TIM_EPOCH % 65536 + b2n (d.rdB F.TIM_CTRL_NET_TS_EN) * 2 ^ 16 + b2n (d.rdB F.TIM_STAT_COARSE) * 2 ^ 17] else []

/-- The words are read of register fields alone. -/
theorem Dev.netWords_congr {d e : Dev} (h : ∀ f, e.rd f = d.rd f) (n : Nat) (b : List Byte) (tsreq : Bool) (ts : BitVec 64) : e.netWords n b tsreq ts = d.netWords n b tsreq ts := by
  have hevent : e.ptpEvent b = d.ptpEvent b := by
    unfold Dev.ptpEvent Dev.rdB
    rw [h]
  unfold Dev.netWords Dev.rdB
  rw [hevent, h, h, h, h]

theorem netFrameSent_replies {s : State} {n i : Nat} {x : Wait} {b : List Byte} {h : Hdr} {tsreq : Bool} (ts : BitVec 64) (hw : s.dev.waits = [x]) (hk : x.kind = .net)
    (hi : s.dev.netIndex n = some i) (hp : (s.dev.port x.hdr.port).netWait = some (i, b, h, tsreq)) :
    exec (.netFrameSent n ts) s = .next (s.withDev ((s.dev.netLeft x.hdr.port n b).replyOk h 0x0B00 (s.dev.netWords n b tsreq ts))) := by
  have hrd (f : Fld) := s.dev.netLeft_rd x.hdr.port n b f
  have hd : s.wk.d = s.dev := rfl
  have hleft : { s.dev.upPort x.hdr.port fun q => { q with netWait := none } with
      waits := List.filter (fun y => !(decide (y.kind = WaitKind.net) && decide (y.hdr.port = x.hdr.port))) s.dev.waits, tx := tput [] s.dev.tx n (b ++ leBytes 4 (crc32 b)) } =
      s.dev.netLeft x.hdr.port n b := by simp [Dev.netLeft, hw, hk]
  refine (exec_netFrameSent n ts s).trans (s.run_upTo (g := fun d => (d.netLeft x.hdr.port n b).replyOk h 0x0B00 (s.dev.netWords n b tsreq ts)) ?_
    fun k _ => by rw [Dev.replyOk_rd, hrd])
  dsimp only
  split
  next hf =>
    have hx := List.find?_eq_none.1 hf x (by rw [hd, hw]; simp)
    simp [hk, hp, hi, hd] at hx
  next y hf =>
    have hy := List.mem_of_find?_eq_some hf
    rw [hd, hw, List.mem_singleton] at hy
    subst hy
    split
    next h0 => exact nomatch h0.symm.trans hp
    next h0 =>
      cases h0.symm.trans hp
      rw [hd, Dev.upPort_waits, Dev.upPort_tx, hleft, ← Dev.netWords_congr hrd]
      rfl

/-- Settles O44: the link by its role, a received frame port by port, a sent one by the wait it ends. -/
theorem netFramesReachEveryPortThatTakesThem : Obligations.NetFramesReachEveryPortThatTakesThem := by
  refine ⟨fun s n => ⟨netAutonegotiation_up, netAutonegotiation_other⟩, fun s n b ts h => netFrameReceive_dropped ts (.inl h),
    fun s n b ts => ⟨netFrameReceive_dropped ts (.inr (.inl rfl)), fun h => netFrameReceive_dropped ts (.inr (.inr h))⟩,
    fun s n i b ts hi hlo hhi => ⟨_, netFrameReceive_taken ts hi hlo hhi, fun p hp => ?_, fun f h0 h1 => ?_, ?_, rfl⟩,
    fun s n i ts x b h tsreq hw hk _ hi hp => netFrameSent_replies ts hw hk hi hp⟩
  · obtain ⟨hport, hdrop⟩ := s.dev.netInto_both (s.dev.netFrame n i b ts) hp
    simp only [hport, hdrop]
    exact Dev.netInto_port (d := s.dev) (f := s.dev.netFrame n i b ts) (p := p)
  · exact (Dev.netInto_rd_ne _ _ 1 h1).trans (Dev.netInto_rd_ne _ _ 0 h0)
  · exact (Dev.netInto_rest _ _ 1 _).trans (Dev.netInto_rest _ _ 0 _)

end Sys2Proof.Machine

/-! Bring-up of a lane's link: rate index 0, the OFFER, the steps with their dwell, the fall back (R55, R71 to R76). -/
namespace Sys2Proof.Machine

/-! ## The roles and ends of the lanes -/

/-- The lanes have the same roles and the same ends on two devices: what bring-up and its loss of a rate leave. -/
structure Dev.SameEnds (d e : Dev) : Prop where
  retired : ∀ m, (e.lane m).retired = (d.lane m).retired
  sec : e.sec = d.sec
  rd : ∀ f : Fld, f.lo < 32 → f.addr < 0x20000 ∨ f.addr % 4096 = 0 → e.rd f = d.rd f

namespace Dev.SameEnds
variable {d e g : Dev}

theorem trans (h : d.SameEnds e) (h' : e.SameEnds g) : d.SameEnds g :=
  ⟨fun m => (h'.retired m).trans (h.retired m), h'.sec.trans h.sec, fun f hl ha => (h'.rd f hl ha).trans (h.rd f hl ha)⟩

theorem ctrl (h : d.SameEnds e) (n : Nat) : e.rd (F.LANE_CTRL_ROLE n) = d.rd (F.LANE_CTRL_ROLE n) ∧ e.rd (F.LANE_CTRL_STR n) = d.rd (F.LANE_CTRL_STR n) ∧
    e.rd (F.LANE_CTRL_END n) = d.rd (F.LANE_CTRL_END n) := by
  refine ⟨h.rd _ ?_ (.inr ?_), h.rd _ ?_ (.inr ?_), h.rd _ ?_ (.inr ?_)⟩ <;> simp only [F.LANE_CTRL_ROLE, F.LANE_CTRL_STR, F.LANE_CTRL_END] <;> omega

theorem role (h : d.SameEnds e) (n : Nat) : e.role n = d.role n := by
  unfold Dev.role
  rw [h.retired, (h.ctrl n).1]

theorem strandLane (h : d.SameEnds e) (s : Nat) (b : Bool) : e.strandLane s b = d.strandLane s b := by
  unfold Dev.strandLane Dev.rdB
  simp only [h.role, (h.ctrl _).2.1, (h.ctrl _).2.2]

theorem capType (h : d.SameEnds e) (n : Nat) : e.capType n = d.capType n := by
  unfold Dev.capType
  rw [h.role]

theorem capOf (h : d.SameEnds e) (n st r : Nat) (ok : Bool) : e.capOf n st r ok = d.capOf n st r ok := by
  unfold Dev.capOf
  rw [h.capType, h.role, (h.ctrl n).2.1]

theorem aEnd (h : d.SameEnds e) (n : Nat) : e.aEnd n = d.aEnd n := by
  have page (f : Fld) (hl : f.lo < 32) (ha : f.addr < 0x20000) : e.rd f = d.rd f := h.rd f hl (.inl ha)
  unfold Dev.aEnd Dev.rdB
  rw [h.role, (h.ctrl n).2.2, h.sec, page F.TWN_CTRL_PREF (by decide) (by decide), page F.STK_ID (by decide) (by decide),
    page F.STK_CTRL_NDEV (by decide) (by decide), page F.STK_CTRL_RING (by decide) (by decide)]

theorem setLane (n : Nat) {x : LaneSt} (hx : x.retired = (d.lane n).retired) : d.SameEnds (d.setLane n x) := by
  refine ⟨fun m => ?_, rfl, fun _ _ _ => rfl⟩
  obtain rfl | hm := eq_or_ne m n
  · rw [setLane_lane, hx]
  · rw [Dev.setLane_lane_ne _ _ _ _ hm]

/-- A field of a lane's page that is not of its first word. -/
theorem wr (f : Fld) (v : Nat) (hl : f.lo < 32) (ha : 0x20000 ≤ f.addr) (hp : f.addr % 4096 ≠ 0) : d.SameEnds (d.wr f v) := by
  refine ⟨fun _ => rfl, rfl, fun k hk hka => Dev.wr_rd_ne d v fun hkey => ?_⟩
  have hkey' : k.addr * 32 + k.lo = f.addr * 32 + f.lo := hkey
  omega

theorem rate (n v : Nat) : d.SameEnds (d.wr (F.LANE_STAT_RATE n) v) := wr _ v (by simp only [F.LANE_STAT_RATE]; omega) (by simp only [F.LANE_STAT_RATE]; omega) (by simp only [F.LANE_STAT_RATE]; omega)
theorem phase (n v : Nat) : d.SameEnds (d.wr (F.LANE_STAT_PHASE n) v) := wr _ v (by simp only [F.LANE_STAT_PHASE]; omega) (by simp only [F.LANE_STAT_PHASE]; omega) (by simp only [F.LANE_STAT_PHASE]; omega)
theorem dly (n v : Nat) : d.SameEnds (d.wr (F.LANE_DLY n) v) := wr _ v (by simp only [F.LANE_DLY]; omega) (by simp only [F.LANE_DLY]; omega) (by simp only [F.LANE_DLY]; omega)
theorem dwellErr (n v : Nat) : d.SameEnds (d.wr (F.LANE_ERR_DWELL_ERR n) v) :=
  wr _ v (by simp only [F.LANE_ERR_DWELL_ERR]; omega) (by simp only [F.LANE_ERR_DWELL_ERR]; omega) (by simp only [F.LANE_ERR_DWELL_ERR]; omega)

end Dev.SameEnds

theorem laneRate_key (n : Nat) : (F.LANE_STAT_RATE n).key = 4194432 + n * 131072 := by simp only [Fld.key, F.LANE_STAT_RATE]; omega
theorem lanePhase_key (n : Nat) : (F.LANE_STAT_PHASE n).key = 4194437 + n * 131072 := by simp only [Fld.key, F.LANE_STAT_PHASE]; omega
theorem laneDly_key (n : Nat) : (F.LANE_DLY n).key = 4195200 + n * 131072 := by simp only [Fld.key, F.LANE_DLY]; omega
theorem laneDwellErr_key (n : Nat) : (F.LANE_ERR_DWELL_ERR n).key = 4194688 + n * 131072 := by simp only [Fld.key, F.LANE_ERR_DWELL_ERR]; omega

theorem Dev.wr_laneSt (d : Dev) (f : Fld) (v m : Nat) : (d.wr f v).lane m = d.lane m := rfl

/-! ## Sets put out -/

section
variable (d : Dev) (n st r : Nat) (ok : Bool)

theorem Dev.sendCap_os : tget [] (d.sendCap n st r ok).os n = d.capOf n st r ok := by
  unfold Dev.sendCap Dev.sendSet
  exact tget_tput_self ([] : List Byte) d.os n (d.capOf n st r ok)
theorem Dev.sendCap_rd (f : Fld) : (d.sendCap n st r ok).rd f = d.rd f := rfl
theorem Dev.sendCap_lane (m : Nat) : (d.sendCap n st r ok).lane m = d.lane m := rfl
theorem Dev.sendCap_run : (d.sendCap n st r ok).run = d.run := rfl

end

/-! ## A change of rate -/

section
variable (d : Dev) (n r : Nat)

theorem Dev.setRate_sameEnds : d.SameEnds (d.setRate n r) :=
  ((Dev.SameEnds.setLane (d := d) n (x := { d.lane n with dlys := [], ttSent := false }) rfl).trans (.dly n 0)).trans (.rate n r)

theorem Dev.setRate_lane : (d.setRate n r).lane n = { d.lane n with dlys := [], ttSent := false } := setLane_lane _ _ _

theorem Dev.setRate_lane_ne {m : Nat} (h : m ≠ n) : (d.setRate n r).lane m = d.lane m := Dev.setLane_lane_ne _ _ _ _ h

theorem Dev.setRate_rate : (d.setRate n r).rd (F.LANE_STAT_RATE n) = r % 4 := Dev.wr_rd _ _ _

theorem Dev.setRate_dly : (d.setRate n r).rd (F.LANE_DLY n) = 0 :=
  (Dev.wr_rd_ne _ _ (by rw [laneDly_key, laneRate_key]; omega)).trans (Dev.wr_rd _ _ _)

theorem Dev.setRate_rd_ne {f : Fld} (h : f.key ≠ (F.LANE_STAT_RATE n).key) (h' : f.key ≠ (F.LANE_DLY n).key) : (d.setRate n r).rd f = d.rd f :=
  (Dev.wr_rd_ne _ _ h).trans (Dev.wr_rd_ne _ _ h')

end

/-! ## Bring-up at rate index 0 -/

section
variable (d : Dev) (n cap : Nat)

theorem Dev.toIndex0_sameEnds : d.SameEnds (d.toIndex0 n cap) := (d.setRate_sameEnds n 0).trans (.setLane n rfl)

theorem Dev.toIndex0_lane : (d.toIndex0 n cap).lane n =
    { d.lane n with dlys := [], ttSent := false, out := .data, bring := .none, cap := cap, hops0 := none, turned := false, bServes := true, rejoin := false } := by
  unfold Dev.toIndex0
  rw [setLane_lane, Dev.setRate_lane]

theorem Dev.toIndex0_lane_ne {m : Nat} (h : m ≠ n) : (d.toIndex0 n cap).lane m = d.lane m := (Dev.setLane_lane_ne _ _ _ _ h).trans (d.setRate_lane_ne n 0 h)

theorem Dev.toIndex0_rate : (d.toIndex0 n cap).rd (F.LANE_STAT_RATE n) = 0 := d.setRate_rate n 0
theorem Dev.toIndex0_dly : (d.toIndex0 n cap).rd (F.LANE_DLY n) = 0 := d.setRate_dly n 0
theorem Dev.toIndex0_rd_ne {f : Fld} (h : f.key ≠ (F.LANE_STAT_RATE n).key) (h' : f.key ≠ (F.LANE_DLY n).key) : (d.toIndex0 n cap).rd f = d.rd f := d.setRate_rd_ne n 0 h h'

/-- The B-end lane that the A end of a strand has beside it on this device. -/
def Dev.mateOf : Option Nat := if d.role n = 1 then d.strandLane (d.rd (F.LANE_CTRL_STR n)) true else none

/-- That lane goes to rate index 0 too (R72). -/
def Dev.mateToIndex0 : Dev := match d.mateOf n with
  | some m => (d.toIndex0 m (d.rd (F.LANE_CTRL_MAX_RATE m))).wr (F.LANE_STAT_PHASE m) 0
  | none => d

/-- Bring-up of an A end: its B-end lane follows, and it sends an OFFER (R73). -/
theorem Dev.bringUp_aEnd (h : d.aEnd n = true) :
    let e := (d.toIndex0 n cap).mateToIndex0 n
    d.bringUp n cap = ((e.wr (F.LANE_STAT_PHASE n) 1).setLane n { e.lane n with bring := .offer false }).sendCap n 0 0 false := by
  have ha : (d.toIndex0 n cap).aEnd n = true := ((d.toIndex0_sameEnds n cap).aEnd n).trans h
  unfold Dev.bringUp Dev.mateToIndex0 Dev.mateOf
  dsimp only
  rw [ha, if_neg (by decide)]
  cases hs : (d.toIndex0 n cap).strandLane ((d.toIndex0 n cap).rd (F.LANE_CTRL_STR n)) true <;>
    by_cases hr : (d.toIndex0 n cap).role n = 1 <;> simp [hr]

/-- Bring-up of a B end waits for the OFFER (R72). -/
theorem Dev.bringUp_bEnd (h : d.aEnd n = false) : d.bringUp n cap = (d.toIndex0 n cap).wr (F.LANE_STAT_PHASE n) (if d.role n = 1 then 0 else 1) := by
  have same := d.toIndex0_sameEnds n cap
  unfold Dev.bringUp
  dsimp only
  rw [same.aEnd, h, same.role]
  exact if_pos rfl

/-- What `mate` says of a lane: it is the lane itself or goes to rate index 0 with it. -/
def Dev.Mates (m : Nat) : Prop := m = n ∨ (d.role n = 1 ∧ d.aEnd n = true ∧ d.strandLane (d.rd (F.LANE_CTRL_STR n)) true = some m)

variable {d n}

theorem Dev.mateOf_some {m : Nat} (h : d.mateOf n = some m) : d.role n = 1 ∧ d.strandLane (d.rd (F.LANE_CTRL_STR n)) true = some m := by
  unfold Dev.mateOf at h
  split_ifs at h with hr
  exact ⟨hr, h⟩

/-- The mate is another lane: the two stand at the two ends of the strand. -/
theorem Dev.mateOf_ne {m : Nat} (ha : d.aEnd n = true) (h : d.mateOf n = some m) : m ≠ n := by
  rintro rfl
  obtain ⟨hr, hs⟩ := Dev.mateOf_some h
  unfold Dev.strandLane at hs
  obtain ⟨-, -, away⟩ := of_decide_eq_true (List.find?_some (p := fun m => decide (_ ∧ _)) hs)
  unfold Dev.aEnd at ha
  rw [hr, away] at ha
  exact nomatch ha

theorem Dev.SameEnds.mateOf {e : Dev} (h : d.SameEnds e) (n : Nat) : e.mateOf n = d.mateOf n := by
  unfold Dev.mateOf
  rw [h.role, h.strandLane, (h.ctrl n).2.1]

theorem Dev.mateToIndex0_none (h : d.mateOf n = none) : d.mateToIndex0 n = d := by
  unfold Dev.mateToIndex0
  rw [h]

theorem Dev.mateToIndex0_some {m : Nat} (h : d.mateOf n = some m) :
    d.mateToIndex0 n = (d.toIndex0 m (d.rd (F.LANE_CTRL_MAX_RATE m))).wr (F.LANE_STAT_PHASE m) 0 := by
  unfold Dev.mateToIndex0
  rw [h]

theorem Dev.mateToIndex0_sameEnds : d.SameEnds (d.mateToIndex0 n) := by
  cases h : d.mateOf n with
  | none => rw [Dev.mateToIndex0_none h]; exact ⟨fun _ => rfl, rfl, fun _ _ _ => rfl⟩
  | some m => rw [Dev.mateToIndex0_some h]; exact (d.toIndex0_sameEnds m _).trans (.phase m 0)

theorem Dev.mateToIndex0_run : (d.mateToIndex0 n).run = d.run := by
  unfold Dev.mateToIndex0
  split <;> rfl

theorem Dev.mateToIndex0_lane (ha : d.aEnd n = true) : (d.mateToIndex0 n).lane n = d.lane n := by
  cases h : d.mateOf n with
  | none => rw [Dev.mateToIndex0_none h]
  | some m => rw [Dev.mateToIndex0_some h, Dev.wr_laneSt, Dev.toIndex0_lane_ne _ _ _ (Dev.mateOf_ne ha h).symm]

theorem Dev.mateToIndex0_rd {f : Fld} (h : ∀ m, d.mateOf n = some m → f.key ≠ (F.LANE_STAT_RATE m).key ∧ f.key ≠ (F.LANE_STAT_PHASE m).key ∧ f.key ≠ (F.LANE_DLY m).key) :
    (d.mateToIndex0 n).rd f = d.rd f := by
  cases hm : d.mateOf n with
  | none => rw [Dev.mateToIndex0_none hm]
  | some m =>
    obtain ⟨hrate, hphase, hdly⟩ := h m hm
    rw [Dev.mateToIndex0_some hm, Dev.wr_rd_ne _ _ hphase, d.toIndex0_rd_ne m _ hrate hdly]

theorem Dev.mateToIndex0_mate {m : Nat} (h : d.mateOf n = some m) :
    (d.mateToIndex0 n).rd (F.LANE_STAT_RATE m) = 0 ∧ (d.mateToIndex0 n).rd (F.LANE_STAT_PHASE m) = 0 ∧ ((d.mateToIndex0 n).lane m).bring = .none := by
  rw [Dev.mateToIndex0_some h]
  refine ⟨(Dev.wr_rd_ne _ _ (by rw [laneRate_key, lanePhase_key]; omega)).trans (d.toIndex0_rate m _), Dev.wr_rd _ _ _, ?_⟩
  rw [Dev.wr_laneSt, Dev.toIndex0_lane]

end

/-- The state that bring-up leaves on the device (R72, R73): rate index 0, the OFFER of an A end with the B-end lane beside it, and
nothing else. -/
def Dev.Started (d e : Dev) (n cap : Nat) : Prop :=
  e.rd (F.LANE_STAT_RATE n) = 0 ∧ e.rd (F.LANE_DLY n) = 0 ∧ (e.lane n).dlys = [] ∧ (e.lane n).out = .data ∧ (e.lane n).cap = cap ∧ (e.lane n).hops0 = none ∧
  (d.aEnd n = true → e.rd (F.LANE_STAT_PHASE n) = 1 ∧ (e.lane n).bring = .offer false ∧ tget [] e.os n = d.capOf n 0 0 false) ∧
  (d.aEnd n = false → e.rd (F.LANE_STAT_PHASE n) = (if d.role n = 1 then 0 else 1) ∧ (e.lane n).bring = .none ∧ e.os = d.os) ∧
  (∀ m, d.Mates n m → m ≠ n → e.rd (F.LANE_STAT_RATE m) = 0 ∧ e.rd (F.LANE_STAT_PHASE m) = 0 ∧ (e.lane m).bring = .none) ∧
  e.run = d.run ∧ ∀ f : Fld, (∀ m, d.Mates n m → f.key ≠ (F.LANE_STAT_RATE m).key ∧ f.key ≠ (F.LANE_STAT_PHASE m).key ∧ f.key ≠ (F.LANE_DLY m).key) → e.rd f = d.rd f

section
variable {d : Dev} {n : Nat} (cap : Nat)

theorem Dev.bringUp_started_bEnd (h : d.aEnd n = false) : d.Started (d.bringUp n cap) n cap := by
  rw [d.bringUp_bEnd n cap h]
  have lane : ((d.toIndex0 n cap).wr (F.LANE_STAT_PHASE n) (if d.role n = 1 then 0 else 1)).lane n = _ := d.toIndex0_lane n cap
  refine ⟨?_, ?_, by rw [lane], by rw [lane], by rw [lane], by rw [lane], fun ha => absurd (ha.symm.trans h) (by decide), fun _ => ⟨?_, by rw [lane], rfl⟩, fun m hm hne => ?_, rfl, fun f hf => ?_⟩
  · exact (Dev.wr_rd_ne _ _ (by rw [laneRate_key, lanePhase_key]; omega)).trans (d.toIndex0_rate n cap)
  · exact (Dev.wr_rd_ne _ _ (by rw [laneDly_key, lanePhase_key]; omega)).trans (d.toIndex0_dly n cap)
  · rw [Dev.wr_rd]
    simp only [F.LANE_STAT_PHASE]
    split <;> rfl
  · obtain hm | ⟨-, ha, -⟩ := hm
    · exact absurd hm hne
    · exact absurd (ha.symm.trans h) (by decide)
  · obtain ⟨hrate, hphase, hdly⟩ := hf n (.inl rfl)
    rw [Dev.wr_rd_ne _ _ hphase, d.toIndex0_rd_ne n cap hrate hdly]

theorem Dev.bringUp_started_aEnd (h : d.aEnd n = true) : d.Started (d.bringUp n cap) n cap := by
  have same := d.toIndex0_sameEnds n cap
  have ha : (d.toIndex0 n cap).aEnd n = true := (same.aEnd n).trans h
  have mates {m : Nat} : (d.toIndex0 n cap).mateOf n = some m → d.Mates n m ∧ m ≠ n := fun hm =>
    have hs := Dev.mateOf_some ((same.mateOf n).symm.trans hm)
    ⟨.inr ⟨hs.1, h, hs.2⟩, Dev.mateOf_ne ha hm⟩
  have kept {f : Fld} : (∀ m, (d.toIndex0 n cap).mateOf n = some m → f.key ≠ (F.LANE_STAT_RATE m).key ∧ f.key ≠ (F.LANE_STAT_PHASE m).key ∧ f.key ≠ (F.LANE_DLY m).key) → f.key ≠ (F.LANE_STAT_PHASE n).key →
      (((d.toIndex0 n cap).mateToIndex0 n).wr (F.LANE_STAT_PHASE n) 1).rd f = (d.toIndex0 n cap).rd f := fun hm hp => (Dev.wr_rd_ne _ _ hp).trans (Dev.mateToIndex0_rd hm)
  have apart {f : Fld} (hf : f.key = (F.LANE_STAT_RATE n).key ∨ f.key = (F.LANE_DLY n).key) (m : Nat) (hm : (d.toIndex0 n cap).mateOf n = some m) :
      f.key ≠ (F.LANE_STAT_RATE m).key ∧ f.key ≠ (F.LANE_STAT_PHASE m).key ∧ f.key ≠ (F.LANE_DLY m).key := by
    have := (mates hm).2
    simp only [laneRate_key, lanePhase_key, laneDly_key] at hf ⊢
    omega
  have lane := (Dev.mateToIndex0_lane ha).trans (d.toIndex0_lane n cap)
  have ends := (same.trans (Dev.mateToIndex0_sameEnds (n := n))).trans (.phase n 1)
  rw [d.bringUp_aEnd n cap h]
  set e := (d.toIndex0 n cap).mateToIndex0 n
  unfold Dev.Started
  simp only [Dev.sendCap_rd, Dev.sendCap_lane, Dev.sendCap_os, Dev.sendCap_run, Dev.setLane_rd, Dev.setLane_lane, lane]
  refine ⟨?_, ?_, trivial, trivial, trivial, trivial, fun _ => ⟨Dev.wr_rd _ _ _, trivial, (ends.trans (.setLane n ?_)).capOf n 0 0 false⟩, fun hb => absurd (hb.symm.trans h) (by decide), fun m hm hne => ?_, ?_, fun f hf => ?_⟩
  · exact (kept (apart (.inl rfl)) (by rw [laneRate_key, lanePhase_key]; omega)).trans (d.toIndex0_rate n cap)
  · exact (kept (apart (.inr rfl)) (by rw [laneDly_key, lanePhase_key]; omega)).trans (d.toIndex0_dly n cap)
  · rw [Dev.wr_laneSt, lane]
  · obtain hm | ⟨hr, -, hs⟩ := hm
    · exact absurd hm hne
    have hmate : (d.toIndex0 n cap).mateOf n = some m := (same.mateOf n).trans ((if_pos hr).trans hs)
    obtain ⟨hrate, hphase, hbring⟩ := Dev.mateToIndex0_mate hmate
    refine ⟨(Dev.wr_rd_ne _ _ ?_).trans hrate, (Dev.wr_rd_ne _ _ ?_).trans hphase, ?_⟩
    · rw [laneRate_key, lanePhase_key]; omega
    · rw [lanePhase_key, lanePhase_key]; omega
    · rw [Dev.setLane_lane_ne _ _ _ _ hne]; exact hbring
  · exact Dev.mateToIndex0_run
  · obtain ⟨hrate, hphase, hdly⟩ := hf n (.inl rfl)
    exact (kept (fun m hm => hf m (mates hm).1) hphase).trans (d.toIndex0_rd_ne n cap hrate hdly)

theorem Dev.bringUp_started (d : Dev) (n cap : Nat) : d.Started (d.bringUp n cap) n cap := by
  cases h : d.aEnd n with
  | true => exact Dev.bringUp_started_aEnd cap h
  | false => exact Dev.bringUp_started_bEnd cap h

end

/-! ## The rows -/

section
variable {s : State} {n : Nat}

/-- A row that works on the device alone and leaves the ends of the lanes. -/
theorem State.run_sameEnds {f : Dev → Dev} {e : Dev} (he : f s.dev = e) (h : s.dev.SameEnds e) : s.run (·.up f) = .next (s.withDev e) := by
  subst he
  refine s.run_up fun k hk => ?_
  simp only [List.mem_cons, List.not_mem_nil, or_false] at hk
  obtain rfl | rfl := hk
  · exact h.rd _ (by decide) (.inl (by decide))
  · exact h.rd _ (by decide) (.inl (by decide))

/-- A row whose work on the device does nothing. -/
theorem State.run_upSame {f : Dev → Dev} (h : f s.dev = s.dev) : s.run (·.up f) = .next s :=
  s.run_same (congrArg (fun d => { s.wk with d := d }) h)

/-- What bring-up leaves holds neither the twin's state nor the role in the stack. -/
theorem Dev.Started.notified {d e : Dev} {cap : Nat} (h : d.Started e n cap) {k : Fld} (hk : k ∈ [F.STK_STAT_ROLE, F.TWN_STAT_STATE]) : e.rd k = d.rd k := by
  obtain ⟨-, -, -, -, -, -, -, -, -, -, frame⟩ := h
  refine frame k fun m _ => ⟨?_, ?_, ?_⟩ <;> refine Fld.notified_ne_lane hk ?_ <;> simp only [F.LANE_STAT_RATE, F.LANE_STAT_PHASE, F.LANE_DLY] <;> omega

/-- A lane that LINK_BRING_UP takes (R73). -/
def Dev.readyLane (d : Dev) (n : Nat) : Prop :=
  (d.role n = 1 ∨ d.role n = 2 ∨ d.role n = 3) ∧ d.keepsRate n = false ∧ d.rd (F.LANE_STAT_LOS n) = 0 ∧ d.rd (F.LANE_STAT_LOL n) = 0

theorem Dev.readyLane_iff (d : Dev) (n : Nat) :
    ([1, 2, 3].contains (d.role n) && !d.keepsRate n && !d.rdB (F.LANE_STAT_LOS n) && !d.rdB (F.LANE_STAT_LOL n)) = true ↔ d.readyLane n := by
  simp [Dev.readyLane, Dev.rdB, and_assoc]

theorem linkBringUp_ready (h : s.dev.readyLane n) : exec (.linkBringUp n) s = .next (s.withDev (s.dev.bringUp n (s.dev.rd (F.LANE_CTRL_MAX_RATE n)))) := by
  refine (exec_linkBringUp n s).trans (s.run_upTo (g := fun d => d.bringUp n (d.rd (F.LANE_CTRL_MAX_RATE n))) ?_ fun k hk => (s.dev.bringUp_started n _).notified hk)
  exact (congrArg (s.wk.on · _) ((s.dev.readyLane_iff n).2 h)).trans (Wk.on_true _ _)

theorem linkBringUp_other (h : ¬ s.dev.readyLane n) : exec (.linkBringUp n) s = .next s := by
  refine (exec_linkBringUp n s).trans (s.run_same ?_)
  exact (congrArg (s.wk.on · _) (Bool.eq_false_iff.2 (mt (s.dev.readyLane_iff n).1 h))).trans (Wk.on_false _ _)

theorem laneRateSwitch_steps {r : Nat} (h : (s.dev.lane n).bring = .stepping r) :
    exec (.laneRateSwitch n) s = .next (s.withDev ((s.dev.setRate n r).setLane n { (s.dev.setRate n r).lane n with bring := .settling r })) :=
  (exec_laneRateSwitch n s).trans (State.run_sameEnds (by dsimp only; rw [h]) ((s.dev.setRate_sameEnds n r).trans (.setLane n rfl)))

theorem laneRateSwitch_other (h : ∀ r, (s.dev.lane n).bring ≠ .stepping r) : exec (.laneRateSwitch n) s = .next s := by
  refine (exec_laneRateSwitch n s).trans (State.run_upSame ?_)
  dsimp only
  split
  next hb => exact absurd hb (h _)
  next => rfl

theorem prbs31DwellStart_steps {r : Nat} (h : (s.dev.lane n).bring = .settling r) :
    exec (.prbs31DwellStart n) s = .next (s.withDev ((s.dev.wr (F.LANE_ERR_DWELL_ERR n) 0).setLane n { s.dev.lane n with bring := .dwelling r, out := .prbs true })) :=
  (exec_prbs31DwellStart n s).trans (State.run_sameEnds (by dsimp only; rw [h]) ((Dev.SameEnds.dwellErr n 0).trans (.setLane n rfl)))

theorem prbs31DwellStart_rejoins (h : (s.dev.lane n).bring = .rejoinOffer) :
    exec (.prbs31DwellStart n) s = .next (s.withDev (((s.dev.wr (F.LANE_ERR_DWELL_ERR n) 0).wr (F.LANE_STAT_PHASE n) 3).setLane n { s.dev.lane n with out := .prbs true })) :=
  (exec_prbs31DwellStart n s).trans (State.run_sameEnds (by dsimp only; rw [h]) (((Dev.SameEnds.dwellErr n 0).trans (.phase n 3)).trans (.setLane n rfl)))

theorem prbs31DwellStart_other (h : ∀ r, (s.dev.lane n).bring ≠ .settling r) (h' : (s.dev.lane n).bring ≠ .rejoinOffer) : exec (.prbs31DwellStart n) s = .next s := by
  refine (exec_prbs31DwellStart n s).trans (State.run_upSame ?_)
  dsimp only
  split
  next hb => exact absurd hb (h _)
  next hb => exact absurd hb h'
  next => rfl

/-- The device at the end of a dwell (R74). -/
def Dev.dwelt (d : Dev) (n r errs : Nat) (ok : Bool) : Dev :=
  (d.wr (F.LANE_ERR_DWELL_ERR n) (min errs 255)).setLane n { d.lane n with bring := .reporting r, dwellOk := ok, out := .data }

theorem Dev.dwelt_sameEnds (d : Dev) (n r errs : Nat) (ok : Bool) : d.SameEnds (d.dwelt n r errs ok) := (Dev.SameEnds.dwellErr n _).trans (.setLane n rfl)

theorem Dev.dwelt_err (d : Dev) (n r errs : Nat) (ok : Bool) : (d.dwelt n r errs ok).rd (F.LANE_ERR_DWELL_ERR n) = min errs 255 :=
  (Dev.wr_rd _ _ _).trans (Nat.mod_eq_of_lt (by simp only [F.LANE_ERR_DWELL_ERR]; omega))

theorem Dev.dwelt_lane (d : Dev) (n r errs : Nat) (ok : Bool) : (d.dwelt n r errs ok).lane n = { d.lane n with bring := .reporting r, dwellOk := ok, out := .data } :=
  Dev.setLane_lane _ _ _

theorem Dev.dwelt_rd_ne (d : Dev) (n r errs : Nat) (ok : Bool) {f : Fld} (h : f.key ≠ (F.LANE_ERR_DWELL_ERR n).key) : (d.dwelt n r errs ok).rd f = d.rd f :=
  (Dev.setLane_rd _ _ _ _).trans (Dev.wr_rd_ne _ _ h)

/-- The REPORT that an A end sends then. -/
def Dev.reports (d : Dev) (n r errs : Nat) (ok : Bool) : Dev := if d.aEnd n then (d.dwelt n r errs ok).sendCap n 2 r ok else d.dwelt n r errs ok

theorem Dev.reports_spec (d : Dev) (n r errs : Nat) (ok : Bool) :
    d.SameEnds (d.reports n r errs ok) ∧ (d.reports n r errs ok).rd (F.LANE_ERR_DWELL_ERR n) = min errs 255 ∧
      (d.reports n r errs ok).lane n = { d.lane n with bring := .reporting r, dwellOk := ok, out := .data } ∧
      tget [] (d.reports n r errs ok).os n = (if d.aEnd n then d.capOf n 2 r ok else tget [] d.os n) ∧
      ∀ f : Fld, f.key ≠ (F.LANE_ERR_DWELL_ERR n).key → (d.reports n r errs ok).rd f = d.rd f := by
  have same := d.dwelt_sameEnds n r errs ok
  unfold Dev.reports
  split
  · exact ⟨⟨same.retired, same.sec, same.rd⟩, d.dwelt_err n r errs ok, d.dwelt_lane n r errs ok, (Dev.sendCap_os _ _ _ _ _).trans (same.capOf n 2 r ok), fun f => d.dwelt_rd_ne n r errs ok⟩
  · exact ⟨same, d.dwelt_err n r errs ok, d.dwelt_lane n r errs ok, rfl, fun f => d.dwelt_rd_ne n r errs ok⟩

/-- The dwell is within the errors that are allowed, and lock held. -/
def Dev.dwellPasses (d : Dev) (n errs : Nat) (lost : Bool) : Bool := !lost && decide (errs ≤ d.rd (F.LANE_BRING_ERR_LIM n))

theorem laneDwellEnd_ends {r : Nat} (errs : Nat) (lost : Bool) (h : (s.dev.lane n).bring = .dwelling r) :
    exec (.laneDwellEnd n errs lost) s = .next (s.withDev (s.dev.reports n r errs (s.dev.dwellPasses n errs lost))) :=
  (exec_laneDwellEnd n errs lost s).trans (State.run_sameEnds (by dsimp only; rw [h]; rfl) (s.dev.reports_spec n r errs _).1)

theorem laneDwellEnd_other {errs : Nat} {lost : Bool} (h : ∀ r, (s.dev.lane n).bring ≠ .dwelling r) : exec (.laneDwellEnd n errs lost) s = .next s := by
  refine (exec_laneDwellEnd n errs lost s).trans (State.run_upSame ?_)
  dsimp only
  split
  next hb => exact absurd hb (h _)
  next => rfl

theorem capReportTimeout_falls {r : Nat} (h : (s.dev.lane n).bring = .reporting r) :
    exec (.capReportTimeout n) s = .next (s.withDev (s.dev.setLane n { s.dev.lane n with bring := .falling })) :=
  (exec_capReportTimeout n s).trans (State.run_sameEnds (by dsimp only; rw [h]) (.setLane n rfl))

theorem capReportTimeout_other (h : ∀ r, (s.dev.lane n).bring ≠ .reporting r) : exec (.capReportTimeout n) s = .next s := by
  refine (exec_capReportTimeout n s).trans (State.run_upSame ?_)
  dsimp only
  split
  next hb => exact absurd hb (h _)
  next => rfl

/-- The fall back to the rate one lower (R73, R74). -/
theorem Dev.fallBack_spec (d : Dev) (n : Nat) :
    d.SameEnds (d.fallBack n) ∧ (d.fallBack n).rd (F.LANE_STAT_RATE n) = d.rd (F.LANE_STAT_RATE n) - 1 ∧ (d.fallBack n).rd (F.LANE_DLY n) = 0 ∧
      (d.fallBack n).lane n = { d.lane n with bring := if d.aEnd n then .offer true else .none, dlys := [], ttSent := false } ∧
      tget [] (d.fallBack n).os n = (if d.aEnd n then d.capOf n 0 (d.rd (F.LANE_STAT_RATE n) - 1) false else tget [] d.os n) ∧
      ∀ f : Fld, f.key ≠ (F.LANE_STAT_RATE n).key → f.key ≠ (F.LANE_DLY n).key → (d.fallBack n).rd f = d.rd f := by
  have same := d.setRate_sameEnds n (d.rd (F.LANE_STAT_RATE n) - 1)
  have rate : (d.setRate n (d.rd (F.LANE_STAT_RATE n) - 1)).rd (F.LANE_STAT_RATE n) = d.rd (F.LANE_STAT_RATE n) - 1 := by
    have hlt : d.rd (F.LANE_STAT_RATE n) < 4 := d.rd_lt (F.LANE_STAT_RATE n)
    rw [Dev.setRate_rate, Nat.mod_eq_of_lt (by omega)]
  have dly := d.setRate_dly n (d.rd (F.LANE_STAT_RATE n) - 1)
  have frame (f : Fld) := d.setRate_rd_ne n (d.rd (F.LANE_STAT_RATE n) - 1) (f := f)
  have lane := d.setRate_lane n (d.rd (F.LANE_STAT_RATE n) - 1)
  unfold Dev.fallBack
  dsimp only
  rw [same.aEnd]
  split
  · have ends := same.trans (.setLane n (x := { (d.setRate n (d.rd (F.LANE_STAT_RATE n) - 1)).lane n with bring := .offer true }) rfl)
    refine ⟨⟨ends.retired, ends.sec, ends.rd⟩, rate, dly, ?_, ?_, frame⟩
    · rw [Dev.sendCap_lane, Dev.setLane_lane, lane]
    · rw [Dev.sendCap_os, ends.capOf]
  · refine ⟨same.trans (.setLane n rfl), rate, dly, ?_, rfl, frame⟩
    rw [Dev.setLane_lane, lane]

theorem laneFallbackEnd_falls (h : (s.dev.lane n).bring = .falling ∨ (s.dev.aEnd n = false ∧ ∃ r, (s.dev.lane n).bring = .reporting r)) :
    exec (.laneFallbackEnd n) s = .next (s.withDev (s.dev.fallBack n)) := by
  refine (exec_laneFallbackEnd n s).trans (State.run_sameEnds ?_ (s.dev.fallBack_spec n).1)
  obtain hb | ⟨ha, r, hb⟩ := h
  · rw [hb]
  · rw [hb, ha]
    exact if_neg (by decide)

theorem laneFallbackEnd_other (h : (s.dev.lane n).bring ≠ .falling) (h' : s.dev.aEnd n = true ∨ ∀ r, (s.dev.lane n).bring ≠ .reporting r) : exec (.laneFallbackEnd n) s = .next s := by
  refine (exec_laneFallbackEnd n s).trans (State.run_upSame ?_)
  split
  next hb => exact absurd hb h
  next hb => exact if_pos (h'.resolve_right fun h' => h' _ hb)
  next => rfl

theorem laneStepFail_fails {b : Bool} (h : (s.dev.lane n).bring = .offer b) :
    exec (.laneStepFail n) s = .next (s.settleWk s.vault (s.wk.stepFail n)) := by
  refine (exec_laneStepFail n s).trans ((s.run_next _).trans ?_)
  rw [show (s.wk.d.lane n).bring = .offer b from h]

theorem laneStepFail_other (h : ∀ b, (s.dev.lane n).bring ≠ .offer b) : exec (.laneStepFail n) s = .next s := by
  refine (exec_laneStepFail n s).trans (s.run_same ?_)
  split
  next hb => exact absurd hb (h _)
  next => rfl

end

/-- Settles O41: row by row, with what bring-up leaves stated once. -/
theorem bringUpStepsByTheLadder : Obligations.BringUpStepsByTheLadder := by
  intro s n _
  refine ⟨fun h => ⟨_, linkBringUp_ready h, s.dev.bringUp_started n _, rfl⟩, linkBringUp_other, fun r h => ⟨_, laneRateSwitch_steps h, ?_, s.dev.setRate_dly n r, ?_, rfl, fun f => s.dev.setRate_rd_ne n r⟩,
    laneRateSwitch_other, fun r h => ⟨_, prbs31DwellStart_steps h, s.dev.wr_rd _ 0, Dev.setLane_lane _ n _, rfl, fun f hf => s.dev.wr_rd_ne 0 hf⟩,
    fun h => ⟨_, prbs31DwellStart_rejoins h, ?_, Dev.wr_rd (s.dev.wr _ 0) _ 3, Dev.setLane_lane _ n _, rfl, fun f hf hf' => (Dev.wr_rd_ne (s.dev.wr _ 0) 3 hf').trans (s.dev.wr_rd_ne 0 hf)⟩, prbs31DwellStart_other,
    fun r errs lost h => ⟨_, laneDwellEnd_ends errs lost h, ?_⟩, fun errs lost => laneDwellEnd_other, fun r => capReportTimeout_falls, capReportTimeout_other,
    fun h => ⟨_, laneFallbackEnd_falls h, ?_⟩, laneFallbackEnd_other, fun b h => ⟨_, laneStepFail_fails h, s.dev.bringUp_started n _, ?_⟩, laneStepFail_other⟩
  · exact s.dev.setRate_rate n r
  · rw [Dev.setLane_lane, Dev.setRate_lane]
  · have herr : ((s.dev.wr (F.LANE_ERR_DWELL_ERR n) 0).wr (F.LANE_STAT_PHASE n) 3).rd (F.LANE_ERR_DWELL_ERR n) = 0 := by
      rw [Dev.wr_rd_ne _ _ (by rw [laneDwellErr_key, lanePhase_key]; omega), Dev.wr_rd, Nat.zero_mod]
    exact herr
  · obtain ⟨-, herr, hlane, hos, frame⟩ := s.dev.reports_spec n r errs (s.dev.dwellPasses n errs lost)
    exact ⟨herr, hlane, rfl, hos, frame⟩
  · obtain ⟨-, hrate, hdly, hlane, hos, frame⟩ := s.dev.fallBack_spec n
    exact ⟨hrate, hdly, hlane, rfl, hos, frame⟩
  · exact (Wk.raise_tags _ _ _ _).trans rfl

end Sys2Proof.Machine

/-! Passing device time: the messages it sends, a wrap, the instants of pulses, and captures (R37, R43, R45 to R54). -/
namespace Sys2Proof.Machine

/-! ## Messages that work adds -/

/-- From `w` to `w'` messages have only been added, each of which is as `P` says. -/
def Wk.Adds (P : Msg → Prop) (w w' : Wk) : Prop := ∃ l : List Msg, w'.ms = w.ms ++ l ∧ ∀ m ∈ l, P m

section
variable {P Q : Msg → Prop} {a b c w : Wk}

theorem Wk.Adds.refl (w : Wk) : w.Adds P w := ⟨[], by simp, by simp⟩

theorem Wk.Adds.trans (h : a.Adds P b) (k : b.Adds P c) : a.Adds P c := by
  obtain ⟨l, hl, hs⟩ := h
  obtain ⟨r, hr, ht⟩ := k
  exact ⟨l ++ r, by rw [hr, hl, List.append_assoc], fun m hm => (List.mem_append.1 hm).elim (hs m) (ht m)⟩

theorem Wk.Adds.mono (h : a.Adds P b) (k : ∀ m, P m → Q m) : a.Adds Q b := by
  obtain ⟨l, hl, hs⟩ := h
  exact ⟨l, hl, fun m hm => k m (hs m hm)⟩

theorem Wk.Adds.up {f : Dev → Dev} : w.Adds P (w.up f) := .refl w

theorem Wk.Adds.raise {fs kind inst : Nat} (h : ∀ m : Msg, m.tag = (fs, kind, inst) → P m) : w.Adds P (w.raise fs kind inst) :=
  ⟨_, rfl, by simpa using h _ rfl⟩

theorem Wk.Adds.ite {p : Prop} [Decidable p] (h : p → w.Adds P a) (k : ¬ p → w.Adds P b) : w.Adds P (if p then a else b) := by
  split
  · exact h ‹_›
  · exact k ‹_›

theorem Wk.Adds.on {p : Bool} {f : Wk → Wk} (h : p = true → w.Adds P (f w)) : w.Adds P (w.on p f) := .ite h fun _ => .refl w

theorem Wk.Adds.each {α : Type} {l : List α} {f : α → Wk → Wk} (h : ∀ x ∈ l, ∀ u : Wk, u.Adds P (f x u)) : w.Adds P (w.each l f) := by
  unfold Wk.each
  induction l generalizing w with
  | nil => exact .refl w
  | cons x r ih => exact (h x (by simp) w).trans (ih fun y hy => h y (by simp [hy]))

/-- Of a row that starts with no message, these are all. -/
theorem Wk.Adds.all {s : State} (h : s.wk.Adds P w) : ∀ m ∈ w.ms, P m := by
  obtain ⟨l, hl, hs⟩ := h
  rw [show s.wk.ms = [] from rfl, List.nil_append] at hl
  exact hl ▸ hs

end

/-- Work that does the same to every state of a list leaves what each of its steps leaves. -/
theorem Wk.each_same {α : Type} {l : List α} {f : α → Wk → Wk} {w : Wk} (h : ∀ x ∈ l, f x w = w) : w.each l f = w := by
  unfold Wk.each
  induction l with
  | nil => rfl
  | cons x r ih => rw [List.foldl_cons, h x (by simp), ih fun y hy => h y (by simp [hy])]

/-! ## The pins of the local pairs -/

/-- A turn-on that met its complement (R169). -/
def Msg.ofPin (m : Msg) : Prop := m.fs = 17 ∧ m.kind = 0 ∧ 0xF00 ≤ m.inst ∧ m.inst < 0xF10

theorem Msg.ofPin.passing {m : Msg} (h : m.ofPin) : m.passing = true := by
  unfold Msg.passing
  rw [decide_eq_true (p := m.fs = 17 ∧ _) h, Bool.or_true]

theorem Msg.ofPin_tag {m : Msg} {k : Nat} (hk : k < 16) (h : m.tag = (17, 0, 0xF00 + k)) : m.ofPin := by
  simp only [Msg.tag, Prod.mk.injEq] at h
  obtain ⟨hfs, hkind, hinst⟩ := h
  exact ⟨hfs, hkind, by omega, by omega⟩

theorem Wk.adds_releaseBy (w : Wk) {k : Nat} (hk : k < 16) (t : Nat) : w.Adds Msg.ofPin (w.releaseBy k t) := by
  unfold Wk.releaseBy
  dsimp only
  split
  · exact .refl w
  · exact .ite (fun _ => .refl w) fun _ => .ite (fun _ => .trans .up (.raise fun m hm => Msg.ofPin_tag hk hm)) fun _ => .up

theorem Wk.adds_releasePins (w : Wk) : w.Adds Msg.ofPin w.releasePins := by
  refine .each fun k hk u => ?_
  have hk : k < 16 := List.mem_range.1 hk
  refine .trans ?_ (Wk.adds_releaseBy _ hk _)
  unfold Wk.leadPin
  exact .trans .up (.each fun e _ v => .ite (fun _ => .refl v) fun _ => (v.adds_releaseBy hk _).trans .up)

/-- Pins that wait for nothing stay as they are. -/
theorem Wk.releasePins_noPin {w : Wk} (h : w.d.noPin = true) : w.releasePins = w := by
  refine Wk.each_same fun k hk => ?_
  have hk := List.all_eq_true.1 h k hk
  rw [Bool.and_eq_true, Option.isNone_iff_eq_none, List.isEmpty_iff] at hk
  obtain ⟨hwant, hahead⟩ := hk
  have lead : w.leadPin k = w := by
    unfold Wk.leadPin
    rw [hahead]
    rfl
  show (w.leadPin k).releaseBy k (w.leadPin k).d.time.rt = w
  rw [lead]
  unfold Wk.releaseBy
  dsimp only
  split
  · rfl
  next hi => exact absurd (hi.symm.trans hwant) (by simp)

/-! ## Edges of the TIM clock -/

theorem Msg.passing_wrap {m : Msg} (h : m.tag = (97, 0, 0)) : m.passing = true := by
  unfold Msg.passing
  rw [decide_eq_true h, Bool.true_or]

/-- Edges send what passing time sends of itself alone. -/
theorem Wk.adds_edges (w : Wk) (n : Nat) : w.Adds (fun m => m.passing = true) (w.edges n) := by
  unfold Wk.edges
  extract_lets t tot w1
  have wraps : w.Adds (fun m => m.passing = true) (w1.each (List.range (tot / 2 ^ 96)) fun _ u => u.wrap false) :=
    Wk.Adds.trans (b := w1) .up (.each fun _ _ u => .trans .up (.raise fun _ => Msg.passing_wrap))
  exact wraps.trans ((Wk.adds_releasePins _).mono fun _ => Msg.ofPin.passing)

section
variable {β : Type} {S : Nat → Prop} {g : Dev → β}

/-- Running to a target passes edges, or none. -/
theorem Wk.advanceTo_cases (w : Wk) (t : BitVec 64) : w.advanceTo t = w ∨ ∃ n, w.advanceTo t = w.edges n := by
  unfold Wk.advanceTo Wk.on
  dsimp only
  split
  · exact .inr ⟨_, rfl⟩
  · exact .inl rfl

theorem Wk.adds_advanceTo (w : Wk) (t : BitVec 64) : w.Adds (fun m => m.passing = true) (w.advanceTo t) := by
  obtain h | ⟨n, h⟩ := w.advanceTo_cases t <;> rw [h]
  · exact .refl w
  · exact w.adds_edges n

theorem Wk.keeps_advanceTo (hg : OffTime g) (h97 : S 97) (h17 : S 17) (w : Wk) (t : BitVec 64) : w.Keeps S g (w.advanceTo t) := by
  obtain h | ⟨n, h⟩ := w.advanceTo_cases t <;> rw [h]
  · exact .refl w
  · exact Wk.keeps_edges hg h97 h17 w n

end

/-- Of the time, edges change TIM_NOW, its remainder and real time alone. -/
theorem Wk.edges_kept {γ : Type} {g : TimeSt → γ} (hg : ∀ (t : TimeSt) now rem rt, g { t with now := now, rem := rem, rt := rt } = g t) (w : Wk) (n : Nat) :
    g (w.edges n).d.time = g w.d.time := by
  rw [Wk.edges_time, hg]

theorem Wk.advanceTo_kept {γ : Type} {g : TimeSt → γ} (hg : ∀ (t : TimeSt) now rem rt, g { t with now := now, rem := rem, rt := rt } = g t) (w : Wk) (t : BitVec 64) :
    g (w.advanceTo t).d.time = g w.d.time := by
  obtain h | ⟨n, h⟩ := w.advanceTo_cases t <;> rw [h]
  exact w.edges_kept hg n

/-- The increment of device time at one edge, with the 32 bits of the remainder. -/
def TimeSt.inc (t : TimeSt) : Nat := t.incI * 2 ^ 32 + t.incF

theorem ofNat_shifted (now : BitVec 64) (x : Nat) : BitVec.ofNat 64 ((now.toNat * 2 ^ 32 + x) / 2 ^ 32) = now + BitVec.ofNat 64 (x / 2 ^ 32) := by
  rw [Nat.mul_comm, Nat.mul_add_div (by decide), BitVec.ofNat_add, BitVec.ofNat_toNat, BitVec.setWidth_eq]

/-- After edges a target is nearer by what they add to TIM_NOW, as long as the distance keeps its sign range. -/
theorem Wk.edges_behind {w : Wk} {n q : Nat} {t : BitVec 64} (hq : (w.d.time.rem.toNat + n * w.d.time.inc) / 2 ^ 32 = q) (hlo : -2 ^ 63 ≤ w.d.behind t + q) (hhi : w.d.behind t + q < 2 ^ 63) :
    (w.edges n).d.behind t = w.d.behind t + q := by
  unfold Dev.behind at hlo hhi ⊢
  have now : (w.edges n).d.time.now = w.d.time.now + BitVec.ofNat 64 q := by
    rw [Wk.edges_time, ← hq, ← ofNat_shifted, Nat.add_assoc]
    rfl
  rw [now, show w.d.time.now + BitVec.ofNat 64 q - t = (w.d.time.now - t) + BitVec.ofNat 64 q by bv_omega, BitVec.toInt_add, BitVec.toInt_ofNat', Int.add_bmod_bmod]
  exact Int.bmod_eq_of_le (by omega) (by omega)

/-- The least number of edges that reaches a distance passes it by less than one increment. -/
theorem least_edges {need inc : Int} (hn : 0 < need) (hi : 0 < inc) :
    need ≤ ((need + inc - 1) / inc).toNat * inc ∧ ((need + inc - 1) / inc).toNat * inc < need + inc := by
  have hpos : 0 ≤ (need + inc - 1) / inc := Int.ediv_nonneg (by omega) hi.le
  have hdiv := Int.emod_add_mul_ediv (need + inc - 1) inc
  have hlt := Int.emod_lt_of_pos (need + inc - 1) hi
  have hge := Int.emod_nonneg (need + inc - 1) hi.ne'
  rw [Int.toNat_of_nonneg hpos, Int.mul_comm ((need + inc - 1) / inc)]
  omega

/-- Device time that runs to a target reaches it, and passes it by no more than one increment (R45). -/
theorem Wk.advanceTo_behind {w : Wk} (hs : w.d.timStopped = false) (hlo : 1 ≤ w.d.time.incI) (hhi : w.d.time.incI ≤ 524543) (hf : w.d.time.incF < 2 ^ 32) (t : BitVec 64) :
    0 ≤ (w.advanceTo t).d.behind t ∧ (w.d.behind t < 0 → (w.advanceTo t).d.behind t ≤ w.d.time.incI) := by
  by_cases hb : w.d.behind t < 0
  · have hmin : -2 ^ 63 ≤ w.d.behind t := BitVec.le_toInt _
    have hrem : w.d.time.rem.toNat < 2 ^ 32 := w.d.time.rem.isLt
    have hinc : w.d.time.inc = w.d.time.incI * 2 ^ 32 + w.d.time.incF := rfl
    obtain ⟨hge, hlt⟩ := least_edges (need := -(w.d.behind t) * 2 ^ 32 - (w.d.time.rem.toNat : Int)) (inc := (w.d.time.inc : Nat)) (by omega) (by omega)
    have step : w.advanceTo t = w.edges ((-(w.d.behind t) * 2 ^ 32 - (w.d.time.rem.toNat : Int) + (w.d.time.inc : Nat) - 1) / (w.d.time.inc : Nat)).toNat := by
      unfold Wk.advanceTo
      dsimp only
      rw [decide_eq_true hb, hs]
      rfl
    generalize ((-(w.d.behind t) * 2 ^ 32 - (w.d.time.rem.toNat : Int) + (w.d.time.inc : Nat) - 1) / (w.d.time.inc : Nat)).toNat = n at hge hlt step
    obtain ⟨q, hq⟩ : ∃ q, (w.d.time.rem.toNat + n * w.d.time.inc) / 2 ^ 32 = q := ⟨_, rfl⟩
    rw [← Nat.cast_mul] at hge hlt
    obtain ⟨tot, htot⟩ : ∃ tot, n * w.d.time.inc = tot := ⟨_, rfl⟩
    rw [htot] at hge hlt hq
    have reached : (w.edges n).d.behind t = w.d.behind t + q := Wk.edges_behind (by rw [← htot] at hq; exact hq) (by omega) (by omega)
    rw [step, reached]
    omega
  · have stay : w.advanceTo t = w := by
      unfold Wk.advanceTo
      dsimp only
      rw [decide_eq_false hb]
      rfl
    rw [stay]
    exact ⟨by omega, fun h => absurd h hb⟩

/-! ## TIM_WRAP -/

/-- The number of edges to the next wrap of TIM_NOW. -/
def TimeSt.toWrap (t : TimeSt) : Nat := (2 ^ 96 - (t.now.toNat * 2 ^ 32 + t.rem.toNat) + t.inc - 1) / t.inc

theorem TimeSt.toWrap_spec {t : TimeSt} (hi : 0 < t.inc) :
    2 ^ 96 ≤ t.now.toNat * 2 ^ 32 + t.rem.toNat + t.toWrap * t.inc ∧ t.now.toNat * 2 ^ 32 + t.rem.toNat + t.toWrap * t.inc < 2 ^ 96 + t.inc := by
  have hnow : t.now.toNat < 2 ^ 64 := t.now.isLt
  have hrem : t.rem.toNat < 2 ^ 32 := t.rem.isLt
  have hdiv := Nat.div_add_mod (2 ^ 96 - (t.now.toNat * 2 ^ 32 + t.rem.toNat) + t.inc - 1) t.inc
  have hlt := Nat.mod_lt (2 ^ 96 - (t.now.toNat * 2 ^ 32 + t.rem.toNat) + t.inc - 1) hi
  rw [Nat.mul_comm] at hdiv
  unfold TimeSt.toWrap
  omega

/-- Edges that pass 2^64 once: the time, one wrap, the pins. -/
theorem Wk.edges_once {w : Wk} {n : Nat} (h : (w.d.time.now.toNat * 2 ^ 32 + w.d.time.rem.toNat + n * w.d.time.inc) / 2 ^ 96 = 1) :
    ∃ time, w.edges n = ((w.up fun d => { d with time := time }).wrap false).releasePins := by
  refine ⟨{ w.d.time with
    now := BitVec.ofNat 64 ((w.d.time.now.toNat * 2 ^ 32 + w.d.time.rem.toNat + n * w.d.time.inc) / 2 ^ 32)
    rem := BitVec.ofNat 32 (w.d.time.now.toNat * 2 ^ 32 + w.d.time.rem.toNat + n * w.d.time.inc)
    rt := w.d.time.rt + 512 * n }, ?_⟩
  unfold Wk.edges
  extract_lets t tot w1
  rw [show tot / 2 ^ 96 = 1 from h]
  rfl

theorem Wk.wrap_epoch (w : Wk) : (w.wrap false).d.rd F.TIM_EPOCH = (w.d.rd F.TIM_EPOCH + 1) % 2 ^ 32 :=
  (Dev.wr_rd_ne _ _ (by decide)).trans (Dev.wr_rd _ _ _)

theorem Wk.wrap_mark (w : Wk) (b : Bool) : (w.wrap b).d.rd F.TIM_STAT_WRAP = 1 := Dev.wr_rd _ _ _

/-- A field that the pins do not count in. -/
theorem OffPins.rd {f : Fld} (h : f.key ≠ F.GSV_CNT_ILK.key) : OffPins (Dev.rd · f) := ⟨fun _ _ => rfl, fun d v => Dev.wr_rd_ne d v h⟩

section
variable {s : State}

theorem Wk.adds_tags {P : Msg → Prop} {w w' : Wk} (h : w.Adds P w') : ∃ l : List Msg, w'.ms.map Msg.tag = w.ms.map Msg.tag ++ l.map Msg.tag ∧ (∀ m ∈ l, P m) ∧ (w' = w → l = []) := by
  obtain ⟨l, hl, hs⟩ := h
  exact ⟨l, by rw [hl, List.map_append], hs, fun he => by rw [he] at hl; exact List.self_eq_append_right.1 hl⟩

theorem timWrap_stopped (h : s.dev.timStopped = true) : exec .timWrap s = .next s :=
  (exec_timWrap s).trans (s.run_same (if_pos h))

theorem timWrap_edges (h : s.dev.timStopped = false) : exec .timWrap s = .next (s.settleWk s.vault (s.wk.edges s.dev.time.toWrap)) := by
  refine (exec_timWrap s).trans ((s.run_next _).trans ?_)
  have h : s.wk.d.timStopped = false := h
  simp only [h, Bool.false_eq_true, if_false]
  rfl

theorem timWrap_wraps (hs : s.dev.timStopped = false) (hlo : 1 ≤ s.dev.time.incI) (hhi : s.dev.time.incI ≤ 524543) (hf : s.dev.time.incF < 2 ^ 32) :
    Leaves .timWrap s fun d ms => d.rd F.TIM_EPOCH = (s.dev.rd F.TIM_EPOCH + 1) % 2 ^ 32 ∧ d.rd F.TIM_STAT_WRAP = 1 ∧ d.time.now.toNat ≤ s.dev.time.incI ∧ d.run = s.dev.run ∧
      (∃ l : List Msg, ms.map Msg.tag = (97, 0, 0) :: l.map Msg.tag ∧ (∀ m ∈ l, m.passing = true ∧ m.fs = 17) ∧ (s.dev.noPin = true → l = [])) ∧
      ∀ f : Fld, f.still = true → d.rd f = s.dev.rd f := by
  have hinc : s.dev.time.inc = s.dev.time.incI * 2 ^ 32 + s.dev.time.incF := rfl
  obtain ⟨hge, hlt⟩ := TimeSt.toWrap_spec (t := s.dev.time) (by omega)
  obtain ⟨time, hw⟩ := Wk.edges_once (w := s.wk) (n := s.dev.time.toWrap) (by show (s.dev.time.now.toNat * 2 ^ 32 + s.dev.time.rem.toNat + _ * s.dev.time.inc) / 2 ^ 96 = 1; omega)
  refine ⟨_, timWrap_edges hs, ?_, ?_, ?_, ?_, ?_, fun f hf => ?_⟩
  · rw [hw]
    exact (Wk.keeps_releasePins (S := anySource) (OffPins.rd (by decide)) trivial _).dev.trans (Wk.wrap_epoch _)
  · rw [hw]
    exact (Wk.keeps_releasePins (S := anySource) (OffPins.rd (by decide)) trivial _).dev.trans (Wk.wrap_mark _ _)
  · rw [Wk.edges_time, BitVec.toNat_ofNat]
    show (s.dev.time.now.toNat * 2 ^ 32 + s.dev.time.rem.toNat + _ * s.dev.time.inc) / 2 ^ 32 % 2 ^ 64 ≤ _
    omega
  · exact (Wk.keeps_edges (S := anySource) (g := Dev.run) ⟨⟨fun _ _ => rfl, fun _ _ => rfl⟩, fun _ _ => rfl, fun _ _ => rfl, fun _ _ => rfl⟩ trivial trivial _ _).dev
  · rw [hw]
    obtain ⟨l, hl, hpin, hnone⟩ := Wk.adds_tags (Wk.adds_releasePins ((s.wk.up fun d => { d with time := time }).wrap false))
    exact ⟨l, hl.trans rfl, fun m hm => ⟨(hpin m hm).passing, (hpin m hm).1⟩, fun h => hnone (Wk.releasePins_noPin h)⟩
  · exact (Wk.keeps_edges (S := anySource) (OffTime.rd hf) trivial trivial _ _).dev

end

/-! ## PULSE_OUT_FIRE -/

/-- Where the pulse of an output begins that fires now (R45, R48, R49). -/
def Dev.pulseStart (d : Dev) (x : PulseOut) : BitVec 64 := x.passed.getD (if d.behind x.target ≤ (d.time.incI : Int) then x.target else d.time.now)

/-- An output whose pulse has begun. -/
def PulseOut.fired (x : PulseOut) (start : BitVec 64) : PulseOut := { x with active := true, start := start, edge := nearestTick start, passed := none }

/-- A single output fires: it is disarmed. -/
def Dev.firesOnce (d : Dev) (n : Nat) (x : PulseOut) : Dev := (d.wr (F.TIM_OUT_CTRL_PEND n) 0).setOut n { x.fired (d.pulseStart x) with armed := false }

/-- The first later target of the grid is this many periods on. -/
def Dev.periodsOn (d : Dev) (x : PulseOut) : Nat := (d.behind x.target).toNat / x.per + 1

/-- A periodic output fires: the first later target of its grid is next, those passed over are counted. -/
def Dev.firesAgain (d : Dev) (n : Nat) (x : PulseOut) : Dev :=
  (d.addSat F.TIM_STAT_SKIP (d.periodsOn x - 1)).setOut n { x.fired (d.pulseStart x) with target := x.target + BitVec.ofNat 64 (d.periodsOn x * x.per) }

section
variable {s : State} {n : Nat}

theorem pulseOutFire_idle (h : s.dev.timStopped = true ∨ (s.dev.out n).armed = false ∨ (s.dev.rd (F.TIM_OUT_CTRL_MODE n) ≠ 1 ∧ s.dev.rd (F.TIM_OUT_CTRL_MODE n) ≠ 2)) :
    exec (.pulseOutFire n) s = .next s := by
  refine (exec_pulseOutFire n s).trans (s.run_same (if_pos ?_))
  show (!((s.dev.out n).armed && (decide (s.dev.rd (F.TIM_OUT_CTRL_MODE n) = 1) || decide (s.dev.rd (F.TIM_OUT_CTRL_MODE n) = 2))) || s.dev.timStopped) = true
  obtain h | h | ⟨h1, h2⟩ := h
  · rw [h, Bool.or_true]
  · rw [h]; rfl
  · rw [decide_eq_false h1, decide_eq_false h2, Bool.or_false, Bool.and_false]; rfl

/-- An armed output runs to its target and fires there. -/
theorem pulseOutFire_armed {f : Dev → Dev} (hs : s.dev.timStopped = false) (ha : (s.dev.out n).armed = true)
    (hm : (s.dev.rd (F.TIM_OUT_CTRL_MODE n) = 1 ∧ f = (·.firesOnce n (s.dev.out n))) ∨ (s.dev.rd (F.TIM_OUT_CTRL_MODE n) = 2 ∧ 0 < (s.dev.out n).per ∧ f = (·.firesAgain n (s.dev.out n)))) :
    exec (.pulseOutFire n) s = .next (s.settleWk s.vault ((s.wk.advanceTo (s.dev.out n).target).up f)) := by
  refine (exec_pulseOutFire n s).trans ((s.run_next _).trans (congrArg _ (congrArg _ ?_)))
  have goes : ¬ (!((s.dev.out n).armed && (decide (s.dev.rd (F.TIM_OUT_CTRL_MODE n) = 1) || decide (s.dev.rd (F.TIM_OUT_CTRL_MODE n) = 2))) || s.dev.timStopped) = true := by
    obtain ⟨hm, -⟩ | ⟨hm, -⟩ := hm <;> simp [hs, ha, hm]
  refine (if_neg goes).trans (congrArg (Wk.up _) (funext fun d => ?_))
  show (if s.dev.rd (F.TIM_OUT_CTRL_MODE n) = 1 ∨ (s.dev.out n).per = 0 then d.firesOnce n (s.dev.out n) else d.firesAgain n (s.dev.out n)) = f d
  obtain ⟨hm, rfl⟩ | ⟨hm, hper, rfl⟩ := hm
  · exact if_pos (.inl hm)
  · exact if_neg (by omega)

/-- What running to an instant leaves of the rest: the outputs, the fields and the run state. -/
theorem Wk.advanceTo_rest (w : Wk) (t : BitVec 64) : (∀ k, (w.advanceTo t).d.out k = w.d.out k) ∧ (w.advanceTo t).d.time.incI = w.d.time.incI ∧
    (w.advanceTo t).d.run = w.d.run ∧ ∀ f : Fld, f.still = true → (w.advanceTo t).d.rd f = w.d.rd f :=
  ⟨fun k => w.advanceTo_kept (g := fun y => tget ({} : PulseOut) y.outs k) (fun _ _ _ _ => rfl) t, w.advanceTo_kept (g := TimeSt.incI) (fun _ _ _ _ => rfl) t,
    (w.keeps_advanceTo (S := anySource) (g := Dev.run) ⟨⟨fun _ _ => rfl, fun _ _ => rfl⟩, fun _ _ => rfl, fun _ _ => rfl, fun _ _ => rfl⟩ trivial trivial t).dev,
    fun _ hf => (w.keeps_advanceTo (S := anySource) (OffTime.rd hf) trivial trivial t).dev⟩

theorem Dev.firesOnce_spec (d : Dev) (n : Nat) (x : PulseOut) :
    (d.firesOnce n x).time.now = d.time.now ∧ (d.firesOnce n x).out n = { x.fired (d.pulseStart x) with armed := false } ∧ (∀ k, k ≠ n → (d.firesOnce n x).out k = d.out k) ∧
      (d.firesOnce n x).run = d.run ∧ (d.firesOnce n x).rd (F.TIM_OUT_CTRL_PEND n) = 0 ∧ (d.firesOnce n x).rd F.TIM_STAT_SKIP = d.rd F.TIM_STAT_SKIP := by
  refine ⟨rfl, Dev.setOut_out _ _ _, fun k hk => Dev.setOut_out_ne _ _ _ _ hk, rfl, d.wr_rd _ 0, d.wr_rd_ne (f := F.TIM_OUT_CTRL_PEND n) 0 ?_⟩
  simp only [Fld.key, F.TIM_STAT_SKIP, F.TIM_OUT_CTRL_PEND]
  omega

theorem Dev.firesAgain_spec (d : Dev) (n : Nat) (x : PulseOut) :
    (d.firesAgain n x).time.now = d.time.now ∧ (d.firesAgain n x).out n = { x.fired (d.pulseStart x) with target := x.target + BitVec.ofNat 64 (d.periodsOn x * x.per) } ∧
      (∀ k, k ≠ n → (d.firesAgain n x).out k = d.out k) ∧ (d.firesAgain n x).run = d.run ∧
      (d.firesAgain n x).rd F.TIM_STAT_SKIP = min (d.rd F.TIM_STAT_SKIP + (d.periodsOn x - 1)) 255 := by
  refine ⟨rfl, Dev.setOut_out _ _ _, fun k hk => Dev.setOut_out_ne _ _ _ _ hk, rfl, ?_⟩
  exact (Dev.wr_rd _ _ _).trans (Nat.mod_eq_of_lt (by simp only [F.TIM_STAT_SKIP]; omega))

/-- The first later target lies at most one period ahead. -/
theorem Dev.periodsOn_spec {d : Dev} {x : PulseOut} (hb : 0 ≤ d.behind x.target) (hp : 0 < x.per) :
    1 ≤ d.periodsOn x ∧ (((d.periodsOn x - 1) * x.per : Nat) : Int) ≤ d.behind x.target ∧ d.behind x.target < ((d.periodsOn x * x.per : Nat) : Int) := by
  have hdiv := Nat.div_add_mod (d.behind x.target).toNat x.per
  have hlt := Nat.mod_lt (d.behind x.target).toNat hp
  rw [Nat.mul_comm] at hdiv
  unfold Dev.periodsOn
  rw [Nat.add_sub_cancel, Nat.add_mul, Nat.one_mul]
  refine ⟨Nat.le_add_left _ _, ?_⟩
  generalize (d.behind x.target).toNat / x.per * x.per = z at hdiv ⊢
  omega

/-! ## PULSE_WIDTH_END -/

theorem pulseWidthEnd_idle (h : s.dev.timStopped = true ∨ (s.dev.out n).active = false) : exec (.pulseWidthEnd n) s = .next s := by
  refine (exec_pulseWidthEnd n s).trans (s.run_same (if_pos ?_))
  show (!(s.dev.out n).active || s.dev.timStopped) = true
  obtain h | h := h
  · rw [h, Bool.or_true]
  · rw [h]; rfl

/-- The instant at which an output's pulse ends. -/
def Dev.pulseStop (d : Dev) (n : Nat) : BitVec 64 := (d.out n).start + BitVec.ofNat 64 (d.rd (F.TIM_OUT_WIDTH n) * 65536)

/-- An output whose pulse has ended (R48, R51). -/
def PulseOut.ended (x : PulseOut) (stop : BitVec 64) : PulseOut := match x.held with
  | some t => { x with active := false, edge := nearestTick stop, held := none, target := t, armed := true, passed := if 0 ≤ (stop - t).toInt then some stop else none }
  | none => { x with active := false, edge := nearestTick stop }

theorem pulseWidthEnd_active (hs : s.dev.timStopped = false) (ha : (s.dev.out n).active = true) :
    exec (.pulseWidthEnd n) s = .next (s.settleWk s.vault ((s.wk.advanceTo (s.dev.pulseStop n)).up (·.setOut n ((s.dev.out n).ended (s.dev.pulseStop n))))) := by
  refine (exec_pulseWidthEnd n s).trans ((s.run_next _).trans (congrArg _ (congrArg _ ?_)))
  have goes : ¬ (!(s.dev.out n).active || s.dev.timStopped) = true := by simp [hs, ha]
  refine (if_neg goes).trans (congrArg (Wk.up _) (funext fun d => ?_))
  dsimp only
  unfold PulseOut.ended
  cases hh : (s.dev.out n).held with
  | none => rw [show (s.wk.d.out n).held = none from hh]; rfl
  | some t => rw [show (s.wk.d.out n).held = some t from hh]; rfl

end

/-! ## Urgent triggers of an input -/

/-- A loop establishes `Q` where one of its steps does from `P`, which every step keeps, and every step keeps `Q`. -/
theorem foldl_reaches {σ α : Type} {P Q : σ → Prop} {f : σ → α → σ} {l : List α} {c : α} (hc : c ∈ l) (hP : ∀ u x, P u → P (f u x)) (hQ : ∀ u x, Q u → Q (f u x))
    (h : ∀ u, P u → Q (f u c)) {w : σ} (hw : P w) : Q (l.foldl f w) := by
  have stays (r : List α) : ∀ u, Q u → Q (r.foldl f u) := by
    induction r with
    | nil => exact fun u hu => hu
    | cons x r ih => exact fun u hu => ih _ (hQ u x hu)
  induction l generalizing w with
  | nil => exact nomatch hc
  | cons x r ih =>
    obtain rfl | hc := List.mem_cons.1 hc
    · exact stays r _ (h w hw)
    · exact ih hc (hP w x hw)

theorem Wk.each_reaches {α : Type} {P Q : Wk → Prop} {f : α → Wk → Wk} {l : List α} {c : α} (hc : c ∈ l) (hP : ∀ x u, P u → P (f x u)) (hQ : ∀ x u, Q u → Q (f x u))
    (h : ∀ u, P u → Q (f c u)) {w : Wk} (hw : P w) : Q (w.each l f) :=
  foldl_reaches (f := fun u x => f x u) hc (fun u x => hP x u) (fun u x => hQ x u) h hw

/-- A field of a sequence that its urgent trigger writes. -/
def UrgentFld (c : Nat) (f : Fld) : Prop := f = F.ADC_STAT_SLOT c ∨ f = F.ADC_STAT_INJ_RUN c ∨ f = F.ADC_STAT_INJ_Q c ∨ f = F.ADC_CNT_INJ_OVR c

section
variable {β : Type} {S : Nat → Prop} {g : Dev → β}

/-- An urgent trigger writes fields of its sequence, and the sequence (R197). -/
theorem Wk.keeps_injTrigger {c : Nat} (hg : Off (UrgentFld c) g) (ha : ∀ d a, g { d with acq := a } = g d) (h56 : S 56) (w : Wk) : w.Keeps S g (w.injTrigger c) := by
  refine .ite (fun _ => .refl w) fun _ => .ite (fun _ => .up ?_) fun _ => .ite (fun _ => .up ?_) fun _ => .trans (.up ?_) (.raise h56)
  · exact (hg.wr _ _ _ (.inr (.inl rfl))).trans ((hg.wr _ _ _ (.inl rfl)).trans (ha _ _))
  · exact hg.wr _ _ _ (.inr (.inr (.inl rfl)))
  · exact hg.inc _ (.inr (.inr (.inr rfl)))

end

theorem Wk.adds_injTrigger (w : Wk) (c : Nat) : w.Adds (fun m => ∃ c < 4, m.tag = (56, 0, c)) (w.injTrigger c) :=
  .ite (fun _ => .refl w) fun h => .ite (fun _ => .up) fun _ => .ite (fun _ => .up) fun _ => .trans .up (.raise fun _ hm => ⟨c, by omega, hm⟩)

theorem adcInjRun_apart {c c' : Nat} (h : c ≠ c') (f : Fld) (hf : UrgentFld c' f) : (F.ADC_STAT_INJ_RUN c).key ≠ f.key := by
  obtain rfl | rfl | rfl | rfl := hf <;> simp only [Fld.key, F.ADC_STAT_INJ_RUN, F.ADC_STAT_SLOT, F.ADC_STAT_INJ_Q, F.ADC_CNT_INJ_OVR] <;> omega

/-- An urgent trigger of a sequence with injected slots leaves its injected pass running. -/
theorem Wk.injTrigger_runs {w : Wk} {c : Nat} (hc : c < 4) (h : w.d.rd (F.ADC_CTRL_INJLEN c) ≠ 0) : (w.injTrigger c).d.rd (F.ADC_STAT_INJ_RUN c) = 1 := by
  have hbit : w.d.rd (F.ADC_STAT_INJ_RUN c) < 2 := w.d.rd_lt (F.ADC_STAT_INJ_RUN c)
  unfold Wk.injTrigger
  rw [if_neg (by omega)]
  split
  · exact Dev.wr_rd _ _ _
  next hrun =>
    have running : w.d.rd (F.ADC_STAT_INJ_RUN c) = 1 := by
      simp only [Dev.rdB, Bool.not_eq_true', decide_eq_false_iff_not, not_not] at hrun
      omega
    split
    · exact (w.d.wr_rd_ne 1 (f := F.ADC_STAT_INJ_Q c) (by simp only [Fld.key, F.ADC_STAT_INJ_RUN, F.ADC_STAT_INJ_Q]; omega)).trans running
    · exact (w.d.inc_rd_ne (f := F.ADC_CNT_INJ_OVR c) (by simp only [Fld.key, F.ADC_STAT_INJ_RUN, F.ADC_CNT_INJ_OVR]; omega)).trans running

/-- A running injected pass runs on, whichever sequence is triggered. -/
theorem Wk.injTrigger_running {w : Wk} {c : Nat} (c' : Nat) (h : w.d.rd (F.ADC_STAT_INJ_RUN c) = 1) : (w.injTrigger c').d.rd (F.ADC_STAT_INJ_RUN c) = 1 := by
  obtain rfl | hne := eq_or_ne c c'
  · by_cases hoff : 4 ≤ c ∨ w.d.rd (F.ADC_CTRL_INJLEN c) = 0
    · rw [show w.injTrigger c = w from if_pos hoff, h]
    · exact Wk.injTrigger_runs (by omega) (by omega)
  · exact (Wk.keeps_injTrigger (S := anySource) (.rd (adcInjRun_apart hne)) (fun _ _ => rfl) trivial w).dev.trans h

/-- The urgent triggers of an input (Table 7-1). -/
def Wk.trigUrgent (w : Wk) (i : Nat) : Wk := w.each (List.range 4) fun c w => w.on (bitOf (w.d.rd (F.ADC_TRGU_TINM c)) i) (·.injTrigger c)

theorem Wk.keeps_trigUrgent {β : Type} {S : Nat → Prop} {g : Dev → β} (hg : ∀ c, Off (UrgentFld c) g) (ha : ∀ d a, g { d with acq := a } = g d) (h56 : S 56) (w : Wk) (i : Nat) :
    w.Keeps S g (w.trigUrgent i) := .each fun c _ u => .on fun _ => u.keeps_injTrigger (hg c) ha h56

/-- Fields below those of the sequences, and the slots in force, are not of an urgent trigger. -/
theorem urgentFld_apart {k : Fld} (h : k.key < 0x80000 * 32) (c : Nat) (f : Fld) (hf : UrgentFld c f) : k.key ≠ f.key := by
  obtain rfl | rfl | rfl | rfl := hf <;> simp only [Fld.key, F.ADC_STAT_INJ_RUN, F.ADC_STAT_SLOT, F.ADC_STAT_INJ_Q, F.ADC_CNT_INJ_OVR] at h ⊢ <;> omega

theorem Wk.trigUrgent_runs {w : Wk} {i c : Nat} (hc : c < 4) (ht : bitOf (w.d.rd (F.ADC_TRGU_TINM c)) i = true) (hl : w.d.rd (F.ADC_CTRL_INJLEN c) ≠ 0) :
    (w.trigUrgent i).d.rd (F.ADC_STAT_INJ_RUN c) = 1 := by
  have apart (c' : Nat) (f : Fld) (hf : UrgentFld c' f) : (F.ADC_TRGU_TINM c).key ≠ f.key ∧ (F.ADC_CTRL_INJLEN c).key ≠ f.key := by
    obtain rfl | rfl | rfl | rfl := hf <;> simp only [Fld.key, F.ADC_TRGU_TINM, F.ADC_CTRL_INJLEN, F.ADC_STAT_INJ_RUN, F.ADC_STAT_SLOT, F.ADC_STAT_INJ_Q, F.ADC_CNT_INJ_OVR] <;> omega
  refine Wk.each_reaches (P := fun u => bitOf (u.d.rd (F.ADC_TRGU_TINM c)) i = true ∧ u.d.rd (F.ADC_CTRL_INJLEN c) ≠ 0) (Q := fun u => u.d.rd (F.ADC_STAT_INJ_RUN c) = 1)
    (List.mem_range.2 hc) (fun c' u hu => ?_) (fun c' u hu => ?_) (fun u hu => ?_) ⟨ht, hl⟩
  · have tinm := (Wk.Keeps.on (w := u) (p := bitOf (u.d.rd (F.ADC_TRGU_TINM c')) i) (f := (·.injTrigger c')) fun _ => Wk.keeps_injTrigger (S := anySource) (.rd fun f hf => (apart c' f hf).1) (fun _ _ => rfl) trivial u).dev
    have injlen := (Wk.Keeps.on (w := u) (p := bitOf (u.d.rd (F.ADC_TRGU_TINM c')) i) (f := (·.injTrigger c')) fun _ => Wk.keeps_injTrigger (S := anySource) (.rd fun f hf => (apart c' f hf).2) (fun _ _ => rfl) trivial u).dev
    exact ⟨(congrArg (bitOf · i) tinm).trans hu.1, fun h => hu.2 (injlen.symm.trans h)⟩
  · unfold Wk.on
    split
    · exact Wk.injTrigger_running c' hu
    · exact hu
  · rw [hu.1, Wk.on_true]
    exact Wk.injTrigger_runs hc hu.2

/-! ## TRIG_IN_CAPTURE -/

/-- An edge that EDGE chooses, after which the input was stable long enough (R53). -/
def Dev.choosesEdge (d : Dev) (i : Nat) (rising : Bool) (stable : Nat) : Bool :=
  bitOf (d.rd (F.TIM_CAP_CTRL_EDGE i)) (if rising then 0 else 1) && decide (8 * d.rd (F.TIM_CAP_CTRL_FILT i) ≤ stable)

/-- The device once an edge has been captured, or dropped behind eight that wait (R53, R54). -/
def Dev.captured (d : Dev) (i : Nat) (rising : Bool) (t : BitVec 64) : Dev :=
  if (d.caps i).length < 8 then
    { d with time := { d.time with
        caps := tput [] d.time.caps i (d.caps i ++ [⟨BitVec.ofNat 64 (t.toNat / 5120 * 5120), d.rd F.TIM_EPOCH % 65536, rising, tget false d.time.stepped i, d.rdB F.TIM_STAT_COARSE⟩])
        stepped := tput false d.time.stepped i false } }
  else d.wr (F.TIM_CAP_STAT_OVF i) (min (d.rd (F.TIM_CAP_STAT_OVF i) + 1) 255)

theorem Dev.captured_rd_ne (d : Dev) {i : Nat} (rising : Bool) (t : BitVec 64) {f : Fld} (h : f.key ≠ (F.TIM_CAP_STAT_OVF i).key) : (d.captured i rising t).rd f = d.rd f :=
  ite_keeps (g := (Dev.rd · f)) (fun _ => rfl) fun _ => Dev.wr_rd_ne d _ h

theorem timCapOvf_key (i : Nat) : (F.TIM_CAP_STAT_OVF i).key = 802952 + i * 512 := by
  simp only [Fld.key, F.TIM_CAP_STAT_OVF]
  omega

section
variable {s : State} {i : Nat} {rising : Bool} {t : BitVec 64} {stable : Nat}

theorem Wk.capture_chosen {w : Wk} (h : bitOf (w.d.rd (F.TIM_CAP_CTRL_EDGE i)) (if rising then 0 else 1) = true) : w.capture i rising t = w.up (·.captured i rising t) := by
  unfold Wk.capture Wk.up Dev.captured
  rw [h]
  dsimp only
  rw [if_neg (by decide)]
  by_cases hq : (w.d.caps i).length < 8
  · rw [if_neg (by omega), if_pos hq]
  · rw [if_pos (by omega), if_neg hq]
    rfl

theorem trigInCapture_other (h : s.dev.choosesEdge i rising stable = false) : exec (.trigInCapture i rising ⟨t, stable⟩) s = .next s := by
  refine (exec_trigInCapture i rising ⟨t, stable⟩ s).trans (s.run_same ?_)
  obtain hedge | hstable := Bool.and_eq_false_iff.1 h
  · have hedge : bitOf (s.wk.d.rd (F.TIM_CAP_CTRL_EDGE i)) (if rising then 0 else 1) = false := hedge
    have uncaptured : s.wk.capture i rising t = s.wk := if_pos (by rw [hedge]; rfl)
    unfold Wk.trigIn
    dsimp only
    rw [uncaptured, hedge, Bool.false_and, Wk.on_false, ite_self]
  · exact if_pos (.inr (Nat.lt_of_not_le (of_decide_eq_false hstable)))

/-- A chosen edge is captured, and with ACQ_TRIG is an urgent trigger too. -/
theorem Wk.trigIn_chosen {w : Wk} (hi : i < 4) (h : w.d.choosesEdge i rising stable = true) :
    w.trigIn i rising t stable = (w.up (·.captured i rising t)).on (w.d.rdB (F.TIM_CAP_CTRL_ACQ_TRIG i)) (·.trigUrgent i) := by
  obtain ⟨hedge, hstable⟩ := Bool.and_eq_true_iff.1 h
  have kept {f : Fld} (hf : f.key ≠ (F.TIM_CAP_STAT_OVF i).key) : (w.up (·.captured i rising t)).d.rd f = w.d.rd f := Dev.captured_rd_ne _ _ _ hf
  have hedge' : (w.up (·.captured i rising t)).d.rd (F.TIM_CAP_CTRL_EDGE i) = w.d.rd (F.TIM_CAP_CTRL_EDGE i) :=
    kept (by rw [timCapOvf_key]; simp only [Fld.key, F.TIM_CAP_CTRL_EDGE]; omega)
  have hacq : (w.up (·.captured i rising t)).d.rdB (F.TIM_CAP_CTRL_ACQ_TRIG i) = w.d.rdB (F.TIM_CAP_CTRL_ACQ_TRIG i) := by
    unfold Dev.rdB
    rw [kept (by rw [timCapOvf_key]; simp only [Fld.key, F.TIM_CAP_CTRL_ACQ_TRIG]; omega)]
  have stands : ¬ (4 ≤ i ∨ stable < 8 * w.d.rd (F.TIM_CAP_CTRL_FILT i)) := by
    have := of_decide_eq_true hstable
    omega
  refine (if_neg stands).trans ?_
  dsimp only
  rw [Wk.capture_chosen hedge, hedge', hedge, hacq, Bool.true_and]
  rfl

theorem trigInCapture_captured (hi : i < 4) (h : s.dev.choosesEdge i rising stable = true) (ha : s.dev.rd (F.TIM_CAP_CTRL_ACQ_TRIG i) = 0) :
    exec (.trigInCapture i rising ⟨t, stable⟩) s = .next (s.withDev (s.dev.captured i rising t)) := by
  refine (exec_trigInCapture i rising ⟨t, stable⟩ s).trans (s.run_upTo (g := (·.captured i rising t)) ?_ fun k hk => ?_)
  · have hacq : s.wk.d.rdB (F.TIM_CAP_CTRL_ACQ_TRIG i) = false := by simp [Dev.rdB, State.wk, ha]
    rw [Wk.trigIn_chosen (w := s.wk) hi h, hacq, Wk.on_false]
  · exact Dev.captured_rd_ne _ _ _ (Fld.notified_ne hk (.inl (by rw [timCapOvf_key]; simp only [Fld.key, F.TWN_STAT_STATE]; omega)))

theorem trigInCapture_triggers (hi : i < 4) (h : s.dev.choosesEdge i rising stable = true) (ha : s.dev.rd (F.TIM_CAP_CTRL_ACQ_TRIG i) = 1) :
    exec (.trigInCapture i rising ⟨t, stable⟩) s = .next (s.settleWk s.vault ((s.wk.up (·.captured i rising t)).trigUrgent i)) := by
  refine (exec_trigInCapture i rising ⟨t, stable⟩ s).trans ((s.run_next _).trans (congrArg _ (congrArg _ ?_)))
  have hacq : s.wk.d.rdB (F.TIM_CAP_CTRL_ACQ_TRIG i) = true := by simp [Dev.rdB, State.wk, ha]
  rw [Wk.trigIn_chosen (w := s.wk) hi h, hacq, Wk.on_true]

end

/-- Settles O45: where device time gets to is counted in edges; what it passes on the way is left alone but for what passing time does. -/
theorem pulsesWrapsAndCapturesOfDeviceTime : Obligations.PulsesWrapsAndCapturesOfDeviceTime := by
  refine ⟨⟨fun s hs => ⟨timWrap_stopped hs, fun n => ⟨pulseOutFire_idle (.inl hs), pulseWidthEnd_idle (.inl hs)⟩⟩, fun s hs hlo hhi hf => timWrap_wraps hs (by omega) hhi hf, ?_, ?_⟩, ?_⟩
  · intro s n hs hlo hhi hf _
    refine ⟨fun h => pulseOutFire_idle (.inr h), fun ha hm => ?_⟩
    obtain ⟨hreach, hnear⟩ := Wk.advanceTo_behind (w := s.wk) hs (show 1 ≤ s.dev.time.incI by omega) hhi hf (s.dev.out n).target
    obtain ⟨houts, hinc, hrun, hrd⟩ := s.wk.advanceTo_rest (s.dev.out n).target
    have adds := Wk.adds_advanceTo s.wk (s.dev.out n).target
    have start : (s.wk.advanceTo (s.dev.out n).target).d.pulseStart (s.dev.out n) = (s.dev.out n).passed.getD
        (if (s.wk.advanceTo (s.dev.out n).target).d.behind (s.dev.out n).target ≤ (s.dev.time.incI : Int) then (s.dev.out n).target else (s.wk.advanceTo (s.dev.out n).target).d.time.now) := by
      unfold Dev.pulseStart
      rw [hinc]
      rfl
    have skip := hrd F.TIM_STAT_SKIP (by decide)
    obtain hm | ⟨hm, hper⟩ := hm
    · obtain ⟨-, hout, hother, hrun', hpend, hskip⟩ := (s.wk.advanceTo (s.dev.out n).target).d.firesOnce_spec n (s.dev.out n)
      refine ⟨_, pulseOutFire_armed hs ha (.inl ⟨hm, rfl⟩), hreach, hnear, congrArg PulseOut.active hout, (congrArg PulseOut.start hout).trans start, congrArg PulseOut.passed hout, ?_,
        (adds.trans .up).all, fun _ => ⟨hpend, congrArg PulseOut.armed hout, hskip.trans skip⟩, fun h2 => absurd (hm.symm.trans h2) (by decide), fun k hk => (hother k hk).trans (houts k), hrun'.trans hrun⟩
      exact (congrArg PulseOut.edge hout).trans (congrArg (nearestTick ∘ PulseOut.start) hout).symm
    · obtain ⟨-, hout, hother, hrun', hskip⟩ := (s.wk.advanceTo (s.dev.out n).target).d.firesAgain_spec n (s.dev.out n)
      obtain ⟨hone, hle, hlt⟩ := Dev.periodsOn_spec hreach hper
      refine ⟨_, pulseOutFire_armed hs ha (.inr ⟨hm, hper, rfl⟩), hreach, hnear, congrArg PulseOut.active hout, (congrArg PulseOut.start hout).trans start, congrArg PulseOut.passed hout, ?_,
        (adds.trans .up).all, fun h1 => absurd (hm.symm.trans h1) (by decide), fun _ => ⟨_, hone, hle, hlt, congrArg PulseOut.target hout, (congrArg PulseOut.armed hout).trans ha, ?_⟩,
        fun k hk => (hother k hk).trans (houts k), hrun'.trans hrun⟩
      · exact (congrArg PulseOut.edge hout).trans (congrArg (nearestTick ∘ PulseOut.start) hout).symm
      · exact hskip.trans (congrArg (fun n => min (n + _) 255) skip)
  · intro s n hs hlo hhi hf _
    refine ⟨fun h => pulseWidthEnd_idle (.inr h), fun ha => ?_⟩
    obtain ⟨hreach, -⟩ := Wk.advanceTo_behind (w := s.wk) hs (show 1 ≤ s.dev.time.incI by omega) hhi hf (s.dev.pulseStop n)
    obtain ⟨houts, -, hrun, -⟩ := s.wk.advanceTo_rest (s.dev.pulseStop n)
    exact ⟨_, pulseWidthEnd_active hs ha, hreach, (Wk.adds_advanceTo s.wk _).trans .up |>.all, Dev.setOut_out _ _ _, fun k hk => (Dev.setOut_out_ne _ _ _ _ hk).trans (houts k), hrun⟩
  · intro s i rising t stable hi
    refine ⟨trigInCapture_other, trigInCapture_captured hi, fun h ha => ⟨_, trigInCapture_triggers hi h ha, ?_, ?_, ?_, fun c hc ht hl => ?_⟩⟩
    · exact (Wk.keeps_trigUrgent (S := anySource) (g := Dev.time) (fun _ => ⟨fun _ _ _ _ => rfl⟩) (fun _ _ => rfl) trivial _ i).dev
    · exact (Wk.keeps_trigUrgent (S := anySource) (g := (Dev.rd · (F.TIM_CAP_STAT_OVF i))) (fun c => .rd (urgentFld_apart (by rw [timCapOvf_key]; omega) c)) (fun _ _ => rfl) trivial _ i).dev
    · exact Wk.Adds.all (s := s) (.trans .up (.each fun c _ u => .on fun _ => u.adds_injTrigger c))
    · have kept {f : Fld} (hf : f.key ≠ (F.TIM_CAP_STAT_OVF i).key) : (s.dev.captured i rising t).rd f = s.dev.rd f := Dev.captured_rd_ne _ _ _ hf
      refine Wk.trigUrgent_runs hc ?_ ?_
      · show bitOf ((s.dev.captured i rising t).rd _) i = true
        rw [kept (by rw [timCapOvf_key]; simp only [Fld.key, F.ADC_TRGU_TINM]; omega), ht]
      · show (s.dev.captured i rising t).rd _ ≠ 0
        rw [kept (by rw [timCapOvf_key]; simp only [Fld.key, F.ADC_CTRL_INJLEN]; omega)]
        exact hl

end Sys2Proof.Machine

/-! Writes of a host port to the registers of device time (R38, R39, R45, R48 to R52, R434, R563). -/
namespace Sys2Proof.Machine

/-! ## A transaction of a port whose writes count -/

section
variable {s : State} {p : Nat}

theorem Dev.putIo_rd (d : Dev) (q : Nat) (ws : List Nat) (f : Fld) : (d.putIo q ws).rd f = d.rd f := Dev.upPort_rd _ _ _ _

theorem Dev.putIo_time (d : Dev) (q : Nat) (ws : List Nat) : (d.putIo q ws).time = d.time := Dev.upPort_time _ _ _

theorem State.writes_iff : s.writes p = true ↔ (s.dev.hosted = true ∧ s.dev.sec.pwrReq = none) ∧ s.vault.lockout = false ∧ (s.dev.port (portNo p)).half = none := by
  unfold State.writes State.hostOn
  simp [and_assoc]

/-- Work that is no wake source is carried out where the ports are served. -/
theorem Wk.awake_hosted {w : Wk} {b : Bool} {f g : Wk → Wk} (hb : b = false) (h : w.d.hosted = true) : (w.on b g).on (w.on b g).d.hosted f = f w := by
  rw [hb, Wk.on_false, h, Wk.on_true]

/-- Where words may move a transaction is carried out. -/
theorem State.host_on (h : s.hostOn = true) (f : Nat → Wk → Wk) : s.host p f = .next (s.settleWk s.vault (f (portNo p) (s.trans p))) := by
  obtain ⟨hhosted, hpwr⟩ := Bool.and_eq_true_iff.1 h
  have hosted : (s.trans p).d.hosted = true := by
    have same : (s.trans p).d.hosted = s.dev.hosted := by
      show (s.dev.putIo (portNo p) []).hosted = _
      unfold Dev.hosted Dev.timStopped Dev.hiZ
      rw [Dev.putIo_rd, Dev.putIo_rd, show (s.dev.putIo (portNo p) []).aon = s.dev.aon from Dev.upPort_aon _ _ _]
    rw [same, hhosted]
  have awake : ((s.trans p).d.timStopped || (s.trans p).d.sec.pwrReq.isSome) = false := by
    have hstop : (s.trans p).d.timStopped = false := by
      unfold Dev.hosted at hosted
      simpa using (Bool.and_eq_true_iff.1 hosted).1
    rw [hstop, show (s.trans p).d.sec = s.dev.sec from Dev.upPort_sec _ _ _, Bool.false_or, Option.isSome_eq_false_iff]
    exact hpwr
  refine (s.run_next _).trans (congrArg _ (congrArg _ ?_))
  exact Wk.awake_hosted awake hosted

/-- A transaction whose work changes the device without a message, and neither the twin's state nor the role in the stack. -/
theorem State.host_up (h : s.hostOn = true) {f : Nat → Wk → Wk} {g : Dev → Dev} (hf : f (portNo p) (s.trans p) = (s.trans p).up g)
    (hk : ∀ k ∈ [F.STK_STAT_ROLE, F.TWN_STAT_STATE], (g (s.dev.putIo (portNo p) [])).rd k = s.dev.rd k) :
    s.host p f = .next (s.withDev (g (s.dev.putIo (portNo p) []))) := by
  rw [State.host_on h, hf]
  exact congrArg _ (s.settleWk_plain _ _ rfl (hk _ (by simp)) (hk _ (by simp)))

/-- A transaction whose work does nothing leaves what it put out. -/
theorem State.host_same (h : s.hostOn = true) {f : Nat → Wk → Wk} (hf : f (portNo p) (s.trans p) = s.trans p) :
    s.host p f = .next (s.withDev (s.dev.putIo (portNo p) [])) :=
  State.host_up h (g := id) hf fun _ _ => Dev.putIo_rd _ _ _ _

end

/-! ## A word of the TIM page -/

section
variable {w : Wk} {q : Nat}

/-- The TIM page decodes A[9:2]; its first kilobyte is itself. -/
theorem canon_tim {a : Nat} (h1 : 0x6000 ≤ a) (h2 : a < 0x6400) (h4 : a % 4 = 0) : canon a = a := by
  have page : a / 4 * 4 / 4096 = 6 := by omega
  unfold canon
  dsimp only
  rw [page]
  show 6 * 4096 + a / 4 * 4 % 1024 = a
  omega

/-- With no half of a pair held, a word of the TIM page is a register write. -/
theorem Wk.writeWord_tim {a : Nat} (v : Nat) (hh : (w.d.port q).half = none) (h1 : 0x6000 ≤ a) (h2 : a < 0x6400) (h4 : a % 4 = 0) (hg : guardedReg a = false) :
    w.writeWord q a v = w.regWrite q a v := by
  have word : a / 4 * 4 = a := by omega
  have plain : w.plainWrite q a v = w.regWrite q a v := by
    unfold Wk.plainWrite
    dsimp only
    rw [if_pos (by omega), canon_tim h1 h2 h4, if_neg (by omega), if_neg (by omega), hg]
    rfl
  unfold Wk.writeWord
  dsimp only
  rw [word, if_neg (by omega), hh]
  exact plain

/-- A field of device time that a host writes and reads back as it stands. -/
structure Fld.TimRw (f : Fld) : Prop where
  acc : f.acc = .rw
  app : f.app = .imm
  low : 0x6000 ≤ f.addr
  high : f.addr < 0x6200

namespace Fld.TimRw
variable {f : Fld} (hf : f.TimRw)
include hf

theorem ne {g : Fld} (h : g.addr < 0x6000 ∨ 0x6200 ≤ g.addr) : f ≠ g := by
  rintro rfl
  have := hf.low
  have := hf.high
  omega

theorem selfClear : f.selfClear = false := by
  unfold Fld.selfClear
  rw [decide_eq_false (hf.ne (by decide)), decide_eq_false (hf.ne (by decide))]
  rfl

theorem live : w.live f = w.d.rd f := by
  have low := hf.low
  have high := hf.high
  unfold Wk.live
  dsimp only
  rw [if_neg (by omega), if_neg (by omega), if_neg (by omega), if_neg (by omega), if_neg (by omega), if_neg (by omega), if_neg (by omega), if_neg (by omega), if_neg (by omega), if_neg (by omega)]

theorem plain : w.plain f = w.d.rd f := by
  have pending : w.pending f = w.d.rd f := by
    unfold Wk.pending
    rw [hf.acc, hf.app]
    exact hf.live
  unfold Wk.plain
  rw [pending, Nat.mod_eq_of_lt (w.d.rd_lt f)]

theorem changes (v : Nat) : w.changes f v = decide (v ≠ w.d.rd f) := by
  unfold Wk.changes
  rw [hf.acc]
  dsimp only
  rw [hf.selfClear, if_neg (by decide), if_neg (hf.ne (by decide)), hf.plain]

theorem clasps : claspsOf f = [4] := by
  have low := hf.low
  have high := hf.high
  have page : (decide (0x6000 ≤ f.addr) && decide (f.addr < 0x7000)) = true := by simp; omega
  have out (l h : Nat) (hl : f.addr < l ∨ h ≤ f.addr) : (decide (l ≤ f.addr) && decide (f.addr < h)) = false := by simp; omega
  have off (n : Nat) (hn : f.addr ≠ n) : decide (f.addr = n) = false := decide_eq_false hn
  unfold claspsOf
  dsimp only
  rw [hf.app, page, off 0x4110 (by omega), off 0x90000 (by omega), out 0x50000 0x56000 (by omega), out 0x5F000 0x60000 (by omega), out 0x20000 0x38000 (by omega), out 0x4200 0x420C (by omega),
    out 0x9000 0xA000 (by omega), out 0xC000 0xD000 (by omega), out 0xD000 0xE000 (by omega), out 0x90400 0x90800 (by omega), decide_eq_false (hf.ne (g := F.EDG_ARM) (by decide))]
  rfl

/-- No rule refuses the write, with the Time clasp not the other port's; an increment only where another unit gives the time (R39). -/
theorem refuses (hv : w.v.lockout = false) (hc : w.d.claspHeld 4 q = false) (ht : f ≠ F.TIM_INC_INT ∧ f ≠ F.TIM_INC_FRAC ∨ w.d.followsTime = false) : w.refuses q f = false := by
  have low := hf.low
  have high := hf.high
  have out (l h : Nat) (hl : f.addr < l ∨ h ≤ f.addr) : (decide (l ≤ f.addr) && decide (f.addr < h)) = false := by simp; omega
  have own : foreign q f = false := by
    unfold foreign
    dsimp only
    rw [out 0x7000 0x7200 (by omega), out 0xE000 0xF000 (by omega)]
    rfl
  have inc : ((decide (f = F.TIM_INC_INT) || decide (f = F.TIM_INC_FRAC)) && w.d.followsTime) = false := by
    obtain ⟨h1, h2⟩ | h := ht
    · rw [decide_eq_false h1, decide_eq_false h2]; rfl
    · rw [h, Bool.and_false]
  unfold Wk.refuses
  dsimp only
  rw [hv, hf.clasps, own, inc, hf.app, out 0x64000 0x68000 (by omega), decide_eq_false (hf.ne (g := F.SYS_FRM_LEN) (by decide)), List.any_cons, hc]
  rfl

theorem putField (v : Nat) : w.putField q f v = w.writeImm q f v := by
  unfold Wk.putField
  rw [hf.app, hf.acc]

/-- A write of the value that the field holds is no write (R563). -/
theorem fieldWrite_same {v : Nat} (h : v = w.d.rd f) : w.fieldWrite q f v = (w, false) :=
  if_pos (by rw [hf.changes, decide_eq_false (not_not.2 h)]; rfl)

theorem fieldWrite_changed {v : Nat} (h : v ≠ w.d.rd f) (hv : w.v.lockout = false) (hc : w.d.claspHeld 4 q = false)
    (ht : f ≠ F.TIM_INC_INT ∧ f ≠ F.TIM_INC_FRAC ∨ w.d.followsTime = false) : w.fieldWrite q f v = (w.writeImm q f v, false) := by
  unfold Wk.fieldWrite
  rw [if_neg (by rw [hf.changes, decide_eq_true h]; decide), if_neg (by rw [hf.refuses hv hc ht]; decide), hf.putField]

end Fld.TimRw

/-- The fields of a register one after another, none of which is GO, is refused, or is staged. -/
theorem Wk.fieldsWrite_plain {x : Nat} {l : List (Fld × Nat)} {u : Wk} (hgo : ∀ e ∈ l, e.1 ≠ F.STK_MTX_CTRL_GO)
    (h : l.foldl (fun (a : Wk × Bool) e => ((a.1.fieldWrite q e.1 e.2).1, a.2 || (a.1.fieldWrite q e.1 e.2).2)) (w, false) = (u, false)) (hs : u.d.stg = w.d.stg) :
    w.fieldsWrite q x l = (u, false) := by
  have keep : l.filter (fun e => e.1 ≠ F.STK_MTX_CTRL_GO) = l := List.filter_eq_self.2 fun e he => decide_eq_true (hgo e he)
  have none : l.filter (fun e => e.1 = F.STK_MTX_CTRL_GO) = [] := List.filter_eq_nil_iff.2 fun e he => by simpa using hgo e he
  unfold Wk.fieldsWrite
  dsimp only
  rw [keep, none, List.append_nil, h]
  simp [hs]

/-- A register of one field, whose write sets no staged value aside. -/
theorem Wk.regWrite_one {x v : Nat} {f : Fld} {u : Wk} (hl : fieldsAt x = [f]) (hgo : f ≠ F.STK_MTX_CTRL_GO) (h : w.fieldWrite q f (bits v f.lo f.width) = (u, false)) (hs : u.d.stg = w.d.stg) :
    w.regWrite q x v = (u, false) := by
  unfold Wk.regWrite
  rw [hl]
  exact Wk.fieldsWrite_plain (by simpa using hgo) (by simp [h]) hs

end

/-! ## One field of device time, by a port -/

section
variable {s : State} {p : Nat}

theorem State.trans_free (hw : s.writes p = true) : (s.trans p).v.lockout = false ∧ ((s.trans p).d.port (portNo p)).half = none := by
  obtain ⟨-, hv, hh⟩ := State.writes_iff.1 hw
  exact ⟨hv, (congrArg Port.half (Dev.upPort_port _ _ _)).trans hh⟩

theorem State.trans_rd (f : Fld) : (s.trans p).d.rd f = s.dev.rd f := Dev.putIo_rd _ _ _ _

theorem State.trans_claspHeld (n q : Nat) : (s.trans p).d.claspHeld n q = s.dev.claspHeld n q := by
  unfold Dev.claspHeld
  rw [State.trans_rd]

theorem State.trans_time : (s.trans p).d.time = s.dev.time := Dev.putIo_time _ _ _

theorem State.trans_out (n : Nat) : (s.trans p).d.out n = s.dev.out n := congrArg (fun y : TimeSt => tget ({} : PulseOut) y.outs n) (Dev.putIo_time s.dev (portNo p) [])

theorem State.writes_hostOn (hw : s.writes p = true) : s.hostOn = true := by
  unfold State.writes at hw
  exact (Bool.and_eq_true_iff.1 (Bool.and_eq_true_iff.1 hw).1).1

/-- A transaction that sends no message, and changes neither the twin's state nor the role in the stack. -/
theorem State.host_plain (h : s.hostOn = true) {f : Nat → Wk → Wk} {u : Wk} (hf : f (portNo p) (s.trans p) = u) (hm : u.ms = []) (hk : ∀ k ∈ [F.STK_STAT_ROLE, F.TWN_STAT_STATE], u.d.rd k = s.dev.rd k) :
    s.host p f = .next (s.withDev u.d) := by
  rw [State.host_on h, hf]
  exact congrArg _ (s.settleWk_plain _ _ hm (hk _ (by simp)) (hk _ (by simp)))

variable {x v : Nat} {f : Fld}

/-- A register of the TIM page with one field. -/
theorem Wk.writeWord_one {w u : Wk} {q : Nat} (hh : (w.d.port q).half = none) (hl : fieldsAt x = [f]) (hf : f.TimRw) (hx : x % 4 = 0) (h : w.fieldWrite q f (bits v f.lo f.width) = (u, false))
    (hs : u.d.stg = w.d.stg) : (w.writeWord q x v).1 = u := by
  have addr : f.addr = x := (fieldsAt_addr x f (by rw [hl]; simp)).1
  have low := hf.low
  have high := hf.high
  have unguarded : guardedReg x = false := by
    unfold guardedReg
    rw [hl, List.any_cons, hf.acc]
    rfl
  rw [Wk.writeWord_tim v hh (by omega) (by omega) hx unguarded, Wk.regWrite_one hl (hf.ne (by decide)) h hs]

theorem State.timField_same (hw : s.writes p = true) (hl : fieldsAt x = [f]) (hf : f.TimRw) (hx : x % 4 = 0) (hv : bits v f.lo f.width = s.dev.rd f) :
    ((s.trans p).writeWord (portNo p) x v).1 = s.trans p :=
  Wk.writeWord_one (State.trans_free hw).2 hl hf hx (hf.fieldWrite_same (hv.trans (State.trans_rd f).symm)) rfl

theorem State.timField_changed (hw : s.writes p = true) (hc : s.dev.claspHeld 4 (portNo p) = false) (hl : fieldsAt x = [f]) (hf : f.TimRw) (hx : x % 4 = 0) (hv : bits v f.lo f.width ≠ s.dev.rd f)
    (ht : f ≠ F.TIM_INC_INT ∧ f ≠ F.TIM_INC_FRAC ∨ s.dev.followsTime = false) {u : Wk} (hu : (s.trans p).writeImm (portNo p) f (bits v f.lo f.width) = u) (hs : u.d.stg = (s.trans p).d.stg) :
    ((s.trans p).writeWord (portNo p) x v).1 = u := by
  have follows : (s.trans p).d.followsTime = s.dev.followsTime := by
    unfold Dev.followsTime
    rw [State.trans_rd]
  obtain ⟨hlock, hhalf⟩ := State.trans_free hw
  subst hu
  exact Wk.writeWord_one hhalf hl hf hx
    (hf.fieldWrite_changed (by rw [State.trans_rd]; exact hv) hlock ((State.trans_claspHeld _ _).trans hc) (follows ▸ ht)) hs

end

theorem bits_low (v w : Nat) : bits v 0 w = v % 2 ^ w := rfl

theorem Word.bits_whole (v : Word) : bits v.toNat 0 32 = v.toNat := Nat.mod_eq_of_lt v.isLt

/-! ## TIM_INC_INT -/

theorem timIncInt_timRw : F.TIM_INC_INT.TimRw := ⟨rfl, rfl, by decide, by decide⟩

theorem fieldsAt_timIncInt : fieldsAt 0x6014 = [F.TIM_INC_INT] := by decide

/-- The device once an increment has been written (R38, R39). -/
def Dev.incWritten (d : Dev) (v : Nat) : Dev :=
  if 524032 ≤ v ∧ v ≤ 524543 then { d.wr F.TIM_INC_INT v with time := { d.time with incI := v, incF := (d.wr F.TIM_INC_INT v).rd F.TIM_INC_FRAC } }
  else d.wr F.TIM_STAT_INC_REJ 1

theorem Dev.incWritten_rd_ne (d : Dev) (v : Nat) {f : Fld} (h1 : f.key ≠ F.TIM_INC_INT.key) (h2 : f.key ≠ F.TIM_STAT_INC_REJ.key) : (d.incWritten v).rd f = d.rd f :=
  ite_keeps (g := (Dev.rd · f)) (fun _ => d.wr_rd_ne v h1) fun _ => d.wr_rd_ne 1 h2

section
variable {s : State} {p : Nat} {v : Word}

theorem timIncIntWrite_same (hw : s.writes p = true) (hv : v.toNat = s.dev.rd F.TIM_INC_INT) : exec (.timIncIntWrite p v) s = .next (s.withDev (s.dev.putIo (portNo p) [])) := by
  rw [exec_timIncIntWrite]
  unfold execTimIncIntWrite State.hostWrite
  exact State.host_same (State.writes_hostOn hw) (State.timField_same hw fieldsAt_timIncInt timIncInt_timRw (by decide) ((Word.bits_whole v).trans hv))

theorem timIncIntWrite_changed (hw : s.writes p = true) (hc : s.dev.claspHeld 4 (portNo p) = false) (ht : s.dev.followsTime = false) (hv : v.toNat ≠ s.dev.rd F.TIM_INC_INT) :
    exec (.timIncIntWrite p v) s = .next (s.withDev ((s.dev.putIo (portNo p) []).incWritten v.toNat)) := by
  have written : (s.trans p).writeImm (portNo p) F.TIM_INC_INT (bits v.toNat 0 32) = (s.trans p).up (·.incWritten v.toNat) := by
    rw [Word.bits_whole]
    rfl
  rw [exec_timIncIntWrite]
  unfold execTimIncIntWrite State.hostWrite
  refine State.host_up (State.writes_hostOn hw) (g := (·.incWritten v.toNat)) ?_ fun k hk => ?_
  · refine State.timField_changed hw hc fieldsAt_timIncInt timIncInt_timRw (by decide) (by rw [show F.TIM_INC_INT.lo = 0 from rfl, show F.TIM_INC_INT.width = 32 from rfl, Word.bits_whole]; exact hv) (.inr ht) written ?_
    exact ite_keeps (g := Dev.stg) (fun _ => rfl) fun _ => rfl
  · rw [Dev.incWritten_rd_ne _ _ (Fld.notified_ne hk (.inl (by decide))) (Fld.notified_ne hk (.inl (by decide))), Dev.putIo_rd]

end

/-! ## The registers of a pulse output with one field -/

/-- A register of a pulse output. -/
def Fld.ofOut (f : Fld) (n : Nat) : Prop := 0x6100 + n * 32 ≤ f.addr ∧ f.addr < 0x6120 + n * 32 ∧ f.lo < 32

theorem Fld.ofOut.ne_inc {f : Fld} {n : Nat} (h : f.ofOut n) : f ≠ F.TIM_INC_INT ∧ f ≠ F.TIM_INC_FRAC := by
  have low := h.1
  constructor <;> rintro rfl <;> simp only [F.TIM_INC_INT, F.TIM_INC_FRAC] at low <;> omega

theorem Fld.ofOut.ne_go {f : Fld} {n : Nat} (h : f.ofOut n) (hn : n < 5) : f ≠ F.STK_MTX_CTRL_GO := by
  have high := h.2.1
  rintro rfl
  simp only [F.STK_MTX_CTRL_GO] at high
  omega

theorem Fld.ofOut.notified {f k : Fld} {n : Nat} (h : f.ofOut n) (hn : n < 5) (hk : k ∈ [F.STK_STAT_ROLE, F.TWN_STAT_STATE]) : k.key ≠ f.key := by
  obtain ⟨-, hhi, hlo⟩ := h
  refine Fld.notified_ne hk (.inl ?_)
  simp only [Fld.key, F.TWN_STAT_STATE]
  omega

/-- From `w` to `u` a write has acted on a pulse output: what else is read of the registers stays, and nothing is sent. -/
structure Wk.WritesOut (n : Nat) (w u : Wk) : Prop where
  stg : u.d.stg = w.d.stg
  ms : u.ms = w.ms
  v : u.v = w.v
  rd : ∀ k : Fld, (∀ g : Fld, g.ofOut n → k.key ≠ g.key) → u.d.rd k = w.d.rd k

/-- The action of a write, by the register of the output. -/
theorem Wk.writeImm_out {w : Wk} {q n o : Nat} {f : Fld} (v : Nat) (hn : n < 5) (ho : o < 32) (ha : f.addr = 0x6100 + n * 32 + o) :
    w.writeImm q f v = if o = 0 ∧ f.lo = 0 then w.outMode n v else if o = 8 then w.outTgtHi n v else if o = 16 then w.outPerHi n v else if o = 20 then w.outWidth n v else w.up (·.wr f v) := by
  have unit : (f.addr - 0x6100) / 32 = n := by omega
  have offset : (f.addr - 0x6100) % 32 = o := by omega
  unfold Wk.writeImm
  dsimp only
  rw [if_neg (by omega), if_neg (by omega), if_pos (by omega), unit, offset]

section
variable {s : State} {p n : Nat} {x v : Nat} {f : Fld}

theorem State.outField_same (hw : s.writes p = true) (hn : n < 5) (hl : fieldsAt x = [f]) (hf : f.TimRw) (hx : x % 4 = 0) (hv : bits v f.lo f.width = s.dev.rd f) :
    s.host p (fun p w => w.on (decide (n < 5)) fun w => (w.writeWord p x v).1) = .next (s.withDev (s.dev.putIo (portNo p) [])) := by
  refine State.host_same (State.writes_hostOn hw) ?_
  rw [decide_eq_true hn]
  exact State.timField_same hw hl hf hx hv

theorem State.outField_changed (hw : s.writes p = true) (hc : s.dev.claspHeld 4 (portNo p) = false) (hn : n < 5) (hl : fieldsAt x = [f]) (hf : f.TimRw) (ho : f.ofOut n) (hx : x % 4 = 0)
    (hv : bits v f.lo f.width ≠ s.dev.rd f) {u : Wk} (hu : (s.trans p).writeImm (portNo p) f (bits v f.lo f.width) = u) (ha : (s.trans p).WritesOut n u) :
    s.host p (fun p w => w.on (decide (n < 5)) fun w => (w.writeWord p x v).1) = .next (s.withDev u.d) := by
  refine State.host_plain (State.writes_hostOn hw) ?_ ha.ms fun k hk => ?_
  · rw [decide_eq_true hn]
    exact State.timField_changed hw hc hl hf hx hv (.inl ho.ne_inc) hu ha.stg
  · rw [ha.rd k fun g hg => hg.notified hn hk, State.trans_rd]

end

section
variable {n : Nat} (hn : n < 5)
include hn

theorem fieldsAt_outTgtHi : fieldsAt (0x6108 + 32 * n) = [F.TIM_OUT_TGT_HI n] := by interval_cases n <;> rfl
theorem fieldsAt_outPerHi : fieldsAt (0x6110 + 32 * n) = [F.TIM_OUT_PER_HI n] := by interval_cases n <;> rfl
theorem fieldsAt_outWidth : fieldsAt (0x6114 + 32 * n) = [F.TIM_OUT_WIDTH n] := by interval_cases n <;> rfl
theorem fieldsAt_outCtrl : fieldsAt (0x6100 + 32 * n) = [F.TIM_OUT_CTRL_MODE n, F.TIM_OUT_CTRL_POL n, F.TIM_OUT_CTRL_REJ n, F.TIM_OUT_CTRL_PEND n] := by interval_cases n <;> rfl

theorem Fld.timRw_out {f : Fld} (ha : f.acc = .rw) (hp : f.app = .imm) (ho : f.ofOut n) : f.TimRw := by
  obtain ⟨hlo, hhi, -⟩ := ho
  exact ⟨ha, hp, by omega, by omega⟩

end

theorem outMode_ofOut (n : Nat) : (F.TIM_OUT_CTRL_MODE n).ofOut n := by simp only [Fld.ofOut, F.TIM_OUT_CTRL_MODE]; omega
theorem outPol_ofOut (n : Nat) : (F.TIM_OUT_CTRL_POL n).ofOut n := by simp only [Fld.ofOut, F.TIM_OUT_CTRL_POL]; omega
theorem outRej_ofOut (n : Nat) : (F.TIM_OUT_CTRL_REJ n).ofOut n := by simp only [Fld.ofOut, F.TIM_OUT_CTRL_REJ]; omega
theorem outPend_ofOut (n : Nat) : (F.TIM_OUT_CTRL_PEND n).ofOut n := by simp only [Fld.ofOut, F.TIM_OUT_CTRL_PEND]; omega
theorem outTgtHi_ofOut (n : Nat) : (F.TIM_OUT_TGT_HI n).ofOut n := by simp only [Fld.ofOut, F.TIM_OUT_TGT_HI]; omega
theorem outPerHi_ofOut (n : Nat) : (F.TIM_OUT_PER_HI n).ofOut n := by simp only [Fld.ofOut, F.TIM_OUT_PER_HI]; omega
theorem outWidth_ofOut (n : Nat) : (F.TIM_OUT_WIDTH n).ofOut n := by simp only [Fld.ofOut, F.TIM_OUT_WIDTH]; omega

section
variable {w : Wk} {n v : Nat}

/-- A refused write of an output sets REJ alone (R52). -/
theorem Wk.outRej_sees : (w.outRej n).d.rd (F.TIM_OUT_CTRL_REJ n) = 1 ∧ (w.outRej n).d.time = w.d.time ∧ ∀ f : Fld, f.key ≠ (F.TIM_OUT_CTRL_REJ n).key → (w.outRej n).d.rd f = w.d.rd f :=
  ⟨Dev.wr_rd _ _ _, rfl, fun _ hf => Dev.wr_rd_ne _ _ hf⟩

/-- The period of an output once PER_HI is written (R52). -/
def Dev.newPer (d : Dev) (n v : Nat) : Nat := v % 65536 * 2 ^ 32 + d.rd (F.TIM_OUT_PER_LO n)

theorem Wk.outPerHi_ok (h : outRulesOk (w.d.rd (F.TIM_OUT_CTRL_MODE n)) (w.d.newPer n v) (w.d.rd (F.TIM_OUT_WIDTH n)) = true) :
    w.outPerHi n v = w.up fun d => (d.wr (F.TIM_OUT_PER_HI n) v).setOut n { d.out n with per := w.d.newPer n v } := if_pos h

theorem Wk.outPerHi_rej (h : ¬ outRulesOk (w.d.rd (F.TIM_OUT_CTRL_MODE n)) (w.d.newPer n v) (w.d.rd (F.TIM_OUT_WIDTH n)) = true) : w.outPerHi n v = w.outRej n := if_neg h

theorem Wk.outWidth_ok (h : outRulesOk (w.d.rd (F.TIM_OUT_CTRL_MODE n)) (w.d.out n).per v = true) : w.outWidth n v = w.up (·.wr (F.TIM_OUT_WIDTH n) v) := if_pos h

theorem Wk.outWidth_rej (h : ¬ outRulesOk (w.d.rd (F.TIM_OUT_CTRL_MODE n)) (w.d.out n).per v = true) : w.outWidth n v = w.outRej n := if_neg h

theorem Wk.outMode_rej (h : ¬ (v = 0 ∨ v ≤ 2 ∧ outRulesOk v (w.d.out n).per (w.d.rd (F.TIM_OUT_WIDTH n)) = true)) : w.outMode n v = w.outRej n :=
  (if_neg fun h0 => h (.inl h0)).trans (if_neg fun h1 => h (.inr h1))

theorem Wk.outRej_writes : w.WritesOut n (w.outRej n) := ⟨rfl, rfl, rfl, fun _ hk => Wk.outRej_sees.2.2 _ (hk _ (outRej_ofOut n))⟩

theorem Wk.outTgtHi_writes : w.WritesOut n (w.outTgtHi n v) := by
  have d := w.outTgtHi_d n v
  refine ⟨by rw [d]; rfl, rfl, rfl, fun k hk => ?_⟩
  rw [d, Dev.setOut_rd, Dev.wr_rd_ne _ _ (hk _ (outPend_ofOut n)), Dev.wr_rd_ne _ _ (hk _ (outTgtHi_ofOut n))]

theorem Wk.outPerHi_writes : w.WritesOut n (w.outPerHi n v) := by
  by_cases h : outRulesOk (w.d.rd (F.TIM_OUT_CTRL_MODE n)) (w.d.newPer n v) (w.d.rd (F.TIM_OUT_WIDTH n)) = true
  · rw [Wk.outPerHi_ok h]
    exact ⟨rfl, rfl, rfl, fun k hk => w.d.wr_rd_ne _ (hk _ (outPerHi_ofOut n))⟩
  · rw [Wk.outPerHi_rej h]
    exact Wk.outRej_writes

theorem Wk.outWidth_writes : w.WritesOut n (w.outWidth n v) := by
  by_cases h : outRulesOk (w.d.rd (F.TIM_OUT_CTRL_MODE n)) (w.d.out n).per v = true
  · rw [Wk.outWidth_ok h]
    exact ⟨rfl, rfl, rfl, fun k hk => w.d.wr_rd_ne _ (hk _ (outWidth_ofOut n))⟩
  · rw [Wk.outWidth_rej h]
    exact Wk.outRej_writes

theorem Wk.outMode_writes : w.WritesOut n (w.outMode n v) := by
  by_cases h : v = 0 ∨ v ≤ 2 ∧ outRulesOk v (w.d.out n).per (w.d.rd (F.TIM_OUT_WIDTH n)) = true
  · have d := Wk.outMode_d h
    have v' : (w.outMode n v).v = w.v := by
      unfold Wk.outMode
      dsimp only
      split_ifs <;> rfl
    refine ⟨?_, w.outMode_ms n v, v', fun k hk => ?_⟩
    · rw [d]
      exact ite_keeps (g := Dev.stg) (fun _ => rfl) fun _ => rfl
    · rw [d, Dev.setOut_rd]
      have mode : (w.d.wr (F.TIM_OUT_CTRL_MODE n) v).rd k = w.d.rd k := Dev.wr_rd_ne _ _ (hk _ (outMode_ofOut n))
      exact ite_keeps (g := (Dev.rd · k)) (fun _ => (Dev.wr_rd_ne _ _ (hk _ (outPend_ofOut n))).trans mode) fun _ => mode
  · rw [Wk.outMode_rej h]
    exact Wk.outRej_writes

end

/-! ## TGT_HI, PER_HI and WIDTH -/

section
variable {s : State} {p n : Nat} {v : Word}

theorem timOutTgtHiWrite_same (hw : s.writes p = true) (hn : n < 5) (hv : v.toNat = s.dev.rd (F.TIM_OUT_TGT_HI n)) :
    exec (.timOutTgtHiWrite p n v) s = .next (s.withDev (s.dev.putIo (portNo p) [])) :=
  (exec_timOutTgtHiWrite p n v s).trans
    (State.outField_same hw hn (fieldsAt_outTgtHi hn) (Fld.timRw_out hn rfl rfl (outTgtHi_ofOut n)) (by omega) ((Word.bits_whole v).trans hv))

theorem timOutPerHiWrite_same (hw : s.writes p = true) (hn : n < 5) (hv : v.toNat % 65536 = s.dev.rd (F.TIM_OUT_PER_HI n)) :
    exec (.timOutPerHiWrite p n v) s = .next (s.withDev (s.dev.putIo (portNo p) [])) :=
  (exec_timOutPerHiWrite p n v s).trans
    (State.outField_same hw hn (fieldsAt_outPerHi hn) (Fld.timRw_out hn rfl rfl (outPerHi_ofOut n)) (by omega) hv)

theorem timOutWidthWrite_same (hw : s.writes p = true) (hn : n < 5) (hv : v.toNat = s.dev.rd (F.TIM_OUT_WIDTH n)) :
    exec (.timOutWidthWrite p n v) s = .next (s.withDev (s.dev.putIo (portNo p) [])) :=
  (exec_timOutWidthWrite p n v s).trans
    (State.outField_same hw hn (fieldsAt_outWidth hn) (Fld.timRw_out hn rfl rfl (outWidth_ofOut n)) (by omega) ((Word.bits_whole v).trans hv))

theorem timOutTgtHiWrite_changed (hw : s.writes p = true) (hc : s.dev.claspHeld 4 (portNo p) = false) (hn : n < 5) (hv : v.toNat ≠ s.dev.rd (F.TIM_OUT_TGT_HI n)) :
    exec (.timOutTgtHiWrite p n v) s = .next (s.withDev ((s.trans p).outTgtHi n v.toNat).d) := by
  have whole : bits v.toNat (F.TIM_OUT_TGT_HI n).lo (F.TIM_OUT_TGT_HI n).width = v.toNat := Word.bits_whole v
  refine (exec_timOutTgtHiWrite p n v s).trans (State.outField_changed hw hc hn (fieldsAt_outTgtHi hn) (Fld.timRw_out hn rfl rfl (outTgtHi_ofOut n)) (outTgtHi_ofOut n) (by omega)
    (by rw [whole]; exact hv) ?_ Wk.outTgtHi_writes)
  rw [whole, Wk.writeImm_out (o := 8) _ hn (by omega) (by simp only [F.TIM_OUT_TGT_HI])]
  rfl

theorem timOutPerHiWrite_changed (hw : s.writes p = true) (hc : s.dev.claspHeld 4 (portNo p) = false) (hn : n < 5) (hv : v.toNat % 65536 ≠ s.dev.rd (F.TIM_OUT_PER_HI n)) :
    exec (.timOutPerHiWrite p n v) s = .next (s.withDev ((s.trans p).outPerHi n (v.toNat % 65536)).d) := by
  have half : bits v.toNat (F.TIM_OUT_PER_HI n).lo (F.TIM_OUT_PER_HI n).width = v.toNat % 65536 := rfl
  refine (exec_timOutPerHiWrite p n v s).trans (State.outField_changed hw hc hn (fieldsAt_outPerHi hn) (Fld.timRw_out hn rfl rfl (outPerHi_ofOut n)) (outPerHi_ofOut n) (by omega)
    (by rw [half]; exact hv) ?_ Wk.outPerHi_writes)
  rw [half, Wk.writeImm_out (o := 16) _ hn (by omega) (by simp only [F.TIM_OUT_PER_HI])]
  rfl

theorem timOutWidthWrite_changed (hw : s.writes p = true) (hc : s.dev.claspHeld 4 (portNo p) = false) (hn : n < 5) (hv : v.toNat ≠ s.dev.rd (F.TIM_OUT_WIDTH n)) :
    exec (.timOutWidthWrite p n v) s = .next (s.withDev ((s.trans p).outWidth n v.toNat).d) := by
  have whole : bits v.toNat (F.TIM_OUT_WIDTH n).lo (F.TIM_OUT_WIDTH n).width = v.toNat := Word.bits_whole v
  refine (exec_timOutWidthWrite p n v s).trans (State.outField_changed hw hc hn (fieldsAt_outWidth hn) (Fld.timRw_out hn rfl rfl (outWidth_ofOut n)) (outWidth_ofOut n) (by omega)
    (by rw [whole]; exact hv) ?_ Wk.outWidth_writes)
  rw [whole, Wk.writeImm_out (o := 20) _ hn (by omega) (by simp only [F.TIM_OUT_WIDTH])]
  rfl

end

/-! ## The control register of a pulse output -/

section
variable {w : Wk} {q n v : Nat}

/-- The polarity of an output is written where it changes. -/
def Wk.outPol (w : Wk) (n b : Nat) : Wk := if b = w.d.rd (F.TIM_OUT_CTRL_POL n) then w else w.up (·.wr (F.TIM_OUT_CTRL_POL n) b)

theorem Wk.outPol_pol {b : Nat} (h : b < 2) : (w.outPol n b).d.rd (F.TIM_OUT_CTRL_POL n) = b := by
  unfold Wk.outPol
  split
  next hb => exact hb.symm
  next => exact (Dev.wr_rd _ _ _).trans (Nat.mod_eq_of_lt h)

theorem Wk.outPol_rd_ne (b : Nat) {f : Fld} (h : f.key ≠ (F.TIM_OUT_CTRL_POL n).key) : (w.outPol n b).d.rd f = w.d.rd f := by
  unfold Wk.outPol
  split
  · rfl
  · exact Dev.wr_rd_ne _ _ h

theorem Wk.outPol_time (b : Nat) : (w.outPol n b).d.time = w.d.time := by
  unfold Wk.outPol
  split <;> rfl

theorem Wk.outPol_writes (b : Nat) : w.WritesOut n (w.outPol n b) := by
  refine ⟨?_, ?_, ?_, fun k hk => Wk.outPol_rd_ne b (hk _ (outPol_ofOut n))⟩ <;> unfold Wk.outPol <;> split <;> rfl

theorem Wk.WritesOut.trans {a b c : Wk} (h : a.WritesOut n b) (k : b.WritesOut n c) : a.WritesOut n c :=
  ⟨k.stg.trans h.stg, k.ms.trans h.ms, k.v.trans h.v, fun f hf => (k.rd f hf).trans (h.rd f hf)⟩

theorem Wk.WritesOut.claspHeld {a b : Wk} (h : a.WritesOut n b) (hn : n < 5) (c q : Nat) : b.d.claspHeld c q = a.d.claspHeld c q := by
  unfold Dev.claspHeld
  rw [h.rd _ fun g ⟨hlo, hhi, hbit⟩ => ?_]
  simp only [Fld.key, F.HST_CLASP_OWNER]
  omega

theorem Wk.fieldWrite_outPol (b : Nat) (hn : n < 5) (hv : w.v.lockout = false) (hc : w.d.claspHeld 4 q = false) : w.fieldWrite q (F.TIM_OUT_CTRL_POL n) b = (w.outPol n b, false) := by
  have hf := Fld.timRw_out hn rfl rfl (outPol_ofOut n)
  unfold Wk.outPol
  split
  next hb => exact hf.fieldWrite_same hb
  next hb =>
    rw [hf.fieldWrite_changed hb hv hc (.inl (outPol_ofOut n).ne_inc), Wk.writeImm_out (o := 0) _ hn (by omega) (by simp only [F.TIM_OUT_CTRL_POL, Nat.add_zero])]
    rfl

/-- A write of the control register of an output: the mode, then the polarity (R51, R52). -/
theorem Wk.writeWord_outCtrl (hn : n < 5) (hh : (w.d.port q).half = none) (hv : w.v.lockout = false) (hc : w.d.claspHeld 4 q = false) (hrej : bits v 3 1 = 0)
    (hm : bits v 0 2 ≠ w.d.rd (F.TIM_OUT_CTRL_MODE n)) : (w.writeWord q (0x6100 + 32 * n) v).1 = (w.outMode n (bits v 0 2)).outPol n (bits v 2 1) := by
  have fields := fieldsAt_outCtrl hn
  have unguarded : guardedReg (0x6100 + 32 * n) = false := by
    unfold guardedReg
    rw [fields]
    rfl
  have mode : w.fieldWrite q (F.TIM_OUT_CTRL_MODE n) (bits v 0 2) = (w.outMode n (bits v 0 2), false) := by
    rw [(Fld.timRw_out hn rfl rfl (outMode_ofOut n)).fieldWrite_changed hm hv hc (.inl (outMode_ofOut n).ne_inc), Wk.writeImm_out (o := 0) _ hn (by omega) (by simp only [F.TIM_OUT_CTRL_MODE, Nat.add_zero])]
    rfl
  have acts : w.WritesOut n (w.outMode n (bits v 0 2)) := Wk.outMode_writes
  have pol := Wk.fieldWrite_outPol (w := w.outMode n (bits v 0 2)) (q := q) (bits v 2 1) hn (acts.v ▸ hv) ((acts.claspHeld hn 4 q).trans hc)
  have rej (u : Wk) : u.fieldWrite q (F.TIM_OUT_CTRL_REJ n) (bits v 3 1) = (u, false) := if_pos (by rw [hrej]; rfl)
  have pend (u : Wk) : u.fieldWrite q (F.TIM_OUT_CTRL_PEND n) (bits v 4 1) = (u, false) := if_pos rfl
  rw [Wk.writeWord_tim v hh (by omega) (by omega) (by omega) unguarded]
  unfold Wk.regWrite
  rw [fields]
  refine congrArg Prod.fst (Wk.fieldsWrite_plain (fun e he => ?_) (u := (w.outMode n (bits v 0 2)).outPol n (bits v 2 1)) ?_ ((acts.trans (Wk.outPol_writes _)).stg))
  · simp only [List.map_cons, List.map_nil, List.mem_cons, List.not_mem_nil, or_false] at he
    obtain rfl | rfl | rfl | rfl := he
    · exact (outMode_ofOut n).ne_go hn
    · exact (outPol_ofOut n).ne_go hn
    · exact (outRej_ofOut n).ne_go hn
    · exact (outPend_ofOut n).ne_go hn
  · show List.foldl _ _ [(F.TIM_OUT_CTRL_MODE n, bits v 0 2), (F.TIM_OUT_CTRL_POL n, bits v 2 1), (F.TIM_OUT_CTRL_REJ n, bits v 3 1), (F.TIM_OUT_CTRL_PEND n, bits v 4 1)] = _
    simp only [List.foldl_cons, List.foldl_nil, mode, pol, rej, pend, Bool.or_false]

end

section
variable {s : State} {p n : Nat} {v : Word}

theorem timOutCtrlWrite_changed (hw : s.writes p = true) (hc : s.dev.claspHeld 4 (portNo p) = false) (hn : n < 5) (hrej : bits v.toNat 3 1 = 0) (hm : bits v.toNat 0 2 ≠ s.dev.rd (F.TIM_OUT_CTRL_MODE n)) :
    exec (.timOutCtrlWrite p n v) s = .next (s.withDev (((s.trans p).outMode n (bits v.toNat 0 2)).outPol n (bits v.toNat 2 1)).d) := by
  obtain ⟨hlock, hhalf⟩ := State.trans_free hw
  have acts : (s.trans p).WritesOut n (((s.trans p).outMode n (bits v.toNat 0 2)).outPol n (bits v.toNat 2 1)) := Wk.outMode_writes.trans (Wk.outPol_writes _)
  refine (exec_timOutCtrlWrite p n v s).trans (State.host_plain (State.writes_hostOn hw) ?_ acts.ms fun k hk => ?_)
  · rw [decide_eq_true hn]
    exact Wk.writeWord_outCtrl hn hhalf hlock ((State.trans_claspHeld _ _).trans hc) hrej (by rw [State.trans_rd]; exact hm)
  · rw [acts.rd k fun g hg => hg.notified hn hk, State.trans_rd]

end

/-! ## What each write leaves -/

theorem Dev.incWritten_sees (d : Dev) {v : Nat} (hv : v < 2 ^ 32) :
    if 524032 ≤ v ∧ v ≤ 524543 then (d.incWritten v).rd F.TIM_INC_INT = v ∧ (d.incWritten v).time = { d.time with incI := v, incF := d.rd F.TIM_INC_FRAC }
    else (d.incWritten v).rd F.TIM_STAT_INC_REJ = 1 ∧ (d.incWritten v).rd F.TIM_INC_INT = d.rd F.TIM_INC_INT ∧ (d.incWritten v).time = d.time := by
  unfold Dev.incWritten
  split
  · refine ⟨(d.wr_rd F.TIM_INC_INT v).trans (Nat.mod_eq_of_lt hv), ?_⟩
    rw [d.wr_rd_ne v (by decide)]
  · exact ⟨d.wr_rd F.TIM_STAT_INC_REJ 1, d.wr_rd_ne 1 (by decide), rfl⟩

section
variable (w : Wk) (n v : Nat)

theorem outKeys : (F.TIM_OUT_CTRL_MODE n).key = 794624 + n * 1024 ∧ (F.TIM_OUT_CTRL_POL n).key = 794626 + n * 1024 ∧ (F.TIM_OUT_CTRL_REJ n).key = 794627 + n * 1024 ∧
    (F.TIM_OUT_CTRL_PEND n).key = 794628 + n * 1024 ∧ (F.TIM_OUT_TGT_LO n).key = 794752 + n * 1024 ∧ (F.TIM_OUT_TGT_HI n).key = 794880 + n * 1024 ∧
    (F.TIM_OUT_PER_HI n).key = 795136 + n * 1024 ∧ (F.TIM_OUT_WIDTH n).key = 795264 + n * 1024 := by
  simp only [Fld.key, F.TIM_OUT_CTRL_MODE, F.TIM_OUT_CTRL_POL, F.TIM_OUT_CTRL_REJ, F.TIM_OUT_CTRL_PEND, F.TIM_OUT_TGT_LO, F.TIM_OUT_TGT_HI, F.TIM_OUT_PER_HI, F.TIM_OUT_WIDTH]
  omega

/-- MODE 0 disarms the output, drops a target that waits, and returns its pin at the next edge. -/
theorem Wk.outMode_off : (w.outMode n 0).d.rd (F.TIM_OUT_CTRL_MODE n) = 0 ∧ (w.outMode n 0).d.rd (F.TIM_OUT_CTRL_PEND n) = 0 ∧
    (w.outMode n 0).d.out n = { w.d.out n with
      armed := false, active := false, held := none, passed := none, edge := if (w.d.out n).active then w.d.time.now + BitVec.ofNat 64 w.d.time.incI else (w.d.out n).edge } := by
  obtain ⟨hmode, -, -, hpend, -⟩ := outKeys n
  rw [Wk.outMode_d (.inl rfl), if_pos rfl]
  exact ⟨(Dev.wr_rd_ne (w.d.wr (F.TIM_OUT_CTRL_MODE n) 0) (f := F.TIM_OUT_CTRL_PEND n) 0 (by omega)).trans (w.d.wr_rd _ 0), Dev.wr_rd (w.d.wr (F.TIM_OUT_CTRL_MODE n) 0) _ 0, Dev.setOut_out _ _ _⟩

variable {v}

/-- MODE 1 and 2 apply where R52 holds, and a target that was written in MODE 0 is aimed at. -/
theorem Wk.outMode_on (h0 : v ≠ 0) (h : v ≤ 2 ∧ outRulesOk v (w.d.out n).per (w.d.rd (F.TIM_OUT_WIDTH n)) = true) :
    (w.outMode n v).d.rd (F.TIM_OUT_CTRL_MODE n) = v ∧ (w.outMode n v).d.time.now = w.d.time.now ∧
      (w.outMode n v).d.out n = (if w.d.rd (F.TIM_OUT_CTRL_MODE n) = 0 ∧ (w.d.out n).armed = true then (w.d.out n).aim (w.d.out n).target w.d.time.now else w.d.out n) := by
  rw [Wk.outMode_d (.inr h), if_neg h0]
  refine ⟨(w.d.wr_rd _ v).trans (Nat.mod_eq_of_lt (by simp only [F.TIM_OUT_CTRL_MODE]; omega)), rfl, (Dev.setOut_out _ _ _).trans ?_⟩
  unfold PulseOut.setMode
  rw [if_neg h0]
  exact if_congr (by simp) rfl rfl

theorem Wk.outTgtHi_sees (hv : v < 2 ^ 32) : (w.outTgtHi n v).d.rd (F.TIM_OUT_TGT_HI n) = v ∧ (w.outTgtHi n v).d.rd (F.TIM_OUT_CTRL_PEND n) = 1 ∧
    (w.outTgtHi n v).d.out n = (w.d.out n).setTarget (BitVec.ofNat 64 (v * 2 ^ 32 + w.d.rd (F.TIM_OUT_TGT_LO n))) w.d.time.now := by
  obtain ⟨-, -, -, hpend, hlo, hhi, -⟩ := outKeys n
  have low : ((w.d.wr (F.TIM_OUT_TGT_HI n) v).wr (F.TIM_OUT_CTRL_PEND n) 1).rd (F.TIM_OUT_TGT_LO n) = w.d.rd (F.TIM_OUT_TGT_LO n) := by
    rw [Dev.wr_rd_ne _ _ (by omega), Dev.wr_rd_ne _ _ (by omega)]
  rw [Wk.outTgtHi_d, low]
  refine ⟨(Dev.wr_rd_ne (w.d.wr (F.TIM_OUT_TGT_HI n) v) (f := F.TIM_OUT_CTRL_PEND n) 1 (by omega)).trans ((w.d.wr_rd _ v).trans (Nat.mod_eq_of_lt hv)),
    Dev.wr_rd (w.d.wr (F.TIM_OUT_TGT_HI n) v) _ 1, Dev.setOut_out _ _ _⟩

theorem Wk.outPerHi_sees (hv : v < 65536) : if outRulesOk (w.d.rd (F.TIM_OUT_CTRL_MODE n)) (w.d.newPer n v) (w.d.rd (F.TIM_OUT_WIDTH n)) = true then
      (w.outPerHi n v).d.rd (F.TIM_OUT_PER_HI n) = v ∧ (w.outPerHi n v).d.out n = { w.d.out n with per := w.d.newPer n v }
    else (w.outPerHi n v).d.rd (F.TIM_OUT_CTRL_REJ n) = 1 ∧ (w.outPerHi n v).d.rd (F.TIM_OUT_PER_HI n) = w.d.rd (F.TIM_OUT_PER_HI n) ∧ (w.outPerHi n v).d.time = w.d.time := by
  obtain ⟨-, -, hrej, -, -, -, hper, -⟩ := outKeys n
  split
  next h =>
    rw [Wk.outPerHi_ok h]
    exact ⟨(w.d.wr_rd _ v).trans (Nat.mod_eq_of_lt hv), Dev.setOut_out _ _ _⟩
  next h =>
    rw [Wk.outPerHi_rej h]
    obtain ⟨hset, htime, hrd⟩ := w.outRej_sees (n := n)
    exact ⟨hset, hrd _ (by omega), htime⟩

theorem Wk.outWidth_sees (hv : v < 2 ^ 32) : if outRulesOk (w.d.rd (F.TIM_OUT_CTRL_MODE n)) (w.d.out n).per v = true then
      (w.outWidth n v).d.rd (F.TIM_OUT_WIDTH n) = v ∧ (w.outWidth n v).d.time = w.d.time
    else (w.outWidth n v).d.rd (F.TIM_OUT_CTRL_REJ n) = 1 ∧ (w.outWidth n v).d.rd (F.TIM_OUT_WIDTH n) = w.d.rd (F.TIM_OUT_WIDTH n) ∧ (w.outWidth n v).d.time = w.d.time := by
  obtain ⟨-, -, hrej, -, -, -, -, hwidth⟩ := outKeys n
  split
  next h =>
    rw [Wk.outWidth_ok h]
    exact ⟨(w.d.wr_rd _ v).trans (Nat.mod_eq_of_lt hv), rfl⟩
  next h =>
    rw [Wk.outWidth_rej h]
    obtain ⟨hset, htime, hrd⟩ := w.outRej_sees (n := n)
    exact ⟨hset, hrd _ (by omega), htime⟩

end

/-- Settles O28: each register by the action of its write; the fields of the control register one after another. -/
theorem writesThatSetDeviceTime : Obligations.WritesThatSetDeviceTime := by
  refine ⟨fun s p v hw hc ht hv => ⟨_, timIncIntWrite_changed hw hc ht hv, ?_⟩, fun s p n v hw hc hn hrej hm => ⟨_, timOutCtrlWrite_changed hw hc hn hrej hm, ?_⟩,
    fun s p n v hw hc hn hv => ⟨_, timOutTgtHiWrite_changed hw hc hn hv, ?_⟩, fun s p n v hw hc hn hv => ⟨_, timOutPerHiWrite_changed hw hc hn hv, ?_⟩,
    fun s p n v hw hc hn hv => ⟨_, timOutWidthWrite_changed hw hc hn hv, ?_⟩,
    fun s p n v hw hn => ⟨timIncIntWrite_same hw, timOutTgtHiWrite_same hw hn, timOutPerHiWrite_same hw hn, timOutWidthWrite_same hw hn⟩⟩
  · have written := (s.dev.putIo (portNo p) []).incWritten_sees v.isLt
    simp only [Dev.putIo_rd, Dev.putIo_time] at written
    exact written
  · refine ⟨Wk.outPol_pol (Nat.mod_lt _ (by decide)), ?_⟩
    obtain ⟨hmode, hpol, hrej', hpend, -⟩ := outKeys n
    have mode (u : Wk) : (u.outPol n (bits v.toNat 2 1)).d.rd (F.TIM_OUT_CTRL_MODE n) = u.d.rd (F.TIM_OUT_CTRL_MODE n) := Wk.outPol_rd_ne _ (by omega)
    have pend (u : Wk) : (u.outPol n (bits v.toNat 2 1)).d.rd (F.TIM_OUT_CTRL_PEND n) = u.d.rd (F.TIM_OUT_CTRL_PEND n) := Wk.outPol_rd_ne _ (by omega)
    have rej (u : Wk) : (u.outPol n (bits v.toNat 2 1)).d.rd (F.TIM_OUT_CTRL_REJ n) = u.d.rd (F.TIM_OUT_CTRL_REJ n) := Wk.outPol_rd_ne _ (by omega)
    have out (u : Wk) : (u.outPol n (bits v.toNat 2 1)).d.out n = u.d.out n := congrArg (fun y : TimeSt => tget ({} : PulseOut) y.outs n) (u.outPol_time _)
    simp only [mode, pend, rej, out, Wk.outPol_time]
    split
    next h0 =>
      have off := (s.trans p).outMode_off n
      rw [State.trans_out, State.trans_time] at off
      rw [h0]
      exact off
    next h0 =>
      split
      next hok =>
        have on := (s.trans p).outMode_on n h0 (by rw [State.trans_out, State.trans_rd]; exact hok)
        rw [State.trans_out, State.trans_time, State.trans_rd] at on
        exact on
      next hbad =>
        rw [Wk.outMode_rej (by rw [State.trans_out, State.trans_rd]; exact fun h => h.elim h0 hbad)]
        obtain ⟨hset, htime, hrd⟩ := (s.trans p).outRej_sees (n := n)
        exact ⟨(hrd _ (by omega)).trans (State.trans_rd _), hset, htime.trans State.trans_time⟩
  · have written := (s.trans p).outTgtHi_sees n v.isLt
    rw [State.trans_out, State.trans_time, State.trans_rd] at written
    exact written
  · have written := (s.trans p).outPerHi_sees n (Nat.mod_lt v.toNat (show 0 < 65536 by decide))
    simp only [Dev.newPer, Nat.mod_mod, State.trans_out, State.trans_time, State.trans_rd] at written
    exact written
  · have written := (s.trans p).outWidth_sees n v.isLt
    simp only [State.trans_out, State.trans_time, State.trans_rd] at written
    exact written

end Sys2Proof.Machine

/-! Wake sources, and device time reseeded on leaving HOLD and SLEEP (R47, R414, R517 to R521). -/
namespace Sys2Proof.Machine

/-! ## Wake sources -/

section
variable {s : State} {b : Nat}

/-- The device with a wake source recorded. -/
theorem Dev.setBit_eq (d : Dev) (f : Fld) (i : Nat) : d.setBit f i = d.wr f (d.rd f ||| 2 ^ i) := by
  unfold Dev.setBit
  rw [Nat.one_shiftLeft]

theorem notified_ne_wakeStat {k : Fld} (hk : k ∈ [F.STK_STAT_ROLE, F.TWN_STAT_STATE]) : k.key ≠ F.CLK_WAKE_STAT_WAKE.key := Fld.notified_ne hk (.inl (by decide))

/-- A row that records a wake source. -/
theorem State.run_setBit {f : Wk → Wk} (h : f s.wk = s.wk.up (·.setBit F.CLK_WAKE_STAT_WAKE b)) :
    s.run f = .next (s.withDev (s.dev.wr F.CLK_WAKE_STAT_WAKE (s.dev.rd F.CLK_WAKE_STAT_WAKE ||| 2 ^ b))) := by
  rw [s.run_upTo h fun k hk => Dev.setBit_rd_ne _ _ (notified_ne_wakeStat hk), Dev.setBit_eq]

theorem wakeEvent_pin (h : b < 3) : exec (.wakeEvent b) s = .next (s.withDev (s.dev.wr F.CLK_WAKE_STAT_WAKE (s.dev.rd F.CLK_WAKE_STAT_WAKE ||| 2 ^ b))) := by
  refine (exec_wakeEvent b s).trans (State.run_setBit ?_)
  dsimp only
  rw [if_neg (by omega), if_neg (by omega), decide_eq_true h, Wk.on_true]

theorem wakeEvent_seal (h : s.dev.aon.broken = true) : exec (.wakeEvent 4) s = .next (s.withDev (s.dev.wr F.CLK_WAKE_STAT_WAKE (s.dev.rd F.CLK_WAKE_STAT_WAKE ||| 16))) := by
  refine (exec_wakeEvent 4 s).trans (State.run_setBit (b := 4) ?_)
  dsimp only
  rw [if_neg (by decide), if_pos rfl, show s.wk.d.aon.broken = true from h, Wk.on_true]

theorem wakeEvent_other (h : (b = 3 ∧ s.dev.rd F.CLK_ALARM_HI_ALARM_ARM = 0) ∨ (b = 4 ∧ s.dev.aon.broken = false) ∨ 5 ≤ b) : exec (.wakeEvent b) s = .next s := by
  refine (exec_wakeEvent b s).trans (s.run_same ?_)
  dsimp only
  obtain ⟨rfl, h⟩ | ⟨rfl, h⟩ | h := h
  · have unarmed : s.wk.d.rdB F.CLK_ALARM_HI_ALARM_ARM = false := by simp [Dev.rdB, State.wk, h]
    rw [if_pos rfl, unarmed]
    rfl
  · rw [if_neg (by decide), if_pos rfl, show s.wk.d.aon.broken = false from h, Wk.on_false]
  · rw [if_neg (by omega), if_neg (by omega), decide_eq_false (by omega), Wk.on_false]

end

/-! ## Real time that passes -/

section
variable {β : Type} {S : Nat → Prop} {g : Dev → β}

/-- Passing to an instant of real time takes edges, or AON cycles while the TIM clock stands. -/
theorem Wk.advanceRt_cases (w : Wk) (t : Nat) : (t ≤ w.d.time.rt ∧ w.advanceRt t = w) ∨ (∃ n, t ≤ w.d.time.rt + 1953125 * n ∧ w.advanceRt t = w.aonCycles n) ∨
    ∃ n, t ≤ w.d.time.rt + 512 * n ∧ w.advanceRt t = w.edges n := by
  unfold Wk.advanceRt
  dsimp only
  split
  · exact .inl ⟨by omega, rfl⟩
  · split
    · exact .inr (.inl ⟨_, by omega, rfl⟩)
    · exact .inr (.inr ⟨_, by omega, rfl⟩)

theorem Wk.advanceRt_rt (w : Wk) (t : Nat) : t ≤ (w.advanceRt t).d.time.rt := by
  obtain ⟨h, e⟩ | ⟨n, h, e⟩ | ⟨n, h, e⟩ := w.advanceRt_cases t <;> rw [e]
  · exact h
  · exact h
  · rw [Wk.edges_time]
    exact h

theorem Wk.keeps_advanceRt (hg : OffTime g) (h97 : S 97) (h17 : S 17) (w : Wk) (t : Nat) : w.Keeps S g (w.advanceRt t) := by
  obtain ⟨-, e⟩ | ⟨n, -, e⟩ | ⟨n, -, e⟩ := w.advanceRt_cases t <;> rw [e]
  · exact .refl w
  · exact .up (hg.time _ _)
  · exact Wk.keeps_edges hg h97 h17 w n

theorem Wk.adds_advanceRt (w : Wk) (t : Nat) : w.Adds (fun m => m.passing = true) (w.advanceRt t) := by
  obtain ⟨-, e⟩ | ⟨n, -, e⟩ | ⟨n, -, e⟩ := w.advanceRt_cases t <;> rw [e]
  · exact .refl w
  · exact .up
  · exact w.adds_edges n

end

/-- Real time has come to the alarm, and the alarm is recorded (R517). -/
def Wk.alarmed (w : Wk) (t : Nat) : Wk := (w.advanceRt t).up (·.setBit F.CLK_WAKE_STAT_WAKE 3)

section
variable (w : Wk) (t : Nat)

theorem Wk.alarmed_wake : (w.alarmed t).d.rd F.CLK_WAKE_STAT_WAKE = w.d.rd F.CLK_WAKE_STAT_WAKE ||| 8 := by
  have kept : (w.advanceRt t).d.rd F.CLK_WAKE_STAT_WAKE = w.d.rd F.CLK_WAKE_STAT_WAKE := (Wk.keeps_advanceRt (S := anySource) (OffTime.rd (by decide)) trivial trivial w t).dev
  have hlt : w.d.rd F.CLK_WAKE_STAT_WAKE < 2 ^ 5 := w.d.rd_lt F.CLK_WAKE_STAT_WAKE
  refine (Dev.wr_rd _ _ _).trans ?_
  rw [kept]
  exact Nat.mod_eq_of_lt (Nat.or_lt_two_pow hlt (by decide))

theorem Wk.alarmed_rt : t ≤ (w.alarmed t).d.time.rt := w.advanceRt_rt t

theorem Wk.adds_alarmed : w.Adds (fun m => m.passing = true) (w.alarmed t) := (w.adds_advanceRt t).trans .up

theorem Wk.alarmed_run : (w.alarmed t).d.run = w.d.run :=
  (Wk.keeps_advanceRt (S := anySource) (g := Dev.run) ⟨⟨fun _ _ => rfl, fun _ _ => rfl⟩, fun _ _ => rfl, fun _ _ => rfl, fun _ _ => rfl⟩ trivial trivial w t).dev

theorem Wk.alarmed_rd {f : Fld} (hne : f.key ≠ F.CLK_WAKE_STAT_WAKE.key) (hf : f.still = true) : (w.alarmed t).d.rd f = w.d.rd f :=
  (Dev.setBit_rd_ne _ _ hne).trans (Wk.keeps_advanceRt (S := anySource) (OffTime.rd hf) trivial trivial w t).dev

end

/-- The real time at which the alarm comes (R517). -/
def State.alarmAt (s : State) : Nat := s.dev.time.rt + (sext 48 (s.dev.aon.alarm + 2 ^ 48 - s.dev.aonTime)).toNat * 1953125

theorem wakeEvent_alarm {s : State} (h : s.dev.rd F.CLK_ALARM_HI_ALARM_ARM = 1) : exec (.wakeEvent 3) s = .next (s.settleWk s.vault (s.wk.alarmed s.alarmAt)) := by
  refine (exec_wakeEvent 3 s).trans ((s.run_next _).trans (congrArg _ (congrArg _ ?_)))
  have armed : s.wk.d.rdB F.CLK_ALARM_HI_ALARM_ARM = true := by simp [Dev.rdB, State.wk, h]
  dsimp only
  rw [if_pos rfl, armed]
  rfl

theorem wakeEvent_alarm_sees {s : State} (h : s.dev.rd F.CLK_ALARM_HI_ALARM_ARM = 1) :
    Leaves (.wakeEvent 3) s fun d ms => d.rd F.CLK_WAKE_STAT_WAKE = s.dev.rd F.CLK_WAKE_STAT_WAKE ||| 8 ∧ s.alarmAt ≤ d.time.rt ∧ (∀ m ∈ ms, m.passing = true) ∧ d.run = s.dev.run ∧
      ∀ f : Fld, f.key ≠ F.CLK_WAKE_STAT_WAKE.key → f.still = true → d.rd f = s.dev.rd f :=
  ⟨_, wakeEvent_alarm h, s.wk.alarmed_wake _, s.wk.alarmed_rt _, (s.wk.adds_alarmed _).all, s.wk.alarmed_run _, fun _ hne hf => s.wk.alarmed_rd _ hne hf⟩

/-! ## Reseeding (R47) -/

/-- What is seen by `g` is nothing of the time, the marks of the logs, the epoch with its mark, or COARSE. -/
structure OffReseed {β : Type} (g : Dev → β) : Prop where
  marks : ∀ (d : Dev) (t : TimeSt) (x : FltSt) (a : AonSt), g { d with time := t, flt := x, aon := a } = g d
  epoch : ∀ (d : Dev) (v : Nat), g (d.wr F.TIM_EPOCH v) = g d
  wrap : ∀ (d : Dev) (v : Nat), g (d.wr F.TIM_STAT_WRAP v) = g d
  coarse : ∀ (d : Dev) (v : Nat), g (d.wr F.TIM_STAT_COARSE v) = g d

theorem OffReseed.rd {f : Fld} (h1 : f.key ≠ F.TIM_EPOCH.key) (h2 : f.key ≠ F.TIM_STAT_WRAP.key) (h3 : f.key ≠ F.TIM_STAT_COARSE.key) : OffReseed (Dev.rd · f) :=
  ⟨fun _ _ _ _ => rfl, fun d v => d.wr_rd_ne v h1, fun d v => d.wr_rd_ne v h2, fun d v => d.wr_rd_ne v h3⟩

/-- TIM_NOW goes on from the recorded pair, and the logs are marked (R47, R395). -/
def Dev.seeded (d : Dev) (tot : Nat) : Dev :=
  { d with time := { d.time.jump (BitVec.ofNat 64 tot) with holdPair := none }, flt := { d.flt with ramMarkDue := true }, aon := { d.aon with markDue := true } }

/-- That with COARSE, and a wrap for each 2^64 passed. -/
def Wk.seeded (w : Wk) (tot : Nat) : Wk := ((w.up (·.seeded tot)).up (·.wr F.TIM_STAT_COARSE 1)).each (List.range (tot / 2 ^ 64)) fun _ u => u.wrap false

/-- The recorded value plus 2,000,000,000 tu for each AON cycle since. -/
def Dev.seed (d : Dev) (t : BitVec 64) (a : Nat) : Nat := t.toNat + (d.aonTime + 2 ^ 48 - a) % 2 ^ 48 * 2000000000

section
variable {β : Type} {g : Dev → β} (w : Wk) (tot : Nat)

/-- Wraps change the epoch with its mark alone. -/
theorem Wk.seeded_wraps (he : ∀ d v, g (d.wr F.TIM_EPOCH v) = g d) (hw : ∀ d v, g (d.wr F.TIM_STAT_WRAP v) = g d) : g (w.seeded tot).d = g ((w.d.seeded tot).wr F.TIM_STAT_COARSE 1) :=
  (Wk.Keeps.each (S := anySource) fun _ _ u => Wk.keeps_wrap he hw trivial u false).dev

theorem Wk.seeded_keeps (hg : OffReseed g) : g (w.seeded tot).d = g w.d :=
  (w.seeded_wraps tot hg.epoch hg.wrap).trans ((hg.coarse _ _).trans (hg.marks w.d _ _ _))

theorem Wk.adds_seeded : w.Adds (fun m => m.passing = true) (w.seeded tot) :=
  .trans (b := (w.up (·.seeded tot)).up (·.wr F.TIM_STAT_COARSE 1)) .up (.each fun _ _ _ => .trans .up (.raise fun _ => Msg.passing_wrap))

/-- Of the time and the AON domain, seeding leaves real time, and all but the mark and the recorded pair. -/
theorem Wk.seeded_time : (w.seeded tot).d.time.holdPair = none ∧ (w.seeded tot).d.time.rt = w.d.time.rt ∧ (w.seeded tot).d.time.aonBase = w.d.time.aonBase ∧
    (w.seeded tot).d.aon.asleep = w.d.aon.asleep ∧ (w.seeded tot).d.aon.woke = w.d.aon.woke := by
  have wraps := w.seeded_wraps tot (g := fun d => (d.time, d.aon)) (fun _ _ => rfl) (fun _ _ => rfl)
  obtain ⟨htime, haon⟩ := Prod.mk.inj wraps
  rw [htime, haon]
  exact ⟨rfl, rfl, rfl, rfl, rfl⟩

theorem Wk.seeded_now : (w.seeded tot).d.time.now = BitVec.ofNat 64 tot ∧ (w.seeded tot).d.rd F.TIM_STAT_COARSE = 1 ∧ (w.seeded tot).d.flt.ramMarkDue = true ∧ (w.seeded tot).d.aon.markDue = true := by
  have wraps := w.seeded_wraps tot (g := fun d => (d.time, d.flt, d.aon)) (fun _ _ => rfl) (fun _ _ => rfl)
  simp only [Prod.mk.injEq] at wraps
  obtain ⟨htime, hflt, haon⟩ := wraps
  rw [htime, hflt, haon, w.seeded_wraps tot (g := (Dev.rd · F.TIM_STAT_COARSE)) (fun d v => d.wr_rd_ne v (by decide)) (fun d v => d.wr_rd_ne v (by decide))]
  exact ⟨rfl, Dev.wr_rd _ _ _, rfl, rfl⟩

end

section
variable {w : Wk}

theorem Wk.reseed_none (h : w.d.time.holdPair = none) : w.reseed = w.up (·.wr F.TIM_STAT_COARSE 1) := by
  unfold Wk.reseed
  rw [h]

theorem Wk.reseed_unseeded {x : BitVec 64 × Nat} (h : w.d.time.holdPair = some x) (hs : w.d.rd F.TIM_CTRL_HOLD_SEED = 0) :
    w.reseed = w.up fun d => { d with time := { d.time with holdPair := none } } := by
  unfold Wk.reseed
  rw [h]
  exact if_pos (by simp [Dev.rdB, hs])

theorem Wk.reseed_unseeded_now {x : BitVec 64 × Nat} (h : w.d.time.holdPair = some x) (hs : w.d.rd F.TIM_CTRL_HOLD_SEED = 0) : w.reseed.d.time.now = w.d.time.now := by
  rw [Wk.reseed_unseeded h hs]
  rfl

theorem Wk.reseed_seeded {t : BitVec 64} {a : Nat} (h : w.d.time.holdPair = some (t, a)) (hs : w.d.rd F.TIM_CTRL_HOLD_SEED ≠ 0) : w.reseed = w.seeded (w.d.seed t a) := by
  have on : ¬ (!w.d.rdB F.TIM_CTRL_HOLD_SEED) = true := by simp [Dev.rdB, hs]
  unfold Wk.reseed Dev.seed
  rw [h]
  refine (if_neg on).trans ?_
  extract_lets n tot u v
  change _ = w.seeded tot
  clear_value tot
  rfl

/-- The three cases of reseeding: no recorded pair, one that is not used, and one that TIM_NOW goes on from. -/
theorem Wk.reseed_cases (w : Wk) : (w.d.time.holdPair = none ∧ w.reseed = w.up (·.wr F.TIM_STAT_COARSE 1)) ∨ w.reseed = (w.up fun d => { d with time := { d.time with holdPair := none } }) ∨
    ∃ tot, w.reseed = w.seeded tot := by
  cases h : w.d.time.holdPair with
  | none => exact .inl ⟨rfl, Wk.reseed_none h⟩
  | some x =>
    by_cases hs : w.d.rd F.TIM_CTRL_HOLD_SEED = 0
    · exact .inr (.inl (Wk.reseed_unseeded h hs))
    · exact .inr (.inr ⟨_, Wk.reseed_seeded h hs⟩)

theorem Wk.reseed_keeps {β : Type} {g : Dev → β} (hg : OffReseed g) (w : Wk) : g w.reseed.d = g w.d := by
  obtain ⟨-, e⟩ | e | ⟨tot, e⟩ := w.reseed_cases <;> rw [e]
  · exact hg.coarse _ _
  · exact hg.marks w.d { w.d.time with holdPair := none } w.d.flt w.d.aon
  · exact w.seeded_keeps tot hg

theorem Wk.adds_reseed (w : Wk) : w.Adds (fun m => m.passing = true) w.reseed := by
  obtain ⟨-, e⟩ | e | ⟨tot, e⟩ := w.reseed_cases <;> rw [e]
  · exact .up
  · exact .up
  · exact w.adds_seeded tot

/-- Reseeding leaves real time, no recorded pair, and of the AON domain all but the mark. -/
theorem Wk.reseed_time (w : Wk) : w.reseed.d.time.holdPair = none ∧ w.reseed.d.time.rt = w.d.time.rt ∧ w.reseed.d.time.aonBase = w.d.time.aonBase ∧
    w.reseed.d.aon.asleep = w.d.aon.asleep ∧ w.reseed.d.aon.woke = w.d.aon.woke := by
  obtain ⟨h, e⟩ | e | ⟨tot, e⟩ := w.reseed_cases <;> rw [e]
  · exact ⟨h, rfl, rfl, rfl, rfl⟩
  · exact ⟨rfl, rfl, rfl, rfl, rfl⟩
  · exact w.seeded_time tot

/-- With HOLD_SEED and a recorded pair TIM_NOW goes on from it. -/
theorem Wk.reseed_now {t : BitVec 64} {a : Nat} (h : w.d.time.holdPair = some (t, a)) (hs : w.d.rd F.TIM_CTRL_HOLD_SEED ≠ 0) :
    w.reseed.d.time.now = BitVec.ofNat 64 (w.d.seed t a) ∧ w.reseed.d.rd F.TIM_STAT_COARSE = 1 ∧ w.reseed.d.flt.ramMarkDue = true ∧ w.reseed.d.aon.markDue = true := by
  rw [Wk.reseed_seeded h hs]
  exact w.seeded_now _

end

/-! ## The end of HOLD -/

/-- The clocks run again, the DEN levels follow, the lapse timers go on (R518). -/
def Dev.relit (d : Dev) : Dev := (((d.wr F.CLK_STAT_PSTATE 1).wr F.CLK_STAT_LOCK 1).wr F.CLK_STAT_ON 0x4F).syncDen.kaThaw

/-- Start-up goes on at step 6 (R518, R526). -/
def Dev.restarted (d : Dev) : Dev := (d.beadsUnheard.wr F.CLK_START_STEP 6).setRun .boot

section
variable {β : Type} {g : Dev → β} (d : Dev)

theorem Dev.kaThaw_keeps (h : ∀ (d : Dev) (x : Option Nat) (a b : Port), g { d with frozen := x, hpa := a, hpb := b } = g d) : g d.kaThaw = g d := by
  unfold Dev.kaThaw
  split
  · exact h _ _ _ _
  · rfl

theorem Dev.kaThaw_frozen : d.kaThaw.frozen = none := by
  unfold Dev.kaThaw
  split
  · rfl
  next h => exact h

/-- A lapse timer goes on from where it stood, or from a later kick (R414). -/
theorem Dev.kaThaw_kaLast {r : Nat} (h : d.frozen = some r) (p : Nat) : (d.kaThaw.port p).kaLast = (d.port p).kaLast + (d.time.rt - max r (d.port p).kaLast) := by
  unfold Dev.kaThaw
  rw [h]
  unfold Dev.port
  dsimp only
  split <;> rfl

theorem Dev.beadsUnheard_keeps (h : ∀ (d : Dev) b x, g (d.setBead b x) = g d) : g d.beadsUnheard = g d :=
  foldl_keeps (fun _ _ _ => ite_keeps (fun _ => h _ _ _) fun _ => rfl) d

theorem Dev.beadsUnheard_state0 {b : Nat} (hb : b < 96) : (d.beadsUnheard.bead b).state0 = none := by
  have step (u : Dev) (c : Nat) : ((if (u.bead c).state0.isSome then u.setBead c { u.bead c with state0 := none } else u).bead c).state0 = none := by
    split
    · rw [Dev.setBead_bead]
    next h => simpa using h
  refine foldl_reaches (P := fun _ => True) (Q := fun u : Dev => (u.bead b).state0 = none) (List.mem_range.2 hb) (fun _ _ _ => trivial) (fun u c hu => ?_) (fun u _ => step u b) trivial
  obtain rfl | hne := eq_or_ne b c
  · exact step u b
  · dsimp only
    split
    · rw [Dev.setBead_bead_ne _ _ _ _ hne]
      exact hu
    · exact hu

/-- What a change of one port leaves of the ports. -/
theorem Dev.upPort_kept {γ : Type} {h : Port → γ} {f : Port → Port} (hf : ∀ q, h (f q) = h q) (q p : Nat) : h ((d.upPort q f).port p) = h (d.port p) := by
  unfold Dev.upPort Dev.port
  by_cases hq : q = 0 <;> by_cases hp : p = 0 <;> simp [hq, hp, hf]

theorem Dev.notify_kaLast (t : Nat) (ws : List Nat) (p : Nat) : ((d.notify t ws).port p).kaLast = (d.port p).kaLast := by
  have one (e : Dev) (q m : Nat) (x : Note) : ((e.noteTo q m t x).port p).kaLast = (e.port p).kaLast :=
    ite_keeps (g := fun e => (e.port p).kaLast) (fun _ => Dev.upPort_kept (h := Port.kaLast) e (fun _ => by rfl) q p) fun _ => rfl
  unfold Dev.notify
  simp only [one]

theorem Dev.setRun_kaLast (r : RunState) (p : Nat) : ((d.setRun r).port p).kaLast = (d.port p).kaLast :=
  ite_keeps (g := fun e => (e.port p).kaLast) (fun _ => rfl) fun _ => ite_keeps (g := fun e => (e.port p).kaLast) (fun _ => rfl) fun _ => Dev.notify_kaLast _ _ _ _

theorem Dev.restarted_keeps (hp : OffPorts g) (hb : ∀ (d : Dev) b x, g (d.setBead b x) = g d) (hr : ∀ (d : Dev) r, g { d with run := r } = g d)
    (hs : ∀ (d : Dev) v, g (d.wr F.CLK_STAT_PSTATE v) = g d) (hst : ∀ (d : Dev) v, g (d.wr F.CLK_START_STEP v) = g d) : g d.restarted = g d :=
  (Dev.setRun_keeps hp hr hs _ _).trans ((hst _ _).trans (d.beadsUnheard_keeps hb))

theorem Dev.restarted_rd {f : Fld} (h1 : f.key ≠ F.CLK_STAT_PSTATE.key) (h2 : f.key ≠ F.CLK_START_STEP.key) : d.restarted.rd f = d.rd f :=
  d.restarted_keeps (g := (Dev.rd · f)) (OffPorts.rd f) (fun _ _ _ => rfl) (fun _ _ => rfl) (fun e v => e.wr_rd_ne v h1) fun e v => e.wr_rd_ne v h2

theorem Dev.restarted_step : d.restarted.rd F.CLK_START_STEP = 6 := by
  unfold Dev.restarted
  rw [Dev.setRun_keeps (g := (Dev.rd · F.CLK_START_STEP)) (OffPorts.rd _) (fun _ _ => rfl) fun e v => e.wr_rd_ne v (by decide)]
  exact Dev.wr_rd _ _ _

theorem Dev.wr_portOf (f : Fld) (v p : Nat) : (d.wr f v).port p = d.port p := rfl

theorem Dev.restarted_kaLast (p : Nat) : (d.restarted.port p).kaLast = (d.port p).kaLast := by
  unfold Dev.restarted
  rw [Dev.setRun_kaLast, Dev.wr_portOf]
  exact d.beadsUnheard_keeps (g := fun e => (e.port p).kaLast) fun _ _ _ => rfl

theorem Dev.bead_of_beads {d e : Dev} (h : d.beads = e.beads) (b : Nat) : d.bead b = e.bead b := by
  unfold Dev.bead
  rw [h]

theorem Dev.restarted_beads : d.restarted.beads = d.beadsUnheard.beads := by
  unfold Dev.restarted
  rw [Dev.setRun_keeps (g := Dev.beads) OffPorts.beads (fun _ _ => rfl) fun _ _ => rfl, Dev.wr_beads]

theorem Dev.restarted_state0 {b : Nat} (hb : b < 96) : (d.restarted.bead b).state0 = none := by
  rw [Dev.bead_of_beads d.restarted_beads]
  exact d.beadsUnheard_state0 hb

/-- BOOT is of PSTATE 1, whether the run state changes or not (R508). -/
theorem Dev.restarted_pstate (h : d.rd F.CLK_STAT_PSTATE = 1) : d.restarted.rd F.CLK_STAT_PSTATE = 1 := by
  have before : (d.beadsUnheard.wr F.CLK_START_STEP 6).rd F.CLK_STAT_PSTATE = 1 :=
    (Dev.wr_rd_ne _ _ (by decide)).trans ((d.beadsUnheard_keeps (g := (Dev.rd · F.CLK_STAT_PSTATE)) fun _ _ _ => rfl).trans h)
  unfold Dev.restarted Dev.setRun
  split
  · exact before
  · exact (Dev.noteRun_keeps (OffPorts.rd _) _ _).trans (Dev.wr_rd _ _ _)

theorem Dev.relit_rd {f : Fld} (h1 : f.key ≠ F.CLK_STAT_PSTATE.key) (h2 : f.key ≠ F.CLK_STAT_LOCK.key) (h3 : f.key ≠ F.CLK_STAT_ON.key) (h4 : f.key ≠ F.GSV_DEN_LVL.key) : d.relit.rd f = d.rd f := by
  unfold Dev.relit Dev.syncDen
  rw [Dev.kaThaw_keeps (g := (Dev.rd · f)) _ fun _ _ _ _ => rfl, Dev.wr_rd_ne _ _ h4, Dev.wr_rd_ne _ _ h3, Dev.wr_rd_ne _ _ h2, Dev.wr_rd_ne _ _ h1]

theorem Dev.relit_stat : d.relit.rd F.CLK_STAT_PSTATE = 1 ∧ d.relit.rd F.CLK_STAT_LOCK = 1 := by
  unfold Dev.relit Dev.syncDen
  rw [Dev.kaThaw_keeps (g := (Dev.rd · F.CLK_STAT_PSTATE)) _ fun _ _ _ _ => rfl, Dev.kaThaw_keeps (g := (Dev.rd · F.CLK_STAT_LOCK)) _ fun _ _ _ _ => rfl]
  constructor
  · rw [Dev.wr_rd_ne _ _ (by decide), Dev.wr_rd_ne _ _ (by decide), Dev.wr_rd_ne _ _ (by decide), Dev.wr_rd]
    rfl
  · rw [Dev.wr_rd_ne _ _ (by decide), Dev.wr_rd_ne _ _ (by decide), Dev.wr_rd]
    rfl

theorem Dev.relit_kaLast {r : Nat} (h : d.frozen = some r) (p : Nat) : (d.relit.port p).kaLast = (d.port p).kaLast + (d.time.rt - max r (d.port p).kaLast) :=
  Dev.kaThaw_kaLast (((d.wr F.CLK_STAT_PSTATE 1).wr F.CLK_STAT_LOCK 1).wr F.CLK_STAT_ON 0x4F).syncDen h p

theorem Dev.relit_time : d.relit.time = d.time := by
  unfold Dev.relit
  rw [Dev.kaThaw_keeps (g := Dev.time) _ fun _ _ _ _ => rfl]
  rfl

end

/-- HOLD has ended, and device time is reseeded; start-up is yet to go on. -/
def State.lit (s : State) : Wk := (s.wk.up Dev.relit).reseed

section
variable {s : State}

theorem Dev.wakes_iff (d : Dev) : d.wakes = true ↔ d.rd F.CLK_WAKE_STAT_WAKE &&& d.rd F.CLK_WAKE_EN ≠ 0 := by
  unfold Dev.wakes
  rw [decide_eq_true_eq]

theorem holdWake_other (h : s.dev.rd F.CLK_STAT_PSTATE ≠ 2 ∨ s.dev.aon.asleep = true ∨ s.dev.rd F.CLK_WAKE_STAT_WAKE &&& s.dev.rd F.CLK_WAKE_EN = 0) : exec .holdWake s = .next s := by
  refine (exec_holdWake s).trans (s.run_same (if_pos (h.imp_right (Or.imp_right fun h => ?_))))
  rw [Bool.not_eq_true', Bool.eq_false_iff]
  exact fun hw => (Dev.wakes_iff _).1 hw h

theorem sleepWake_other (h : s.dev.aon.asleep = false ∨ s.dev.rd F.CLK_WAKE_STAT_WAKE &&& s.dev.rd F.CLK_WAKE_EN = 0) : exec .sleepWake s = .next s := by
  refine (exec_sleepWake s).trans (s.run_same (if_pos (h.imp (fun h => ?_) fun h => ?_)))
  · rw [show s.wk.d.aon.asleep = false from h]
    rfl
  · rw [Bool.not_eq_true', Bool.eq_false_iff]
    exact fun hw => (Dev.wakes_iff _).1 hw h

theorem holdWake_wakes (hp : s.dev.rd F.CLK_STAT_PSTATE = 2) (ha : s.dev.aon.asleep = false) (hw : s.dev.rd F.CLK_WAKE_STAT_WAKE &&& s.dev.rd F.CLK_WAKE_EN ≠ 0) :
    exec .holdWake s = .next (s.settleWk s.vault (s.lit.up Dev.restarted)) := by
  have goes : ¬ (s.wk.d.rd F.CLK_STAT_PSTATE ≠ 2 ∨ s.wk.d.aon.asleep = true ∨ (!s.wk.d.wakes) = true) := by
    rw [show s.wk.d = s.dev from rfl, ha, (Dev.wakes_iff _).2 hw]
    simp [hp]
  exact (exec_holdWake s).trans ((s.run_next _).trans (congrArg _ (congrArg _ (if_neg goes))))

end

/-! ## What the wakes leave -/

theorem Fld.key_ne {f g : Fld} (hf : f.lo < 32) (hg : g.lo < 32) (h : f.addr ≠ g.addr) : f.key ≠ g.key := by
  unfold Fld.key
  omega

section
variable (s : State)

theorem State.lit_rd {f : Fld} (hl : f.lo < 32) (h1 : f.addr ≠ 0x5004) (h2 : f.addr ≠ 0x6004) (h3 : f.addr ≠ 0x6008) (h4 : f.key ≠ F.GSV_DEN_LVL.key) : s.lit.d.rd f = s.dev.rd f := by
  have clk {g : Fld} (hg : g.lo < 32) (ha : g.addr = 0x5004) : f.key ≠ g.key := Fld.key_ne hl hg (ha ▸ h1)
  have epoch : f.key ≠ F.TIM_EPOCH.key := Fld.key_ne hl (by decide) h3
  have stat {g : Fld} (hg : g.lo < 32) (ha : g.addr = 0x6004) : f.key ≠ g.key := Fld.key_ne hl hg (ha ▸ h2)
  refine (Wk.reseed_keeps (OffReseed.rd epoch (stat (by decide) rfl) (stat (by decide) rfl)) _).trans ?_
  exact s.dev.relit_rd (clk (by decide) rfl) (clk (by decide) rfl) (clk (by decide) rfl) h4

theorem State.lit_stat : s.lit.d.rd F.CLK_STAT_PSTATE = 1 ∧ s.lit.d.rd F.CLK_STAT_LOCK = 1 := by
  have kept {f : Fld} (h : OffReseed (Dev.rd · f)) : s.lit.d.rd f = s.dev.relit.rd f := Wk.reseed_keeps h _
  rw [kept (OffReseed.rd (by decide) (by decide) (by decide)), kept (OffReseed.rd (by decide) (by decide) (by decide))]
  exact s.dev.relit_stat

theorem State.lit_frozen : s.lit.d.frozen = none :=
  (Wk.reseed_keeps (g := Dev.frozen) ⟨fun _ _ _ _ => rfl, fun _ _ => rfl, fun _ _ => rfl, fun _ _ => rfl⟩ _).trans (Dev.kaThaw_frozen _)

theorem State.adds_lit : s.wk.Adds (fun m => m.passing = true) s.lit := .trans (b := s.wk.up Dev.relit) .up (Wk.adds_reseed _)

theorem Dev.relit_seed (d : Dev) (t : BitVec 64) (a : Nat) : d.relit.seed t a = d.seed t a := by
  unfold Dev.seed Dev.aonTime
  rw [Dev.relit_time]

theorem Dev.relit_holdSeed (d : Dev) : d.relit.rd F.TIM_CTRL_HOLD_SEED = d.rd F.TIM_CTRL_HOLD_SEED := d.relit_rd (by decide) (by decide) (by decide) (by decide)

theorem State.lit_now {t : BitVec 64} {a : Nat} (h : s.dev.time.holdPair = some (t, a)) (hs : s.dev.rd F.TIM_CTRL_HOLD_SEED = 1) :
    s.lit.d.time.now = BitVec.ofNat 64 (s.dev.seed t a) ∧ s.lit.d.rd F.TIM_STAT_COARSE = 1 ∧ s.lit.d.flt.ramMarkDue = true ∧ s.lit.d.aon.markDue = true := by
  rw [← Dev.relit_seed]
  refine Wk.reseed_now (w := s.wk.up Dev.relit) ?_ ?_
  · exact (congrArg TimeSt.holdPair s.dev.relit_time).trans h
  · exact Nat.ne_of_gt ((s.dev.relit_holdSeed.trans hs).symm ▸ Nat.one_pos)

theorem State.lit_unseeded (hs : s.dev.rd F.TIM_CTRL_HOLD_SEED = 0) (h : s.dev.time.holdPair.isSome = true) : s.lit.d.time.now = s.dev.time.now := by
  obtain ⟨x, hx⟩ := Option.isSome_iff_exists.1 h
  have kept := Wk.reseed_unseeded_now (w := s.wk.up Dev.relit) ((congrArg TimeSt.holdPair s.dev.relit_time).trans hx) (s.dev.relit_holdSeed.trans hs)
  exact kept.trans (congrArg TimeSt.now s.dev.relit_time)

theorem State.lit_kaLast {r : Nat} (h : s.dev.frozen = some r) (p : Nat) : (s.lit.d.port p).kaLast = (s.dev.port p).kaLast + (s.dev.time.rt - max r (s.dev.port p).kaLast) :=
  (Wk.reseed_keeps (g := fun d => (d.port p).kaLast) ⟨fun _ _ _ _ => rfl, fun _ _ => rfl, fun _ _ => rfl, fun _ _ => rfl⟩ _).trans (s.dev.relit_kaLast h p)

end

section
variable (d : Dev)

theorem Dev.restarted_frozen : d.restarted.frozen = d.frozen := d.restarted_keeps OffPorts.frozen (fun _ _ _ => rfl) (fun _ _ => rfl) (fun _ _ => rfl) fun _ _ => rfl
theorem Dev.restarted_time : d.restarted.time = d.time := d.restarted_keeps OffPorts.time (fun _ _ _ => rfl) (fun _ _ => rfl) (fun _ _ => rfl) fun _ _ => rfl
theorem Dev.restarted_flt : d.restarted.flt = d.flt := d.restarted_keeps OffPorts.flt (fun _ _ _ => rfl) (fun _ _ => rfl) (fun _ _ => rfl) fun _ _ => rfl
theorem Dev.restarted_aon : d.restarted.aon = d.aon := d.restarted_keeps OffPorts.aon (fun _ _ _ => rfl) (fun _ _ => rfl) (fun _ _ => rfl) fun _ _ => rfl

end

theorem Leaves.up {c : Instr} {s : State} {w : Wk} {f : Dev → Dev} {P : Dev → List Msg → Prop} (he : exec c s = .next (s.settleWk s.vault (w.up f))) (h : P (f w.d) w.ms) :
    Leaves c s P := ⟨_, he, h⟩

/-! ## The end of SLEEP -/

/-- CORE_EN is high again. -/
def Dev.awoken (d : Dev) : Dev := { d with aon := { d.aon with asleep := false, woke := true } }

/-- Core power is off for 10 ms, 328 AON cycles, at the least (R521). -/
def Dev.offCycles (d : Dev) : Nat := 328 - match d.time.holdPair with | some (_, a) => (d.aonTime + 2 ^ 48 - a) % 2 ^ 48 | none => 328

section
variable (s : State)

/-- Core power is on again, and device time is to be reseeded. -/
def State.powered (s : State) : Wk := (s.wk.aonCycles s.dev.offCycles).up Dev.awoken

theorem sleepWake_wakes {s : State} (ha : s.dev.aon.asleep = true) (hw : s.dev.rd F.CLK_WAKE_STAT_WAKE &&& s.dev.rd F.CLK_WAKE_EN ≠ 0) :
    exec .sleepWake s = .next (s.settleWk s.vault s.powered.reseed) := by
  have goes : ¬ ((!s.wk.d.aon.asleep) = true ∨ (!s.wk.d.wakes) = true) := by
    rw [show s.wk.d = s.dev from rfl, ha, (Dev.wakes_iff _).2 hw]
    simp
  exact (exec_sleepWake s).trans ((s.run_next _).trans (congrArg _ (congrArg _ (if_neg goes))))


theorem State.powered_time : s.powered.d.time.holdPair = s.dev.time.holdPair ∧ s.dev.time.rt ≤ s.powered.d.time.rt ∧ s.powered.d.aon.asleep = false ∧ s.powered.d.aon.woke = true :=
  ⟨rfl, Nat.le_add_right _ _, rfl, rfl⟩

theorem Wk.reseed_aonTime (w : Wk) : w.reseed.d.aonTime = w.d.aonTime := by
  obtain ⟨-, hrt, hbase, -⟩ := w.reseed_time
  unfold Dev.aonTime
  rw [hrt, hbase]

theorem Dev.seed_eq {d e : Dev} (h : d.aonTime = e.aonTime) (t : BitVec 64) (a : Nat) : d.seed t a = e.seed t a := by
  unfold Dev.seed
  rw [h]

theorem State.powered_now {t : BitVec 64} {a : Nat} (h : s.dev.time.holdPair = some (t, a)) (hs : s.dev.rd F.TIM_CTRL_HOLD_SEED = 1) :
    s.powered.reseed.d.time.now = BitVec.ofNat 64 (s.powered.reseed.d.seed t a) ∧ s.powered.reseed.d.rd F.TIM_STAT_COARSE = 1 := by
  obtain ⟨hnow, hcoarse, -⟩ := Wk.reseed_now (w := s.powered) (s.powered_time.1.trans h) (Nat.ne_of_gt (hs ▸ Nat.one_pos : 0 < s.dev.rd F.TIM_CTRL_HOLD_SEED))
  exact ⟨hnow.trans (congrArg _ (Dev.seed_eq (Wk.reseed_aonTime _) t a).symm), hcoarse⟩

theorem State.powered_run : s.powered.reseed.d.run = s.dev.run :=
  Wk.reseed_keeps (g := Dev.run) ⟨fun _ _ _ _ => rfl, fun _ _ => rfl, fun _ _ => rfl, fun _ _ => rfl⟩ _

theorem State.powered_rd {f : Fld} (hl : f.lo < 32) (h1 : f.addr ≠ 0x6004) (h2 : f.addr ≠ 0x6008) : s.powered.reseed.d.rd f = s.dev.rd f :=
  Wk.reseed_keeps (OffReseed.rd (Fld.key_ne hl (by decide) h2) (Fld.key_ne hl (by decide) h1) (Fld.key_ne hl (by decide) h1)) _

theorem State.adds_powered : s.wk.Adds (fun m => m.passing = true) s.powered.reseed := .trans (b := s.powered) .up (Wk.adds_reseed _)

end

/-! ## The obligation -/

section
variable {s : State}

theorem holdWake_sees (hp : s.dev.rd F.CLK_STAT_PSTATE = 2) (ha : s.dev.aon.asleep = false) (hw : s.dev.rd F.CLK_WAKE_STAT_WAKE &&& s.dev.rd F.CLK_WAKE_EN ≠ 0) :
    Leaves .holdWake s fun d ms => d.rd F.CLK_STAT_PSTATE = 1 ∧ d.rd F.CLK_STAT_LOCK = 1 ∧ d.rd F.CLK_START_STEP = 6 ∧ d.run = .boot ∧ d.frozen = none ∧
      d.time.holdPair = none ∧ (∀ m ∈ ms, m.passing = true) ∧
      (∀ (t : BitVec 64) (a : Nat), s.dev.time.holdPair = some (t, a) → s.dev.rd F.TIM_CTRL_HOLD_SEED = 1 →
        d.time.now = BitVec.ofNat 64 (s.dev.seed t a) ∧ d.rd F.TIM_STAT_COARSE = 1 ∧ d.flt.ramMarkDue = true ∧ d.aon.markDue = true) ∧
      (s.dev.rd F.TIM_CTRL_HOLD_SEED = 0 → s.dev.time.holdPair.isSome = true → d.time.now = s.dev.time.now) ∧
      (∀ (r p : Nat), s.dev.frozen = some r → (d.port p).kaLast = (s.dev.port p).kaLast + (s.dev.time.rt - max r (s.dev.port p).kaLast)) ∧
      (∀ b < 96, (d.bead b).state0 = none) ∧
      ∀ f : Fld, f.lo < 32 → f.addr ≠ 0x5004 → f.addr ≠ 0x501C → f.addr ≠ 0x6004 → f.addr ≠ 0x6008 → f.key ≠ F.GSV_DEN_LVL.key → d.rd f = s.dev.rd f := by
  refine Leaves.up (holdWake_wakes hp ha hw) ?_
  rw [Dev.restarted_time, Dev.restarted_frozen, Dev.restarted_flt, Dev.restarted_aon, Dev.restarted_rd _ (f := F.TIM_STAT_COARSE) (by decide) (by decide),
    Dev.restarted_rd _ (f := F.CLK_STAT_LOCK) (by decide) (by decide)]
  refine ⟨Dev.restarted_pstate _ s.lit_stat.1, s.lit_stat.2, Dev.restarted_step _, Dev.setRun_run _ _, s.lit_frozen, (Wk.reseed_time _).1, s.adds_lit.all,
    fun _ _ h hs => s.lit_now h hs, s.lit_unseeded, fun r p h => ?_, fun b hb => Dev.restarted_state0 _ hb, fun f hl h1 h2 h3 h4 h5 => ?_⟩
  · rw [Dev.restarted_kaLast]
    exact s.lit_kaLast h p
  · rw [Dev.restarted_rd _ (Fld.key_ne hl (by decide) h1) (Fld.key_ne hl (by decide) h2)]
    exact s.lit_rd hl h1 h3 h4 h5

theorem sleepWake_sees (ha : s.dev.aon.asleep = true) (hw : s.dev.rd F.CLK_WAKE_STAT_WAKE &&& s.dev.rd F.CLK_WAKE_EN ≠ 0) :
    Leaves .sleepWake s fun d ms => d.aon.asleep = false ∧ d.aon.woke = true ∧ d.time.holdPair = none ∧ (∀ m ∈ ms, m.passing = true) ∧ s.dev.time.rt ≤ d.time.rt ∧
      (∀ (t : BitVec 64) (a : Nat), s.dev.time.holdPair = some (t, a) → s.dev.rd F.TIM_CTRL_HOLD_SEED = 1 → d.time.now = BitVec.ofNat 64 (d.seed t a) ∧ d.rd F.TIM_STAT_COARSE = 1) ∧
      d.run = s.dev.run ∧ ∀ f : Fld, f.lo < 32 → f.addr ≠ 0x6004 → f.addr ≠ 0x6008 → d.rd f = s.dev.rd f := by
  obtain ⟨-, hrt, hasleep, hwoke⟩ := s.powered_time
  obtain ⟨hpair, hrt', -, hasleep', hwoke'⟩ := s.powered.reseed_time
  exact ⟨_, sleepWake_wakes ha hw, hasleep'.trans hasleep, hwoke'.trans hwoke, hpair, s.adds_powered.all, hrt' ▸ hrt, fun _ _ h hs => s.powered_now h hs, s.powered_run,
    fun _ hl h1 h2 => s.powered_rd hl h1 h2⟩

end

/-- Settles O32: the sources one by one, then both wakes as a reseeding between two changes that leave device time. -/
theorem wakingReseedsDeviceTime : Obligations.WakingReseedsDeviceTime := by
  unfold Obligations.WakingReseedsDeviceTime
  exact ⟨fun _ _ => wakeEvent_pin, fun _ _ => wakeEvent_other, fun _ => wakeEvent_seal, fun _ => wakeEvent_alarm_sees, fun _ => ⟨holdWake_other, sleepWake_other⟩,
    fun _ => holdWake_sees, fun _ => sleepWake_sees⟩

end Sys2Proof.Machine

/-! Requests of HOLD and SLEEP, and their entries (R464, R473, R513, R515, R516, R521). -/
namespace Sys2Proof.Machine

/-! ## Requests -/

section
variable (s : State) (p : Nat)

/-- A transaction where a request stands: a wake source beside its work (R521). -/
def State.woken : Wk := (s.trans p).on s.dev.sec.pwrReq.isSome (·.up (·.setBit F.CLK_WAKE_STAT_WAKE 1))

theorem State.woken_d : (s.woken p).d = if s.dev.sec.pwrReq.isSome then (s.dev.putIo (portNo p) []).setBit F.CLK_WAKE_STAT_WAKE 1 else s.dev.putIo (portNo p) [] := by
  unfold State.woken
  cases s.dev.sec.pwrReq.isSome <;> rfl

theorem State.woken_ms : (s.woken p).ms = [] := by
  unfold State.woken
  cases s.dev.sec.pwrReq.isSome <;> rfl

theorem State.woken_rd {f : Fld} (h : f.key ≠ F.CLK_WAKE_STAT_WAKE.key) : (s.woken p).d.rd f = s.dev.rd f := by
  rw [State.woken_d]
  split
  · exact (Dev.setBit_rd_ne _ _ h).trans (Dev.putIo_rd _ _ _ _)
  · exact Dev.putIo_rd _ _ _ _

/-- All but what the port put out, and the registers, stands. -/
theorem State.woken_keeps {β : Type} {g : Dev → β} (hp : OffPorts g) (hr : ∀ d r, g { d with regs := r } = g d) : g (s.woken p).d = g s.dev := by
  rw [State.woken_d]
  split
  · exact (hr _ _).trans (hp.port _ _ _)
  · exact hp.port _ _ _

theorem State.woken_io : { (s.woken p).d with regs := s.dev.regs } = s.dev.putIo (portNo p) [] := by
  have regs : s.dev.regs = (s.dev.putIo (portNo p) []).regs := (OffPorts.regs.port _ _ _).symm
  rw [State.woken_d, regs]
  split <;> rfl

theorem State.host_woken {s : State} {p : Nat} (h : s.dev.hosted = true) (f : Nat → Wk → Wk) : s.host p f = .next (s.settleWk s.vault (f (portNo p) (s.woken p))) := by
  have stands : (s.trans p).d.timStopped = s.dev.timStopped := by
    unfold Dev.timStopped
    rw [State.trans_rd, show (s.trans p).d.aon = s.dev.aon from OffPorts.aon.port _ _ _]
  have runs : s.dev.timStopped = false := by
    unfold Dev.hosted at h
    simpa using (Bool.and_eq_true_iff.1 h).1
  have woken : (s.trans p).on ((s.trans p).d.timStopped || (s.trans p).d.sec.pwrReq.isSome) (·.up (·.setBit F.CLK_WAKE_STAT_WAKE 1)) = s.woken p := by
    rw [stands, runs, Bool.false_or, show (s.trans p).d.sec = s.dev.sec from OffPorts.sec.port _ _ _]
    rfl
  have hosted : (s.woken p).d.hosted = true := by
    unfold Dev.hosted Dev.timStopped Dev.hiZ at h ⊢
    rw [State.woken_rd _ _ (by decide), State.woken_rd _ _ (by decide), State.woken_keeps _ _ OffPorts.aon fun _ _ => rfl]
    exact h
  refine (s.run_next _).trans (congrArg _ (congrArg _ ?_))
  change ((s.trans p).on ((s.trans p).d.timStopped || (s.trans p).d.sec.pwrReq.isSome) (·.up (·.setBit F.CLK_WAKE_STAT_WAKE 1))).on
    ((s.trans p).on ((s.trans p).d.timStopped || (s.trans p).d.sec.pwrReq.isSome) (·.up (·.setBit F.CLK_WAKE_STAT_WAKE 1))).d.hosted (f (portNo p)) = _
  rw [woken, hosted, Wk.on_true]

end

/-- Where a request of HOLD or SLEEP is taken (R513). -/
def Dev.mayRest (d : Dev) : Prop :=
  d.run = .idle ∧ d.rd F.CLK_STAT_PSTATE = 1 ∧ d.stage = none ∧ ¬ (d.rd F.TWN_STAT_STATE = 4 ∧ d.twn.pState = some 3) ∧
    ¬ ((d.rd F.STK_STAT_ROLE = 1 ∨ d.rd F.STK_STAT_ROLE = 4) ∧ 1 < d.rd F.STK_CTRL_NDEV)

theorem Dev.pwrOk_iff {d : Dev} {r : Nat} (hr : r = 1 ∨ r = 2) : d.pwrOk r = true ↔ d.mayRest := by
  unfold Dev.pwrOk Dev.mayRest Dev.stkHead Dev.stkRole Dev.twin
  simp [hr, and_assoc, imp_iff_not_or]

theorem Dev.pwrRequest_taken {d : Dev} {r : Nat} (h : d.pwrOk r = true) :
    d.pwrRequest r = ({ d with sec := { d.sec with pwrReq := some (r, d.frame.k + 1) } }.wr F.CLK_PWR_REQ r).wr F.CLK_WAKE_STAT_WAKE 0 := by
  unfold Dev.pwrRequest
  rw [h, if_neg (by decide)]

section
variable {s : State} {p r : Nat}

theorem State.woken_pwrOk : (s.woken p).d.pwrOk r = s.dev.pwrOk r := by
  unfold Dev.pwrOk Dev.stkHead Dev.stkRole Dev.twin
  rw [State.woken_rd _ _ (by decide), State.woken_rd _ _ (by decide), State.woken_rd _ _ (by decide), State.woken_rd _ _ (by decide),
    State.woken_keeps _ _ OffPorts.run fun _ _ => rfl, State.woken_keeps _ _ OffPorts.stage fun _ _ => rfl, State.woken_keeps _ _ OffPorts.twn fun _ _ => rfl]

/-- A request that is taken stands for the next boundary. -/
theorem State.asks_taken (h : s.dev.hosted = true) (hr : r = 1 ∨ r = 2) (hok : s.dev.mayRest) :
    s.host p (fun p w => w.pwrWrite p r) = .next (s.withDev ((s.woken p).d.pwrRequest r)) := by
  have taken : (s.woken p).d.pwrOk r = true := State.woken_pwrOk.trans ((Dev.pwrOk_iff hr).2 hok)
  have write : (s.woken p).pwrWrite (portNo p) r = (s.woken p).up (·.pwrRequest r) := if_pos taken
  have kept {f : Fld} (hf : f ∈ [F.STK_STAT_ROLE, F.TWN_STAT_STATE]) : ((s.woken p).d.pwrRequest r).rd f = s.dev.rd f := by
    rw [Dev.pwrRequest_taken taken, Dev.wr_rd_ne _ _ (Fld.notified_ne hf (.inl (by decide))), Dev.wr_rd_ne _ _ (Fld.notified_ne hf (.inl (by decide)))]
    exact State.woken_rd _ _ (Fld.notified_ne hf (.inl (by decide)))
  rw [State.host_woken h, write]
  exact congrArg _ (s.settleWk_plain _ _ (s.woken_ms p) (kept (by simp)) (kept (by simp)))

/-- A request that is refused. -/
theorem State.asks_refused (h : s.dev.hosted = true) (hr : r = 1 ∨ r = 2) (hok : ¬ s.dev.mayRest) :
    s.host p (fun p w => w.pwrWrite p r) = .next (s.settleWk s.vault ((s.woken p).raise 77 (portNo p) 5)) := by
  have refused : ¬ (s.woken p).d.pwrOk r = true := by
    rw [State.woken_pwrOk, Dev.pwrOk_iff hr]
    exact hok
  have write : (s.woken p).pwrWrite (portNo p) r = (s.woken p).raise 77 (portNo p) 5 := by
    unfold Wk.pwrWrite
    rw [if_neg refused, decide_eq_true (by omega), Wk.on_true]
  rw [State.host_woken h, write]

/-- What a row that asks for HOLD or SLEEP does. -/
theorem asks_power {c : Instr} (hc : exec c s = s.host p fun p w => w.pwrWrite p r) (h : s.dev.hosted = true) (hr : r = 1 ∨ r = 2) :
    (s.dev.mayRest → Does c s fun t => t.dev.rd F.CLK_PWR_REQ = r ∧ t.dev.rd F.CLK_WAKE_STAT_WAKE = 0 ∧ t.dev.sec = { s.dev.sec with pwrReq := some (r, s.dev.frame.k + 1) } ∧
      (∀ f : Fld, f.key ≠ F.CLK_PWR_REQ.key → f.key ≠ F.CLK_WAKE_STAT_WAKE.key → t.dev.rd f = s.dev.rd f) ∧
      { t.dev with regs := s.dev.regs, sec := s.dev.sec } = s.dev.putIo (portNo p) [] ∧ t.vault = s.vault) ∧
    (¬ s.dev.mayRest → Leaves c s fun d ms =>
      d = (if s.dev.sec.pwrReq.isSome then (s.dev.putIo (portNo p) []).setBit F.CLK_WAKE_STAT_WAKE 1 else s.dev.putIo (portNo p) []) ∧ ms.map Msg.tag = [(77, portNo p, 5)]) := by
  constructor
  · intro hok
    refine ⟨_, hc.trans (State.asks_taken h hr hok), ?_⟩
    rw [Dev.pwrRequest_taken (State.woken_pwrOk.trans ((Dev.pwrOk_iff hr).2 hok))]
    have sec : (s.woken p).d.sec = s.dev.sec := State.woken_keeps _ _ OffPorts.sec fun _ _ => rfl
    have frame : (s.woken p).d.frame = s.dev.frame := State.woken_keeps _ _ OffPorts.frame fun _ _ => rfl
    refine ⟨?_, Dev.wr_rd _ _ _, ?_, fun f h1 h2 => ?_, ?_, rfl⟩
    · refine (Dev.wr_rd_ne _ _ (by decide)).trans ((Dev.wr_rd _ _ _).trans (Nat.mod_eq_of_lt ?_))
      obtain rfl | rfl := hr <;> decide
    · rw [← sec, ← frame]
      rfl
    · exact (Dev.wr_rd_ne _ _ h2).trans ((Dev.wr_rd_ne _ _ h1).trans (s.woken_rd p h2))
    · rw [← s.woken_io p, ← sec]
      rfl
  · intro hok
    refine ⟨_, hc.trans (State.asks_refused h hr hok), s.woken_d p, ?_⟩
    rw [Wk.raise_tags, s.woken_ms p]
    rfl

end

/-! ## The parts of an entry (R515) -/

/-- The frame generator stands: nothing is to stop any more, and no event is planned. -/
def Dev.framesOff (d : Dev) : Dev :=
  let e := d.settle (fun x => decide (x.kind = WaitKind.stop)) fun _ => (Status.ok, 0, [])
  { e.wr F.SYS_FRM_CTRL_RUNNING 0 with edge := { e.edge with plan := [], next := [] } }

/-- The lanes power down. -/
def Dev.lanesOff (d : Dev) : Dev := (List.range 24).foldl (fun d n => d.laneOff n) d

/-- No strand is up. -/
def Dev.strandsOff (d : Dev) : Dev := (List.range 16).foldl (fun d s => d.wr (F.STR_STAT_UP s) 0) d

/-- The clocks stand, the request is done, and the lapse timers stand. -/
def Dev.clocksOff (d : Dev) : Dev :=
  let e := (((d.wr F.CLK_STAT_LOCK 0).wr F.CLK_STAT_ON 3).wr F.CLK_STAT_PSTATE 2).syncDen
  ({ e with sec := { e.sec with pwrReq := none } }.wr F.CLK_PWR_REQ 0).kaFreeze

/-- The fields that `clocksOff` writes. -/
def clockFields : List Fld := [F.CLK_STAT_LOCK, F.CLK_STAT_ON, F.CLK_STAT_PSTATE, F.GSV_DEN_LVL, F.CLK_PWR_REQ]

/-- The lanes' fields that an entry writes. -/
def Fld.laneOff (f : Fld) : Prop := ∃ n < 24, f = F.LANE_DLY n ∨ f = F.LANE_STAT_PHASE n

/-- The strands' fields that an entry writes. -/
def Fld.strandOff (f : Fld) : Prop := ∃ x < 16, f = F.STR_STAT_UP x

theorem Dev.holdEntry_eq (d : Dev) : d.holdEntry = d.recordPair.frmAll.framesOff.lanesOff.strandsOff.clocksOff := rfl

section
variable {β : Type} {g : Dev → β} (d : Dev)

theorem Dev.frmAll_keeps (hf : ∀ d, g { d with frm := [] } = g d) (h : d.frm = [] ∨ ∀ d k v, g (d.wrKey k v) = g d) : g d.frmAll = g d := by
  unfold Dev.frmAll
  obtain h | h := h
  · rw [h]
    exact hf d
  · refine (foldl_keeps (fun e _ u => ?_) _).trans (hf d)
    split
    · exact h _ _ _
    · rfl

theorem Dev.wrKey_keeps (h : ∀ d f v, g (d.wr f v) = g d) (k v : Nat) : g (d.wrKey k v) = g d := by
  unfold Dev.wrKey
  split
  · exact h _ _ _
  · rfl

theorem Dev.framesOff_keeps (hg : OffReplies g) (he : ∀ d x, g { d with edge := x } = g d) (hr : ∀ d v, g (d.wr F.SYS_FRM_CTRL_RUNNING v) = g d) : g d.framesOff = g d :=
  (he _ _).trans ((hr _ _).trans (Dev.settle_keeps hg _ _ _))

theorem Dev.laneOff_keeps (hl : ∀ d a b c l, g { d with tx := a, os := b, lines := c, lanes := l } = g d) {n : Nat} (hd : ∀ d v, g (d.wr (F.LANE_DLY n) v) = g d)
    (hp : ∀ d v, g (d.wr (F.LANE_STAT_PHASE n) v) = g d) : g (d.laneOff n) = g d :=
  (hl _ _ _ _ _).trans ((hp _ _).trans ((hd _ _).trans (hl d _ _ _ _)))

theorem Dev.lanesOff_keeps (hl : ∀ d a b c l, g { d with tx := a, os := b, lines := c, lanes := l } = g d) (h : ∀ d f v, f.laneOff → g (d.wr f v) = g d) : g d.lanesOff = g d :=
  foldl_keeps (fun n hn e => e.laneOff_keeps hl (fun u v => h u _ v ⟨n, List.mem_range.1 hn, .inl rfl⟩) fun u v => h u _ v ⟨n, List.mem_range.1 hn, .inr rfl⟩) d

theorem Dev.strandsOff_keeps (h : ∀ d f v, f.strandOff → g (d.wr f v) = g d) : g d.strandsOff = g d :=
  foldl_keeps (fun x hx e => h e _ _ ⟨x, List.mem_range.1 hx, rfl⟩) d

theorem Dev.kaFreeze_keeps (h : ∀ d x, g { d with frozen := x } = g d) : g d.kaFreeze = g d := ite_keeps (fun _ => rfl) fun _ => h _ _

theorem Dev.clocksOff_keeps (hf : ∀ d x, g { d with frozen := x } = g d) (hs : ∀ d x, g { d with sec := x } = g d) (h : ∀ d f v, f ∈ clockFields → g (d.wr f v) = g d) : g d.clocksOff = g d := by
  have wr (e : Dev) {f : Fld} (v : Nat) (hm : f ∈ clockFields) : g (e.wr f v) = g e := h e f v hm
  unfold Dev.clocksOff Dev.syncDen
  refine (Dev.kaFreeze_keeps _ hf).trans ((wr _ _ (by decide)).trans ((hs _ _).trans ?_))
  rw [wr _ _ (by decide), wr _ _ (by decide), wr _ _ (by decide), wr _ _ (by decide)]

end

section
variable (d : Dev)

theorem Dev.clocksOff_rd_ne {f : Fld} (h : ∀ k ∈ clockFields, f.key ≠ k.key) : d.clocksOff.rd f = d.rd f :=
  d.clocksOff_keeps (g := (Dev.rd · f)) (fun _ _ => rfl) (fun _ _ => rfl) fun e k v hk => e.wr_rd_ne v (h k hk)

theorem Dev.strandsOff_rd_ne {f : Fld} (h : ∀ k : Fld, k.strandOff → f.key ≠ k.key) : d.strandsOff.rd f = d.rd f :=
  d.strandsOff_keeps (g := (Dev.rd · f)) fun e k v hk => e.wr_rd_ne v (h k hk)

theorem Dev.lanesOff_rd_ne {f : Fld} (h : ∀ k : Fld, k.laneOff → f.key ≠ k.key) : d.lanesOff.rd f = d.rd f :=
  d.lanesOff_keeps (g := (Dev.rd · f)) (fun _ _ _ _ _ => rfl) fun e k v hk => e.wr_rd_ne v (h k hk)

/-- While the TIM clock stands no DEN is active. -/
theorem Dev.syncDen_stopped {d : Dev} (h : d.timStopped = true) : d.syncDen = d.wr F.GSV_DEN_LVL 0 := by
  unfold Dev.syncDen
  rw [h]
  simp [ofBits]

/-- The clocks of HOLD. -/
def Dev.clocksHeld : Dev := (((d.wr F.CLK_STAT_LOCK 0).wr F.CLK_STAT_ON 3).wr F.CLK_STAT_PSTATE 2).wr F.GSV_DEN_LVL 0

theorem Dev.clocksHeld_rd : d.clocksHeld.rd F.CLK_STAT_PSTATE = 2 ∧ d.clocksHeld.rd F.CLK_STAT_LOCK = 0 ∧ d.clocksHeld.rd F.CLK_STAT_ON = 3 ∧ d.clocksHeld.rd F.GSV_DEN_LVL = 0 := by
  unfold Dev.clocksHeld
  refine ⟨?_, ?_, ?_, Dev.wr_rd _ _ _⟩
  · exact (Dev.wr_rd_ne _ _ (by decide)).trans (Dev.wr_rd _ _ _)
  · exact (Dev.wr_rd_ne _ _ (by decide)).trans ((Dev.wr_rd_ne _ _ (by decide)).trans ((Dev.wr_rd_ne _ _ (by decide)).trans (Dev.wr_rd _ _ _)))
  · exact (Dev.wr_rd_ne _ _ (by decide)).trans ((Dev.wr_rd_ne _ _ (by decide)).trans (Dev.wr_rd _ _ _))

theorem Dev.clocksOff_eq : d.clocksOff = ({ d.clocksHeld with sec := { d.sec with pwrReq := none } }.wr F.CLK_PWR_REQ 0).kaFreeze := by
  have stopped : (((d.wr F.CLK_STAT_LOCK 0).wr F.CLK_STAT_ON 3).wr F.CLK_STAT_PSTATE 2).timStopped = true := by
    unfold Dev.timStopped
    rw [Dev.wr_rd]
    rfl
  unfold Dev.clocksOff
  rw [Dev.syncDen_stopped stopped]
  rfl

theorem Dev.kaFreeze_frozen : d.kaFreeze.frozen.isSome = true := by
  unfold Dev.kaFreeze
  split
  next h => exact h
  · rfl

theorem Dev.clocksOff_sec : d.clocksOff.sec = { d.sec with pwrReq := none } := by
  rw [Dev.clocksOff_eq, Dev.kaFreeze_keeps (g := Dev.sec) _ fun _ _ => rfl]
  rfl

theorem Dev.clocksOff_frozen : d.clocksOff.frozen.isSome = true := Dev.kaFreeze_frozen _

/-- The clock registers of HOLD. -/
theorem Dev.clocksOff_rd : d.clocksOff.rd F.CLK_STAT_PSTATE = 2 ∧ d.clocksOff.rd F.CLK_STAT_LOCK = 0 ∧ d.clocksOff.rd F.CLK_STAT_ON = 3 ∧ d.clocksOff.rd F.GSV_DEN_LVL = 0 ∧
    d.clocksOff.rd F.CLK_PWR_REQ = 0 := by
  obtain ⟨hp, hl, ho, hd⟩ := d.clocksHeld_rd
  have freeze (f : Fld) : d.clocksOff.rd f = (d.clocksHeld.wr F.CLK_PWR_REQ 0).rd f := by
    rw [Dev.clocksOff_eq]
    exact Dev.kaFreeze_keeps (g := (Dev.rd · f)) _ fun _ _ => rfl
  have same {f : Fld} (h : f.key ≠ F.CLK_PWR_REQ.key) : d.clocksOff.rd f = d.clocksHeld.rd f := (freeze f).trans (Dev.wr_rd_ne _ _ h)
  exact ⟨(same (by decide)).trans hp, (same (by decide)).trans hl, (same (by decide)).trans ho, (same (by decide)).trans hd, (freeze _).trans (Dev.wr_rd _ _ _)⟩

theorem Dev.framesOff_running : d.framesOff.rd F.SYS_FRM_CTRL_RUNNING = 0 :=
  (d.settle (fun x => decide (x.kind = WaitKind.stop)) fun _ => (Status.ok, 0, [])).wr_rd F.SYS_FRM_CTRL_RUNNING 0

theorem Dev.laneOff_phase (n : Nat) : (d.laneOff n).rd (F.LANE_STAT_PHASE n) = 0 := by
  unfold Dev.laneOff
  rw [Dev.setLane_rd, Dev.wr_rd]
  rfl

theorem Dev.laneOff_out (n : Nat) : ((d.laneOff n).lane n).out = .idle := by
  unfold Dev.laneOff
  rw [Dev.setLane_lane]

theorem phase_key (n m : Nat) : (F.LANE_STAT_PHASE n).key = (F.LANE_STAT_PHASE m).key ↔ n = m := by
  simp only [Fld.key, F.LANE_STAT_PHASE]
  omega

theorem phase_ne_dly (n m : Nat) : (F.LANE_STAT_PHASE n).key ≠ (F.LANE_DLY m).key := by
  simp only [Fld.key, F.LANE_STAT_PHASE, F.LANE_DLY]
  omega

theorem Dev.lanesOff_phase {n : Nat} (hn : n < 24) : d.lanesOff.rd (F.LANE_STAT_PHASE n) = 0 := by
  refine foldl_reaches (P := fun _ => True) (Q := fun e : Dev => e.rd (F.LANE_STAT_PHASE n) = 0) (List.mem_range.2 hn) (fun _ _ _ => trivial) (fun e m he => ?_) (fun e _ => e.laneOff_phase n) trivial
  obtain rfl | hne := eq_or_ne n m
  · exact e.laneOff_phase n
  · exact (Dev.laneOff_keeps (g := (Dev.rd · (F.LANE_STAT_PHASE n))) e (fun _ _ _ _ _ => rfl) (fun u v => u.wr_rd_ne v (phase_ne_dly n m))
      fun u v => u.wr_rd_ne v fun h => hne ((phase_key n m).1 h)).trans he

theorem Dev.laneOff_lane_ne {n m : Nat} (h : n ≠ m) : (d.laneOff m).lane n = d.lane n := by
  unfold Dev.laneOff Dev.delayLost
  rw [Dev.setLane_lane_ne _ _ _ _ h]
  exact Dev.setLane_lane_ne _ _ _ _ h

theorem Dev.lanesOff_out {n : Nat} (hn : n < 24) : (d.lanesOff.lane n).out = .idle := by
  refine foldl_reaches (P := fun _ => True) (Q := fun e : Dev => (e.lane n).out = .idle) (List.mem_range.2 hn) (fun _ _ _ => trivial) (fun e m he => ?_) (fun e _ => e.laneOff_out n) trivial
  obtain rfl | hne := eq_or_ne n m
  · exact e.laneOff_out n
  · rw [e.laneOff_lane_ne hne]
    exact he

theorem Dev.strandsOff_up {x : Nat} (hx : x < 16) : d.strandsOff.rd (F.STR_STAT_UP x) = 0 := by
  refine foldl_reaches (P := fun _ => True) (Q := fun e : Dev => e.rd (F.STR_STAT_UP x) = 0) (List.mem_range.2 hx) (fun _ _ _ => trivial) (fun e y he => ?_) (fun e _ => Dev.wr_rd _ _ _) trivial
  obtain rfl | hne := eq_or_ne x y
  · exact Dev.wr_rd _ _ _
  · refine (Dev.wr_rd_ne _ _ ?_).trans he
    simp only [Fld.key, F.STR_STAT_UP]
    omega

end

/-! ## A device that an entry has stopped -/

/-- The fields that an entry writes. -/
def Fld.ofHold (f : Fld) : Prop := f = F.SYS_FRM_CTRL_RUNNING ∨ f ∈ clockFields ∨ f.laneOff ∨ f.strandOff

theorem clockFields_addr : ∀ k ∈ clockFields, k.lo < 32 ∧ (k.addr ≤ 0x5004 ∨ k.addr = 0x70090) := by decide

theorem Fld.laneOff.addr {f : Fld} (h : f.laneOff) : f.lo < 32 ∧ 0x20000 ≤ f.addr ∧ f.addr < 0x38000 := by
  obtain ⟨n, hn, rfl | rfl⟩ := h <;> simp only [F.LANE_DLY, F.LANE_STAT_PHASE] <;> omega

theorem Fld.strandOff.addr {f : Fld} (h : f.strandOff) : f.lo < 32 ∧ 0x40000 ≤ f.addr ∧ f.addr < 0x50000 := by
  obtain ⟨x, hx, rfl⟩ := h
  simp only [F.STR_STAT_UP]
  omega

theorem Fld.ofHold.addr {f : Fld} (h : f.ofHold) : f.lo < 32 ∧ (f.addr ≤ 0x5004 ∨ 0x20000 ≤ f.addr) := by
  obtain rfl | h | h | h := h
  · decide
  · obtain ⟨hl, ha⟩ := clockFields_addr f h
    exact ⟨hl, by omega⟩
  · exact ⟨h.addr.1, .inr h.addr.2.1⟩
  · exact ⟨h.addr.1, .inr (by have := h.addr.2.1; omega)⟩

section
variable (d : Dev)

/-- What an entry keeps once the time pair is recorded. -/
theorem Dev.holdEntry_keeps {β : Type} {g : Dev → β} (hg : OffReplies g) (hfrm : ∀ d, g { d with frm := [] } = g d) (hk : d.frm = [] ∨ ∀ d k v, g (d.wrKey k v) = g d)
    (hedge : ∀ d x, g { d with edge := x } = g d) (hlane : ∀ d a b c l, g { d with tx := a, os := b, lines := c, lanes := l } = g d) (hfrozen : ∀ d x, g { d with frozen := x } = g d)
    (hsec : ∀ d x, g { d with sec := x } = g d) (hw : ∀ d f v, f.ofHold → g (d.wr f v) = g d) : g d.holdEntry = g d.recordPair := by
  rw [Dev.holdEntry_eq, Dev.clocksOff_keeps _ hfrozen hsec fun e f v h => hw e f v (.inr (.inl h)), Dev.strandsOff_keeps _ fun e f v h => hw e f v (.inr (.inr (.inr h))),
    Dev.lanesOff_keeps _ hlane fun e f v h => hw e f v (.inr (.inr (.inl h))), Dev.framesOff_keeps _ hg hedge fun e v => hw e _ v (.inl rfl)]
  exact d.recordPair.frmAll_keeps hfrm hk

theorem Dev.holdEntry_rd (hk : d.frm = []) {f : Fld} (hf : ∀ k : Fld, k.ofHold → f.key ≠ k.key) : d.holdEntry.rd f = d.rd f :=
  d.holdEntry_keeps (g := (Dev.rd · f)) ⟨OffPorts.rd f, fun _ _ => rfl⟩ (fun _ => rfl) (.inl hk) (fun _ _ => rfl) (fun _ _ _ _ _ => rfl) (fun _ _ => rfl) (fun _ _ => rfl)
    fun e k v h => e.wr_rd_ne v (hf k h)

/-- What is no register is kept where FRM values take effect too. -/
theorem Dev.holdEntry_same {β : Type} {g : Dev → β} (hg : OffReplies g) (hr : ∀ d r, g { d with regs := r } = g d) (hfrm : ∀ d, g { d with frm := [] } = g d)
    (hedge : ∀ d x, g { d with edge := x } = g d) (hlane : ∀ d a b c l, g { d with tx := a, os := b, lines := c, lanes := l } = g d) (hfrozen : ∀ d x, g { d with frozen := x } = g d)
    (hsec : ∀ d x, g { d with sec := x } = g d) : g d.holdEntry = g d.recordPair :=
  d.holdEntry_keeps hg hfrm (.inr fun e k v => e.wrKey_keeps (fun _ _ _ => hr _ _) k v) hedge hlane hfrozen hsec fun _ _ _ _ => hr _ _

theorem Dev.holdEntry_time : d.holdEntry.time = { d.time with holdPair := some (d.time.now, d.aonTime) } :=
  d.holdEntry_same (g := Dev.time) ⟨OffPorts.time, fun _ _ => rfl⟩ (fun _ _ => rfl) (fun _ => rfl) (fun _ _ => rfl) (fun _ _ _ _ _ => rfl) (fun _ _ => rfl) fun _ _ => rfl

theorem Dev.holdEntry_now : d.holdEntry.time.now = d.time.now := by rw [Dev.holdEntry_time]

theorem Dev.holdEntry_aonTime : d.holdEntry.aonTime = d.aonTime := by
  have hrt : d.holdEntry.time.rt = d.time.rt := by rw [Dev.holdEntry_time]
  have hbase : d.holdEntry.time.aonBase = d.time.aonBase := by rw [Dev.holdEntry_time]
  unfold Dev.aonTime
  rw [hrt, hbase]

theorem Dev.holdEntry_pair : d.holdEntry.time.holdPair = some (d.holdEntry.time.now, d.holdEntry.aonTime) := by
  rw [Dev.holdEntry_aonTime, Dev.holdEntry_time]

theorem Dev.holdEntry_run : d.holdEntry.run = d.run :=
  d.holdEntry_same (g := Dev.run) ⟨OffPorts.run, fun _ _ => rfl⟩ (fun _ _ => rfl) (fun _ => rfl) (fun _ _ => rfl) (fun _ _ _ _ _ => rfl) (fun _ _ => rfl) fun _ _ => rfl

theorem Dev.holdEntry_frame : d.holdEntry.frame = d.frame :=
  d.holdEntry_same (g := Dev.frame) ⟨OffPorts.frame, fun _ _ => rfl⟩ (fun _ _ => rfl) (fun _ => rfl) (fun _ _ => rfl) (fun _ _ _ _ _ => rfl) (fun _ _ => rfl) fun _ _ => rfl

theorem Dev.holdEntry_stage : d.holdEntry.stage = d.stage :=
  d.holdEntry_same (g := Dev.stage) ⟨OffPorts.stage, fun _ _ => rfl⟩ (fun _ _ => rfl) (fun _ => rfl) (fun _ _ => rfl) (fun _ _ _ _ _ => rfl) (fun _ _ => rfl) fun _ _ => rfl

theorem Dev.holdEntry_stg : d.holdEntry.stg = d.stg :=
  d.holdEntry_same (g := Dev.stg) ⟨OffPorts.stg, fun _ _ => rfl⟩ (fun _ _ => rfl) (fun _ => rfl) (fun _ _ => rfl) (fun _ _ _ _ _ => rfl) (fun _ _ => rfl) fun _ _ => rfl

theorem Dev.holdEntry_aon : d.holdEntry.aon = d.aon :=
  d.holdEntry_same (g := Dev.aon) ⟨OffPorts.aon, fun _ _ => rfl⟩ (fun _ _ => rfl) (fun _ => rfl) (fun _ _ => rfl) (fun _ _ _ _ _ => rfl) (fun _ _ => rfl) fun _ _ => rfl

theorem Dev.holdEntry_flt : d.holdEntry.flt = d.flt :=
  d.holdEntry_same (g := Dev.flt) ⟨OffPorts.flt, fun _ _ => rfl⟩ (fun _ _ => rfl) (fun _ => rfl) (fun _ _ => rfl) (fun _ _ _ _ _ => rfl) (fun _ _ => rfl) fun _ _ => rfl

/-- Every FRM value has taken effect. -/
theorem Dev.frmAll_frm : d.frmAll.frm = [] := by
  have applied : d.frmAll.frm = ({ d with frm := [] } : Dev).frm :=
    foldl_keeps (g := Dev.frm) (fun e _ u => by
      split
      · exact u.wrKey_keeps (g := Dev.frm) (fun _ _ _ => rfl) _ _
      · rfl) _
  exact applied

theorem OffPorts.frm : OffPorts Dev.frm := ⟨fun d p g => by simp, fun _ _ => rfl⟩

theorem Dev.holdEntry_frm : d.holdEntry.frm = [] := by
  rw [Dev.holdEntry_eq, Dev.clocksOff_keeps (g := Dev.frm) _ (fun _ _ => rfl) (fun _ _ => rfl) fun _ _ _ _ => rfl, Dev.strandsOff_keeps (g := Dev.frm) _ fun _ _ _ _ => rfl,
    Dev.lanesOff_keeps (g := Dev.frm) _ (fun _ _ _ _ _ => rfl) fun _ _ _ _ => rfl,
    Dev.framesOff_keeps (g := Dev.frm) _ ⟨OffPorts.frm, fun _ _ => rfl⟩ (fun _ _ => rfl) fun _ _ => rfl]
  exact Dev.frmAll_frm _

theorem Dev.holdEntry_edge : d.holdEntry.edge.plan = [] ∧ d.holdEntry.edge.next = [] := by
  rw [Dev.holdEntry_eq, Dev.clocksOff_keeps (g := Dev.edge) _ (fun _ _ => rfl) (fun _ _ => rfl) fun _ _ _ _ => rfl, Dev.strandsOff_keeps (g := Dev.edge) _ fun _ _ _ _ => rfl,
    Dev.lanesOff_keeps (g := Dev.edge) _ (fun _ _ _ _ _ => rfl) fun _ _ _ _ => rfl]
  exact ⟨rfl, rfl⟩

theorem Dev.holdEntry_out {n : Nat} (hn : n < 24) : (d.holdEntry.lane n).out = .idle := by
  rw [Dev.holdEntry_eq, Dev.clocksOff_keeps (g := (Dev.lane · n)) _ (fun _ _ => rfl) (fun _ _ => rfl) fun _ _ _ _ => rfl, Dev.strandsOff_keeps (g := (Dev.lane · n)) _ fun _ _ _ _ => rfl]
  exact Dev.lanesOff_out _ hn

theorem Dev.holdEntry_up {x : Nat} (hx : x < 16) : d.holdEntry.rd (F.STR_STAT_UP x) = 0 := by
  have field : (F.STR_STAT_UP x).strandOff := ⟨x, hx, rfl⟩
  rw [Dev.holdEntry_eq, Dev.clocksOff_rd_ne _ fun k hk => Fld.key_ne field.addr.1 (clockFields_addr k hk).1 (by have := field.addr; have := clockFields_addr k hk; omega)]
  exact Dev.strandsOff_up _ hx

theorem Dev.holdEntry_phase {n : Nat} (hn : n < 24) : d.holdEntry.rd (F.LANE_STAT_PHASE n) = 0 := by
  have field : (F.LANE_STAT_PHASE n).laneOff := ⟨n, hn, .inr rfl⟩
  rw [Dev.holdEntry_eq, Dev.clocksOff_rd_ne _ fun k hk => Fld.key_ne field.addr.1 (clockFields_addr k hk).1 (by have := field.addr; have := clockFields_addr k hk; omega),
    Dev.strandsOff_rd_ne _ fun k hk => Fld.key_ne field.addr.1 hk.addr.1 (by have := field.addr; have := hk.addr; omega)]
  exact Dev.lanesOff_phase _ hn

theorem Dev.holdEntry_running : d.holdEntry.rd F.SYS_FRM_CTRL_RUNNING = 0 := by
  have low : F.SYS_FRM_CTRL_RUNNING.addr < 0x20000 := by decide
  rw [Dev.holdEntry_eq, Dev.clocksOff_rd_ne _ (by decide), Dev.strandsOff_rd_ne _ fun k hk => Fld.key_ne (by decide) hk.addr.1 (by have := hk.addr; omega),
    Dev.lanesOff_rd_ne _ fun k hk => Fld.key_ne (by decide) hk.addr.1 (by have := hk.addr; omega)]
  exact Dev.framesOff_running _

end

/-! ## HOLD_ENTRY -/

/-- Where no boundary comes first an entry comes at once. -/
theorem Wk.entryBoundary_none {w : Wk} {r : Nat} {k : BitVec 32} (h : w.d.sec.pwrReq = some (r, k)) (hk : w.d.running = false ∨ w.d.frame.k = k) : w.entryBoundary = w := by
  have none : (w.d.running && decide (2 ^ 31 ≤ (w.d.frame.k - k).toNat)) = false := by
    obtain hk | hk := hk <;> simp [hk]
  unfold Wk.entryBoundary
  rw [h]
  dsimp only
  rw [none, Wk.on_false]

section
variable {s : State}

theorem holdEntry_other (h : s.dev.entryDue 1 = false) : exec .holdEntry s = .next s := by
  refine (exec_holdEntry s).trans (s.run_same ?_)
  rw [show s.wk.d.entryDue 1 = false from h, Wk.on_false]

theorem holdEntry_enters (h : s.dev.entryDue 1 = true) : exec .holdEntry s = .next (s.settleWk s.vault (s.wk.entryBoundary.up Dev.holdEntry)) := by
  refine (exec_holdEntry s).trans ((s.run_next _).trans (congrArg _ (congrArg _ ?_)))
  rw [show s.wk.d.entryDue 1 = true from h, Wk.on_true]

theorem holdEntry_sees {k : BitVec 32} (hreq : s.dev.sec.pwrReq = some (1, k)) (h : s.dev.entryDue 1 = true) :
    Leaves .holdEntry s fun d ms => d.rd F.CLK_STAT_PSTATE = 2 ∧ d.rd F.CLK_STAT_LOCK = 0 ∧ d.rd F.CLK_STAT_ON = 3 ∧ d.rd F.CLK_PWR_REQ = 0 ∧ d.sec.pwrReq = none ∧
      d.rd F.SYS_FRM_CTRL_RUNNING = 0 ∧ d.frm = [] ∧ d.edge.plan = [] ∧ d.edge.next = [] ∧
      (∀ n < 24, d.rd (F.LANE_STAT_PHASE n) = 0) ∧ (∀ x < 16, d.rd (F.STR_STAT_UP x) = 0) ∧
      d.time.holdPair = some (d.time.now, d.aonTime) ∧ d.frozen.isSome = true ∧ d.rd F.GSV_DEN_LVL = 0 ∧ (∀ n < 24, (d.lane n).out = .idle) ∧
      (s.dev.running = false ∨ s.dev.frame.k = k → ms = [] ∧ d.run = s.dev.run ∧ d.frame = s.dev.frame ∧ d.time.now = s.dev.time.now ∧ d.stage = s.dev.stage ∧ d.stg = s.dev.stg ∧
        ∀ n < 32, s.dev.frm = [] → d.rd (F.HST_CLASP_OWNER n) = s.dev.rd (F.HST_CLASP_OWNER n)) := by
  refine Leaves.up (holdEntry_enters h) ?_
  have alone : s.dev.running = false ∨ s.dev.frame.k = k → s.wk.entryBoundary = s.wk := Wk.entryBoundary_none (w := s.wk) hreq
  generalize s.wk.entryBoundary = w at alone ⊢
  obtain ⟨hp, hl, ho, hd, hr⟩ := w.d.recordPair.frmAll.framesOff.lanesOff.strandsOff.clocksOff_rd
  obtain ⟨hplan, hnext⟩ := w.d.holdEntry_edge
  refine ⟨hp, hl, ho, hr, congrArg SecSt.pwrReq (Dev.clocksOff_sec _), w.d.holdEntry_running, w.d.holdEntry_frm, hplan, hnext, fun n => w.d.holdEntry_phase, fun x => w.d.holdEntry_up,
    w.d.holdEntry_pair, Dev.clocksOff_frozen _, hd, fun n => w.d.holdEntry_out, fun hk => ?_⟩
  rw [alone hk]
  refine ⟨rfl, s.dev.holdEntry_run, s.dev.holdEntry_frame, s.dev.holdEntry_now, s.dev.holdEntry_stage, s.dev.holdEntry_stg,
    fun n hn hf => s.dev.holdEntry_rd hf fun f hf => Fld.key_ne (by simp only [F.HST_CLASP_OWNER]; omega) hf.addr.1 ?_⟩
  have := hf.addr
  simp only [F.HST_CLASP_OWNER]
  omega

end

/-! ## The reset of the core (R516) -/

/-- The fields that a reset of the core keeps: those of AON, and what the AON domain sees. -/
def Fld.stays (f : Fld) : Bool := f.aon || f = F.SEC_PRES_STAT_JUMPER || f = F.SEC_SEAL_INTACT || f = F.CLK_STAT_XTAL

theorem Fld.stays_iff {f : Fld} : f.stays = true ↔ f.aon = true ∨ f = F.SEC_PRES_STAT_JUMPER ∨ f = F.SEC_SEAL_INTACT ∨ f = F.CLK_STAT_XTAL := by
  simp [Fld.stays, or_assoc]

/-- A table keeps the values of the keys that are kept, and no other. -/
theorem tget_filter {α : Type} (x : α) (p : Nat → Bool) (t : Tab α) (k : Nat) : tget x (t.filter fun e => p e.1) k = if p k then tget x t k else x := by
  induction t with
  | nil => simp [tget]
  | cons e r ih =>
    obtain ⟨j, v⟩ := e
    by_cases hj : j = k <;> by_cases hp : p j <;> simp_all [tget]

section
variable (d : Dev)

theorem Dev.dropSess_keeps {β : Type} {g : Dev → β} (h : ∀ d n x, g { d with nv := n, sec := x } = g d) : g d.dropSess = g d := by
  unfold Dev.dropSess
  split
  · rfl
  · exact h _ _ _

theorem Dev.coreReset_regs : d.coreReset.regs = d.regs.filter fun e => (fldOf e.1).any Fld.stays := by
  have kept : d.dropSess.regs = d.regs := d.dropSess_keeps fun _ _ _ => rfl
  rw [← kept]
  refine congrArg (List.filter · d.dropSess.regs) (funext fun e => ?_)
  cases fldOf e.1 <;> rfl

theorem Dev.coreReset_rd {f : Fld} (hf : fldOf f.key = some f) : d.coreReset.rd f = if f.stays then d.rd f else f.rst % 2 ^ f.width := by
  unfold Dev.rd
  rw [Dev.coreReset_regs, tget_filter f.rst fun k => (fldOf k).any Fld.stays, hf, Option.any_some]
  split <;> rfl

theorem Dev.coreReset_aon : d.coreReset.aon = d.aon := d.dropSess_keeps (g := Dev.aon) fun _ _ _ => rfl

/-- A device that sleeps keeps the recorded pair; real time is kept by every one. -/
theorem Dev.coreReset_pair (h : d.aon.asleep = true) : d.coreReset.time.holdPair = d.time.holdPair := by
  have time : d.dropSess.time = d.time := d.dropSess_keeps fun _ _ _ => rfl
  have aon : d.dropSess.aon = d.aon := d.dropSess_keeps fun _ _ _ => rfl
  unfold Dev.coreReset
  dsimp only
  rw [aon, h, Bool.true_or, if_pos rfl, time]

theorem Dev.coreReset_aonTime : d.coreReset.aonTime = d.aonTime := by
  have hrt : d.coreReset.time.rt = d.time.rt := d.dropSess_keeps (g := fun e => e.time.rt) fun _ _ _ => rfl
  have hbase : d.coreReset.time.aonBase = d.time.aonBase := d.dropSess_keeps (g := fun e => e.time.aonBase) fun _ _ _ => rfl
  unfold Dev.aonTime
  rw [hrt, hbase]

end

/-! ## SLEEP_ENTRY -/

/-- The logs are written, and the core rails go. -/
def Dev.rested (d : Dev) : Dev := ({ d.logDrain with aon := { d.logDrain.aon with asleep := true } }).coreReset

/-- The windows close, and then the entry is that of HOLD. -/
def State.slept (s : State) : State := s.settleWk s.vault ((s.wk.entryBoundary.each [0, 1] fun p w => w.presClose p).up Dev.holdEntry)

theorem Dev.rested_aonTime (d : Dev) : d.rested.aonTime = d.logDrain.aonTime := Dev.coreReset_aonTime _

theorem Dev.rested_lost (d : Dev) {f : Fld} (hf : fldOf f.key = some f) (h : f.stays = false) (hr : f.rst < 2 ^ f.width) : d.rested.rd f = f.rst := by
  unfold Dev.rested
  rw [Dev.coreReset_rd _ hf, h, if_neg (by decide), Nat.mod_eq_of_lt hr]

theorem Dev.rested_aon (d : Dev) : d.rested.aon = { d.logDrain.aon with asleep := true } := Dev.coreReset_aon _

theorem Dev.rested_pair (d : Dev) : d.rested.time.holdPair = d.logDrain.time.holdPair := Dev.coreReset_pair _ rfl

theorem Dev.rested_stays (d : Dev) {f : Fld} (hf : fldOf f.key = some f) (h : f.stays = true) : d.rested.rd f = d.logDrain.rd f := by
  unfold Dev.rested
  rw [Dev.coreReset_rd _ hf, h, if_pos rfl]
  rfl

theorem Dev.logDrain_none {d : Dev} (h : d.flt.queue = []) : d.logDrain = d := by
  unfold Dev.logDrain
  rw [h]
  rfl

/-- A reset of the core where no log entry waits. -/
theorem Dev.rested_drained {d : Dev} (h : d.flt.queue = []) : d.rested.time.holdPair = d.time.holdPair ∧ d.rested.aonTime = d.aonTime ∧ d.rested.aon = { d.aon with asleep := true } ∧
    ∀ f : Fld, fldOf f.key = some f → f.stays = true → d.rested.rd f = d.rd f := by
  have drained := Dev.logDrain_none h
  refine ⟨?_, ?_, ?_, fun f hf hs => ?_⟩
  · rw [Dev.rested_pair, drained]
  · rw [Dev.rested_aonTime, drained]
  · rw [Dev.rested_aon, drained]
  · rw [Dev.rested_stays _ hf hs, drained]

/-- The device of an entry, its hosts told of what changed. -/
def State.told (s : State) : Dev := s.dev.holdEntry.noteChanges s.dev

section
variable (s : State)

theorem State.told_time : s.told.time = s.dev.holdEntry.time := Dev.noteChanges_keeps Dev.time OffPorts.time.port _ _

theorem State.told_aon : s.told.aon = s.dev.aon := (Dev.noteChanges_keeps Dev.aon OffPorts.aon.port _ _).trans s.dev.holdEntry_aon

theorem State.told_flt : s.told.flt = s.dev.flt := (Dev.noteChanges_keeps Dev.flt OffPorts.flt.port _ _).trans s.dev.holdEntry_flt

theorem State.told_aonTime : s.told.aonTime = s.dev.holdEntry.aonTime := by
  unfold Dev.aonTime
  rw [State.told_time]

end

section
variable {s : State}

theorem sleepEntry_other (h : s.dev.entryDue 2 = false) : exec .sleepEntry s = .next s := by
  rw [exec_sleepEntry]
  unfold execSleepEntry
  rw [h]
  exact congrArg Host.Outcome.next s.settleWk_wk

theorem sleepEntry_enters (h : s.dev.entryDue 2 = true) : exec .sleepEntry s = .next { s.slept with dev := s.slept.dev.rested } := by
  rw [exec_sleepEntry]
  unfold execSleepEntry
  rw [h]
  rfl

/-- Without a boundary, a window, and log entries that wait, the entry is of the device alone. -/
theorem State.slept_alone {k : BitVec 32} (hreq : s.dev.sec.pwrReq = some (2, k)) (hk : s.dev.running = false ∨ s.dev.frame.k = k) (h0 : s.dev.p1 0 = false) (h1 : s.dev.p1 1 = false) :
    s.slept = s.withDev s.told := by
  have closed : s.wk.each [0, 1] (fun p w => w.presClose p) = s.wk := Wk.each_same fun p hp => by
    have none : s.wk.d.p1 p = false := by
      obtain rfl | rfl : p = 0 ∨ p = 1 := by simpa using hp
      · exact h0
      · exact h1
    unfold Wk.presClose
    rw [none, if_pos (by decide)]
  unfold State.slept
  rw [Wk.entryBoundary_none (w := s.wk) hreq hk, closed]
  exact s.settleWk_quiet _ _ rfl

/-- No field that an entry writes stays over a reset of the core. -/
theorem Fld.ofHold.lost {k : Fld} (h : k.ofHold) : (fldOf k.key).all (fun f => !f.stays) = true := by
  have clock : ∀ k ∈ F.SYS_FRM_CTRL_RUNNING :: clockFields, (fldOf k.key).all (fun f => !f.stays) = true := by decide +kernel
  have lane : ∀ n < 24, ∀ k ∈ [F.LANE_DLY n, F.LANE_STAT_PHASE n], (fldOf k.key).all (fun f => !f.stays) = true := by decide +kernel
  have strand : ∀ x < 16, (fldOf (F.STR_STAT_UP x).key).all (fun f => !f.stays) = true := by decide +kernel
  obtain rfl | h | ⟨n, hn, h⟩ | ⟨x, hx, rfl⟩ := h
  · exact clock _ (by simp)
  · exact clock k (List.mem_cons_of_mem _ h)
  · exact lane n hn k (by simpa using h)
  · exact strand x hx

theorem Fld.stays_ne {f k : Fld} (hf : fldOf f.key = some f) (hs : f.stays = true) (h : k.ofHold) : f.key ≠ k.key := by
  intro e
  have lost := h.lost
  rw [← e, hf] at lost
  simp [hs] at lost

/-- What SLEEP leaves of a device whose entry is of itself alone. -/
theorem sleepEntry_alone {k : BitVec 32} (hreq : s.dev.sec.pwrReq = some (2, k)) (hk : s.dev.running = false ∨ s.dev.frame.k = k) (h0 : s.dev.p1 0 = false) (h1 : s.dev.p1 1 = false)
    (hq : s.dev.flt.queue = []) :
    s.slept.vault = s.vault ∧ s.slept.dev.rested.time.holdPair = some (s.dev.time.now, s.slept.dev.rested.aonTime) ∧ s.slept.dev.rested.aon = { s.dev.aon with asleep := true } ∧
      ∀ f : Fld, fldOf f.key = some f → f.aon = true ∨ f = F.SEC_PRES_STAT_JUMPER ∨ f = F.SEC_SEAL_INTACT ∨ f = F.CLK_STAT_XTAL → s.dev.frm = [] → s.slept.dev.rested.rd f = s.dev.rd f := by
  rw [State.slept_alone hreq hk h0 h1]
  obtain ⟨pair, aonTime, aon, stays⟩ := Dev.rested_drained (d := s.told) ((congrArg FltSt.queue s.told_flt).trans hq)
  refine ⟨rfl, ?_, aon.trans (by rw [State.told_aon]), fun f hf hs hfrm => ?_⟩
  · rw [show (s.withDev s.told).dev = s.told from rfl, pair, aonTime, s.told_aonTime, s.told_time, s.dev.holdEntry_pair, Dev.holdEntry_now]
  · rw [show (s.withDev s.told).dev = s.told from rfl, stays f hf (Fld.stays_iff.2 hs)]
    exact (Dev.noteChanges_rd _ _ _).trans (s.dev.holdEntry_rd hfrm fun k => Fld.stays_ne hf (Fld.stays_iff.2 hs))

theorem sleepEntry_sees {k : BitVec 32} (hreq : s.dev.sec.pwrReq = some (2, k)) (h : s.dev.entryDue 2 = true) :
    Does .sleepEntry s fun t => t.dev.aon.asleep = true ∧ t.dev.run = .boot ∧ t.dev.waits = [] ∧ t.dev.stage = none ∧ t.dev.flt = {} ∧ t.dev.hpa = {} ∧ t.dev.hpb = {} ∧
      t.dev.sec.pwrReq = none ∧
      (∀ f : Fld, fldOf f.key = some f → f.aon = false → f ≠ F.SEC_PRES_STAT_JUMPER → f ≠ F.SEC_SEAL_INTACT → f ≠ F.CLK_STAT_XTAL → f.rst < 2 ^ f.width → t.dev.rd f = f.rst) ∧
      (s.dev.running = false ∨ s.dev.frame.k = k → s.dev.p1 0 = false → s.dev.p1 1 = false → s.dev.flt.queue = [] →
        t.vault = s.vault ∧ t.dev.time.holdPair = some (s.dev.time.now, t.dev.aonTime) ∧ t.dev.aon = { s.dev.aon with asleep := true } ∧
        ∀ f : Fld, fldOf f.key = some f → f.aon = true ∨ f = F.SEC_PRES_STAT_JUMPER ∨ f = F.SEC_SEAL_INTACT ∨ f = F.CLK_STAT_XTAL → s.dev.frm = [] → t.dev.rd f = s.dev.rd f) := by
  refine ⟨_, sleepEntry_enters h, congrArg AonSt.asleep (Dev.rested_aon _), rfl, rfl, rfl, rfl, rfl, rfl, rfl, fun f hf ha hj hi hx => Dev.rested_lost _ hf ?_, sleepEntry_alone hreq⟩
  simp [Fld.stays, ha, hj, hi, hx]

end

/-- Settles O31: a request by its transaction, an entry by its parts, and SLEEP by what a reset of the core keeps. -/
theorem holdAndSleepRequestsAndEntries : Obligations.HoldAndSleepRequestsAndEntries := by
  unfold Obligations.HoldAndSleepRequestsAndEntries
  exact ⟨fun s p h => ⟨asks_power (exec_holdRequest p s) h (.inl rfl), asks_power (exec_sleepRequest p s) h (.inr rfl)⟩, fun _ => ⟨holdEntry_other, sleepEntry_other⟩,
    fun _ _ => holdEntry_sees, fun _ _ => sleepEntry_sees⟩

end Sys2Proof.Machine

/-! One lane among others: what work at a strand, a port or another lane leaves of it (R65, R67, R79). -/
namespace Sys2Proof.Machine

/-! ## The page of a lane -/

/-- A field of lane `n`'s page. -/
def Fld.OfLane (n : Nat) (f : Fld) : Prop := f.lo < 32 ∧ 0x20000 + n * 4096 ≤ f.addr ∧ f.addr < 0x21000 + n * 4096

theorem Fld.OfLane.ne {n : Nat} {f k : Fld} (h : f.OfLane n) (hk : k.lo < 32) (ha : k.addr < 0x20000 + n * 4096 ∨ 0x21000 + n * 4096 ≤ k.addr) : f.key ≠ k.key := by
  obtain ⟨hl, hge, hlt⟩ := h
  simp only [Fld.key]
  omega

theorem Fld.OfLane.ne_lane {n m : Nat} {f k : Fld} (h : f.OfLane n) (hk : k.OfLane m) (hm : n ≠ m) : f.key ≠ k.key :=
  h.ne hk.1 (by have := hk.2; omega)

theorem laneStat_ofLane (n : Nat) : ∀ f ∈ [F.LANE_STAT_PHASE n, F.LANE_STAT_RATE n, F.LANE_STAT_RATES n, F.LANE_STAT_HOPS n, F.LANE_STAT_LOS n, F.LANE_STAT_LOL n, F.LANE_STAT_TEST n,
    F.LANE_STAT_LOS_SEEN n, F.LANE_STAT_LOL_SEEN n, F.LANE_DLY n, F.LANE_ERR_DOWN_CNT n], f.OfLane n := by
  simp [Fld.OfLane, F.LANE_STAT_PHASE, F.LANE_STAT_RATE, F.LANE_STAT_RATES, F.LANE_STAT_HOPS, F.LANE_STAT_LOS, F.LANE_STAT_LOL, F.LANE_STAT_TEST,
    F.LANE_STAT_LOS_SEEN, F.LANE_STAT_LOL_SEEN, F.LANE_DLY, F.LANE_ERR_DOWN_CNT]
  omega

theorem lanePhase_ofLane (n : Nat) : (F.LANE_STAT_PHASE n).OfLane n := laneStat_ofLane n _ (by simp)
theorem laneRate_ofLane (n : Nat) : (F.LANE_STAT_RATE n).OfLane n := laneStat_ofLane n _ (by simp)
theorem laneDly_ofLane (n : Nat) : (F.LANE_DLY n).OfLane n := laneStat_ofLane n _ (by simp)
theorem laneDownCnt_ofLane (n : Nat) : (F.LANE_ERR_DOWN_CNT n).OfLane n := laneStat_ofLane n _ (by simp)
/-! ## The status of a strand -/

/-- A field of a strand's page that is not of its first word. -/
def Fld.OfStrand (f : Fld) : Prop := f.lo < 32 ∧ 0x40000 ≤ f.addr ∧ f.addr % 4096 ≠ 0

theorem strandUp_ofStrand (s : Nat) : (F.STR_STAT_UP s).OfStrand := by simp only [Fld.OfStrand, F.STR_STAT_UP]; omega
theorem strandBroken_ofStrand (s : Nat) : (F.STR_STAT_BROKEN s).OfStrand := by simp only [Fld.OfStrand, F.STR_STAT_BROKEN]; omega
theorem strandBreak_ofStrand (s : Nat) : (F.STR_STAT_BREAK s).OfStrand := by simp only [Fld.OfStrand, F.STR_STAT_BREAK]; omega

/-- A change of a strand's ends writes its status alone (R34, R79). -/
theorem Dev.strandEnds_ind {P : Dev → Prop} {d : Dev} {s : Nat} (h0 : P d) (wr : ∀ {e : Dev} {f : Fld}, f.OfStrand → ∀ v, P e → P (e.wr f v)) : P (d.strandEnds s) := by
  have up (v : Bool) : P (d.wrB (F.STR_STAT_UP s) v) := wr (strandUp_ofStrand s) _ h0
  unfold Dev.strandEnds
  extract_lets a b d1
  have h1 : P d1 := up _
  split_ifs
  · exact h1
  · exact h1
  · exact wr (strandBreak_ofStrand s) 0 (wr (strandBroken_ofStrand s) 1 h1)
  · exact wr (strandBroken_ofStrand s) 1 h1

/-! ## What is the same of a lane -/

/-- Lane `n` is the same on two devices: its page, what is kept of it beside, the set it puts out; and the run state. -/
structure Dev.SameLane (n : Nat) (d e : Dev) : Prop where
  lane : e.lane n = d.lane n
  os : tget [] e.os n = tget [] d.os n
  run : e.run = d.run
  rd : ∀ f : Fld, f.OfLane n → e.rd f = d.rd f

namespace Dev.SameLane
variable {n : Nat} {d e g : Dev}

theorem refl (d : Dev) : d.SameLane n d := ⟨rfl, rfl, rfl, fun _ _ => rfl⟩

theorem trans (h : d.SameLane n e) (k : e.SameLane n g) : d.SameLane n g :=
  ⟨k.lane.trans h.lane, k.os.trans h.os, k.run.trans h.run, fun f hf => (k.rd f hf).trans (h.rd f hf)⟩

theorem phase (h : d.SameLane n e) : e.rd (F.LANE_STAT_PHASE n) = d.rd (F.LANE_STAT_PHASE n) := h.rd _ (lanePhase_ofLane n)

/-- A field outside its page. -/
theorem wr (f : Fld) (v : Nat) (hl : f.lo < 32) (ha : f.addr < 0x20000 + n * 4096 ∨ 0x21000 + n * 4096 ≤ f.addr) : d.SameLane n (d.wr f v) :=
  ⟨rfl, rfl, rfl, fun _ hk => Dev.wr_rd_ne d v (hk.ne hl ha)⟩

/-- A field of another lane. -/
theorem wr_lane {m : Nat} {f : Fld} (hf : f.OfLane m) (hm : n ≠ m) (v : Nat) : d.SameLane n (d.wr f v) :=
  ⟨rfl, rfl, rfl, fun _ hk => Dev.wr_rd_ne d v (hk.ne_lane hf hm)⟩

theorem setLane {m : Nat} (hm : n ≠ m) (x : LaneSt) : d.SameLane n (d.setLane m x) := ⟨Dev.setLane_lane_ne _ _ _ _ hm, rfl, rfl, fun _ _ => rfl⟩

theorem ite {p : Prop} [Decidable p] {a b : Dev} (h : p → d.SameLane n a) (k : ¬ p → d.SameLane n b) : d.SameLane n (if p then a else b) := by
  split
  · exact h ‹_›
  · exact k ‹_›

/-- A field of a strand's page. -/
theorem wr_strand (hn : n < 24) {f : Fld} (h : f.OfStrand) (v : Nat) : d.SameLane n (d.wr f v) := by
  obtain ⟨hl, hge, -⟩ := h
  exact wr f v hl (.inr (by omega))

end Dev.SameLane

/-! ## The ends of the lanes, and whether they serve -/

/-- What replies leave of the lanes and their registers. -/
def Dev.laneView (d : Dev) := ((d.regs, d.lanes), (d.os, d.run, d.sec))

theorem offReplies_laneView : OffReplies Dev.laneView where
  port d p f := by simp [Dev.laneView]
  last _ _ := rfl
  waits _ _ := rfl

theorem Dev.SameEnds.of_laneView {d e : Dev} (h : e.laneView = d.laneView) : d.SameEnds e := by
  simp only [Dev.laneView, Prod.mk.injEq] at h
  obtain ⟨⟨hregs, hlanes⟩, -, -, hsec⟩ := h
  exact ⟨fun m => by rw [Dev.lane, hlanes, Dev.lane], hsec, fun f _ _ => by rw [Dev.rd, hregs, Dev.rd]⟩

theorem Dev.SameLane.of_laneView {n : Nat} {d e : Dev} (h : e.laneView = d.laneView) : d.SameLane n e := by
  simp only [Dev.laneView, Prod.mk.injEq] at h
  obtain ⟨⟨hregs, hlanes⟩, hos, hrun, -⟩ := h
  exact ⟨by rw [Dev.lane, hlanes, Dev.lane], by rw [hos], hrun, fun f _ => by rw [Dev.rd, hregs, Dev.rd]⟩

theorem Dev.SameEnds.refl (d : Dev) : d.SameEnds d := ⟨fun _ => rfl, rfl, fun _ _ _ => rfl⟩

theorem Dev.SameEnds.ite {p : Prop} [Decidable p] {d a b : Dev} (h : p → d.SameEnds a) (k : ¬ p → d.SameEnds b) : d.SameEnds (if p then a else b) := by
  split
  · exact h ‹_›
  · exact k ‹_›

/-- A field of a lane's page that is not of its first word (R65). -/
theorem Dev.SameEnds.wr_lane {d : Dev} {n : Nat} {f : Fld} (h : f.OfLane n) (hp : f.addr ≠ 0x20000 + n * 4096) (v : Nat) : d.SameEnds (d.wr f v) := by
  obtain ⟨hl, hge, hlt⟩ := h
  exact .wr f v hl (by omega) (by omega)

/-- A field of a strand's status (R72). -/
theorem Dev.SameEnds.wr_strand {d : Dev} {f : Fld} (h : f.OfStrand) (v : Nat) : d.SameEnds (d.wr f v) := by
  obtain ⟨hl, hge, hp⟩ := h
  exact .wr f v hl (by omega) hp

/-- Two devices with the same lanes and the same ends of them. -/
structure Dev.SameLanes (d e : Dev) : Prop where
  ends : d.SameEnds e
  lane : ∀ n < 24, d.SameLane n e

theorem Dev.SameLanes.refl (d : Dev) : d.SameLanes d := ⟨.refl d, fun _ _ => .refl d⟩

theorem Dev.SameLanes.trans {d e g : Dev} (h : d.SameLanes e) (k : e.SameLanes g) : d.SameLanes g :=
  ⟨h.ends.trans k.ends, fun n hn => (h.lane n hn).trans (k.lane n hn)⟩

theorem Dev.SameLanes.ite {p : Prop} [Decidable p] {d a b : Dev} (h : p → d.SameLanes a) (k : ¬ p → d.SameLanes b) : d.SameLanes (if p then a else b) := by
  split
  · exact h ‹_›
  · exact k ‹_›

theorem Dev.SameLanes.wr_strand {d : Dev} {f : Fld} (h : f.OfStrand) (v : Nat) : d.SameLanes (d.wr f v) := ⟨.wr_strand h v, fun _ hn => .wr_strand hn h v⟩

theorem Dev.SameLanes.of_laneView {d e : Dev} (h : e.laneView = d.laneView) : d.SameLanes e := ⟨.of_laneView h, fun _ _ => .of_laneView h⟩

theorem Dev.SameLanes.strandEnds (d : Dev) (s : Nat) : d.SameLanes (d.strandEnds s) :=
  Dev.strandEnds_ind (.refl d) fun hf v h => h.trans (.wr_strand hf v)

theorem Dev.SameEnds.inService {d e : Dev} (h : d.SameEnds e) (n : Nat) : e.inService n = d.inService n := by
  have page (f : Fld) (hl : f.lo < 32) (ha : f.addr < 0x20000) : e.rd f = d.rd f := h.rd f hl (.inl ha)
  have strand (s : Nat) : e.rd (F.STR_CTRL_EN s) = d.rd (F.STR_CTRL_EN s) := h.rd _ (by simp [F.STR_CTRL_EN]) (.inr (by simp only [F.STR_CTRL_EN]; omega))
  unfold Dev.inService Dev.rdB
  rw [h.role, (h.ctrl n).2.1, strand, page F.TWN_CTRL_EN (by decide) (by decide), page F.STK_CTRL_EN (by decide) (by decide)]

/-- A row whose work on the device comes to `e`, the ends of the lanes being left. -/
theorem State.run_leaves {s : State} {f : Wk → Wk} {e : Dev} (hf : f s.wk = s.wk.up fun _ => e) (h : s.dev.SameEnds e) : s.run f = .next (s.withDev e) := by
  rw [State.run_next, hf]
  exact State.run_sameEnds (f := fun _ => e) rfl h

end Sys2Proof.Machine

/-! Loss of light and lock, and retirement of a lane (R67, R77 to R79, R331, R484). -/
namespace Sys2Proof.Machine

/-! ## The flags -/

/-- The flag that LOS (`true`) or LOL sets. -/
def lossFlag (los : Bool) (n : Nat) : Fld := if los then F.LANE_STAT_LOS n else F.LANE_STAT_LOL n
/-- Its SEEN bit. -/
def lossSeen (los : Bool) (n : Nat) : Fld := if los then F.LANE_STAT_LOS_SEEN n else F.LANE_STAT_LOL_SEEN n

/-- A flag of a loss, or its SEEN bit. -/
def Fld.LossFlag (n : Nat) (f : Fld) : Prop := ∃ los, f = lossFlag los n ∨ f = lossSeen los n

theorem Fld.LossFlag.mem {n : Nat} {f : Fld} (h : f.LossFlag n) : f ∈ [F.LANE_STAT_LOS n, F.LANE_STAT_LOL n, F.LANE_STAT_LOS_SEEN n, F.LANE_STAT_LOL_SEEN n] := by
  obtain ⟨los, rfl | rfl⟩ := h <;> cases los <;> simp [lossFlag, lossSeen]

theorem Fld.LossFlag.ofLane {n : Nat} {f : Fld} (h : f.LossFlag n) : f.OfLane n := by
  have mem := h.mem
  simp only [List.mem_cons, List.not_mem_nil, or_false] at mem
  obtain rfl | rfl | rfl | rfl := mem <;> exact laneStat_ofLane n _ (by simp)

theorem Fld.LossFlag.addr {n : Nat} {f : Fld} (h : f.LossFlag n) : f.addr = 0x20000 + n * 4096 + 4 := by
  have mem := h.mem
  simp only [List.mem_cons, List.not_mem_nil, or_false] at mem
  obtain rfl | rfl | rfl | rfl := mem <;> rfl

/-- The flags are none of the fields that a loss changes besides. -/
theorem Fld.LossFlag.ne {n : Nat} {f k : Fld} (h : f.LossFlag n) (hk : k ∈ [F.LANE_STAT_PHASE n, F.LANE_DLY n, F.LANE_ERR_DOWN_CNT n]) : f.key ≠ k.key := by
  have mem := h.mem
  simp only [List.mem_cons, List.not_mem_nil, or_false] at mem hk
  obtain rfl | rfl | rfl | rfl := mem <;> obtain rfl | rfl | rfl := hk <;>
    simp only [Fld.key, F.LANE_STAT_LOS, F.LANE_STAT_LOL, F.LANE_STAT_LOS_SEEN, F.LANE_STAT_LOL_SEEN, F.LANE_STAT_PHASE, F.LANE_DLY, F.LANE_ERR_DOWN_CNT] <;> omega

/-- The device with the flag of a loss and its SEEN bit set. -/
def Dev.flagged (d : Dev) (n : Nat) (los : Bool) : Dev := (d.wr (lossFlag los n) 1).wr (lossSeen los n) 1

section
variable (d : Dev) (n : Nat) (los : Bool)

theorem Dev.flagged_sameEnds : d.SameEnds (d.flagged n los) := by
  have flag {f : Fld} (h : f.LossFlag n) (d : Dev) : d.SameEnds (d.wr f 1) := .wr_lane h.ofLane (by rw [h.addr]; omega) 1
  exact (flag ⟨los, .inl rfl⟩ d).trans (flag ⟨los, .inr rfl⟩ _)

theorem Dev.flagged_sameLane {m : Nat} (h : m ≠ n) : d.SameLane m (d.flagged n los) :=
  (Dev.SameLane.wr_lane (Fld.LossFlag.ofLane ⟨los, .inl rfl⟩) h 1).trans (.wr_lane (Fld.LossFlag.ofLane ⟨los, .inr rfl⟩) h 1)

/-- Both flags once the first of them has been set: it and its SEEN bit read 1, the other flag 0. -/
def Dev.Flags : Prop := d.rd (lossFlag los n) = 1 ∧ d.rd (lossSeen los n) = 1 ∧ d.rd (lossFlag (!los) n) = 0

theorem Dev.flagged_flags (h : d.rd (lossFlag (!los) n) = 0) : (d.flagged n los).Flags n los := by
  unfold Dev.Flags Dev.flagged
  cases los
  all_goals
    simp only [lossFlag, lossSeen, Bool.not_true, Bool.not_false, if_true, if_false, Bool.false_eq_true] at h ⊢
    rw [Dev.wr_rd, Dev.wr_rd_ne, Dev.wr_rd, Dev.wr_rd_ne, Dev.wr_rd_ne, h]
    · exact ⟨rfl, rfl, rfl⟩
    all_goals simp only [Fld.key, F.LANE_STAT_LOS, F.LANE_STAT_LOL, F.LANE_STAT_LOS_SEEN, F.LANE_STAT_LOL_SEEN]; omega
end

/-! ## A lane that loses its signal -/

/-- What is kept of a lane that loses light or lock beside its registers (R76). -/
def Dev.lossLane (d : Dev) (n : Nat) : LaneSt :=
  let p := d.rd (F.LANE_STAT_PHASE n)
  let x := d.lane n
  { x with rejoin := d.inService n && (x.rejoin || p = 2), bring := if x.rejoin then .none else x.bring, out := if x.rejoin then .data else x.out }

/-- A loss as the lane itself shows it: a link that is up or rejoins goes down (R79). -/
def Dev.lossHere (d : Dev) (n : Nat) : Dev :=
  if d.rd (F.LANE_STAT_PHASE n) = 2 ∨ d.rd (F.LANE_STAT_PHASE n) = 3 then (d.setLane n (d.lossLane n)).wr (F.LANE_STAT_PHASE n) 0 else d.setLane n (d.lossLane n)

section
variable (d : Dev) (n : Nat)

theorem Dev.lossDown_lanes : (d.lossHere n).SameLanes (d.lossDown n) := by
  unfold Dev.lossHere Dev.lossDown
  dsimp only
  split
  · exact .ite (fun _ => .strandEnds _ _) fun _ => .refl _
  · exact .refl _

theorem Dev.lossHere_sameEnds : d.SameEnds (d.lossHere n) := by
  have lane : d.SameEnds (d.setLane n (d.lossLane n)) := .setLane n rfl
  exact .ite (fun _ => lane.trans (.phase n 0)) fun _ => lane

theorem Dev.lossHere_sameLane {m : Nat} (h : m ≠ n) : d.SameLane m (d.lossHere n) :=
  .ite (fun _ => (Dev.SameLane.setLane h _).trans (.wr_lane (lanePhase_ofLane n) h 0)) fun _ => .setLane h _

theorem Dev.lossHere_lane : (d.lossHere n).lane n = d.lossLane n := by
  unfold Dev.lossHere
  split <;> exact Dev.setLane_lane _ _ _

theorem Dev.lossHere_phase : (d.lossHere n).rd (F.LANE_STAT_PHASE n) =
    if d.rd (F.LANE_STAT_PHASE n) = 2 ∨ d.rd (F.LANE_STAT_PHASE n) = 3 then 0 else d.rd (F.LANE_STAT_PHASE n) := by
  unfold Dev.lossHere
  split
  · exact Dev.wr_rd _ _ _
  · rfl

theorem Dev.lossHere_rd {f : Fld} (h : f.key ≠ (F.LANE_STAT_PHASE n).key) : (d.lossHere n).rd f = d.rd f :=
  ite_keeps (g := (Dev.rd · f)) (fun _ => Dev.wr_rd_ne (d.setLane n (d.lossLane n)) 0 h) fun _ => rfl

theorem Dev.delayLost_sameEnds : d.SameEnds (d.delayLost n) := (Dev.SameEnds.setLane (x := { d.lane n with dlys := [], ttSent := false }) n rfl).trans (.dly n 0)

theorem Dev.delayLost_sameLane {m : Nat} (h : m ≠ n) : d.SameLane m (d.delayLost n) :=
  (Dev.SameLane.setLane h _).trans (.wr_lane (laneDly_ofLane n) h 0)

theorem Dev.delayLost_rd {f : Fld} (h : f.key ≠ (F.LANE_DLY n).key) : (d.delayLost n).rd f = d.rd f := Dev.wr_rd_ne _ 0 h

end

/-- A loss of light or lock that finds neither flag set. -/
def Dev.losing (d : Dev) (n : Nat) (los : Bool) : Dev := ((d.flagged n los).delayLost n).lossDown n

/-- Everything of the lane itself, and of the others, after such a loss. -/
structure Dev.Lost (d e : Dev) (n : Nat) (los : Bool) : Prop where
  ends : d.SameEnds e
  flags : e.Flags n los
  dly : e.rd (F.LANE_DLY n) = 0
  dlys : (e.lane n).dlys = []
  run : e.run = d.run
  other : ∀ m < 24, m ≠ n → d.SameLane m e

section
variable {d : Dev} {n : Nat} {los : Bool}

/-- Flags are of the lane alone. -/
theorem Dev.Flags.of_rd {e : Dev} (h : d.Flags n los) (he : ∀ f : Fld, f.LossFlag n → e.rd f = d.rd f) : e.Flags n los := by
  obtain ⟨flag, seen, clear⟩ := h
  exact ⟨(he _ ⟨los, .inl rfl⟩).trans flag, (he _ ⟨los, .inr rfl⟩).trans seen, (he _ ⟨!los, .inl rfl⟩).trans clear⟩

theorem lanePhase_ne_laneDly (n : Nat) : (F.LANE_STAT_PHASE n).key ≠ (F.LANE_DLY n).key := by rw [lanePhase_key, laneDly_key]; omega

theorem Dev.flagged_rd {f : Fld} (h : f ∈ [F.LANE_STAT_PHASE n, F.LANE_DLY n, F.LANE_ERR_DOWN_CNT n]) : (d.flagged n los).rd f = d.rd f :=
  (Dev.wr_rd_ne _ 1 (Fld.LossFlag.ne ⟨los, .inr rfl⟩ h).symm).trans (Dev.wr_rd_ne _ 1 (Fld.LossFlag.ne ⟨los, .inl rfl⟩ h).symm)

theorem laneDownCnt_ne (n : Nat) : (F.LANE_ERR_DOWN_CNT n).key ≠ (F.LANE_STAT_PHASE n).key ∧ (F.LANE_ERR_DOWN_CNT n).key ≠ (F.LANE_DLY n).key := by
  simp only [Fld.key, F.LANE_ERR_DOWN_CNT, F.LANE_STAT_PHASE, F.LANE_DLY]
  omega

theorem Dev.losing_lost (hn : n < 24) (h : d.rd (lossFlag (!los) n) = 0) : d.Lost (d.losing n los) n los := by
  have lanes := ((d.flagged n los).delayLost n).lossDown_lanes n
  have here := lanes.lane n hn
  have flag {f : Fld} (hf : f.LossFlag n) : (d.losing n los).rd f = (d.flagged n los).rd f := by
    rw [Dev.losing, here.rd f hf.ofLane, Dev.lossHere_rd _ _ (hf.ne (by simp)), Dev.delayLost_rd _ _ (hf.ne (by simp))]
  refine ⟨?_, (d.flagged_flags n los h).of_rd fun f hf => flag hf, ?_, ?_, here.run.trans ?_, fun m hm hne => ?_⟩
  · exact (((d.flagged_sameEnds n los).trans (Dev.delayLost_sameEnds _ n)).trans (Dev.lossHere_sameEnds _ n)).trans lanes.ends
  · rw [Dev.losing, here.rd _ (laneDly_ofLane n), Dev.lossHere_rd _ _ (lanePhase_ne_laneDly n).symm]
    exact Dev.wr_rd _ _ _
  · rw [Dev.losing, here.lane, Dev.lossHere_lane]
    exact congrArg LaneSt.dlys (Dev.setLane_lane _ _ _)
  · exact ite_keeps (g := Dev.run) (fun _ => rfl) fun _ => rfl
  · exact (((d.flagged_sameLane n los hne).trans (Dev.delayLost_sameLane _ n hne)).trans (Dev.lossHere_sameLane _ n hne)).trans (lanes.lane m hm)

theorem Dev.losing_phase (hn : n < 24) : (d.losing n los).rd (F.LANE_STAT_PHASE n) =
    if d.rd (F.LANE_STAT_PHASE n) = 2 ∨ d.rd (F.LANE_STAT_PHASE n) = 3 then 0 else d.rd (F.LANE_STAT_PHASE n) := by
  rw [Dev.losing, ((((d.flagged n los).delayLost n).lossDown_lanes n).lane n hn).phase, Dev.lossHere_phase, Dev.delayLost_rd _ _ (lanePhase_ne_laneDly n), Dev.flagged_rd (by simp)]

theorem Dev.losing_downCnt (hn : n < 24) : (d.losing n los).rd (F.LANE_ERR_DOWN_CNT n) = d.rd (F.LANE_ERR_DOWN_CNT n) := by
  rw [Dev.losing, ((((d.flagged n los).delayLost n).lossDown_lanes n).lane n hn).rd _ (laneDownCnt_ofLane n), Dev.lossHere_rd _ _ (laneDownCnt_ne n).1,
    Dev.delayLost_rd _ _ (laneDownCnt_ne n).2, Dev.flagged_rd (by simp)]

/-- A lane that serves nothing has nothing to rejoin. -/
theorem Dev.losing_rejoin (hn : n < 24) (h : d.inService n = false) : ((d.losing n los).lane n).rejoin = false := by
  have serves : ((d.flagged n los).delayLost n).inService n = false := (((d.flagged_sameEnds n los).trans (Dev.delayLost_sameEnds _ n)).inService n).trans h
  rw [Dev.losing, ((((d.flagged n los).delayLost n).lossDown_lanes n).lane n hn).lane, Dev.lossHere_lane, Dev.lossLane, serves]
  rfl

end

/-! ## A lane that goes down in service -/

/-- The times of a lane's last downs, this one among them (R331). -/
def Dev.downsNow (d : Dev) (n : Nat) : List Nat := (d.lane n).downs.filter (fun t => decide (d.time.rt - t ≤ rtSec (d.rd F.SYS_LRET_WIN))) ++ [d.time.rt]

/-- An in-service lane that goes down (R79), with the strand's ends. -/
def Dev.fallen (d : Dev) (n : Nat) : Dev :=
  let e := (d.inc (F.LANE_ERR_DOWN_CNT n)).wr (F.LANE_STAT_PHASE n) 0
  if e.role n = 1 then e.strandEnds (e.rd (F.LANE_CTRL_STR n)) else e

/-- While automatic retirement is off, a lane that goes down counts and reports, and the time is noted (R79, R331). -/
theorem Wk.laneDown_noRetire {w : Wk} {n : Nat} (h : (w.d.fallen n).rd F.SYS_LRET_EN = 0) :
    w.laneDown n = (w.raise 48 0 n).up fun d => (d.fallen n).setLane n { (d.fallen n).lane n with downs := (d.fallen n).downsNow n } := by
  have off : Dev.rdB ((w.d.fallen n).setLane n { (w.d.fallen n).lane n with downs := (w.d.fallen n).downsNow n }) F.SYS_LRET_EN = false := by
    rw [Dev.rdB, Dev.setLane_rd, h]
    rfl
  unfold Wk.laneDown Wk.downRule
  dsimp only
  exact (congrArg (fun c => Wk.on _ (c && _ && _) _) off).trans (Wk.on_false _ _)

section
variable (d : Dev) (n : Nat)

/-- What counts of a lane that has fallen. -/
theorem Dev.fallen_lanes : ((d.inc (F.LANE_ERR_DOWN_CNT n)).wr (F.LANE_STAT_PHASE n) 0).SameLanes (d.fallen n) :=
  .ite (fun _ => .strandEnds _ _) fun _ => .refl _

theorem Dev.fallen_sameEnds : d.SameEnds (d.fallen n) :=
  (Dev.SameEnds.trans (.wr_lane (laneDownCnt_ofLane n) (by simp only [F.LANE_ERR_DOWN_CNT]; omega) _) (.phase n 0)).trans (d.fallen_lanes n).ends

theorem Dev.fallen_sameLane {m : Nat} (hm : m < 24) (h : m ≠ n) : d.SameLane m (d.fallen n) :=
  (Dev.SameLane.trans (.wr_lane (laneDownCnt_ofLane n) h _) (.wr_lane (lanePhase_ofLane n) h 0)).trans ((d.fallen_lanes n).lane m hm)

variable {n} (hn : n < 24)
include hn

theorem Dev.fallen_phase : (d.fallen n).rd (F.LANE_STAT_PHASE n) = 0 := ((d.fallen_lanes n).lane n hn).phase.trans (Dev.wr_rd _ _ _)

theorem Dev.fallen_downCnt : (d.fallen n).rd (F.LANE_ERR_DOWN_CNT n) = min (d.rd (F.LANE_ERR_DOWN_CNT n) + 1) 65535 := by
  rw [((d.fallen_lanes n).lane n hn).rd _ (laneDownCnt_ofLane n), Dev.wr_rd_ne _ _ (laneDownCnt_ne n).1, Dev.inc, Dev.addSat, Dev.wr_rd]
  exact Nat.mod_eq_of_lt (by simp only [F.LANE_ERR_DOWN_CNT]; omega)

theorem Dev.fallen_rd {f : Fld} (hf : f.OfLane n) (hp : f.key ≠ (F.LANE_STAT_PHASE n).key) (hc : f.key ≠ (F.LANE_ERR_DOWN_CNT n).key) : (d.fallen n).rd f = d.rd f := by
  rw [((d.fallen_lanes n).lane n hn).rd f hf, Dev.wr_rd_ne _ _ hp, Dev.inc_rd_ne _ hc]

theorem Dev.fallen_lane : (d.fallen n).lane n = d.lane n := ((d.fallen_lanes n).lane n hn).lane
theorem Dev.fallen_run : (d.fallen n).run = d.run := ((d.fallen_lanes n).lane n hn).run

end

/-! ## The rows of LOS and LOL -/

/-- The row that asserts LOS (`true`) or LOL. -/
def lossRow (los : Bool) (n : Nat) : Instr := if los then .laneLosAssert n else .laneLolAssert n

section
variable {s : State} {n : Nat} {los : Bool}

theorem exec_lossRow : exec (lossRow los n) s = s.run (·.lossAssert n los) := by cases los <;> rfl

/-- Neither flag of a lane is set. -/
def Dev.signal (d : Dev) (n : Nat) : Prop := ¬ (d.rd (F.LANE_STAT_LOS n) = 1 ∨ d.rd (F.LANE_STAT_LOL n) = 1)

theorem Dev.signal_iff (d : Dev) (n : Nat) : d.signal n ↔ ∀ los, d.rd (lossFlag los n) = 0 := by
  have los : d.rd (F.LANE_STAT_LOS n) < 2 := d.rd_lt _
  have lol : d.rd (F.LANE_STAT_LOL n) < 2 := d.rd_lt _
  simp only [Dev.signal, lossFlag, Bool.forall_bool, if_true, if_false, Bool.false_eq_true]
  omega

theorem Dev.signal_not (d : Dev) (n : Nat) : d.signal n ↔ (!(d.rdB (F.LANE_STAT_LOS n) || d.rdB (F.LANE_STAT_LOL n))) = true := by
  simp [Dev.signal_iff, Bool.forall_bool, lossFlag, Dev.rdB, and_comm]

/-- A loss by its flag, by the losses before it (R77 to R79). -/
theorem Wk.lossAssert_again {w : Wk} (h : ¬ w.d.signal n) : w.lossAssert n los = w.up (·.flagged n los) := by
  have was := Bool.eq_false_iff.2 (mt (w.d.signal_not n).2 h)
  cases los <;> (unfold Wk.lossAssert; simp only [was, Bool.false_and, Wk.on_false]; rfl)

theorem Wk.lossAssert_first {w : Wk} (h : w.d.signal n) : w.lossAssert n los = (w.up (·.losing n los)).on (w.d.inService n) (·.laneDown n) := by
  have was := (w.d.signal_not n).1 h
  have serves : (w.d.losing n los).inService n = w.d.inService n :=
    (((w.d.flagged_sameEnds n los).trans (Dev.delayLost_sameEnds _ n)).trans ((Dev.lossHere_sameEnds _ n).trans (Dev.lossDown_lanes _ n).ends)).inService n
  rw [← serves]
  cases los <;> (unfold Wk.lossAssert; simp only [was, Bool.true_and, Wk.on_true]; rfl)

theorem lossRow_again (h : ¬ s.dev.signal n) : exec (lossRow los n) s = .next (s.withDev (s.dev.flagged n los)) :=
  exec_lossRow.trans (State.run_leaves (Wk.lossAssert_again h) (s.dev.flagged_sameEnds n los))

theorem exec_lossRow_rests (hn : n < 24) (h : s.dev.signal n) (hs : s.dev.inService n = false) : exec (lossRow los n) s = .next (s.withDev (s.dev.losing n los)) := by
  refine exec_lossRow.trans (State.run_leaves ?_ (Dev.losing_lost hn ((s.dev.signal_iff n).1 h _)).ends)
  exact (Wk.lossAssert_first h).trans (congrArg (Wk.on _ · _) hs)

/-- The device after a loss in service. -/
def Dev.downed (d : Dev) (n : Nat) (los : Bool) : Dev :=
  ((d.losing n los).fallen n).setLane n { ((d.losing n los).fallen n).lane n with downs := ((d.losing n los).fallen n).downsNow n }

theorem lossRow_downs (hn : n < 24) (h : s.dev.signal n) (hs : s.dev.inService n = true) (hr : s.dev.rd F.SYS_LRET_EN = 0) :
    Leaves (lossRow los n) s fun d ms => d = s.dev.downed n los ∧ ms.map Msg.tag = [(48, 0, n)] := by
  have off : ((s.dev.losing n los).fallen n).rd F.SYS_LRET_EN = 0 :=
    (((Dev.losing_lost hn ((s.dev.signal_iff n).1 h _)).ends.trans (Dev.fallen_sameEnds _ n)).rd _ (by decide) (.inl (by decide))).trans hr
  have falls : s.wk.lossAssert n los = (s.wk.up (·.losing n los)).laneDown n := by
    rw [Wk.lossAssert_first (w := s.wk) h, show s.wk.d.inService n = true from hs, Wk.on_true]
  rw [Wk.laneDown_noRetire (w := s.wk.up (·.losing n los)) off] at falls
  refine ⟨_, exec_lossRow.trans (s.run_next _), ?_, ?_⟩ <;> rw [falls]
  · rfl
  · exact Wk.raise_tags (s.wk.up (·.losing n los)) 48 0 n

end

/-- A loss on a lane out of service. -/
theorem lossRow_rests {s : State} {n : Nat} (los : Bool) (hn : n < 24) (h : s.dev.signal n) (hs : s.dev.inService n = false) :
    Does (lossRow los n) s fun t => (t.dev.rd (F.LANE_STAT_PHASE n) = (if s.dev.rd (F.LANE_STAT_PHASE n) = 2 ∨ s.dev.rd (F.LANE_STAT_PHASE n) = 3 then 0 else s.dev.rd (F.LANE_STAT_PHASE n)) ∧
      t.dev.rd (F.LANE_DLY n) = 0 ∧ (t.dev.lane n).dlys = [] ∧ (t.dev.lane n).rejoin = false ∧ t.vault = s.vault ∧ t.dev.run = s.dev.run ∧
      (∀ m < 24, t.dev.rd (F.LANE_ERR_DOWN_CNT m) = s.dev.rd (F.LANE_ERR_DOWN_CNT m)) ∧
      ∀ m < 24, m ≠ n → t.dev.rd (F.LANE_STAT_PHASE m) = s.dev.rd (F.LANE_STAT_PHASE m) ∧ t.dev.lane m = s.dev.lane m) ∧ t.dev.Flags n los := by
  have lost := Dev.losing_lost hn ((s.dev.signal_iff n).1 h (!los))
  refine ⟨_, exec_lossRow_rests hn h hs, ⟨Dev.losing_phase hn, lost.dly, lost.dlys, Dev.losing_rejoin hn hs, rfl, lost.run, fun m hm => ?_,
    fun m hm hne => ⟨(lost.other m hm hne).phase, (lost.other m hm hne).lane⟩⟩, lost.flags⟩
  obtain rfl | hne := eq_or_ne m n
  · exact Dev.losing_downCnt hm
  · exact (lost.other m hm hne).rd _ (laneDownCnt_ofLane m)

/-- The device after a loss in service. -/
theorem Dev.downed_falls {d : Dev} {n : Nat} (los : Bool) (hn : n < 24) (h : d.signal n) :
    let e := d.downed n los
    (e.rd (F.LANE_STAT_PHASE n) = 0 ∧ e.rd (F.LANE_ERR_DOWN_CNT n) = min (d.rd (F.LANE_ERR_DOWN_CNT n) + 1) 65535 ∧ e.rd (F.LANE_DLY n) = 0 ∧ (e.lane n).dlys = [] ∧ e.run = d.run ∧
      ∀ m < 24, m ≠ n → e.rd (F.LANE_STAT_PHASE m) = d.rd (F.LANE_STAT_PHASE m) ∧ e.lane m = d.lane m) ∧
    e.Flags n los := by
  have lost := Dev.losing_lost hn ((d.signal_iff n).1 h (!los))
  have other (m : Nat) (hm : m < 24) (hne : m ≠ n) : d.SameLane m (d.downed n los) :=
    ((lost.other m hm hne).trans (Dev.fallen_sameLane _ n hm hne)).trans (.setLane hne _)
  have down (f : Fld) : (d.downed n los).rd f = ((d.losing n los).fallen n).rd f := Dev.setLane_rd _ _ _ _
  have kept {f : Fld} (hf : f.OfLane n) (hp : f.key ≠ (F.LANE_STAT_PHASE n).key) (hc : f.key ≠ (F.LANE_ERR_DOWN_CNT n).key) : (d.downed n los).rd f = (d.losing n los).rd f :=
    (down f).trans (Dev.fallen_rd _ hn hf hp hc)
  refine ⟨⟨(down _).trans (Dev.fallen_phase _ hn), (down _).trans ?_, ?_, ?_, ?_, fun m hm hne => ⟨(other m hm hne).phase, (other m hm hne).lane⟩⟩,
    lost.flags.of_rd fun f hf => kept hf.ofLane (hf.ne (by simp)) (hf.ne (by simp))⟩
  · rw [Dev.fallen_downCnt _ hn, Dev.losing_downCnt hn]
  · rw [kept (laneDly_ofLane n) (lanePhase_ne_laneDly n).symm (laneDownCnt_ne n).2.symm, lost.dly]
  · rw [Dev.downed, Dev.setLane_lane, Dev.fallen_lane _ hn]
    exact lost.dlys
  · rw [Dev.downed, Dev.setLane_run, Dev.fallen_run _ hn, lost.run]

/-- A loss on a lane in service, while automatic retirement is off. -/
theorem lossRow_falls {s : State} {n : Nat} (los : Bool) (hn : n < 24) (h : s.dev.signal n) (hs : s.dev.inService n = true) (hr : s.dev.rd F.SYS_LRET_EN = 0) :
    Leaves (lossRow los n) s fun d ms => (d.rd (F.LANE_STAT_PHASE n) = 0 ∧ d.rd (F.LANE_ERR_DOWN_CNT n) = min (s.dev.rd (F.LANE_ERR_DOWN_CNT n) + 1) 65535 ∧
      ms.map Msg.tag = [(48, 0, n)] ∧ d.rd (F.LANE_DLY n) = 0 ∧ (d.lane n).dlys = [] ∧ d.run = s.dev.run ∧
      ∀ m < 24, m ≠ n → d.rd (F.LANE_STAT_PHASE m) = s.dev.rd (F.LANE_STAT_PHASE m) ∧ d.lane m = s.dev.lane m) ∧ d.Flags n los := by
  obtain ⟨w, hw, hd, hms⟩ := lossRow_downs (los := los) hn h hs hr
  obtain ⟨⟨phase, count, dly, dlys, run, others⟩, flags⟩ := Dev.downed_falls los hn h
  rw [← hd] at phase count dly dlys run others flags
  exact ⟨w, hw, ⟨phase, count, hms, dly, dlys, run, others⟩, flags⟩

theorem laneLosDeassert_clears (s : State) (n : Nat) : exec (.laneLosDeassert n) s = .next (s.withDev (s.dev.wr (F.LANE_STAT_LOS n) 0)) :=
  (exec_laneLosDeassert n s).trans (State.run_leaves rfl (.wr_lane (laneStat_ofLane n _ (by simp)) (by simp only [F.LANE_STAT_LOS]; omega) 0))

theorem laneLolDeassert_clears (s : State) (n : Nat) : exec (.laneLolDeassert n) s = .next (s.withDev (s.dev.wr (F.LANE_STAT_LOL n) 0)) :=
  (exec_laneLolDeassert n s).trans (State.run_leaves rfl (.wr_lane (laneStat_ofLane n _ (by simp)) (by simp only [F.LANE_STAT_LOL]; omega) 0))

/-! ## Retirement -/

/-- The settings that a SPARE lane takes over (R67). -/
def spareSettings : List (Nat → Fld) := [F.LANE_CTRL_MAX_RATE, F.LANE_CTRL_END, F.LANE_CTRL_STR, F.LANE_CTRL_ROLE, F.LANE_CTRL_SPARE_FOR,
  F.LANE_ASYM, F.LANE_NET_TXD, F.LANE_NET_RXD, F.LANE_MOD_BUS, F.LANE_MOD_CH]

/-- Lane `m` takes over the settings of lane `n`. -/
def Dev.settings (d : Dev) (n m : Nat) : Dev := spareSettings.foldl (fun d f => d.wr (f m) (d.rd (f n))) d

/-- The lane itself is retired and down. -/
def Dev.retired (d : Dev) (n : Nat) : Dev := (d.setLane n { d.lane n with retired := true, bring := .none, out := .idle }).wr (F.LANE_STAT_PHASE n) 0

/-- A SPARE lane begins: it rejoins at the rate `r` where the retired lane served, else it comes up where its role has a link (R67, R331). -/
def Dev.beginsAt (d : Dev) (m r : Nat) (serve : Bool) : Dev :=
  if serve then ((d.setLane m { d.lane m with out := .data, rejoin := true }).wr (F.LANE_STAT_RATE m) r).wr (F.LANE_STAT_PHASE m) 3
  else if [1, 2, 3].contains (d.rd (F.LANE_CTRL_ROLE m)) then d.bringUp m (d.rd (F.LANE_CTRL_MAX_RATE m)) else d

/-- The device once lane `n` is retired for its SPARE lane `m`. -/
def Dev.relieved (d : Dev) (n m : Nat) : Dev :=
  ((d.settings n m).retired n).beginsAt m ((d.settings n m).rd (F.LANE_STAT_RATE n)) ((d.settings n m).inService n)

theorem Wk.retireLane_none {w : Wk} {n : Nat} (h : w.d.spareOf n = none) : w.retireLane n = w := by
  unfold Wk.retireLane
  rw [h]

theorem Wk.retireLane_some {w : Wk} {n m : Nat} (h : w.d.spareOf n = some m) : w.retireLane n = ((w.up (·.relieved n m)).raise 35 0 n).olgSync := by
  unfold Wk.retireLane
  rw [h]
  rfl

theorem Dev.spareOf_some {d : Dev} {n m : Nat} (h : d.spareOf n = some m) : m < 24 ∧ m ≠ n := by
  obtain ⟨hne, -, -⟩ := of_decide_eq_true (List.find?_some (p := fun m => decide (_ ∧ _)) h)
  exact ⟨List.mem_range.1 (List.mem_of_find?_eq_some h), hne⟩

theorem spareSettings_ofLane (n : Nat) : ∀ f ∈ spareSettings, (f n).OfLane n := by
  simp [spareSettings, Fld.OfLane, F.LANE_CTRL_MAX_RATE, F.LANE_CTRL_END, F.LANE_CTRL_STR, F.LANE_CTRL_ROLE, F.LANE_CTRL_SPARE_FOR, F.LANE_ASYM, F.LANE_NET_TXD, F.LANE_NET_RXD,
    F.LANE_MOD_BUS, F.LANE_MOD_CH]
  omega

/-- Fields of one lane's settings have keys of their own. -/
theorem spareSettings_key (n : Nat) : spareSettings.Pairwise fun f k => (f n).key ≠ (k n).key := by
  simp [spareSettings, Fld.key, F.LANE_CTRL_MAX_RATE, F.LANE_CTRL_END, F.LANE_CTRL_STR, F.LANE_CTRL_ROLE, F.LANE_CTRL_SPARE_FOR, F.LANE_ASYM, F.LANE_NET_TXD, F.LANE_NET_RXD,
    F.LANE_MOD_BUS, F.LANE_MOD_CH]
  omega

section
variable {n m : Nat} (hne : m ≠ n)
include hne

/-- Settings copied one after another, each to a field of its own: each reads as the other lane's. -/
theorem copied_rd {l : List (Nat → Fld)} (hl : ∀ f ∈ l, ∀ k, (f k).OfLane k) (hp : l.Pairwise fun f k => (f m).key ≠ (k m).key) :
    ∀ {d : Dev} {f : Nat → Fld}, f ∈ l → (f n).width = (f m).width → (l.foldl (fun d f => d.wr (f m) (d.rd (f n))) d).rd (f m) = d.rd (f n) := by
  induction l with
  | nil => exact fun hf => nomatch hf
  | cons x l ih =>
    intro d f hf hw
    obtain ⟨hx, hp⟩ := List.pairwise_cons.1 hp
    rw [List.foldl_cons]
    obtain rfl | hf := List.mem_cons.1 hf
    · rw [foldl_keeps (g := (Dev.rd · (f m))) (fun k hk e => Dev.wr_rd_ne _ _ (hx k hk)), Dev.wr_rd, ← hw]
      exact Nat.mod_eq_of_lt (d.rd_lt _)
    · rw [ih (fun k hk => hl k (by simp [hk])) hp hf hw]
      exact Dev.wr_rd_ne _ _ ((hl f (by simp [hf]) n).ne_lane (hl x (by simp) m) hne.symm)

theorem Dev.settings_rd (d : Dev) {f : Nat → Fld} (hf : f ∈ spareSettings) (hw : (f n).width = (f m).width) : (d.settings n m).rd (f m) = d.rd (f n) :=
  copied_rd hne (fun f hf k => spareSettings_ofLane k f hf) (spareSettings_key m) hf hw

end

section
variable {d : Dev} {n m : Nat}

/-- The settings are of lane `m` alone. -/
theorem Dev.settings_keeps {β : Type} {g : Dev → β} (d : Dev) (n : Nat) (hg : ∀ d f v, f.OfLane m → g (Dev.wr d f v) = g d) : g (d.settings n m) = g d :=
  foldl_keeps (fun f hf e => hg e _ _ (spareSettings_ofLane m f hf)) d

theorem Dev.settings_inService (d : Dev) (hm : m < 24) (hne : m ≠ n) : (d.settings n m).inService n = d.inService n := by
  have kept {f : Fld} (h : ∀ k : Fld, k.OfLane m → f.key ≠ k.key) : (d.settings n m).rd f = d.rd f := Dev.settings_keeps (g := (Dev.rd · f)) d n fun _ _ _ hk => Dev.wr_rd_ne _ _ (h _ hk)
  have own {f : Nat → Fld} (hf : f ∈ spareSettings) : (d.settings n m).rd (f n) = d.rd (f n) := kept fun k hk => (spareSettings_ofLane n f hf).ne_lane hk hne.symm
  have page {f : Fld} (hl : f.lo < 32) (ha : f.addr < 0x20000 ∨ 0x40000 ≤ f.addr) : (d.settings n m).rd f = d.rd f := kept fun k hk => (hk.ne hl (by omega)).symm
  have strand (x : Nat) : (d.settings n m).rd (F.STR_CTRL_EN x) = d.rd (F.STR_CTRL_EN x) := page (by simp [F.STR_CTRL_EN]) (by simp only [F.STR_CTRL_EN]; omega)
  have lane : (d.settings n m).lane n = d.lane n := Dev.settings_keeps (g := (Dev.lane · n)) d n fun _ _ _ _ => rfl
  unfold Dev.inService Dev.role Dev.rdB
  rw [lane, own (f := F.LANE_CTRL_ROLE) (by simp [spareSettings]), own (f := F.LANE_CTRL_STR) (by simp [spareSettings]), strand,
    page (f := F.TWN_CTRL_EN) (by decide) (by decide), page (f := F.STK_CTRL_EN) (by decide) (by decide)]

theorem Dev.retired_role (d : Dev) (n : Nat) : (d.retired n).role n = 0 := by
  unfold Dev.role Dev.retired
  rw [Dev.wr_laneSt, Dev.setLane_lane]
  rfl

theorem Dev.retired_phase (d : Dev) (n : Nat) : (d.retired n).rd (F.LANE_STAT_PHASE n) = 0 := Dev.wr_rd _ _ _

theorem Dev.retired_rd (d : Dev) (n : Nat) {f : Fld} (h : f.key ≠ (F.LANE_STAT_PHASE n).key) : (d.retired n).rd f = d.rd f := Dev.wr_rd_ne _ 0 h

theorem Dev.bringUp_sameEnds (d : Dev) (n cap : Nat) : d.SameEnds (d.bringUp n cap) := by
  have same := d.toIndex0_sameEnds n cap
  cases h : d.aEnd n with
  | false => rw [d.bringUp_bEnd n cap h]; exact same.trans (.phase n _)
  | true =>
    rw [d.bringUp_aEnd n cap h]
    have ends := ((same.trans (Dev.mateToIndex0_sameEnds (n := n))).trans (.phase n 1)).trans (.setLane n (x := { ((d.toIndex0 n cap).mateToIndex0 n).lane n with bring := .offer false }) rfl)
    exact ⟨ends.retired, ends.sec, ends.rd⟩

/-- Bring-up leaves the phase of a lane without a role, of another strand. -/
theorem Dev.bringUp_phase (d : Dev) (cap : Nat) (hne : m ≠ n) (h : d.role n = 0) : (d.bringUp m cap).rd (F.LANE_STAT_PHASE n) = d.rd (F.LANE_STAT_PHASE n) := by
  obtain ⟨-, -, -, -, -, -, -, -, -, -, frame⟩ := d.bringUp_started m cap
  refine frame _ fun k hk => ?_
  have apart : k ≠ n := by
    obtain rfl | ⟨-, -, hs⟩ := hk
    · exact hne
    · rintro rfl
      obtain ⟨hrole, -⟩ := of_decide_eq_true (List.find?_some (p := fun m => decide (_ ∧ _)) hs)
      omega
  exact ⟨(lanePhase_ofLane n).ne_lane (laneRate_ofLane k) apart.symm, (lanePhase_ofLane n).ne_lane (lanePhase_ofLane k) apart.symm, (lanePhase_ofLane n).ne_lane (laneDly_ofLane k) apart.symm⟩

theorem Dev.beginsAt_sameEnds (d : Dev) (m r : Nat) (serve : Bool) : d.SameEnds (d.beginsAt m r serve) := by
  have lane : d.SameEnds (d.setLane m { d.lane m with out := .data, rejoin := true }) := .setLane m rfl
  exact .ite (fun _ => (lane.trans (.rate m r)).trans (.phase m 3)) fun _ => .ite (fun _ => d.bringUp_sameEnds m _) fun _ => .refl d

theorem Dev.beginsAt_phase (d : Dev) (r : Nat) (serve : Bool) (hne : m ≠ n) (h : d.role n = 0) : (d.beginsAt m r serve).rd (F.LANE_STAT_PHASE n) = d.rd (F.LANE_STAT_PHASE n) := by
  unfold Dev.beginsAt
  split_ifs
  · rw [Dev.wr_rd_ne _ _ ((lanePhase_ofLane n).ne_lane (lanePhase_ofLane m) hne.symm), Dev.wr_rd_ne _ _ ((lanePhase_ofLane n).ne_lane (laneRate_ofLane m) hne.symm), Dev.setLane_rd]
  · exact d.bringUp_phase _ hne h
  · rfl

theorem Dev.beginsAt_serves (d : Dev) (m r : Nat) : (d.beginsAt m r true).rd (F.LANE_STAT_PHASE m) = 3 ∧ (d.beginsAt m r true).rd (F.LANE_STAT_RATE m) = r % 4 := by
  unfold Dev.beginsAt
  rw [if_pos rfl]
  exact ⟨Dev.wr_rd _ _ _, (Dev.wr_rd_ne _ _ (by rw [laneRate_key, lanePhase_key]; omega)).trans (Dev.wr_rd _ _ _)⟩

/-- The lane is retired, and its SPARE lane holds the settings from now on (R67). -/
theorem Dev.relieved_retires (d : Dev) (hne : m ≠ n) :
    ((d.relieved n m).lane n).retired = true ∧ (d.relieved n m).rd (F.LANE_STAT_PHASE n) = 0 ∧ (d.relieved n m).role n = 0 ∧
      (d.relieved n m).rd (F.LANE_CTRL_ROLE m) = d.rd (F.LANE_CTRL_ROLE n) ∧ (d.relieved n m).rd (F.LANE_CTRL_STR m) = d.rd (F.LANE_CTRL_STR n) ∧
      (d.relieved n m).rd (F.LANE_CTRL_END m) = d.rd (F.LANE_CTRL_END n) := by
  have taken {f : Nat → Fld} (hf : f ∈ spareSettings) (hw : (f n).width = (f m).width) : ((d.settings n m).retired n).rd (f m) = d.rd (f n) :=
    (Dev.retired_rd _ n ((spareSettings_ofLane m f hf).ne_lane (lanePhase_ofLane n) hne)).trans (d.settings_rd hne hf hw)
  have ends := ((d.settings n m).retired n).beginsAt_sameEnds m ((d.settings n m).rd (F.LANE_STAT_RATE n)) ((d.settings n m).inService n)
  have phase := Dev.beginsAt_phase ((d.settings n m).retired n) ((d.settings n m).rd (F.LANE_STAT_RATE n)) ((d.settings n m).inService n) hne (Dev.retired_role _ n)
  obtain ⟨role, str, away⟩ := ends.ctrl m
  rw [← Dev.relieved] at ends phase role str away
  refine ⟨(ends.retired n).trans ?_, phase.trans (Dev.retired_phase _ n), (ends.role n).trans (Dev.retired_role _ n),
    role.trans (taken (by simp [spareSettings]) rfl), str.trans (taken (by simp [spareSettings]) rfl), away.trans (taken (by simp [spareSettings]) rfl)⟩
  rw [Dev.retired, Dev.wr_laneSt, Dev.setLane_lane]

theorem Dev.relieved_serves (d : Dev) (hm : m < 24) (hne : m ≠ n) (h : d.inService n = true) :
    (d.relieved n m).rd (F.LANE_STAT_PHASE m) = 3 ∧ (d.relieved n m).rd (F.LANE_STAT_RATE m) = d.rd (F.LANE_STAT_RATE n) := by
  have rate : (d.settings n m).rd (F.LANE_STAT_RATE n) = d.rd (F.LANE_STAT_RATE n) :=
    Dev.settings_keeps (g := (Dev.rd · (F.LANE_STAT_RATE n))) d n fun _ _ _ hk => Dev.wr_rd_ne _ _ ((laneRate_ofLane n).ne_lane hk hne.symm)
  unfold Dev.relieved
  rw [d.settings_inService hm hne, h, rate]
  obtain ⟨hphase, hrate⟩ := ((d.settings n m).retired n).beginsAt_serves m (d.rd (F.LANE_STAT_RATE n))
  exact ⟨hphase, hrate.trans (Nat.mod_eq_of_lt (d.rd_lt (F.LANE_STAT_RATE n)))⟩

end

/-! ## LANE_LOL_PERSIST -/

/-- A change of the service maps sends OLG_CHANGED at most (R484). -/
theorem Wk.adds_olgSync (w : Wk) : w.Adds (fun m => m.tag = (99, 0, 0)) w.olgSync := by
  unfold Wk.olgSync
  exact .ite (fun _ => .refl w) fun _ => .trans .up (.raise fun _ h => h)

section
variable {s : State} {n : Nat} {fail : Bool}

/-- A lane that LANE_LOL_PERSIST leaves as it is. -/
def Dev.persists (d : Dev) (n : Nat) (fail : Bool) : Prop := fail = false ∨ d.rd F.SYS_LRET_EN = 0 ∨ d.rd (F.LANE_STAT_LOL n) = 0 ∨ d.rd (F.LANE_STAT_LOS n) = 1

theorem Dev.persists_iff (d : Dev) (n : Nat) (fail : Bool) :
    d.persists n fail ↔ (fail && d.rdB F.SYS_LRET_EN && d.rdB (F.LANE_STAT_LOL n) && !d.rdB (F.LANE_STAT_LOS n)) = false := by
  have los : d.rd (F.LANE_STAT_LOS n) < 2 := d.rd_lt _
  have one : d.rd (F.LANE_STAT_LOS n) = 1 ↔ d.rd (F.LANE_STAT_LOS n) ≠ 0 := by omega
  simp [Dev.persists, Dev.rdB, one, imp_iff_not_or, or_assoc]

theorem laneLolPersist_stays (h : s.dev.persists n fail ∨ s.dev.spareOf n = none) : exec (.laneLolPersist n fail) s = .next s := by
  refine (exec_laneLolPersist n fail s).trans (s.run_same ?_)
  obtain h | h := h
  · exact (congrArg (s.wk.on · _) ((s.dev.persists_iff n fail).1 h)).trans (Wk.on_false _ _)
  · unfold Wk.on
    split
    · exact Wk.retireLane_none h
    · rfl

theorem laneLolPersist_retires {m : Nat} (h : ¬ s.dev.persists n fail) (hm : s.dev.spareOf n = some m) :
    exec (.laneLolPersist n fail) s = .next (s.settleWk s.vault ((s.wk.up (·.relieved n m)).raise 35 0 n).olgSync) := by
  have retires := Bool.eq_true_of_not_eq_false (mt (s.dev.persists_iff n fail).2 h)
  have work : s.wk.on (fail && s.wk.d.rdB F.SYS_LRET_EN && s.wk.d.rdB (F.LANE_STAT_LOL n) && !s.wk.d.rdB (F.LANE_STAT_LOS n)) (·.retireLane n) = s.wk.retireLane n := if_pos retires
  rw [exec_laneLolPersist, execLaneLolPersist, State.run_next, work, Wk.retireLane_some (w := s.wk) hm]

theorem laneLolPersist_relieves {m : Nat} (hn : n < 24) (h : ¬ s.dev.persists n fail) (hm : s.dev.spareOf n = some m) :
    Leaves (.laneLolPersist n fail) s fun d ms => (d.lane n).retired = true ∧ d.rd (F.LANE_STAT_PHASE n) = 0 ∧ d.role n = 0 ∧
      d.rd (F.LANE_CTRL_ROLE m) = s.dev.rd (F.LANE_CTRL_ROLE n) ∧ d.rd (F.LANE_CTRL_STR m) = s.dev.rd (F.LANE_CTRL_STR n) ∧ d.rd (F.LANE_CTRL_END m) = s.dev.rd (F.LANE_CTRL_END n) ∧
      (s.dev.inService n = true → d.rd (F.LANE_STAT_PHASE m) = 3 ∧ d.rd (F.LANE_STAT_RATE m) = s.dev.rd (F.LANE_STAT_RATE n)) ∧
      ∃ l : List Msg, (∀ x ∈ l, x.tag = (99, 0, 0)) ∧ ms.map Msg.tag = (35, 0, n) :: l.map Msg.tag := by
  obtain ⟨hlt, hne⟩ := Dev.spareOf_some hm
  obtain ⟨retired, phase, role, ctrlRole, ctrlStr, ctrlEnd⟩ := s.dev.relieved_retires hne
  have lanes : (s.dev.relieved n m).SameLanes ((s.wk.up (·.relieved n m)).raise 35 0 n).olgSync.d :=
    .of_laneView (Wk.keeps_olgSync (S := anySource) offReplies_laneView.toOffPorts (fun _ _ => rfl) trivial _).dev
  obtain ⟨ctrlRole', ctrlStr', ctrlEnd'⟩ := lanes.ends.ctrl m
  obtain ⟨l, hl, htag⟩ := Wk.adds_olgSync ((s.wk.up (·.relieved n m)).raise 35 0 n)
  refine ⟨_, laneLolPersist_retires h hm, (lanes.ends.retired n).trans retired, (lanes.lane n hn).phase.trans phase, (lanes.ends.role n).trans role,
    ctrlRole'.trans ctrlRole, ctrlStr'.trans ctrlStr, ctrlEnd'.trans ctrlEnd, fun hs => ?_, l, htag, ?_⟩
  · obtain ⟨phaseAt, rateAt⟩ := s.dev.relieved_serves hlt hne hs
    exact ⟨(lanes.lane m hlt).phase.trans phaseAt, ((lanes.lane m hlt).rd _ (laneRate_ofLane m)).trans rateAt⟩
  · rw [hl, List.map_append, Wk.raise_tags]
    rfl

end

/-- Settles O40: LOS and LOL by their common row, and retirement by what the SPARE lane takes over. -/
theorem lossOfSignalTakesALaneDown : Obligations.LossOfSignalTakesALaneDown := by
  refine ⟨fun s n hn => ⟨fun h => ?_, fun h hs => ?_, fun h hs hr => ?_⟩, fun s n => ⟨laneLosDeassert_clears s n, laneLolDeassert_clears s n⟩, fun s n fail hn => ⟨fun h => ?_, fun m h hm => ?_⟩⟩
  · exact ⟨lossRow_again (los := true) (not_not.2 h), lossRow_again (los := false) (not_not.2 h)⟩
  · exact ⟨lossRow_rests true hn h hs, lossRow_rests false hn h hs⟩
  · exact ⟨lossRow_falls true hn h hs hr, lossRow_falls false hn h hs hr⟩
  · refine laneLolPersist_stays ?_
    rwa [Dev.persists, or_assoc, or_assoc, or_assoc]
  · refine laneLolPersist_relieves hn (fun hp => h ?_) hm
    rw [← or_assoc, ← or_assoc, ← or_assoc]
    exact .inl (by rwa [or_assoc, or_assoc])

end Sys2Proof.Machine

/-! Capability sets at the two ends of a link (R71 to R76, Table 3-3). -/
namespace Sys2Proof.Machine

/-! ## Sets put out -/

section
variable (d : Dev) (n : Nat) (k : SetKind) (b : List Byte)

theorem Dev.sendSet_os : tget [] (d.sendSet n k b).os n = b := by
  unfold Dev.sendSet
  exact tget_tput_self ([] : List Byte) d.os n b

theorem Dev.sendSet_lane (m : Nat) : (d.sendSet n k b).lane m = d.lane m := rfl
theorem Dev.sendSet_sameEnds : d.SameEnds (d.sendSet n k b) := ⟨fun _ => rfl, rfl, fun _ _ _ => rfl⟩

theorem Dev.sendSetFor_os (ns : Nat) : tget [] (d.sendSetFor n k b ns).os n = b := by
  unfold Dev.sendSetFor
  exact tget_tput_self ([] : List Byte) d.os n b

theorem Dev.sendSetFor_lane (ns m : Nat) : (d.sendSetFor n k b ns).lane m = d.lane m := rfl
theorem Dev.sendSetFor_sameEnds (ns : Nat) : d.SameEnds (d.sendSetFor n k b ns) := ⟨fun _ => rfl, rfl, fun _ _ _ => rfl⟩

end

/-! ## A link that comes up -/

/-- A link that is up, as its lane shows it (R73). -/
def Dev.linkedHere (d : Dev) (n : Nat) : Dev := (d.wr (F.LANE_STAT_PHASE n) 2).setLane n { d.lane n with bring := .none }

theorem Dev.linkedHere_phase (d : Dev) (n : Nat) : (d.linkedHere n).rd (F.LANE_STAT_PHASE n) = 2 := (Dev.setLane_rd _ _ _ _).trans (Dev.wr_rd _ _ _)
theorem Dev.linkedHere_rd (d : Dev) (n : Nat) {f : Fld} (h : f.key ≠ (F.LANE_STAT_PHASE n).key) : (d.linkedHere n).rd f = d.rd f := (Dev.setLane_rd _ _ _ _).trans (Dev.wr_rd_ne _ _ h)

theorem Dev.linkedHere_sameEnds (d : Dev) (n : Nat) : d.SameEnds (d.linkedHere n) := (Dev.SameEnds.phase n 2).trans (.setLane n rfl)

theorem Dev.rateReply_lanes (d : Dev) (n : Nat) : d.SameLanes (d.rateReply n) := .of_laneView (Dev.settle_keeps offReplies_laneView d _ _)

/-- The lane at the other end of an A end's strand is another lane. -/
theorem Dev.strandLane_ne {d : Dev} {n m : Nat} (ha : d.aEnd n = true) (hr : d.role n = 1) (h : d.strandLane (d.rd (F.LANE_CTRL_STR n)) true = some m) : m ≠ n :=
  Dev.mateOf_ne ha ((if_pos hr).trans h)

/-- Besides, a link that comes up shows at the lane of the B end, at the strand, and in the replies that waited (R73). -/
theorem Dev.linkUp_ind {P : Dev → Prop} {d : Dev} {n : Nat} (ha : d.aEnd n = true) (h0 : P (d.linkedHere n))
    (strand : ∀ {e : Dev} {f : Fld} {v : Nat}, f.OfStrand → P e → P (e.wr f v))
    (mate : ∀ {e : Dev} {m v : Nat} {f : Fld}, m ≠ n → f ∈ [F.LANE_STAT_PHASE m, F.LANE_STAT_RATE m] → P e → P (e.wr f v))
    (ends : ∀ {e : Dev} {s : Nat}, P e → P (e.strandEnds s)) (reply : ∀ {e : Dev}, P e → P (e.rateReply n)) : P (d.linkUp n) := by
  have ha' : (d.linkedHere n).aEnd n = true := ((d.linkedHere_sameEnds n).aEnd n).trans ha
  unfold Dev.linkUp
  extract_lets x e serves str other whole marked shown
  have h0 : P e := h0
  have ha' : e.aEnd n = true := ha'
  clear_value serves e
  have hother (hr : e.role n = 1) : P other := by
    unfold other
    split
    next m hs =>
      have hne := Dev.strandLane_ne ha' hr hs
      split
      · exact mate hne (by simp) (mate hne (by simp) h0)
      · exact strand (strandBroken_ofStrand _) (mate hne (by simp) h0)
    next => exact h0
  clear_value whole other
  refine reply ?_
  unfold shown marked
  split
  next hr =>
    refine ends ?_
    split
    · exact strand (strandBreak_ofStrand _) (strand (strandBroken_ofStrand _) (hother hr))
    · exact hother hr
  next => exact h0

theorem Dev.linkUp_sameEnds {d : Dev} {n : Nat} (ha : d.aEnd n = true) : d.SameEnds (d.linkUp n) :=
  Dev.linkUp_ind ha (d.linkedHere_sameEnds n) (fun hf h => h.trans (.wr_strand hf _)) (fun _ hf h => by
    simp only [List.mem_cons, List.not_mem_nil, or_false] at hf
    obtain rfl | rfl := hf
    · exact h.trans (.phase _ _)
    · exact h.trans (.rate _ _)) (fun h => h.trans (Dev.SameLanes.strandEnds _ _).ends) fun h => h.trans (Dev.rateReply_lanes _ n).ends

/-- Of the lane itself, nothing more. -/
theorem Dev.linkUp_sameLane {d : Dev} {n : Nat} (hn : n < 24) (ha : d.aEnd n = true) : (d.linkedHere n).SameLane n (d.linkUp n) :=
  Dev.linkUp_ind ha (.refl _) (fun hf h => h.trans (.wr_strand hn hf _)) (fun hne hf h => h.trans (.wr_lane (laneStat_ofLane _ _ (by simp at hf ⊢; tauto)) hne.symm _))
    (fun h => h.trans ((Dev.SameLanes.strandEnds _ _).lane n hn)) fun h => h.trans ((Dev.rateReply_lanes _ n).lane n hn)

/-! ## The A end -/

/-- What follows where both ends allow a further rate, and where not (R73). -/
def Dev.GoesOn (d e : Dev) (n rates : Nat) : Prop :=
  if d.rd (F.LANE_STAT_RATE n) < (d.lane n).cap ∧ bitOf rates (d.rd (F.LANE_STAT_RATE n) + 1) = true then
    (e.lane n).bring = .stepping (d.rd (F.LANE_STAT_RATE n) + 1) ∧ e.rd (F.LANE_STAT_PHASE n) = d.rd (F.LANE_STAT_PHASE n) ∧
      tget [] e.os n = d.capOf n 1 (d.rd (F.LANE_STAT_RATE n) + 1) false
  else (e.lane n).bring = .none ∧ e.rd (F.LANE_STAT_PHASE n) = 2

/-- What brings a lane to the next step or up: its ends, its other fields, its hops and the run state are left. -/
structure Dev.Advanced (d e : Dev) (n : Nat) : Prop where
  ends : d.SameEnds e
  run : e.run = d.run
  hops0 : (e.lane n).hops0 = (d.lane n).hops0
  rd : ∀ f : Fld, f.OfLane n → f.key ≠ (F.LANE_STAT_PHASE n).key → e.rd f = d.rd f

section
variable {d : Dev} {n : Nat} (hn : n < 24) (ha : d.aEnd n = true)
include hn ha

theorem Dev.linkUp_up : ((d.linkUp n).lane n).bring = .none ∧ (d.linkUp n).rd (F.LANE_STAT_PHASE n) = 2 ∧ tget [] (d.linkUp n).os n = tget [] d.os n := by
  have here := Dev.linkUp_sameLane hn ha
  refine ⟨?_, here.phase.trans (d.linkedHere_phase n), here.os⟩
  rw [here.lane, Dev.linkedHere, Dev.setLane_lane]

theorem Dev.linkUp_advanced : d.Advanced (d.linkUp n) n := by
  have here := Dev.linkUp_sameLane hn ha
  refine ⟨Dev.linkUp_sameEnds ha, here.run, ?_, fun f hf hp => (here.rd f hf).trans (d.linkedHere_rd n hp)⟩
  rw [here.lane, Dev.linkedHere, Dev.setLane_lane]

/-- A STEP to the next rate, or the link is up (R73). -/
theorem Dev.stepOrUp_goesOn : d.GoesOn (d.stepOrUp n) n (d.rd (F.LANE_STAT_RATES n)) := by
  unfold Dev.GoesOn Dev.stepOrUp
  dsimp only
  split
  · exact ⟨by rw [Dev.sendSetFor_lane, Dev.setLane_lane], rfl, Dev.sendSetFor_os _ _ _ _ _⟩
  · obtain ⟨bring, phase, -⟩ := Dev.linkUp_up hn ha
    exact ⟨bring, phase⟩

theorem Dev.stepOrUp_advanced : d.Advanced (d.stepOrUp n) n := by
  unfold Dev.stepOrUp
  dsimp only
  split
  · have ends : d.SameEnds (d.setLane n { d.lane n with bring := .stepping (d.rd (F.LANE_STAT_RATE n) + 1) }) := .setLane n rfl
    exact ⟨ends.trans (Dev.sendSetFor_sameEnds _ _ _ _ _), rfl, by rw [Dev.sendSetFor_lane, Dev.setLane_lane], fun _ _ _ => rfl⟩
  · exact Dev.linkUp_advanced hn ha

/-- Where no STEP follows, the set that the lane puts out stays. -/
theorem Dev.stepOrUp_os (h : ((d.stepOrUp n).lane n).bring = .none) : tget [] (d.stepOrUp n).os n = tget [] d.os n := by
  unfold Dev.stepOrUp at h ⊢
  dsimp only at h ⊢
  split
  next hc =>
    rw [if_pos hc, Dev.sendSetFor_lane, Dev.setLane_lane] at h
    exact nomatch h
  next =>
    obtain ⟨-, -, os⟩ := Dev.linkUp_up hn ha
    exact os

/-- A returned OFFER is noted of the B end beside (R72). -/
theorem Dev.offerBack_spec : d.SameEnds (d.offerBack n) ∧ ∃ b, (d.setLane n { d.lane n with bServes := b }).SameLane n (d.offerBack n) := by
  have same : d.SameEnds d ∧ ∃ b, (d.setLane n { d.lane n with bServes := b }).SameLane n d :=
    ⟨.refl d, (d.lane n).bServes, (Dev.setLane_lane _ _ _).symm, rfl, rfl, fun _ _ => rfl⟩
  unfold Dev.offerBack
  split
  · exact same
  next hr =>
    dsimp only
    split
    next m hs =>
      split
      · exact same
      · have hne := Dev.strandLane_ne ha (not_not.1 hr) hs
        have ends : d.SameEnds (d.setLane n { d.lane n with bServes := false }) := .setLane n rfl
        exact ⟨(ends.trans (.phase m 0)).trans (.wr_strand (strandBroken_ofStrand _) 1), false,
          (Dev.SameLane.wr_lane (lanePhase_ofLane m) hne.symm 0).trans (.wr_strand hn (strandBroken_ofStrand _) 1)⟩
    next => exact same

end

/-- An OFFER is recorded (R73). -/
def Dev.offered (d : Dev) (n rates hops : Nat) : Dev :=
  ((d.wr (F.LANE_STAT_RATES n) rates).wr (F.LANE_STAT_HOPS n) hops).setLane n { d.lane n with hops0 := some hops }

section
variable {d : Dev} {n : Nat}

theorem Dev.offered_sameEnds (d : Dev) (n rates hops : Nat) : d.SameEnds (d.offered n rates hops) :=
  (Dev.SameEnds.trans (.wr_lane (laneStat_ofLane n _ (by simp)) (by simp only [F.LANE_STAT_RATES]; omega) rates)
    (.wr_lane (laneStat_ofLane n _ (by simp)) (by simp only [F.LANE_STAT_HOPS]; omega) hops)).trans (.setLane n rfl)

theorem laneOffer_ne (n : Nat) : ∀ f ∈ [F.LANE_STAT_PHASE n, F.LANE_STAT_RATE n], f.key ≠ (F.LANE_STAT_RATES n).key ∧ f.key ≠ (F.LANE_STAT_HOPS n).key := by
  simp only [List.forall_mem_cons, Fld.key, F.LANE_STAT_PHASE, F.LANE_STAT_RATE, F.LANE_STAT_RATES, F.LANE_STAT_HOPS]
  exact ⟨by omega, by omega, by simp⟩

theorem Dev.offered_rd (d : Dev) {n : Nat} (rates hops : Nat) {f : Fld} (h : f ∈ [F.LANE_STAT_PHASE n, F.LANE_STAT_RATE n]) : (d.offered n rates hops).rd f = d.rd f :=
  (Dev.wr_rd_ne _ _ (laneOffer_ne n f h).2).trans (Dev.wr_rd_ne _ _ (laneOffer_ne n f h).1)

theorem Dev.offered_rates (d : Dev) (n rates hops : Nat) : (d.offered n rates hops).rd (F.LANE_STAT_RATES n) = rates % 16 ∧ (d.offered n rates hops).rd (F.LANE_STAT_HOPS n) = hops % 256 := by
  have ne : (F.LANE_STAT_RATES n).key ≠ (F.LANE_STAT_HOPS n).key := by
    simp only [Fld.key, F.LANE_STAT_RATES, F.LANE_STAT_HOPS]
    omega
  exact ⟨(Dev.wr_rd_ne _ _ ne).trans (Dev.wr_rd _ _ _), Dev.wr_rd _ _ _⟩

end

/-! ## CAP_RECEIVE -/

/-- A set that is taken: of six bytes, with its check byte, on a lane with such a role (R71). -/
def Dev.takesSet (d : Dev) (n : Nat) (b : List Byte) : Prop :=
  b.length = 6 ∧ crc8 (b.take 5) = (b.getD 5 0).toNat ∧ (d.role n = 1 ∨ d.role n = 2 ∨ d.role n = 3)

/-- RATES of a set. -/
def capRates (b : List Byte) : Nat := (b.getD 1 0).toNat % 16
/-- HOPS of a set. -/
def capHops (b : List Byte) : Nat := (b.getD 2 0).toNat
/-- STATE of a set: 0 OFFER, 1 STEP, 2 REPORT, 3 CONFIRM. -/
def capState (b : List Byte) : Nat := (b.getD 4 0).toNat % 4

section
variable {w : Wk} {n : Nat} {b : List Byte}

theorem Wk.capReceive_drops (h : ¬ w.d.takesSet n b) : w.capReceive n b = w := by
  unfold Dev.takesSet at h
  exact if_pos (by simp only [List.contains_cons, List.contains_nil, Bool.or_false, Bool.or_eq_true, beq_iff_eq]; tauto)

theorem Wk.capReceive_takes (h : w.d.takesSet n b) : w.capReceive n b = if w.d.aEnd n then w.capAtA n b else w.up (·.capAtB n b) := by
  obtain ⟨hlen, hcrc, hrole⟩ := h
  exact if_neg (by simp only [List.contains_cons, List.contains_nil, Bool.or_false, Bool.or_eq_true, beq_iff_eq]; tauto)

/-- The device when a first OFFER has come back (R72, R73). -/
def Dev.offerTaken (d : Dev) (n : Nat) (b : List Byte) : Dev := (d.offered n (capRates b) (capHops b)).offerBack n

theorem Wk.capAtA_firstOffer (hb : (w.d.lane n).bring = .offer false) (hs : capState b = 0) : w.capAtA n b = w.up fun d => (d.offerTaken n b).stepOrUp n := by
  unfold capState at hs
  unfold Wk.capAtA
  simp only [hb, hs]
  rw [if_neg fun ⟨hf, _⟩ => nomatch hf]
  exact congrArg w.up (funext fun d => if_neg (by decide))

theorem Wk.capAtA_again (hb : (w.d.lane n).bring = .offer true) (hs : capState b = 0) (hh : (w.d.lane n).hops0 = some (capHops b)) :
    w.capAtA n b = w.up fun d => (d.offered n (capRates b) (capHops b)).linkUp n := by
  unfold capState at hs
  unfold Wk.capAtA
  simp only [hb, hs]
  rw [if_neg fun ⟨_, hne⟩ => hne hh]
  exact congrArg w.up (funext fun d => if_pos trivial)

theorem Wk.capAtA_lastOffer (hb : (w.d.lane n).bring = .offer true) (hs : capState b = 0) (hh : (w.d.lane n).hops0 ≠ some (capHops b)) : w.capAtA n b = w.stepFail n := by
  unfold capState at hs
  unfold Wk.capAtA
  simp only [hb, hs]
  exact if_pos ⟨trivial, hh⟩

theorem Wk.capAtA_report {q : Nat} (hb : (w.d.lane n).bring = .reporting q) (hs : capState b = 2) :
    w.capAtA n b = if 128 ≤ (b.getD 4 0).toNat ∧ (w.d.lane n).hops0 = some (capHops b) then w.up fun d => (d.sendCap n 3 q false).stepOrUp n
      else w.up fun d => d.setLane n { d.lane n with bring := .falling } := by
  unfold capState at hs
  unfold Wk.capAtA
  simp only [hb, hs, ge_iff_le, decide_eq_true_eq]
  rfl

theorem Wk.capAtA_other (ho : capState b ≠ 0 ∨ ∀ f, (w.d.lane n).bring ≠ .offer f) (hr : capState b ≠ 2 ∨ ∀ q, (w.d.lane n).bring ≠ .reporting q) : w.capAtA n b = w := by
  unfold capState at ho hr
  unfold Wk.capAtA
  dsimp only
  split
  next hb hs => exact absurd hb (ho.resolve_left (not_not.2 hs) _)
  next hb hs => exact absurd hb (hr.resolve_left (not_not.2 hs) _)
  next => rfl

end

/-! ## The A end's answers -/

theorem capHops_lt (b : List Byte) : capHops b < 256 := (b.getD 2 0).isLt
theorem capRates_lt (b : List Byte) : capRates b < 16 := Nat.mod_lt _ (by decide)

/-- A device that shows the same lane, ends and rate goes on alike. -/
theorem Dev.GoesOn.of_same {d u e : Dev} {n rates : Nat} (h : u.GoesOn e n rates) (ends : d.SameEnds u) (rate : u.rd (F.LANE_STAT_RATE n) = d.rd (F.LANE_STAT_RATE n))
    (cap : (u.lane n).cap = (d.lane n).cap) (phase : u.rd (F.LANE_STAT_PHASE n) = d.rd (F.LANE_STAT_PHASE n)) : d.GoesOn e n rates := by
  unfold Dev.GoesOn at h ⊢
  rwa [rate, cap, phase, ends.capOf] at h

section
variable {d : Dev} {n : Nat} {b : List Byte}

/-- What has been noted of a returned OFFER. -/
theorem Dev.offerTaken_spec (hn : n < 24) (ha : d.aEnd n = true) :
    let e := d.offerTaken n b
    d.SameEnds e ∧ e.run = d.run ∧ (e.lane n).cap = (d.lane n).cap ∧ (e.lane n).hops0 = some (capHops b) ∧ e.rd (F.LANE_STAT_RATES n) = capRates b ∧ e.rd (F.LANE_STAT_HOPS n) = capHops b ∧
      ∀ f ∈ [F.LANE_STAT_PHASE n, F.LANE_STAT_RATE n], e.rd f = d.rd f := by
  have offered := d.offered_sameEnds n (capRates b) (capHops b)
  obtain ⟨ends, serves, back⟩ := Dev.offerBack_spec hn ((offered.aEnd n).trans ha)
  obtain ⟨rates, hops⟩ := d.offered_rates n (capRates b) (capHops b)
  refine ⟨offered.trans ends, back.run, ?_, ?_, ?_, ?_, fun f hf => ?_⟩
  · rw [Dev.offerTaken, back.lane, Dev.setLane_lane, Dev.offered, Dev.setLane_lane]
  · rw [Dev.offerTaken, back.lane, Dev.setLane_lane, Dev.offered, Dev.setLane_lane]
  · rw [Dev.offerTaken, back.rd _ (laneStat_ofLane n _ (by simp)), Dev.setLane_rd, rates, Nat.mod_eq_of_lt (capRates_lt b)]
  · rw [Dev.offerTaken, back.rd _ (laneStat_ofLane n _ (by simp)), Dev.setLane_rd, hops, Nat.mod_eq_of_lt (capHops_lt b)]
  · rw [Dev.offerTaken, back.rd f (laneStat_ofLane n _ (by simp at hf ⊢; tauto)), Dev.setLane_rd, d.offered_rd _ _ hf]

end

section
variable {s : State} {n : Nat} {b : List Byte} (hn : n < 24) (ht : s.dev.takesSet n b) (ha : s.dev.aEnd n = true)

theorem capReceive_drops (h : ¬ s.dev.takesSet n b) : exec (.capReceive n b) s = .next s := (exec_capReceive n b s).trans (s.run_same (Wk.capReceive_drops h))

include ht ha

theorem capReceive_atA {f : Dev → Dev} (h : s.wk.capAtA n b = s.wk.up f) (same : s.dev.SameEnds (f s.dev)) : exec (.capReceive n b) s = .next (s.withDev (f s.dev)) :=
  (exec_capReceive n b s).trans (State.run_leaves ((Wk.capReceive_takes (w := s.wk) ht).trans ((if_pos ha).trans h)) same)

include hn

theorem capReceive_firstOffer (hs : capState b = 0) (hb : (s.dev.lane n).bring = .offer false) :
    Does (.capReceive n b) s fun t => t.dev.rd (F.LANE_STAT_RATES n) = capRates b ∧ t.dev.rd (F.LANE_STAT_HOPS n) = capHops b ∧
      (t.dev.lane n).hops0 = some (capHops b) ∧ s.dev.GoesOn t.dev n (capRates b) ∧ t.vault = s.vault ∧ t.dev.run = s.dev.run := by
  obtain ⟨ends, run, cap, hops0, rates, hops, frame⟩ := Dev.offerTaken_spec (b := b) hn ha
  have ha' := (ends.aEnd n).trans ha
  have adv := Dev.stepOrUp_advanced hn ha'
  have goes := Dev.stepOrUp_goesOn hn ha'
  rw [rates] at goes
  have ne : (F.LANE_STAT_RATES n).key ≠ (F.LANE_STAT_PHASE n).key ∧ (F.LANE_STAT_HOPS n).key ≠ (F.LANE_STAT_PHASE n).key :=
    ⟨(laneOffer_ne n _ (by simp)).1.symm, (laneOffer_ne n _ (by simp)).2.symm⟩
  refine ⟨_, capReceive_atA ht ha (Wk.capAtA_firstOffer (w := s.wk) hb hs) (ends.trans adv.ends), (adv.rd _ (laneStat_ofLane n _ (by simp)) ne.1).trans rates,
    (adv.rd _ (laneStat_ofLane n _ (by simp)) ne.2).trans hops, adv.hops0.trans hops0, goes.of_same ends (frame _ (by simp)) cap (frame _ (by simp)), rfl, adv.run.trans run⟩

theorem capReceive_lastOffer (hs : capState b = 0) (hb : (s.dev.lane n).bring = .offer true) (hh : (s.dev.lane n).hops0 = some (capHops b)) :
    Does (.capReceive n b) s fun t => t.dev.rd (F.LANE_STAT_RATES n) = capRates b ∧ t.dev.rd (F.LANE_STAT_HOPS n) = capHops b ∧
      (t.dev.lane n).bring = .none ∧ t.dev.rd (F.LANE_STAT_PHASE n) = 2 ∧ t.dev.rd (F.LANE_STAT_RATE n) = s.dev.rd (F.LANE_STAT_RATE n) ∧ t.vault = s.vault ∧ t.dev.run = s.dev.run := by
  have ends := s.dev.offered_sameEnds n (capRates b) (capHops b)
  have ha' := (ends.aEnd n).trans ha
  have adv := Dev.linkUp_advanced hn ha'
  obtain ⟨bring, phase, -⟩ := Dev.linkUp_up hn ha'
  obtain ⟨rates, hops⟩ := s.dev.offered_rates n (capRates b) (capHops b)
  have rate : (F.LANE_STAT_RATE n).key ≠ (F.LANE_STAT_PHASE n).key := by rw [laneRate_key, lanePhase_key]; omega
  refine ⟨_, capReceive_atA ht ha (Wk.capAtA_again (w := s.wk) hb hs hh) (ends.trans adv.ends), ?_, ?_, bring, phase, ?_, rfl, adv.run⟩
  · rw [adv.rd _ (laneStat_ofLane n _ (by simp)) (laneOffer_ne n _ (by simp)).1.symm, rates, Nat.mod_eq_of_lt (capRates_lt b)]
  · rw [adv.rd _ (laneStat_ofLane n _ (by simp)) (laneOffer_ne n _ (by simp)).2.symm, hops, Nat.mod_eq_of_lt (capHops_lt b)]
  · rw [adv.rd _ (laneRate_ofLane n) rate, s.dev.offered_rd _ _ (by simp)]

omit hn in
theorem capReceive_otherHops (hs : capState b = 0) (hb : (s.dev.lane n).bring = .offer true) (hh : (s.dev.lane n).hops0 ≠ some (capHops b)) :
    Leaves (.capReceive n b) s fun d ms => d = s.dev.bringUp n (s.dev.lane n).cap ∧ ms.map Msg.tag = [(49, 0, n)] := by
  have fails : s.wk.capReceive n b = s.wk.stepFail n := (Wk.capReceive_takes (w := s.wk) ht).trans ((if_pos ha).trans (Wk.capAtA_lastOffer (w := s.wk) hb hs hh))
  exact ⟨s.wk.stepFail n, (exec_capReceive n b s).trans ((s.run_next _).trans (by rw [fails])), rfl, Wk.raise_tags _ _ _ _⟩

theorem capReceive_confirms {q : Nat} (hs : capState b = 2) (hb : (s.dev.lane n).bring = .reporting q) (hp : 128 ≤ (b.getD 4 0).toNat) (hh : (s.dev.lane n).hops0 = some (capHops b)) :
    Does (.capReceive n b) s fun t => s.dev.GoesOn t.dev n (s.dev.rd (F.LANE_STAT_RATES n)) ∧
      ((t.dev.lane n).bring = .none → tget [] t.dev.os n = s.dev.capOf n 3 q false) ∧ t.vault = s.vault ∧ t.dev.run = s.dev.run := by
  have ends : s.dev.SameEnds (s.dev.sendCap n 3 q false) := Dev.sendSet_sameEnds _ _ _ _
  have ha' := (ends.aEnd n).trans ha
  have adv := Dev.stepOrUp_advanced hn ha'
  refine ⟨_, capReceive_atA ht ha ((Wk.capAtA_report (w := s.wk) hb hs).trans (if_pos ⟨hp, hh⟩)) (ends.trans adv.ends), (Dev.stepOrUp_goesOn hn ha').of_same ends rfl rfl rfl,
    fun h => (Dev.stepOrUp_os hn ha' h).trans (Dev.sendCap_os _ _ _ _ _), rfl, adv.run⟩

omit hn in
theorem capReceive_fallsBack {q : Nat} (hs : capState b = 2) (hb : (s.dev.lane n).bring = .reporting q) (h : (b.getD 4 0).toNat < 128 ∨ (s.dev.lane n).hops0 ≠ some (capHops b)) :
    exec (.capReceive n b) s = .next (s.withDev (s.dev.setLane n { s.dev.lane n with bring := .falling })) :=
  capReceive_atA ht ha ((Wk.capAtA_report (w := s.wk) hb hs).trans (if_neg fun ⟨hp, hh⟩ => h.elim (by omega) fun h => h hh)) (.setLane n rfl)

omit hn in
theorem capReceive_ignores (ho : capState b ≠ 0 ∨ ∀ f, (s.dev.lane n).bring ≠ .offer f) (hr : capState b ≠ 2 ∨ ∀ q, (s.dev.lane n).bring ≠ .reporting q) :
    exec (.capReceive n b) s = .next s :=
  (exec_capReceive n b s).trans (s.run_same ((Wk.capReceive_takes (w := s.wk) ht).trans ((if_pos ha).trans (Wk.capAtA_other (w := s.wk) ho hr))))

end

/-! ## The B end -/

/-- The set that a B end turns round: a REPORT loses PASS where its own dwell failed (R72, R74). -/
def turnedSet (b : List Byte) (ok : Bool) : List Byte :=
  let body := if capState b = 2 ∧ !ok then b.take 4 ++ [BitVec.ofNat 8 2] else b.take 5
  body ++ [BitVec.ofNat 8 (crc8 body)]

/-- A set with its check byte comes back with the same bytes. -/
theorem turnedSet_same {b : List Byte} {ok : Bool} (hlen : b.length = 6) (hcrc : crc8 (b.take 5) = (b.getD 5 0).toNat) (h : capState b ≠ 2 ∨ ok = true) : turnedSet b ok = b := by
  have body : ¬ (capState b = 2 ∧ (!ok) = true) := by simpa [imp_iff_not_or] using h
  have last : b = b.take 5 ++ [b.getD 5 0] := by
    conv_lhs => rw [← List.take_append_drop 5 b]
    rw [List.drop_eq_getElem_cons (by omega), List.drop_eq_nil_of_le (by omega), List.getD_eq_getElem _ _ (by omega)]
  unfold turnedSet
  rw [if_neg body]
  dsimp only
  rw [hcrc, BitVec.ofNat_toNat, BitVec.setWidth_eq]
  exact last.symm

theorem turnedSet_fails {b : List Byte} (hlen : b.length = 6) (h : capState b = 2) : (turnedSet b false).take 4 = b.take 4 ∧ ((turnedSet b false).getD 4 0).toNat = 2 := by
  have four : (b.take 4).length = 4 := by simp [hlen]
  unfold turnedSet
  rw [if_pos ⟨h, rfl⟩]
  dsimp only
  rw [List.append_assoc]
  refine ⟨?_, ?_⟩
  · rw [List.take_append_of_le_length four.ge, List.take_take, Nat.min_self]
  · rw [List.getD_append_right _ _ _ _ four.le, four]
    rfl

/-- The phase of a B end by the A end beside it on this device: one that serves the strand alone keeps it at its own (R72). -/
def Dev.phaseBy (d : Dev) (a : Option Nat) (n v : Nat) : Dev :=
  match a with
  | some m => if (d.lane m).bServes then d.wr (F.LANE_STAT_PHASE n) v else d
  | none => d.wr (F.LANE_STAT_PHASE n) v

/-- What a set tells a B end beyond its turning round (R72, R73). -/
def Dev.heeds (d : Dev) (a : Option Nat) (n : Nat) (b : List Byte) : Dev :=
  if capState b = 0 then if a.isSome then d.wr (F.LANE_STAT_HOPS n) (capHops b) else ((d.wr (F.LANE_STAT_HOPS n) (capHops b)).phaseBy a n 2).rateReply n
  else if capState b = 1 then d.phaseBy a n 1
  else if capState b = 3 then (d.phaseBy a n 2).rateReply n else d

/-- A set of the lane's own strand (R72). -/
def Dev.ownStrand (d : Dev) (n : Nat) (b : List Byte) : Prop := d.role n ≠ 1 ∨ (b.getD 3 0).toNat / 16 = d.rd (F.LANE_CTRL_STR n)

/-- The device with a set turned round (R72). -/
def Dev.sendsBack (d : Dev) (n : Nat) (b : List Byte) : Dev := d.sendSet n .cap (turnedSet b (d.lane n).dwellOk)

theorem Dev.sendsBack_sameEnds (d : Dev) (n : Nat) (b : List Byte) : d.SameEnds (d.sendsBack n b) := Dev.sendSet_sameEnds _ _ _ _
theorem Dev.sendsBack_os (d : Dev) (n : Nat) (b : List Byte) : tget [] (d.sendsBack n b).os n = turnedSet b (d.lane n).dwellOk := Dev.sendSet_os _ _ _ _

/-- What is kept of a B end once it has turned a set round (R72, R73). -/
def Dev.turnedLane (d : Dev) (n : Nat) (b : List Byte) : LaneSt :=
  { d.lane n with turned := true, bring := if capState b = 1 then .stepping ((b.getD 3 0).toNat % 4) else if capState b = 2 then (d.lane n).bring else .none }

section
variable {d : Dev} {n : Nat} {b : List Byte}

theorem Dev.capAtB_foreign (h : ¬ d.ownStrand n b) : d.capAtB n b = d := by
  unfold Dev.ownStrand at h
  exact if_pos (by tauto)

theorem Dev.capAtB_rejoins (h : d.ownStrand n b) (hr : (d.lane n).rejoin = true) :
    d.capAtB n b = if capState b = 0 then (d.sendsBack n b).setLane n { d.lane n with bring := .rejoinOffer } else d.sendsBack n b := by
  unfold Dev.ownStrand at h
  exact (if_neg (by tauto)).trans (if_pos hr)

/-- The B end that has turned the set round. -/
def Dev.turns (d : Dev) (n : Nat) (b : List Byte) : Dev := (d.sendsBack n b).setLane n (d.turnedLane n b)

/-- The A end that a strand's B end has beside it on this device. -/
def Dev.aBeside (d : Dev) (n : Nat) (b : List Byte) : Option Nat := if d.role n = 1 then d.strandLane ((b.getD 3 0).toNat / 16) false else none

theorem Dev.capAtB_turns (h : d.ownStrand n b) (hr : (d.lane n).rejoin = false) : d.capAtB n b = (d.turns n b).heeds ((d.turns n b).aBeside n b) n b := by
  unfold Dev.ownStrand at h
  refine (if_neg (by tauto)).trans ((if_neg (ne_true_of_eq_false hr)).trans ?_)
  rfl

/-- A B end heeds a set by its phase, its hops and a reply (R72, R454). -/
theorem Dev.heeds_ind {P : Dev → Prop} {a : Option Nat} (h0 : P d) (wr : ∀ {e : Dev} {f : Fld} {v : Nat}, f ∈ [F.LANE_STAT_PHASE n, F.LANE_STAT_HOPS n] → P e → P (e.wr f v))
    (reply : ∀ {e : Dev}, P e → P (e.rateReply n)) : P (d.heeds a n b) := by
  have phase {e : Dev} {v : Nat} (he : P e) : P (e.phaseBy a n v) := by
    unfold Dev.phaseBy
    split
    · split
      · exact wr (by simp) he
      · exact he
    · exact wr (by simp) he
  unfold Dev.heeds
  split_ifs
  · exact wr (by simp) h0
  · exact reply (phase (wr (by simp) h0))
  · exact phase h0
  · exact reply (phase h0)
  · exact h0

/-- What a B end that heeds a set keeps. -/
structure Dev.Heeded (n : Nat) (d e : Dev) : Prop where
  ends : d.SameEnds e
  lane : e.lane n = d.lane n
  os : tget [] e.os n = tget [] d.os n
  run : e.run = d.run
  rate : e.rd (F.LANE_STAT_RATE n) = d.rd (F.LANE_STAT_RATE n)

theorem Dev.Heeded.wr {e : Dev} {f : Fld} (hf : f ∈ [F.LANE_STAT_PHASE n, F.LANE_STAT_HOPS n]) (v : Nat) (h : d.Heeded n e) : d.Heeded n (e.wr f v) := by
  have stat : f.OfLane n ∧ f.addr ≠ 0x20000 + n * 4096 ∧ (F.LANE_STAT_RATE n).key ≠ f.key := by
    simp only [List.mem_cons, List.not_mem_nil, or_false] at hf
    obtain rfl | rfl := hf
    · exact ⟨lanePhase_ofLane n, by simp only [F.LANE_STAT_PHASE]; omega, by rw [laneRate_key, lanePhase_key]; omega⟩
    · exact ⟨laneStat_ofLane n _ (by simp), by simp only [F.LANE_STAT_HOPS]; omega, (laneOffer_ne n _ (by simp)).2⟩
  obtain ⟨hof, haddr, hne⟩ := stat
  exact ⟨h.ends.trans (.wr_lane hof haddr v), h.lane, h.os, h.run, (Dev.wr_rd_ne e v hne).trans h.rate⟩

theorem Dev.Heeded.reply {e : Dev} (h : d.Heeded n e) : d.Heeded n (e.rateReply n) := by
  have view : (e.rateReply n).laneView = e.laneView := Dev.settle_keeps offReplies_laneView e _ _
  have same : e.SameLane n (e.rateReply n) := .of_laneView view
  exact ⟨h.ends.trans (.of_laneView view), same.lane.trans h.lane, same.os.trans h.os, same.run.trans h.run, (same.rd _ (laneRate_ofLane n)).trans h.rate⟩

theorem Dev.heeds_heeded (d : Dev) (a : Option Nat) (n : Nat) (b : List Byte) : d.Heeded n (d.heeds a n b) :=
  Dev.heeds_ind ⟨.refl d, rfl, rfl, rfl, rfl⟩ (fun hf h => h.wr hf _) fun h => h.reply

theorem Dev.rateReply_rd (d : Dev) (n : Nat) (f : Fld) : (d.rateReply n).rd f = d.rd f := Dev.settle_keeps (g := (Dev.rd · f)) ⟨OffPorts.rd f, fun _ _ => rfl⟩ d _ _

theorem Dev.heeds_hops (d : Dev) (a : Option Nat) (h : capState b = 0) : (d.heeds a n b).rd (F.LANE_STAT_HOPS n) = capHops b := by
  have hops : (d.wr (F.LANE_STAT_HOPS n) (capHops b)).rd (F.LANE_STAT_HOPS n) = capHops b := (Dev.wr_rd _ _ _).trans (Nat.mod_eq_of_lt (capHops_lt b))
  unfold Dev.heeds
  rw [if_pos h]
  cases a with
  | some m => exact hops
  | none => exact (Dev.rateReply_rd _ _ _).trans ((Dev.wr_rd_ne _ 2 (laneOffer_ne n _ (by simp)).2.symm).trans hops)

/-- On a link with no A end beside it PHASE follows the sets (R72). -/
theorem Dev.heeds_phase (d : Dev) : (d.heeds none n b).rd (F.LANE_STAT_PHASE n) = if capState b = 1 then 1 else if capState b = 2 then d.rd (F.LANE_STAT_PHASE n) else 2 := by
  have lt : capState b < 4 := Nat.mod_lt _ (by decide)
  have phase (d : Dev) (v : Nat) : (d.phaseBy none n v).rd (F.LANE_STAT_PHASE n) = v % 4 := Dev.wr_rd _ _ _
  have cases : capState b = 0 ∨ capState b = 1 ∨ capState b = 2 ∨ capState b = 3 := by omega
  unfold Dev.heeds
  obtain h | h | h | h := cases <;> simp [h, phase, Dev.rateReply_rd]

end

/-! ## The B end's answers -/

section
variable {s : State} {n : Nat} {b : List Byte} (ht : s.dev.takesSet n b) (hb : s.dev.aEnd n = false)
include ht hb

theorem capReceive_atB (same : s.dev.SameEnds (s.dev.capAtB n b)) : exec (.capReceive n b) s = .next (s.withDev (s.dev.capAtB n b)) :=
  (exec_capReceive n b s).trans (State.run_leaves (e := s.dev.capAtB n b) ((Wk.capReceive_takes (w := s.wk) ht).trans (if_neg (ne_true_of_eq_false hb))) same)

theorem capReceive_foreign (h : ¬ s.dev.ownStrand n b) : exec (.capReceive n b) s = .next s := by
  have kept := Dev.capAtB_foreign h
  refine (capReceive_atB ht hb ?_).trans (congrArg (fun d => Host.Outcome.next (s.withDev d)) kept)
  rw [kept]
  exact .refl _

theorem capReceive_rejoins (h : s.dev.ownStrand n b) (hr : (s.dev.lane n).rejoin = true) :
    Does (.capReceive n b) s fun t => t.dev.lane n = { s.dev.lane n with bring := if capState b = 0 then .rejoinOffer else (s.dev.lane n).bring } ∧
      (capState b ≠ 2 ∨ (s.dev.lane n).dwellOk = true → tget [] t.dev.os n = b) ∧ t.dev.regs = s.dev.regs ∧ t.vault = s.vault ∧ t.dev.run = s.dev.run := by
  have eq := Dev.capAtB_rejoins h hr
  obtain ⟨hlen, hcrc, -⟩ := id ht
  have sent := s.dev.sendsBack_sameEnds n b
  have back (hs : capState b ≠ 2 ∨ (s.dev.lane n).dwellOk = true) : tget [] (s.dev.sendsBack n b).os n = b :=
    (s.dev.sendsBack_os n b).trans (turnedSet_same hlen hcrc hs)
  by_cases h0 : capState b = 0
  · rw [if_pos h0] at eq
    refine ⟨_, capReceive_atB ht hb (eq ▸ sent.trans (.setLane n rfl)), ?_⟩
    rw [eq, if_pos h0]
    exact ⟨Dev.setLane_lane _ _ _, back, rfl, rfl, rfl⟩
  · rw [if_neg h0] at eq
    refine ⟨_, capReceive_atB ht hb (eq ▸ sent), ?_⟩
    rw [eq, if_neg h0]
    exact ⟨rfl, back, rfl, rfl, rfl⟩

theorem capReceive_turns (h : s.dev.ownStrand n b) (hr : (s.dev.lane n).rejoin = false) :
    Does (.capReceive n b) s fun t =>
      t.dev.lane n = s.dev.turnedLane n b ∧ (capState b ≠ 2 ∨ (s.dev.lane n).dwellOk = true → tget [] t.dev.os n = b) ∧
      (capState b = 2 → (s.dev.lane n).dwellOk = false → (tget [] t.dev.os n).take 4 = b.take 4 ∧ ((tget [] t.dev.os n).getD 4 0).toNat = 2) ∧
      (capState b = 0 → t.dev.rd (F.LANE_STAT_HOPS n) = capHops b) ∧
      (s.dev.role n ≠ 1 → t.dev.rd (F.LANE_STAT_PHASE n) = (if capState b = 1 then 1 else if capState b = 2 then s.dev.rd (F.LANE_STAT_PHASE n) else 2)) ∧
      t.dev.rd (F.LANE_STAT_RATE n) = s.dev.rd (F.LANE_STAT_RATE n) ∧ t.vault = s.vault ∧ t.dev.run = s.dev.run := by
  obtain ⟨hlen, hcrc, -⟩ := id ht
  have sent := s.dev.sendsBack_sameEnds n b
  have turned : s.dev.SameEnds (s.dev.turns n b) := sent.trans (.setLane n rfl)
  have os : tget [] (s.dev.turns n b).os n = turnedSet b (s.dev.lane n).dwellOk := s.dev.sendsBack_os n b
  have lane : (s.dev.turns n b).lane n = s.dev.turnedLane n b := Dev.setLane_lane _ _ _
  have keeps := Dev.heeds_heeded (s.dev.turns n b) ((s.dev.turns n b).aBeside n b) n b
  have hops := Dev.heeds_hops (n := n) (b := b) (s.dev.turns n b) ((s.dev.turns n b).aBeside n b)
  have beside (hrole : s.dev.role n ≠ 1) : (s.dev.turns n b).aBeside n b = none := if_neg (by rwa [turned.role])
  have eq := Dev.capAtB_turns h hr
  refine ⟨_, capReceive_atB ht hb (eq ▸ turned.trans keeps.ends), ?_⟩
  rw [eq]
  refine ⟨keeps.lane.trans lane, fun hs => ?_, fun hs hd => ?_, hops, fun hrole => ?_, keeps.rate, rfl, keeps.run⟩
  · exact keeps.os.trans (os.trans (turnedSet_same hlen hcrc hs))
  · rw [keeps.os, os, hd]
    exact turnedSet_fails hlen hs
  · rw [beside hrole, Dev.heeds_phase]
    rfl

end

/-- Settles O42: a set that is not taken changes nothing; the A end's answers follow its bring-up, the B end's the state of the set. -/
theorem capSetsAreJudgedAtTheirEnd : Obligations.CapSetsAreJudgedAtTheirEnd := by
  refine ⟨fun s n b h => capReceive_drops fun ⟨hlen, hcrc, hrole⟩ => ?_, fun s n b hn hlen hcrc hrole ha => ?_, fun s n b hn hlen hcrc hrole hb => ?_⟩
  · obtain h | h | h := h
    exacts [h hlen, h hcrc, h hrole]
  · have ht : s.dev.takesSet n b := ⟨hlen, hcrc, hrole⟩
    exact ⟨fun hs hb => capReceive_firstOffer hn ht ha hs hb, fun hs hb hh => capReceive_lastOffer hn ht ha hs hb hh, fun hs hb hh => capReceive_otherHops ht ha hs hb hh,
      fun q hs hb hp hh => capReceive_confirms hn ht ha hs hb hp hh, fun q hs hb h => capReceive_fallsBack ht ha hs hb h, fun ho hr => capReceive_ignores ht ha ho hr⟩
  · have ht : s.dev.takesSet n b := ⟨hlen, hcrc, hrole⟩
    have own (h : decide (s.dev.role n = 1) = false ∨ (b.getD 3 0).toNat / 16 = s.dev.rd (F.LANE_CTRL_STR n)) : s.dev.ownStrand n b := h.imp_left of_decide_eq_false
    refine ⟨fun hs h => capReceive_foreign ht hb fun hown => ?_, fun h hr => capReceive_rejoins ht hb (own h) hr, fun h hr => ?_⟩
    · exact hown.elim (fun hne => hne (of_decide_eq_true hs)) h
    · obtain ⟨t, ht', lane, os, fails, hops, phase, rate, vault, run⟩ := capReceive_turns ht hb (own h) hr
      exact ⟨t, ht', lane, os, fails, hops, fun hs => phase (of_decide_eq_false hs), rate, vault, run⟩

end Sys2Proof.Machine

/-! Rejoin, loop tests, modules and link delays (R55, R76, R80 to R84, R125, R454). -/
namespace Sys2Proof.Machine

/-! ## LINK_REJOIN -/

/-- A lane on which a rejoin neither begins nor goes on (R76). -/
def Dev.noRejoin (d : Dev) (n : Nat) : Prop :=
  d.inService n = false ∨ d.rd (F.LANE_STAT_PHASE n) = 2 ∨ (d.lane n).bring = .rejoinWait ∨ d.rd (F.LANE_STAT_LOS n) = 1 ∨ d.rd (F.LANE_STAT_LOL n) = 1

/-- The OFFER of a rejoin, put out already where a retry or the other end has begun (R76). -/
def Dev.rejoinOffers (d : Dev) (n : Nat) : Dev := if (d.lane n).bring = .rejoinOffer then d else d.sendCap n 0 (d.rd (F.LANE_STAT_RATE n)) false

/-- A rejoin that has held its dwell, with its errors (R76). -/
def Dev.rejoinDwelt (d : Dev) (n errs : Nat) : Dev := ((d.rejoinOffers n).wr (F.LANE_ERR_DWELL_ERR n) (min errs 255)).wr (F.LANE_STAT_PHASE n) 3

/-- A rejoin whose dwell passed, which serves from the next boundary on (R76). -/
def Dev.rejoinPasses (d : Dev) (n : Nat) : Dev := d.setLane n { d.lane n with bring := .rejoined, out := .data, rejoin := true }
/-- A rejoin whose dwell failed, which waits for its retry (R76). -/
def Dev.rejoinFails (d : Dev) (n : Nat) : Dev := (d.inc (F.LANE_ERR_REJOIN_FAIL n)).setLane n { d.lane n with bring := .rejoinWait, out := .data, rejoin := true }

theorem Dev.rdB_bit {d : Dev} {f : Fld} (h : f.width = 1) : d.rdB f = true ↔ d.rd f = 1 := by
  have lt := d.rd_lt f
  rw [h] at lt
  simp only [Dev.rdB, decide_eq_true_eq]
  omega

theorem laneRejoin_ne (n : Nat) : (F.LANE_ERR_DWELL_ERR n).key ≠ (F.LANE_STAT_PHASE n).key ∧ (F.LANE_ERR_DWELL_ERR n).key ≠ (F.LANE_ERR_REJOIN_FAIL n).key ∧
    (F.LANE_STAT_PHASE n).key ≠ (F.LANE_ERR_REJOIN_FAIL n).key ∧ (F.LANE_BRING_ERR_LIM n).key ≠ (F.LANE_STAT_PHASE n).key ∧ (F.LANE_BRING_ERR_LIM n).key ≠ (F.LANE_ERR_DWELL_ERR n).key := by
  simp only [Fld.key, F.LANE_ERR_DWELL_ERR, F.LANE_STAT_PHASE, F.LANE_ERR_REJOIN_FAIL, F.LANE_BRING_ERR_LIM]
  omega

section
variable {s : State} {n errs : Nat} {lost : Bool}

theorem Dev.noRejoin_iff (d : Dev) (n : Nat) : d.noRejoin n ↔
    ((!d.inService n) = true ∨ d.rd (F.LANE_STAT_PHASE n) = 2 ∨ (d.lane n).bring = .rejoinWait ∨ d.rdB (F.LANE_STAT_LOS n) = true ∨ d.rdB (F.LANE_STAT_LOL n) = true) := by
  rw [Bool.not_eq_true', Dev.rdB_bit rfl, Dev.rdB_bit rfl]
  rfl

theorem linkRejoin_stays (h : s.dev.noRejoin n) : exec (.linkRejoin n errs lost) s = .next s :=
  (exec_linkRejoin n errs lost s).trans (State.run_upSame (if_pos ((s.dev.noRejoin_iff n).1 h)))

theorem Dev.rejoinOffers_sameEnds (d : Dev) (n : Nat) : d.SameEnds (d.rejoinOffers n) := .ite (fun _ => .refl d) fun _ => Dev.sendSet_sameEnds _ _ _ _

theorem Dev.rejoinDwelt_sameEnds (d : Dev) (n errs : Nat) : d.SameEnds (d.rejoinDwelt n errs) := ((d.rejoinOffers_sameEnds n).trans (.dwellErr n _)).trans (.phase n 3)

theorem Dev.rejoinFails_sameEnds (d : Dev) (n : Nat) : d.SameEnds (d.rejoinFails n) :=
  Dev.SameEnds.trans (.wr_lane (n := n) (by simp only [Fld.OfLane, F.LANE_ERR_REJOIN_FAIL]; omega) (by simp only [F.LANE_ERR_REJOIN_FAIL]; omega) _) (.setLane n rfl)

/-- What an OFFER at the present rate leaves of the registers. -/
theorem Dev.rejoinOffers_rd (d : Dev) (n : Nat) (f : Fld) : (d.rejoinOffers n).rd f = d.rd f := ite_keeps (g := (Dev.rd · f)) (fun _ => rfl) fun _ => rfl

theorem Dev.rejoinOffers_os (d : Dev) (n : Nat) :
    tget [] (d.rejoinOffers n).os n = if (d.lane n).bring = .rejoinOffer then tget [] d.os n else d.capOf n 0 (d.rd (F.LANE_STAT_RATE n)) false := by
  unfold Dev.rejoinOffers
  split
  · rfl
  · exact Dev.sendCap_os _ _ _ _ _

theorem Dev.rejoinDwelt_rd (d : Dev) (n errs : Nat) {f : Fld} (h : f.key ≠ (F.LANE_STAT_PHASE n).key) (h' : f.key ≠ (F.LANE_ERR_DWELL_ERR n).key) : (d.rejoinDwelt n errs).rd f = d.rd f :=
  (Dev.wr_rd_ne _ _ h).trans ((Dev.wr_rd_ne _ _ h').trans (d.rejoinOffers_rd n f))

theorem Dev.rejoinDwelt_phase (d : Dev) (n errs : Nat) : (d.rejoinDwelt n errs).rd (F.LANE_STAT_PHASE n) = 3 := Dev.wr_rd _ _ _

theorem Dev.rejoinDwelt_err (d : Dev) (n errs : Nat) : (d.rejoinDwelt n errs).rd (F.LANE_ERR_DWELL_ERR n) = min errs 255 := by
  obtain ⟨ne, -⟩ := laneRejoin_ne n
  exact (Dev.wr_rd_ne _ _ ne).trans ((Dev.wr_rd _ _ _).trans (Nat.mod_eq_of_lt (by simp only [F.LANE_ERR_DWELL_ERR]; omega)))

/-- A dwell passes or fails by the limit that stood before (R74, R76). -/
theorem linkRejoin_passes (h : ¬ s.dev.noRejoin n) (hl : lost = false) (he : errs ≤ s.dev.rd (F.LANE_BRING_ERR_LIM n)) :
    exec (.linkRejoin n errs lost) s = .next (s.withDev ((s.dev.rejoinDwelt n errs).rejoinPasses n)) := by
  obtain ⟨-, -, -, phase, dwell⟩ := laneRejoin_ne n
  have limit := s.dev.rejoinDwelt_rd n errs phase dwell
  refine (exec_linkRejoin n errs lost s).trans (State.run_sameEnds ?_ ((s.dev.rejoinDwelt_sameEnds n errs).trans (.setLane n rfl)))
  exact (if_neg (mt (s.dev.noRejoin_iff n).2 h)).trans (if_pos ⟨by simp [hl], he.trans limit.ge⟩)

theorem linkRejoin_fails (h : ¬ s.dev.noRejoin n) (hf : lost = true ∨ s.dev.rd (F.LANE_BRING_ERR_LIM n) < errs) :
    exec (.linkRejoin n errs lost) s = .next (s.withDev ((s.dev.rejoinDwelt n errs).rejoinFails n)) := by
  obtain ⟨-, -, -, phase, dwell⟩ := laneRejoin_ne n
  have limit := s.dev.rejoinDwelt_rd n errs phase dwell
  refine (exec_linkRejoin n errs lost s).trans (State.run_sameEnds ?_ ((s.dev.rejoinDwelt_sameEnds n errs).trans (Dev.rejoinFails_sameEnds _ n)))
  refine (if_neg (mt (s.dev.noRejoin_iff n).2 h)).trans (if_neg fun ⟨hl, he⟩ => ?_)
  have he := he.trans limit.le
  obtain hf | hf := hf
  · simp [hf] at hl
  · omega

theorem linkRejoin_rejoins (h : ¬ s.dev.noRejoin n) : Does (.linkRejoin n errs lost) s fun t => t.dev.rd (F.LANE_STAT_PHASE n) = 3 ∧ t.dev.rd (F.LANE_ERR_DWELL_ERR n) = min errs 255 ∧ t.vault = s.vault ∧
    tget [] t.dev.os n = (if (s.dev.lane n).bring = .rejoinOffer then tget [] s.dev.os n else s.dev.capOf n 0 (s.dev.rd (F.LANE_STAT_RATE n)) false) ∧
    (lost = false → errs ≤ s.dev.rd (F.LANE_BRING_ERR_LIM n) → (t.dev.lane n).bring = .rejoined ∧ t.dev.rd (F.LANE_ERR_REJOIN_FAIL n) = s.dev.rd (F.LANE_ERR_REJOIN_FAIL n)) ∧
    (lost = true ∨ s.dev.rd (F.LANE_BRING_ERR_LIM n) < errs → (t.dev.lane n).bring = .rejoinWait ∧ t.dev.rd (F.LANE_ERR_REJOIN_FAIL n) = min (s.dev.rd (F.LANE_ERR_REJOIN_FAIL n) + 1) 255) := by
  obtain ⟨-, dwellFail, phaseFail, -, -⟩ := laneRejoin_ne n
  have count := s.dev.rejoinDwelt_rd n errs phaseFail.symm dwellFail.symm
  have phase := s.dev.rejoinDwelt_phase n errs
  have err := s.dev.rejoinDwelt_err n errs
  by_cases ok : lost = false ∧ errs ≤ s.dev.rd (F.LANE_BRING_ERR_LIM n)
  · obtain ⟨hl, he⟩ := ok
    refine ⟨_, linkRejoin_passes h hl he, phase, err, rfl, s.dev.rejoinOffers_os n, fun _ _ => ⟨?_, count⟩, fun hf => ?_⟩
    · rw [Dev.rejoinPasses, Dev.setLane_lane]
    · obtain hf | hf := hf
      · exact absurd (hf.symm.trans hl) (by decide)
      · omega
  · have hf : lost = true ∨ s.dev.rd (F.LANE_BRING_ERR_LIM n) < errs := by
      by_contra hf
      exact ok ⟨by simpa using fun h => hf (.inl h), by omega⟩
    refine ⟨_, linkRejoin_fails h hf, ?_, ?_, rfl, s.dev.rejoinOffers_os n, fun hl he => absurd ⟨hl, he⟩ ok, fun _ => ⟨?_, ?_⟩⟩
    · rw [Dev.rejoinFails, Dev.setLane_rd, Dev.inc_rd_ne _ phaseFail, phase]
    · rw [Dev.rejoinFails, Dev.setLane_rd, Dev.inc_rd_ne _ dwellFail, err]
    · rw [Dev.rejoinFails, Dev.setLane_lane]
    · rw [Dev.rejoinFails, Dev.setLane_rd, Dev.inc, Dev.addSat, Dev.wr_rd, count]
      exact Nat.mod_eq_of_lt (by simp only [F.LANE_ERR_REJOIN_FAIL]; omega)

theorem linkRejoinRetry_offers (h : (s.dev.lane n).bring = .rejoinWait) :
    Does (.linkRejoinRetry n) s fun t => (t.dev.lane n).bring = .rejoinOffer ∧ t.dev.regs = s.dev.regs ∧ t.vault = s.vault ∧ tget [] t.dev.os n = s.dev.capOf n 0 (s.dev.rd (F.LANE_STAT_RATE n)) false := by
  have lane : s.dev.SameEnds (s.dev.setLane n { s.dev.lane n with bring := .rejoinOffer }) := .setLane n rfl
  have sent : s.dev.SameEnds ((s.dev.setLane n { s.dev.lane n with bring := .rejoinOffer }).sendCap n 0 (s.dev.rd (F.LANE_STAT_RATE n)) false) :=
    lane.trans (Dev.sendSet_sameEnds _ _ _ _)
  refine ⟨_, (exec_linkRejoinRetry n s).trans (State.run_sameEnds (by dsimp only; rw [h]) sent), ?_, rfl, rfl, ?_⟩
  · exact congrArg LaneSt.bring ((Dev.sendSet_lane _ _ _ _ n).trans (Dev.setLane_lane _ _ _))
  · exact (Dev.sendCap_os _ _ _ _ _).trans (lane.capOf n 0 _ false)

theorem linkRejoinRetry_other (h : (s.dev.lane n).bring ≠ .rejoinWait) : exec (.linkRejoinRetry n) s = .next s := by
  refine (exec_linkRejoinRetry n s).trans (State.run_upSame ?_)
  dsimp only
  split
  next hb => exact absurd hb h
  next => rfl

end


/-! ## Commands that wait for an answer -/

theorem laneTest_ofLane (n : Nat) : (F.LANE_STAT_TEST n).OfLane n := laneStat_ofLane n _ (by simp)

/-- Where one command waits and is chosen, its reply alone goes out (R431). -/
theorem Dev.settle_one {d : Dev} {x : Wait} {sel : Wait → Bool} (rep : Wait → Status × Nat × List Nat) (h : d.waits = [x]) (hs : sel x = true) :
    d.settle sel rep = { d with waits := [] }.reply x.hdr x.op (rep x).1 (rep x).2.1 ((rep x).2.2.map (BitVec.ofNat 32 ·)) := by
  unfold Dev.settle
  rw [h, List.filter_singleton, List.filter_singleton, hs]
  rfl

section
variable (d : Dev) (n : Nat)

/-- The end of a test shows at the lane's transmitter and in its TEST bit alone (R80). -/
theorem Dev.testOver_keeps {β : Type} {g : Dev → β} (lane : ∀ d x, g (Dev.setLane d n x) = g d) (test : ∀ d v, g (Dev.wr d (F.LANE_STAT_TEST n) v) = g d) : g (d.testOver n) = g d :=
  (test _ _).trans (ite_keeps (fun _ => lane _ _) fun _ => rfl)

theorem Dev.testOver_waits : (d.testOver n).waits = d.waits := d.testOver_keeps n (g := Dev.waits) (fun _ _ => rfl) fun _ _ => rfl
theorem Dev.testOver_port (p : Nat) : (d.testOver n).port p = d.port p := d.testOver_keeps n (g := (Dev.port · p)) (fun _ _ => rfl) fun _ _ => rfl
theorem Dev.testOver_time : (d.testOver n).time = d.time := d.testOver_keeps n (g := Dev.time) (fun _ _ => rfl) fun _ _ => rfl
theorem Dev.testOver_run : (d.testOver n).run = d.run := d.testOver_keeps n (g := Dev.run) (fun _ _ => rfl) fun _ _ => rfl
theorem Dev.testOver_test : (d.testOver n).rd (F.LANE_STAT_TEST n) = 0 := Dev.wr_rd _ _ _

theorem Dev.testOver_out (h : d.rd (F.LANE_STAT_TEST n) = 1) : ((d.testOver n).lane n).out = d.outAfter n := by
  unfold Dev.testOver
  rw [if_pos ((Dev.rdB_bit rfl).2 h)]
  exact congrArg LaneSt.out (Dev.setLane_lane _ _ _)

theorem Dev.testOver_sameEnds : d.SameEnds (d.testOver n) :=
  Dev.SameEnds.trans (e := if d.rdB (F.LANE_STAT_TEST n) then d.setLane n { d.lane n with out := d.outAfter n } else d)
    (.ite (fun _ => .setLane n rfl) fun _ => .refl d) (.wr_lane (laneTest_ofLane n) (by simp only [F.LANE_STAT_TEST]; omega) 0)

end

/-! ## LOOP_TEST_END -/

section
variable {s : State} {n b errs : Nat} {lost : Bool} {x : Wait}

/-- The loop test that waits for lane `n` decides whether the test is over. -/
theorem Dev.loopDone_iff {d : Dev} (h : d.waits = [x]) (hk : x.kind = .loopTest) (ha : x.arg.head? = some n) :
    d.loopDone n = true ↔ d.running = false ∨ ∀ k, x.due = some k → (d.frame.k - k).toNat < 2 ^ 31 := by
  have found : d.waits.find? (fun x => x.kind = .loopTest && x.arg.head? = some n) = some x := by simp [h, hk, ha]
  unfold Dev.loopDone
  rw [found]
  cases due : x.due <;> simp [due]

theorem loopTestEnd_done (h : s.dev.waits = [x]) (hk : x.kind = .loopTest) (ha : x.arg.head? = some n)
    (hd : s.dev.running = false ∨ ∀ k, x.due = some k → (s.dev.frame.k - k).toNat < 2 ^ 31) :
    exec (.loopTestEnd n b errs lost) s = .next (s.withDev ({ s.dev.testOver n with waits := [] }.replyOk x.hdr x.op [b % 2 ^ 32, b / 2 ^ 32, errs, b2n lost])) := by
  have done := (Dev.loopDone_iff h hk ha).2 hd
  have settled := Dev.settle_one (d := s.dev.testOver n) (sel := fun x => decide (x.kind = .loopTest) && x.arg.head? = some n)
    (fun _ => (.ok, 0, [b % 2 ^ 32, b / 2 ^ 32, errs, b2n lost])) ((s.dev.testOver_waits n).trans h) (by simp [hk, ha])
  have ends : s.dev.SameEnds ({ s.dev.testOver n with waits := [] }.replyOk x.hdr x.op [b % 2 ^ 32, b / 2 ^ 32, errs, b2n lost]) :=
    (s.dev.testOver_sameEnds n).trans (.of_laneView (Dev.reply_keeps offReplies_laneView.toOffPorts { s.dev.testOver n with waits := [] } _ _ _ _ _))
  exact (exec_loopTestEnd n b errs lost s).trans (State.run_sameEnds ((if_neg (by simp [done])).trans settled) ends)

theorem loopTestEnd_runs (h : s.dev.waits = [x]) (hk : x.kind = .loopTest) (ha : x.arg.head? = some n) (hr : s.dev.running = true)
    (hd : ∃ k, x.due = some k ∧ 2 ^ 31 ≤ (s.dev.frame.k - k).toNat) : exec (.loopTestEnd n b errs lost) s = .next s := by
  obtain ⟨k, due, late⟩ := hd
  have runs : ¬ s.dev.loopDone n = true := by
    rw [Dev.loopDone_iff h hk ha, hr]
    rintro (hr | hd)
    · exact nomatch hr
    · exact absurd (hd k due) (by omega)
  exact (exec_loopTestEnd n b errs lost s).trans (State.run_upSame (if_pos (by simpa using runs)))

end

/-! ## NO_ANSWER_TIMEOUT -/

/-- What passing to an instant of real time leaves of the rest. -/
theorem Wk.advanceRt_rest (w : Wk) (t : Nat) : (w.advanceRt t).d.waits = w.d.waits ∧ (∀ p, (w.advanceRt t).d.port p = w.d.port p) ∧ (w.advanceRt t).d.lanes = w.d.lanes ∧
    (w.advanceRt t).d.run = w.d.run ∧ ∀ f : Fld, f.still = true → (w.advanceRt t).d.rd f = w.d.rd f :=
  ⟨(w.keeps_advanceRt (S := anySource) (g := Dev.waits) ⟨⟨fun _ _ => rfl, fun _ _ => rfl⟩, fun _ _ => rfl, fun _ _ => rfl, fun _ _ => rfl⟩ trivial trivial t).dev,
    fun p => (w.keeps_advanceRt (S := anySource) (g := (Dev.port · p)) ⟨⟨fun _ _ => rfl, fun _ _ => rfl⟩, fun _ _ => rfl, fun _ _ => rfl, fun _ _ => rfl⟩ trivial trivial t).dev,
    (w.keeps_advanceRt (S := anySource) (g := Dev.lanes) ⟨⟨fun _ _ => rfl, fun _ _ => rfl⟩, fun _ _ => rfl, fun _ _ => rfl, fun _ _ => rfl⟩ trivial trivial t).dev,
    (w.keeps_advanceRt (S := anySource) (g := Dev.run) ⟨⟨fun _ _ => rfl, fun _ _ => rfl⟩, fun _ _ => rfl, fun _ _ => rfl, fun _ _ => rfl⟩ trivial trivial t).dev,
    fun _ hf => (w.keeps_advanceRt (S := anySource) (OffTime.rd hf) trivial trivial t).dev⟩

/-- Passing time leaves what the lanes' pages hold. -/
theorem Fld.OfLane.still {n : Nat} {f : Fld} (h : f.OfLane n) (hn : n < 24) : f.still = true := by
  obtain ⟨lo, first, last⟩ := h
  simp only [Fld.still, Bool.and_eq_true, decide_eq_true_eq]
  simp only [Fld.key, F.TIM_EPOCH, F.TIM_STAT_WRAP, F.GSV_CNT_ILK]
  omega

theorem laneRole_ofLane (n : Nat) : (F.LANE_CTRL_ROLE n).OfLane n := by
  simp only [Fld.OfLane, F.LANE_CTRL_ROLE]
  omega

/-- A command that never had its answer: a far-end test is over with it (R454). -/
def Dev.unanswered (d : Dev) (x : Wait) : Dev := if x.kind = .loopTest then d.testOver (x.arg.getD 0 0) else d

theorem Dev.unanswered_keeps {β : Type} {g : Dev → β} (d : Dev) (x : Wait) (h : ∀ n, g (d.testOver n) = g d) : g (d.unanswered x) = g d := ite_keeps (fun _ => h _) fun _ => rfl

/-- The reply TIMEOUT to the command that waits. -/
def Dev.timesOut (d : Dev) (x : Wait) : Dev := { d.unanswered x with waits := [] }.reply x.hdr x.op .timeout 0 []

section
variable {d : Dev} {x : Wait}

theorem Dev.timesOut_keeps {β : Type} {g : Dev → β} (hg : OffReplies g) (h : ∀ n, g (d.testOver n) = g d) : g (d.timesOut x) = g d :=
  (Dev.reply_keeps hg.toOffPorts _ _ _ _ _ _).trans ((hg.waits _ _).trans (d.unanswered_keeps x h))

theorem Dev.timesOut_waits : (d.timesOut x).waits = [] := Dev.reply_keeps OffPorts.waits _ _ _ _ _ _

theorem Dev.timesOut_replies (hp : x.hdr.port < 2) (hl : x.hdr.locket = false) :
    ((d.timesOut x).port x.hdr.port).replies = (d.port x.hdr.port).replies ++ [replyBytes x.hdr x.op .timeout 0 []] := by
  have port : (d.unanswered x).port x.hdr.port = d.port x.hdr.port := d.unanswered_keeps (g := (Dev.port · x.hdr.port)) x fun n => d.testOver_port n _
  unfold Dev.timesOut Dev.reply
  rw [if_neg (by omega), Dev.upPort_port, if_neg (by simp [hl]), if_neg (by simp)]
  exact congrArg (fun q => Port.replies q ++ _) port

theorem Dev.timesOut_run : (d.timesOut x).run = d.run :=
  Dev.timesOut_keeps (g := Dev.run) ⟨OffPorts.run, fun _ _ => rfl⟩ fun n => d.testOver_run n

theorem Dev.timesOut_time : (d.timesOut x).time = d.time :=
  Dev.timesOut_keeps (g := Dev.time) ⟨OffPorts.time, fun _ _ => rfl⟩ fun n => d.testOver_time n

theorem Dev.timesOut_test (hk : x.kind = .loopTest) : (d.timesOut x).rd (F.LANE_STAT_TEST (x.arg.getD 0 0)) = 0 ∧
    (d.rd (F.LANE_STAT_TEST (x.arg.getD 0 0)) = 1 → ((d.timesOut x).lane (x.arg.getD 0 0)).out = d.outAfter (x.arg.getD 0 0)) := by
  have ended : d.unanswered x = d.testOver (x.arg.getD 0 0) := if_pos hk
  have lanes : (d.timesOut x).lanes = (d.testOver (x.arg.getD 0 0)).lanes := (Dev.reply_keeps OffPorts.lanes { d.unanswered x with waits := [] } _ _ _ _ _).trans (congrArg Dev.lanes ended : (d.unanswered x).lanes = _)
  refine ⟨(Dev.reply_rd _ _ _ _ _ _ _).trans ?_, fun h => ?_⟩
  · exact (congrArg (Dev.rd · _) ended).trans (d.testOver_test _)
  · rw [Dev.lane, lanes]
    exact d.testOver_out _ h

end

theorem portNo_lt (p : Nat) : portNo p < 2 := by
  unfold portNo
  split <;> decide

/-- The device at the instant at which 100 ms have passed since the command began (R454). -/
def State.noAnswerAt (s : State) (x : Wait) : Wk := s.wk.advanceRt (x.since + 6400000000)

section
variable {s : State} {p : Nat} {x : Wait}

theorem noAnswerTimeout_eq (h : s.dev.waits = [x]) (hp : x.hdr.port = portNo p) (hk : x.kind = .moduleRead ∨ (x.kind = .loopTest ∧ x.arg.getD 1 0 = 2)) :
    exec (.noAnswerTimeout p) s = .next (s.settleWk s.vault ((s.noAnswerAt x).up (·.timesOut x))) := by
  have found : s.dev.waits.find? (fun x => x.hdr.port = portNo p && (x.kind = WaitKind.moduleRead || (x.kind = WaitKind.loopTest && x.arg.getD 1 0 = 2))) = some x := by
    rw [h, List.find?_cons_of_pos]
    simpa [hp] using hk
  obtain ⟨waits, -⟩ := s.wk.advanceRt_rest (x.since + 6400000000)
  have settled : ((s.noAnswerAt x).d.unanswered x).settle (decide <| · = x) (fun _ => (Status.timeout, 0, [])) = (s.noAnswerAt x).d.timesOut x := by
    have one : ((s.noAnswerAt x).d.unanswered x).waits = [x] := ((s.noAnswerAt x).d.unanswered_keeps (g := Dev.waits) x fun n => Dev.testOver_waits _ n).trans (waits.trans h)
    exact Dev.settle_one _ one (decide_eq_true rfl)
  refine (exec_noAnswerTimeout p s).trans ((s.run_next _).trans (congrArg _ (congrArg _ ?_)))
  dsimp only
  rw [show s.wk.d = s.dev from rfl, found]
  exact congrArg (fun d => { s.noAnswerAt x with d := d }) settled

theorem noAnswerTimeout_replies (h : s.dev.waits = [x]) (hp : x.hdr.port = portNo p) (hl : x.hdr.locket = false) (hk : x.kind = .moduleRead ∨ (x.kind = .loopTest ∧ x.arg.getD 1 0 = 2)) :
    Leaves (.noAnswerTimeout p) s fun d ms => d.waits = [] ∧ (d.port x.hdr.port).replies = (s.dev.port x.hdr.port).replies ++ [replyBytes x.hdr x.op .timeout 0 []] ∧
      x.since + 6400000000 ≤ d.time.rt ∧ (x.kind = .loopTest → x.arg.getD 0 0 < 24 → d.rd (F.LANE_STAT_TEST (x.arg.getD 0 0)) = 0 ∧
        (s.dev.rd (F.LANE_STAT_TEST (x.arg.getD 0 0)) = 1 → (d.lane (x.arg.getD 0 0)).out = s.dev.outAfter (x.arg.getD 0 0))) ∧ (∀ m ∈ ms, m.passing = true) ∧ d.run = s.dev.run := by
  obtain ⟨-, port, lanes, run, still⟩ := s.wk.advanceRt_rest (x.since + 6400000000)
  refine ⟨_, noAnswerTimeout_eq h hp hk, Dev.timesOut_waits, ?_, ?_, fun loop hn => ?_, ((s.wk.adds_advanceRt _).trans .up).all, Dev.timesOut_run.trans run⟩
  · exact (Dev.timesOut_replies (hp ▸ portNo_lt p) hl).trans (congrArg (fun q => Port.replies q ++ _) (port _))
  · exact (s.wk.advanceRt_rt _).trans (congrArg TimeSt.rt Dev.timesOut_time).ge
  · obtain ⟨test, out⟩ := Dev.timesOut_test (d := (s.noAnswerAt x).d) loop
    have role : (s.noAnswerAt x).d.role (x.arg.getD 0 0) = s.dev.role (x.arg.getD 0 0) := by
      have ctrl : (s.noAnswerAt x).d.rd _ = s.dev.rd _ := still _ ((laneRole_ofLane (x.arg.getD 0 0)).still hn)
      have lane : (s.noAnswerAt x).d.lane (x.arg.getD 0 0) = s.dev.lane (x.arg.getD 0 0) := congrArg (tget _ · _) lanes
      rw [Dev.role, Dev.role, ctrl, lane]
    refine ⟨test, fun ht => (out ((still _ ((laneTest_ofLane _).still hn)).trans ht)).trans ?_⟩
    rw [Dev.outAfter, Dev.outAfter, role]

end


/-! ## MODULE_POLL -/

/-- The transfers of a poll that is answered (R84). -/
def pollXfers (ddm : Bool) : List Xfer := ⟨0xA0, 92, 1⟩ :: if ddm then [⟨0xA2, 96, 10⟩, ⟨0xA2, 112, 2⟩, ⟨0xA2, 116, 2⟩] else []

/-- A module that answers: PRESENT and DDM are shown (R84). -/
def Dev.answered (d : Dev) (n : Nat) (ddm : Bool) : Dev := ((d.busDo n (pollXfers ddm)).wr (F.LANE_MOD_PRESENT n) 1).wrB (F.LANE_MOD_DDM n) ddm

/-- The first flag of a kind that is set is sent (Table 14-3). -/
def Wk.raiseFirst (w : Wk) (fs n : Nat) (o : Option Nat) : Wk := match o with | some k => w.raise fs k n | none => w

/-- The ten bytes of the diagnostics are kept, and their first alarm and first warning sent (R84). -/
def Wk.diagnosed (w : Wk) (n : Nat) (b : List Byte) : Wk :=
  ((w.up fun d => d.setLane n { d.lane n with diag := slice b 1 10 }).raiseFirst 50 n (firstFlag (b.getD 11 0) (b.getD 12 0))).raiseFirst 96 n (firstFlag (b.getD 13 0) (b.getD 14 0))

/-- A poll that is answered, with its diagnostics where the module has them. -/
def Wk.polled (w : Wk) (n : Nat) (b : List Byte) (ddm : Bool) : Wk := if ddm then (w.up (·.answered n ddm)).diagnosed n b else w.up (·.answered n ddm)

theorem Wk.raiseFirst_d (w : Wk) (fs n : Nat) (o : Option Nat) : (w.raiseFirst fs n o).d = w.d := by
  cases o <;> rfl

theorem Wk.raiseFirst_tags (w : Wk) (fs n : Nat) (o : Option Nat) : (w.raiseFirst fs n o).ms.map Msg.tag = w.ms.map Msg.tag ++ o.toList.map fun k => (fs, k, n) := by
  cases o with
  | none => exact (List.append_nil _).symm
  | some k => exact w.raise_tags fs k n

theorem modPresent_ne (n : Nat) : (F.LANE_MOD_PRESENT n).key ≠ (F.LANE_MOD_DDM n).key := by
  simp only [Fld.key, F.LANE_MOD_PRESENT, F.LANE_MOD_DDM]
  omega

theorem Dev.answered_present (d : Dev) (n : Nat) (ddm : Bool) : (d.answered n ddm).rd (F.LANE_MOD_PRESENT n) = 1 :=
  (Dev.wrB_rd_ne _ _ (modPresent_ne n)).trans (Dev.wr_rd _ _ _)

theorem Dev.answered_ddm (d : Dev) (n : Nat) (ddm : Bool) : (d.answered n ddm).rd (F.LANE_MOD_DDM n) = b2n ddm := by
  refine (Dev.wr_rd _ _ _).trans ?_
  cases ddm <;> rfl

theorem Dev.answered_rd (d : Dev) (n : Nat) (ddm : Bool) {f : Fld} (hp : f.key ≠ (F.LANE_MOD_PRESENT n).key) (hd : f.key ≠ (F.LANE_MOD_DDM n).key) :
    (d.answered n ddm).rd f = d.rd f := (Dev.wrB_rd_ne _ _ hd).trans ((Dev.wr_rd_ne _ _ hp).trans rfl)

/-- Of the device, the diagnostics change what is kept of the lane alone. -/
theorem Wk.diagnosed_d (w : Wk) (n : Nat) (b : List Byte) : (w.diagnosed n b).d = w.d.setLane n { w.d.lane n with diag := slice b 1 10 } :=
  (Wk.raiseFirst_d _ _ _ _).trans (Wk.raiseFirst_d _ _ _ _)

theorem Wk.diagnosed_tags (w : Wk) (n : Nat) (b : List Byte) : (w.diagnosed n b).ms.map Msg.tag = w.ms.map Msg.tag ++
    (((firstFlag (b.getD 11 0) (b.getD 12 0)).toList.map fun k => (50, k, n)) ++ (firstFlag (b.getD 13 0) (b.getD 14 0)).toList.map fun k => (96, k, n)) := by
  unfold Wk.diagnosed
  rw [Wk.raiseFirst_tags, Wk.raiseFirst_tags, List.append_assoc]
  rfl

section
variable {s : State} {n : Nat}

theorem modulePoll_off {b : Option (List Byte)} (h : 3 ≤ s.dev.rd (F.LANE_MOD_BUS n) ∨ s.dev.rd (F.SYS_MOD_BUS_POLL (s.dev.rd (F.LANE_MOD_BUS n))) = 0) : exec (.modulePoll n b) s = .next s :=
  (exec_modulePoll n b s).trans (s.run_same (if_pos h))

section
variable (hk : s.dev.rd (F.LANE_MOD_BUS n) < 3) (hp : s.dev.rd (F.SYS_MOD_BUS_POLL (s.dev.rd (F.LANE_MOD_BUS n))) ≠ 0)
include hk hp

theorem masterPolls : ¬ (3 ≤ s.dev.rd (F.LANE_MOD_BUS n) ∨ s.dev.rd (F.SYS_MOD_BUS_POLL (s.dev.rd (F.LANE_MOD_BUS n))) = 0) := by
  omega

theorem modulePoll_silent : exec (.modulePoll n none) s = .next (s.withDev ((s.dev.busDo n [⟨0xA0, 92, 0⟩]).wr (F.LANE_MOD_PRESENT n) 0)) :=
  (exec_modulePoll n none s).trans (s.run_upTo (g := fun d => (d.busDo n [⟨0xA0, 92, 0⟩]).wr (F.LANE_MOD_PRESENT n) 0) (if_neg (masterPolls hk hp)) fun k hm =>
    (Dev.wr_rd_ne _ _ (Fld.notified_ne_lane hm (by simp only [F.LANE_MOD_PRESENT]; omega))).trans rfl)

theorem modulePoll_polled (b : List Byte) : exec (.modulePoll n (some b)) s = .next (s.settleWk s.vault (s.wk.polled n b (bitOf (b.getD 0 0).toNat 6))) := by
  refine (exec_modulePoll n (some b) s).trans ((s.run_next _).trans (congrArg _ (congrArg _ ((if_neg (masterPolls hk hp)).trans ?_))))
  dsimp only
  generalize bitOf (b.getD 0 0).toNat 6 = ddm
  cases ddm <;> rfl

theorem modulePoll_answered (b : List Byte) : Leaves (.modulePoll n (some b)) s fun d ms =>
    let ddm := bitOf (b.getD 0 0).toNat 6
    d.buses = (s.dev.busDo n (pollXfers ddm)).buses ∧ d.rd (F.LANE_MOD_PRESENT n) = 1 ∧ d.rd (F.LANE_MOD_DDM n) = b2n ddm ∧ (d.lane n).diag = (if ddm then slice b 1 10 else (s.dev.lane n).diag) ∧
      ms.map Msg.tag = (if ddm then ((firstFlag (b.getD 11 0) (b.getD 12 0)).toList.map fun k => (50, k, n)) ++ (firstFlag (b.getD 13 0) (b.getD 14 0)).toList.map fun k => (96, k, n) else []) ∧
      ∀ f : Fld, f.key ≠ (F.LANE_MOD_PRESENT n).key → f.key ≠ (F.LANE_MOD_DDM n).key → d.rd f = s.dev.rd f := by
  refine ⟨_, modulePoll_polled hk hp b, ?_⟩
  generalize bitOf (b.getD 0 0).toNat 6 = ddm
  have present := s.dev.answered_present n ddm
  have shown := s.dev.answered_ddm n ddm
  have rest (f : Fld) (hf : f.key ≠ (F.LANE_MOD_PRESENT n).key) (hd : f.key ≠ (F.LANE_MOD_DDM n).key) := s.dev.answered_rd n ddm hf hd
  cases ddm with
  | false => exact ⟨rfl, present, shown, rfl, rfl, rest⟩
  | true =>
    have dev : (s.wk.polled n b true).d = (s.dev.answered n true).setLane n { s.dev.lane n with diag := slice b 1 10 } := (s.wk.up (·.answered n true)).diagnosed_d n b
    have tags : (s.wk.polled n b true).ms.map Msg.tag = _ := (s.wk.up (·.answered n true)).diagnosed_tags n b
    rw [dev, tags]
    exact ⟨rfl, present, shown, congrArg LaneSt.diag (Dev.setLane_lane _ _ _), rfl, rest⟩

end
end

/-! ## The /TT/ exchange -/

/-- A link that takes part in the exchange has one of these roles (R125). -/
def Dev.linkRole (d : Dev) (n : Nat) : Prop := d.role n = 1 ∨ d.role n = 2 ∨ d.role n = 3

theorem Dev.linkRole_iff (d : Dev) (n : Nat) : [1, 2, 3].contains (d.role n) = true ↔ d.linkRole n := by
  simp [Dev.linkRole]

/-- A link that is up, in the guard window, whose request of this frame has not been sent (R125). -/
def Dev.requestDue (d : Dev) (n : Nat) : Prop :=
  d.running = true ∧ d.rd F.SYS_FRM_STAT_WINDOW = 3 ∧ d.linkRole n ∧ d.rd (F.LANE_STAT_PHASE n) = 2 ∧ (d.lane n).ttAt ≠ some d.frame.k

theorem Dev.ttOwed_iff (d : Dev) (n : Nat) : d.ttOwed n = true ↔ d.requestDue n := by
  unfold Dev.ttOwed Dev.ttLink Dev.requestDue
  rw [Bool.and_eq_true, Bool.and_eq_true, Bool.and_eq_true, Bool.and_eq_true, Dev.linkRole_iff]
  simp only [decide_eq_true_eq, and_assoc]

/-- The sequence number of the next request. -/
def Dev.nextSeq (d : Dev) (n : Nat) : Nat := ((d.lane n).ttSeq + 1) % 16

/-- A request is put out and noted (R125). -/
def Dev.requests (d : Dev) (n : Nat) : Dev :=
  (d.setLane n { d.lane n with ttSeq := d.nextSeq n, ttSent := true, ttAt := some d.frame.k }).sendSet n .tt (ttSet 1 (d.nextSeq n) 0)

section
variable (d : Dev) (n : Nat)

theorem Dev.requests_lane : (d.requests n).lane n = { d.lane n with ttSeq := d.nextSeq n, ttSent := true, ttAt := some d.frame.k } :=
  (Dev.sendSet_lane _ _ _ _ n).trans (Dev.setLane_lane _ _ _)

theorem Dev.requests_os : tget [] (d.requests n).os n = ttSet 1 (d.nextSeq n) 0 := Dev.sendSet_os _ _ _ _
theorem Dev.requests_run : (d.requests n).run = d.run := rfl
theorem Dev.requests_frame : (d.requests n).frame = d.frame := rfl
theorem Dev.requests_rd (f : Fld) : (d.requests n).rd f = d.rd f := rfl

end

/-- What running to an instant of device time leaves of the lanes and the frame. -/
theorem Wk.advanceTo_lanes (w : Wk) (t : BitVec 64) : (w.advanceTo t).d.lanes = w.d.lanes ∧ (w.advanceTo t).d.frame = w.d.frame :=
  ⟨(w.keeps_advanceTo (S := anySource) (g := Dev.lanes) ⟨⟨fun _ _ => rfl, fun _ _ => rfl⟩, fun _ _ => rfl, fun _ _ => rfl, fun _ _ => rfl⟩ trivial trivial t).dev,
    (w.keeps_advanceTo (S := anySource) (g := Dev.frame) ⟨⟨fun _ _ => rfl, fun _ _ => rfl⟩, fun _ _ => rfl, fun _ _ => rfl, fun _ _ => rfl⟩ trivial trivial t).dev⟩

section
variable {s : State} {n rtt seq turn : Nat}

theorem ttRequestSend_owed (h : s.dev.requestDue n) : Leaves (.ttRequestSend n) s fun d ms =>
    d.lane n = { s.dev.lane n with ttSeq := s.dev.nextSeq n, ttSent := true, ttAt := some s.dev.frame.k } ∧ tget [] d.os n = ttSet 1 (s.dev.nextSeq n) 0 ∧
      (∀ m ∈ ms, m.passing = true) ∧ d.run = s.dev.run ∧ d.frame = s.dev.frame ∧ ∀ f : Fld, f.still = true → d.rd f = s.dev.rd f := by
  have owed := (s.dev.ttOwed_iff n).2 h
  have row : exec (.ttRequestSend n) s = .next (s.settleWk s.vault ((s.wk.advanceTo s.dev.ttInstant).up (·.requests n))) :=
    (exec_ttRequestSend n s).trans ((s.run_next _).trans (congrArg _ (congrArg _ (if_neg (show ¬ (!s.dev.ttOwed n) = true by simp [owed])))))
  obtain ⟨lanes, frame⟩ := s.wk.advanceTo_lanes s.dev.ttInstant
  obtain ⟨-, -, run, still⟩ := s.wk.advanceTo_rest s.dev.ttInstant
  have lane : (s.wk.advanceTo s.dev.ttInstant).d.lane n = s.dev.lane n := congrArg (tget _ · n) lanes
  have next : (s.wk.advanceTo s.dev.ttInstant).d.nextSeq n = s.dev.nextSeq n := by rw [Dev.nextSeq, Dev.nextSeq, lane]
  refine ⟨_, row, (Dev.requests_lane _ n).trans ?_, (Dev.requests_os _ n).trans ?_, ((s.wk.adds_advanceTo _).trans .up).all,
    (Dev.requests_run _ n).trans run, (Dev.requests_frame _ n).trans frame, fun f hf => (Dev.requests_rd _ n f).trans (still f hf)⟩
  · rw [lane, next, frame]
    rfl
  · rw [next]

theorem ttRequestSend_other (h : ¬ s.dev.requestDue n) : exec (.ttRequestSend n) s = .next s :=
  (exec_ttRequestSend n s).trans (s.run_same (if_pos (show (!s.dev.ttOwed n) = true by simpa using mt (s.dev.ttOwed_iff n).1 h)))

theorem ttRequestReceive_answers (h : s.dev.linkRole n) : exec (.ttRequestReceive n seq turn) s = .next (s.withDev (s.dev.sendSet n .tt (ttSet 2 seq turn))) :=
  (exec_ttRequestReceive n seq turn s).trans (State.run_sameEnds (if_pos ((s.dev.linkRole_iff n).2 h)) (Dev.sendSet_sameEnds _ _ _ _))

theorem ttRequestReceive_other (h : ¬ s.dev.linkRole n) : exec (.ttRequestReceive n seq turn) s = .next s :=
  (exec_ttRequestReceive n seq turn s).trans (State.run_upSame (if_neg (mt (s.dev.linkRole_iff n).1 h)))

end

/-! ## Measured delays -/

/-- The last 64 measurements, with one more, less half of the lane's asymmetry (R55). -/
def Dev.measured (d : Dev) (n rtt turn : Nat) : List Int := ((((rtt : Int) - (turn : Int)) / 2 - sext 16 (d.rd (F.LANE_ASYM n)) / 2) :: (d.lane n).dlys).take 64

/-- The measurement as the lane keeps it. -/
def Dev.measures (d : Dev) (n rtt turn : Nat) : Dev := d.setLane n { d.lane n with dlys := d.measured n rtt turn, ttSent := false }

section
variable (d : Dev) (n rtt turn : Nat)

theorem Dev.linkDelay_lane : (d.linkDelay n rtt turn).lane n = { d.lane n with dlys := d.measured n rtt turn, ttSent := false } :=
  have lane : (d.linkDelay n rtt turn).lane n = (d.measures n rtt turn).lane n := ite_keeps (g := (Dev.lane · n)) (fun _ => rfl) fun _ => rfl
  lane.trans (Dev.setLane_lane _ _ _)

theorem Dev.linkDelay_dly : (d.linkDelay n rtt turn).rd (F.LANE_DLY n) = if (d.measured n rtt turn).length < 64 then 0 else (((d.measured n rtt turn).foldl (· + ·) 0) / 64).toNat % 2 ^ 24 := by
  show (ite ((d.measured n rtt turn).length < 64) _ _ : Dev).rd (F.LANE_DLY n) = _
  split <;> exact Dev.wr_rd _ _ _

theorem Dev.linkDelay_rd {f : Fld} (h : f.key ≠ (F.LANE_DLY n).key) : (d.linkDelay n rtt turn).rd f = d.rd f :=
  ite_keeps (g := (Dev.rd · f)) (fun _ => Dev.wr_rd_ne _ _ h) fun _ => Dev.wr_rd_ne _ _ h

theorem Dev.linkDelay_sameEnds : d.SameEnds (d.linkDelay n rtt turn) := by
  have lane : d.SameEnds (d.measures n rtt turn) := .setLane n rfl
  exact .ite (fun _ => lane.trans (.dly n _)) fun _ => lane.trans (.dly n _)

end

section
variable {s : State} {n rtt seq turn : Nat}

theorem ttResponseReceive_other (h : (s.dev.lane n).ttSent = false ∨ (s.dev.lane n).ttSeq ≠ seq) : exec (.ttResponseReceive n rtt seq turn) s = .next s := by
  refine (exec_ttResponseReceive n rtt seq turn s).trans (State.run_upSame (if_neg fun ⟨sent, same⟩ => ?_))
  obtain h | h := h
  · exact nomatch h.symm.trans sent
  · exact h same

theorem ttResponseReceive_taken (hs : (s.dev.lane n).ttSent = true) (hq : (s.dev.lane n).ttSeq = seq) :
    exec (.ttResponseReceive n rtt seq turn) s = .next (s.withDev (s.dev.linkDelay n rtt turn)) :=
  (exec_ttResponseReceive n rtt seq turn s).trans (State.run_sameEnds (if_pos ⟨hs, hq⟩) (s.dev.linkDelay_sameEnds n rtt turn))

theorem ttResponseReceive_measures (hs : (s.dev.lane n).ttSent = true) (hq : (s.dev.lane n).ttSeq = seq) : Does (.ttResponseReceive n rtt seq turn) s fun t =>
    let l := s.dev.measured n rtt turn
    (t.dev.lane n).dlys = l ∧ (t.dev.lane n).ttSent = false ∧ t.dev.rd (F.LANE_DLY n) = (if l.length < 64 then 0 else ((l.foldl (· + ·) 0) / 64).toNat % 2 ^ 24) ∧ t.vault = s.vault ∧
      ∀ f : Fld, f.key ≠ (F.LANE_DLY n).key → t.dev.rd f = s.dev.rd f := by
  have lane := s.dev.linkDelay_lane n rtt turn
  exact ⟨_, ttResponseReceive_taken hs hq, congrArg LaneSt.dlys lane, congrArg LaneSt.ttSent lane, s.dev.linkDelay_dly n rtt turn, rfl, fun _ hf => s.dev.linkDelay_rd n rtt turn hf⟩

end

/-- Settles O43: each row's own lemmas, put together. -/
theorem rejoinTestsAndModules : Obligations.RejoinTestsAndModules := by
  unfold Obligations.RejoinTestsAndModules
  refine ⟨fun s n errs lost _ => ⟨linkRejoin_stays, linkRejoin_rejoins⟩, fun s n => ⟨linkRejoinRetry_offers, linkRejoinRetry_other⟩,
    fun s n b errs lost x _ hw hk ha => ⟨loopTestEnd_done hw hk ha, loopTestEnd_runs hw hk ha⟩, fun s p x hw hp hl hk => noAnswerTimeout_replies hw hp hl hk,
    fun s n b _ => ⟨modulePoll_off, modulePoll_silent⟩, fun s n b _ hk hp => modulePoll_answered hk hp b,
    fun s n seq turn _ => ⟨ttRequestSend_owed, ttRequestSend_other, ttRequestReceive_answers, ttRequestReceive_other⟩,
    fun s n rtt seq turn _ => ⟨ttResponseReceive_other, ttResponseReceive_measures⟩⟩

end Sys2Proof.Machine

/-! The safe state (R158 to R161): what entering it clears and what it leaves; QUIESCE and STOP (R446, R447). -/
namespace Sys2Proof.Machine

/-! ## Pins and output levels -/

/-- What is seen by `g` is nothing of the local pairs, of the levels of DEN and of EDG_STAT.SAFE. -/
structure OffLevels {β : Type} (g : Dev → β) : Prop where
  pair : ∀ d k x, g (Dev.setPair d k x) = g d
  den : ∀ d v, g (Dev.wr d F.GSV_DEN_LVL v) = g d
  safe : ∀ d v, g (Dev.wr d F.EDG_STAT_SAFE v) = g d

theorem OffLevels.rd {f : Fld} (hd : f.key ≠ F.GSV_DEN_LVL.key) (hs : f.key ≠ F.EDG_STAT_SAFE.key) : OffLevels (Dev.rd · f) :=
  ⟨fun _ _ _ => rfl, fun d v => d.wr_rd_ne v hd, fun d v => d.wr_rd_ne v hs⟩

theorem Dev.pinsSafe_sees {β : Type} {g : Dev → β} (h : ∀ d k x, g (Dev.setPair d k x) = g d) (d : Dev) : g d.pinsSafe = g d := foldl_keeps (fun _ _ _ => h _ _ _) d

theorem OffLevels.pinsSafe {β : Type} {g : Dev → β} (hg : OffLevels g) (d : Dev) : g d.pinsSafe = g d := Dev.pinsSafe_sees hg.pair d

/-- The outputs of a device in the safe state: DEN as what holds it says, every local pin at its SAFE level (R159). -/
def Dev.holdOutputs (d : Dev) : Dev := (d.syncDen.wr F.EDG_STAT_SAFE 1).pinsSafe

theorem OffLevels.holdOutputs {β : Type} {g : Dev → β} (hg : OffLevels g) (d : Dev) : g d.holdOutputs = g d :=
  (hg.pinsSafe _).trans ((hg.safe _ _).trans (hg.den _ _))

theorem Wk.syncOutputs_safe {w : Wk} (h : w.d.safe = true) : w.syncOutputs = w.up (·.holdOutputs) := by
  have still : (w.up (·.syncDen)).d.safe = true := by
    unfold Dev.safe Dev.rdB at h ⊢
    rw [Wk.up_d, show w.d.syncDen.rd F.EDG_STAT_QUIESCED = w.d.rd F.EDG_STAT_QUIESCED from Dev.wr_rd_ne _ _ (by decide)]
    exact h
  unfold Wk.syncOutputs
  dsimp only
  rw [still, Bool.true_or]
  rfl

/-! ## The enables and the plan -/

/-- The applied enables of channels and timebases, whether these run, and the plan. -/
def Dev.enables (d : Dev) :=
  ((fun c : Fin 256 => d.rd (F.CH_CTRL_EN c)), (fun b : Fin 64 => d.rd (F.TB_CTRL_EN b)), (fun b : Fin 64 => d.rd (F.TB_STAT_RUN b)), d.edge.plan, d.edge.next)

/-- A field that shows none of the enables. -/
def Fld.NoEnable (f : Fld) : Prop :=
  (∀ c < 256, (F.CH_CTRL_EN c).key ≠ f.key) ∧ ∀ b < 64, (F.TB_CTRL_EN b).key ≠ f.key ∧ (F.TB_STAT_RUN b).key ≠ f.key

theorem off_enables : Off Fld.NoEnable Dev.enables where
  wr d f v h := by
    have hc (c : Fin 256) := d.wr_rd_ne v (h.1 c c.isLt)
    have hb (b : Fin 64) := d.wr_rd_ne v (h.2 b b.isLt).1
    have hr (b : Fin 64) := d.wr_rd_ne v (h.2 b b.isLt).2
    simp only [Dev.enables, hc, hb, hr, Dev.wr_edge]

theorem Fld.noEnable_outside {f : Fld} (h : f.key < 0x60000 * 32 ∨ 0x68000 * 32 ≤ f.key) : f.NoEnable := by
  refine ⟨fun c hc => ?_, fun b hb => ⟨?_, ?_⟩⟩
  · simp only [Fld.key, F.CH_CTRL_EN] at h ⊢; omega
  · simp only [Fld.key, F.TB_CTRL_EN] at h ⊢; omega
  · simp only [Fld.key, F.TB_STAT_RUN] at h ⊢; omega

theorem Dev.wr_enables (d : Dev) {f : Fld} (v : Nat) (h : f.key < 0x60000 * 32 ∨ 0x68000 * 32 ≤ f.key) : (d.wr f v).enables = d.enables :=
  off_enables.wr d f v (Fld.noEnable_outside h)

theorem offLevels_enables : OffLevels Dev.enables :=
  ⟨fun _ _ _ => rfl, fun d v => d.wr_enables v (by decide), fun d v => d.wr_enables v (by decide)⟩

/-- Nothing is enabled or runs, and nothing is planned. -/
structure Dev.AllOff (d : Dev) : Prop where
  ch : ∀ c < 256, d.rd (F.CH_CTRL_EN c) = 0
  tb : ∀ b < 64, d.rd (F.TB_CTRL_EN b) = 0 ∧ d.rd (F.TB_STAT_RUN b) = 0
  plan : d.edge.plan = []
  next : d.edge.next = []

theorem Dev.AllOff.congr {d e : Dev} (h : d.AllOff) (he : e.enables = d.enables) : e.AllOff := by
  simp only [Dev.enables, Prod.mk.injEq] at he
  obtain ⟨ch, tb, run, plan, next⟩ := he
  exact ⟨fun c hc => (congrFun ch ⟨c, hc⟩).trans (h.ch c hc), fun b hb => ⟨(congrFun tb ⟨b, hb⟩).trans (h.tb b hb).1, (congrFun run ⟨b, hb⟩).trans (h.tb b hb).2⟩,
    plan.trans h.plan, next.trans h.next⟩

/-- A loop that clears a field of every unit has cleared that of each. -/
theorem foldl_clears {n i : Nat} {f : Fld} {step : Dev → Nat → Dev} (hi : i < n) (clears : ∀ d, (step d i).rd f = 0) (stays : ∀ d x, d.rd f = 0 → (step d x).rd f = 0) (d : Dev) :
    ((List.range n).foldl step d).rd f = 0 :=
  foldl_reaches (P := fun _ => True) (Q := fun e => e.rd f = 0) (List.mem_range.2 hi) (fun _ _ _ => trivial) stays (fun u _ => clears u) trivial

/-- A field that reads 0 does so after a write of 0, of itself or another. -/
theorem Dev.wr_zero_rd {d : Dev} {f k : Fld} (h : d.rd k = 0) (hw : k.key = f.key → k = f) : (d.wr f 0).rd k = 0 := by
  by_cases e : k.key = f.key
  · rw [hw e, Dev.wr_rd, Nat.zero_mod]
  · rw [d.wr_rd_ne 0 e, h]

theorem Dev.clearTbs_en (d : Dev) {b : Nat} (hb : b < 64) : d.clearTbs.rd (F.TB_CTRL_EN b) = 0 ∧ d.clearTbs.rd (F.TB_STAT_RUN b) = 0 := by
  have apart (x : Nat) : (F.TB_CTRL_EN b).key ≠ (F.TB_STAT_RUN x).key := by simp only [Fld.key, F.TB_CTRL_EN, F.TB_STAT_RUN]; omega
  have apart' (x : Nat) : (F.TB_STAT_RUN b).key ≠ (F.TB_CTRL_EN x).key := by simp only [Fld.key, F.TB_CTRL_EN, F.TB_STAT_RUN]; omega
  have same {x : Nat} (e : (F.TB_CTRL_EN b).key = (F.TB_CTRL_EN x).key) : F.TB_CTRL_EN b = F.TB_CTRL_EN x := by
    obtain rfl : b = x := by simp only [Fld.key, F.TB_CTRL_EN] at e; omega
    rfl
  have same' {x : Nat} (e : (F.TB_STAT_RUN b).key = (F.TB_STAT_RUN x).key) : F.TB_STAT_RUN b = F.TB_STAT_RUN x := by
    obtain rfl : b = x := by simp only [Fld.key, F.TB_STAT_RUN] at e; omega
    rfl
  constructor
  · refine foldl_clears hb (fun e => ?_) (fun e x h => ?_) d
    · exact (Dev.wr_rd_ne (e.wr (F.TB_CTRL_EN b) 0) 0 (apart b)).trans ((Dev.wr_rd _ _ _).trans (Nat.zero_mod _))
    · exact (Dev.wr_rd_ne (e.wr (F.TB_CTRL_EN x) 0) 0 (apart x)).trans (Dev.wr_zero_rd h same)
  · refine foldl_clears hb (fun e => (Dev.wr_rd (e.wr (F.TB_CTRL_EN b) 0) (F.TB_STAT_RUN b) 0).trans (Nat.zero_mod _)) (fun e x h => ?_) d
    exact Dev.wr_zero_rd ((Dev.wr_rd_ne e 0 (apart' x)).trans h) same'

theorem Dev.clearChs_en (d : Dev) {c : Nat} (hc : c < 256) : d.clearChs.rd (F.CH_CTRL_EN c) = 0 := by
  have same {x : Nat} (e : (F.CH_CTRL_EN c).key = (F.CH_CTRL_EN x).key) : F.CH_CTRL_EN c = F.CH_CTRL_EN x := by
    obtain rfl : c = x := by simp only [Fld.key, F.CH_CTRL_EN] at e; omega
    rfl
  unfold Dev.clearChs
  refine foldl_clears hc (fun e => ?_) (fun e x h => ?_) d
  · exact (Dev.wr_rd e (F.CH_CTRL_EN c) 0).trans (Nat.zero_mod _)
  · exact Dev.wr_zero_rd (d := e) h same

theorem Dev.clearChs_rd (d : Dev) {f : Fld} (h : ∀ c < 256, f.key ≠ (F.CH_CTRL_EN c).key) : d.clearChs.rd f = d.rd f := by
  unfold Dev.clearChs
  refine foldl_keeps (g := (Dev.rd · f)) (fun c hc e => ?_) d
  exact Dev.wr_rd_ne e 0 (h c (List.mem_range.1 hc))

/-- What is cleared with the enables: the plan, and what of the waiting writes are enables. -/
theorem Dev.clearEnables_eq (d : Dev) :
    ∃ l, d.clearEnables = { d.clearTbs.clearChs with edge := { d.clearTbs.clearChs.edge with plan := [], next := [] }, frm := l } := by
  unfold Dev.clearEnables
  exact ⟨_, rfl⟩

theorem Dev.clearEnables_rd (d : Dev) (f : Fld) : d.clearEnables.rd f = d.clearTbs.clearChs.rd f := by
  obtain ⟨l, e⟩ := d.clearEnables_eq
  rw [e]
  generalize d.clearTbs.clearChs = c
  rfl

theorem Dev.clearEnables_allOff (d : Dev) : d.clearEnables.AllOff := by
  have apart {f : Fld} (h : f.key < 0x64000 * 32) : d.clearEnables.rd f = d.clearTbs.rd f :=
    (d.clearEnables_rd f).trans (d.clearTbs.clearChs_rd fun c hc => by simp only [Fld.key, F.CH_CTRL_EN] at h ⊢; omega)
  obtain ⟨l, e⟩ := d.clearEnables_eq
  refine ⟨fun c hc => (d.clearEnables_rd _).trans (d.clearTbs.clearChs_en hc), fun b hb => ?_, by rw [e], by rw [e]⟩
  exact ⟨(apart (by simp only [Fld.key, F.TB_CTRL_EN]; omega)).trans (d.clearTbs_en hb).1, (apart (by simp only [Fld.key, F.TB_STAT_RUN]; omega)).trans (d.clearTbs_en hb).2⟩

/-! ## Entering the safe state -/

/-- What is seen by `g` is nothing of what the safe state sets or clears. -/
structure OffSafe {β : Type} (g : Dev → β) : Prop extends OffEdge g where
  quiesced : ∀ d v, g (Dev.wr d F.EDG_STAT_QUIESCED v) = g d
  frm : ∀ d l, g { d with frm := l } = g d
  recs : ∀ d n, g { d with frame := { d.frame with safeRecs := n } } = g d
  lines : ∀ d l o, g { d with lines := l, os := o } = g d

/-- The registers below the edge engine's. -/
theorem OffSafe.rd {f : Fld} (h : f.key < 0x60000 * 32) : OffSafe (Dev.rd · f) :=
  ⟨.rd fun _ hk => hk.apart h, fun d v => d.wr_rd_ne v fun e => absurd (e ▸ h) (by decide), fun _ _ => rfl, fun _ _ => rfl, fun _ _ _ => rfl⟩

theorem OffSafe.waits : OffSafe Dev.waits := ⟨⟨⟨fun _ _ _ _ => rfl⟩, fun _ _ => rfl, fun _ _ => rfl⟩, fun _ _ => rfl, fun _ _ => rfl, fun _ _ => rfl, fun _ _ _ => rfl⟩
theorem OffSafe.frameK : OffSafe fun d => d.frame.k := ⟨⟨⟨fun _ _ _ _ => rfl⟩, fun _ _ => rfl, fun _ _ => rfl⟩, fun _ _ => rfl, fun _ _ => rfl, fun _ _ => rfl, fun _ _ _ => rfl⟩

section
variable {β : Type} {g : Dev → β}

theorem Dev.clearEnables_keeps (hg : OffSafe g) (d : Dev) : g d.clearEnables = g d := by
  obtain ⟨l, e⟩ := d.clearEnables_eq
  rw [e, hg.frm { d.clearTbs.clearChs with edge := { d.clearTbs.clearChs.edge with plan := [], next := [] } }, hg.edge, Dev.clearChs_keeps hg.toOffEdge, Dev.clearTbs_keeps hg.toOffEdge]

/-- Of the safe state, what sees nothing of the lines, of the precharge or of the records planned. -/
theorem Dev.toSafe_pinned (hl : ∀ d l o, g { d with lines := l, os := o } = g d) (hp : ∀ d x n, g { d with edge := { d.edge with pc := x }, frame := { d.frame with safeRecs := n } } = g d) (d : Dev) :
    g d.toSafe = g ((d.clearEnables.wr F.EDG_STAT_QUIESCED 1).wr F.EDG_STAT_SAFE 1).pinsSafe :=
  (hp _ _ _).trans (Dev.sendQs_keeps hl _)

theorem Dev.toSafe_keeps (hg : OffSafe g) (d : Dev) : g d.toSafe = g d := by
  rw [Dev.toSafe_pinned hg.lines fun e x n => (hg.recs { e with edge := { e.edge with pc := x } } n).trans (hg.edge e _), Dev.pinsSafe_keeps hg.pins, hg.outputs.safe, hg.quiesced, Dev.clearEnables_keeps hg]

theorem Dev.enterSafe_keeps (hg : OffSafe g) (hr : OffReplies g) (d : Dev) (c : Nat) : g (d.enterSafe c) = g d :=
  (ite_keeps (fun _ => rfl) fun _ => Dev.toSafe_keeps hg _).trans (Dev.abandon_keeps hr d _ c)

end

theorem OffReplies.rd (f : Fld) : OffReplies (Dev.rd · f) := ⟨OffPorts.rd f, fun _ _ => rfl⟩

theorem Dev.enterSafe_rd (d : Dev) (c : Nat) {f : Fld} (h : f.key < 0x60000 * 32) : (d.enterSafe c).rd f = d.rd f :=
  Dev.enterSafe_keeps (.rd h) (.rd f) d c

theorem Dev.abandon_rd (d : Dev) (l : List WaitKind) (c : Nat) (f : Fld) : (d.abandon l c).rd f = d.rd f := Dev.abandon_keeps (.rd f) d l c

theorem Dev.abandon_waits (d : Dev) (l : List WaitKind) (c : Nat) : (d.abandon l c).waits = d.waits.filter fun x => !l.contains x.kind :=
  foldl_keeps (g := Dev.waits) (fun _ _ e => Dev.reply_keeps OffPorts.waits e _ _ _ _ _) _

/-- Entering the safe state ends the waiting commands of R447 alone. -/
theorem Dev.enterSafe_waits (d : Dev) (c : Nat) : (d.enterSafe c).waits = d.waits.filter fun x => !([WaitKind.arm, .precharge, .softStart].contains x.kind) :=
  (ite_keeps (g := Dev.waits) (fun _ => rfl) fun _ => Dev.toSafe_keeps .waits _).trans (d.abandon_waits _ c)

theorem Dev.toSafe_enables (d : Dev) : d.toSafe.enables = d.clearEnables.enables := by
  rw [Dev.toSafe_pinned (g := Dev.enables) (fun _ _ _ => rfl) fun _ _ _ => rfl, offLevels_enables.pinsSafe, offLevels_enables.safe, Dev.wr_enables _ _ (by decide)]

/-- Entered now, nothing is enabled any more. -/
theorem Dev.enterSafe_allOff {d : Dev} (h : d.safe = false) (c : Nat) : (d.enterSafe c).AllOff := by
  have still : (d.abandon [.arm, .precharge, .softStart] c).safe = false := by
    unfold Dev.safe Dev.rdB at h ⊢
    rw [Dev.abandon_rd, h]
  unfold Dev.enterSafe
  dsimp only
  rw [still, if_neg (by decide)]
  exact (Dev.clearEnables_allOff _).congr (Dev.toSafe_enables _)

end Sys2Proof.Machine

namespace Sys2Proof.Machine

/-! ## QUIESCE and STOP -/

/-- What is seen by `g` is nothing of the outputs, of the ports or of what waits for the partner. -/
structure OffEnding {β : Type} (g : Dev → β) : Prop extends OffPorts g, OffLevels g where
  mirror : ∀ d m, g (Dev.mirror d m) = g d

theorem OffEnding.rd {f : Fld} (hd : f.key ≠ F.GSV_DEN_LVL.key) (hs : f.key ≠ F.EDG_STAT_SAFE.key) : OffEnding (Dev.rd · f) :=
  ⟨.rd f, .rd hd hs, fun d m => d.mirror_rd m f⟩

/-- The registers below the edge engine's. -/
theorem OffEnding.low {f : Fld} (h : f.key < 0x60000 * 32) : OffEnding (Dev.rd · f) :=
  .rd (fun e => absurd (e ▸ h) (by decide)) fun e => absurd (e ▸ h) (by decide)

theorem Dev.mirror_keeps {β : Type} {g : Dev → β} (h : ∀ d t, g { d with twn := t } = g d) (d : Dev) (m : Mgt) : g (d.mirror m) = g d :=
  ite_keeps (fun _ => h _ _) fun _ => rfl

/-- A device in the safe state with its outputs held (R159) and the command told to the partner (R342). -/
def Dev.haltedBy (d : Dev) (m : Mgt) : Dev := d.holdOutputs.mirror m

theorem OffEnding.haltedBy {β : Type} {g : Dev → β} (hg : OffEnding g) (d : Dev) (m : Mgt) : g (d.haltedBy m) = g d :=
  (hg.mirror _ _).trans (hg.toOffLevels.holdOutputs d)

theorem OffEnding.enables : OffEnding Dev.enables :=
  ⟨⟨fun _ _ _ => by simp only [Dev.enables, Dev.upPort_rd, Dev.upPort_edge], fun _ _ => rfl⟩, offLevels_enables, Dev.mirror_keeps fun _ _ => rfl⟩

theorem OffEnding.run : OffEnding Dev.run := ⟨.run, ⟨fun _ _ _ => rfl, fun _ _ => rfl, fun _ _ => rfl⟩, Dev.mirror_keeps fun _ _ => rfl⟩
theorem OffEnding.waits : OffEnding Dev.waits := ⟨.waits, ⟨fun _ _ _ => rfl, fun _ _ => rfl, fun _ _ => rfl⟩, Dev.mirror_keeps fun _ _ => rfl⟩
theorem OffEnding.frm : OffEnding Dev.frm := ⟨.frm, ⟨fun _ _ _ => rfl, fun _ _ => rfl, fun _ _ => rfl⟩, Dev.mirror_keeps fun _ _ => rfl⟩

theorem Dev.safe_iff (d : Dev) : d.safe = true ↔ d.rd F.EDG_STAT_QUIESCED = 1 := by
  have hlt := d.rd_lt F.EDG_STAT_QUIESCED
  simp only [Dev.safe, Dev.rdB, decide_eq_true_eq]
  simp only [F.EDG_STAT_QUIESCED] at hlt ⊢
  omega

theorem Dev.setRun_pstate (d : Dev) {r : RunState} (h : d.run ≠ r) : (d.setRun r).rd F.CLK_STAT_PSTATE = r.pstate % 2 ^ F.CLK_STAT_PSTATE.width := by
  unfold Dev.setRun
  rw [if_neg h]
  exact (Dev.noteRun_keeps (OffPorts.rd _) _ _).trans (Dev.wr_rd _ _ _)

theorem Dev.setRun_rd (d : Dev) (r : RunState) {f : Fld} (h : f.key ≠ F.CLK_STAT_PSTATE.key) : (d.setRun r).rd f = d.rd f :=
  Dev.setRun_keeps (g := (Dev.rd · f)) (OffPorts.rd f) (fun _ _ => rfl) (fun e v => e.wr_rd_ne v h) d r

theorem Dev.setRun_enables (d : Dev) (r : RunState) : (d.setRun r).enables = d.enables :=
  Dev.setRun_keeps OffEnding.enables.toOffPorts (fun _ _ => rfl) (fun e v => e.wr_enables v (.inl (by decide))) d r

theorem Dev.frmNext_enables (d : Dev) {f : Fld} (v : Nat) (h : f.key < 0x60000 * 32 ∨ 0x68000 * 32 ≤ f.key) : (d.frmNext f v).enables = d.enables :=
  ite_keeps (fun _ => Dev.wr_enables _ _ h) fun _ => rfl

theorem Dev.frmNext_waits (d : Dev) (f : Fld) (v : Nat) : (d.frmNext f v).waits = d.waits := ite_keeps (g := Dev.waits) (fun _ => rfl) fun _ => rfl

theorem Dev.frmNext_run (d : Dev) (f : Fld) (v : Nat) : (d.frmNext f v).run = d.run := ite_keeps (g := Dev.run) (fun _ => rfl) fun _ => rfl

theorem Dev.frmNext_rd (d : Dev) {f k : Fld} (v : Nat) (h : k.key ≠ f.key) : (d.frmNext f v).rd k = d.rd k :=
  ite_keeps (g := (Dev.rd · k)) (fun _ => Dev.wr_rd_ne _ v h) fun _ => rfl

/-- What QUIESCE does where it ends energised operation. -/
def Dev.quiesceSafe (d : Dev) : Dev := (d.enterSafe 1).setRun .quiesced

theorem Dev.quiesceNow_live {d : Dev} (hi : d.run ≠ .idle) (hq : d.run ≠ .quiesced) : d.quiesceNow = d.quiesceSafe :=
  if_neg fun h => h.elim hi hq

theorem Dev.quiesceNow_off {d : Dev} (h : d.run = .idle ∨ d.run = .quiesced) : d.quiesceNow = d.abandon [.arm] 1 := if_pos h

/-- What is left of QUIESCE once its effect has left the engine in the safe state. -/
theorem quiesceCmd_act {w : Wk} {h : Hdr} {ps : List Word} (hs : w.d.quiesceNow.safe = true) :
    (quiesceCmd h ps).act w = (w.up fun d => d.quiesceNow.haltedBy (.cmd 0x0304 ps w.d.dueNext)).ok 0x0304 h [] := by
  show ((Wk.syncOutputs (w.up (·.quiesceNow))).mirror _ _ _).ok _ _ _ = _
  rw [Wk.syncOutputs_safe hs]
  rfl

theorem Dev.enterSafe_safe (d : Dev) (c : Nat) : (d.enterSafe c).safe = true := (Dev.safe_iff _).2 (d.enterSafe_quiesced c)

theorem Dev.setRun_safe (d : Dev) (r : RunState) : (d.setRun r).safe = d.safe :=
  Dev.setRun_keeps (g := Dev.safe) ⟨fun e p f => by unfold Dev.safe Dev.rdB; rw [Dev.upPort_rd], fun _ _ => rfl⟩ (fun _ _ => rfl)
    (fun e v => by unfold Dev.safe Dev.rdB; rw [Dev.wr_rd_ne _ _ (by decide)]) d r

theorem Dev.quiesceSafe_safe (d : Dev) : d.quiesceSafe.safe = true := (Dev.setRun_safe _ _).trans (d.enterSafe_safe 1)

theorem Dev.stopNowSafe_safe (d : Dev) : d.stopNowSafe.safe = true := by
  have stays : ((d.enterSafe 2).frmNext F.LPE_CTRL_RUN 0).safe = (d.enterSafe 2).safe := by
    unfold Dev.safe Dev.rdB
    rw [Dev.frmNext_rd _ _ (by decide)]
  exact (Dev.setRun_safe _ _).trans (stays.trans (d.enterSafe_safe 2))

/-- What of a field in front of the edge engine QUIESCE and STOP leave. -/
theorem Dev.quiesceSafe_rd (d : Dev) {f : Fld} (h : f.key < 0x60000 * 32) (hp : f.key ≠ F.CLK_STAT_PSTATE.key) : d.quiesceSafe.rd f = d.rd f :=
  (Dev.setRun_rd _ _ hp).trans (d.enterSafe_rd 1 h)

theorem Dev.stopNowSafe_rd (d : Dev) {f : Fld} (h : f.key < 0x60000 * 32) (hp : f.key ≠ F.CLK_STAT_PSTATE.key) : d.stopNowSafe.rd f = d.rd f :=
  (Dev.setRun_rd _ _ hp).trans ((Dev.frmNext_rd _ _ (Nat.ne_of_lt (h.trans (by decide)))).trans (d.enterSafe_rd 2 h))

theorem Dev.quiesceSafe_waits (d : Dev) : d.quiesceSafe.waits = d.waits.filter fun x => !([WaitKind.arm, .precharge, .softStart].contains x.kind) :=
  (Dev.setRun_keeps OffPorts.waits (fun _ _ => rfl) (fun _ _ => rfl) _ _).trans (d.enterSafe_waits 1)

theorem Dev.stopNowSafe_waits (d : Dev) : d.stopNowSafe.waits = d.waits.filter fun x => !([WaitKind.arm, .precharge, .softStart].contains x.kind) :=
  (Dev.setRun_keeps OffPorts.waits (fun _ _ => rfl) (fun _ _ => rfl) _ _).trans
    ((Dev.frmNext_waits _ _ _).trans (d.enterSafe_waits 2))

theorem Dev.quiesceSafe_allOff {d : Dev} (h : d.safe = false) : d.quiesceSafe.AllOff := (Dev.enterSafe_allOff h 1).congr (Dev.setRun_enables _ _)

theorem Dev.stopNowSafe_allOff {d : Dev} (h : d.safe = false) : d.stopNowSafe.AllOff :=
  (Dev.enterSafe_allOff h 2).congr ((Dev.setRun_enables _ _).trans (Dev.frmNext_enables _ _ (.inr (by decide))))

/-- STOP clears LPE_CTRL.RUN for the next boundary, at once while the frame generator stands. -/
theorem Dev.stopNowSafe_lpe (d : Dev) : if d.running then tget [] d.stopNowSafe.frm F.LPE_CTRL_RUN.key = [(0, d.frame.k + 1)] else d.stopNowSafe.rd F.LPE_CTRL_RUN = 0 := by
  have running : (d.enterSafe 2).running = d.running := by unfold Dev.running Dev.rdB; rw [Dev.enterSafe_rd _ _ (by decide)]
  have frame : (d.enterSafe 2).frame.k = d.frame.k := Dev.enterSafe_keeps .frameK ⟨⟨fun _ _ _ => by rw [Dev.upPort_frame], fun _ _ => rfl⟩, fun _ _ => rfl⟩ d 2
  have frm : d.stopNowSafe.frm = ((d.enterSafe 2).frmNext F.LPE_CTRL_RUN 0).frm := Dev.setRun_keeps OffPorts.frm (fun _ _ => rfl) (fun _ _ => rfl) _ _
  have rd : d.stopNowSafe.rd F.LPE_CTRL_RUN = ((d.enterSafe 2).frmNext F.LPE_CTRL_RUN 0).rd F.LPE_CTRL_RUN := Dev.setRun_rd _ _ (by decide)
  rw [frm, rd, ← running, ← frame]
  generalize d.enterSafe 2 = e
  unfold Dev.frmNext
  cases e.running
  · exact (Dev.wr_rd _ _ _).trans (Nat.zero_mod _)
  · rw [if_pos rfl, if_neg (by decide)]
    exact tget_tput_self ([] : List (Nat × BitVec 32)) e.frm F.LPE_CTRL_RUN.key [(0, e.frame.k + 1)]

theorem stopCmd_act {w : Wk} {h : Hdr} {ps : List Word} : (stopCmd h ps).act w =
    if w.d.running then (w.up fun d => d.stopNowSafe.haltedBy (.cmd 0x0305 ps (d.frame.k + 1))).up (·.wait { kind := .stop, hdr := h, op := 0x0305, due := some (w.d.frame.k + 1) })
    else (w.up fun d => d.stopNowSafe.haltedBy (.cmd 0x0305 ps (d.frame.k + 1))).ok 0x0305 h [] := by
  have running : (w.d.stopNowSafe.haltedBy (.cmd 0x0305 ps (w.d.frame.k + 1))).running = w.d.running := by
    unfold Dev.running Dev.rdB
    rw [(OffEnding.rd (by decide) (by decide)).haltedBy, Dev.stopNowSafe_rd _ (by decide) (by decide)]
  unfold stopCmd
  dsimp only
  rw [Wk.syncOutputs_safe (w := w.up (·.stopNowSafe)) w.d.stopNowSafe_safe, ← running]
  rfl

section
variable (s : State) (h : Hdr) (ps : List Word)

/-- What an accepted QUIESCE answers with. -/
def State.quiesceEnd : Dev :=
  ((s.dev.takePkt 0x0304 h ps).quiesceNow.haltedBy (.cmd 0x0304 ps (s.dev.takePkt 0x0304 h ps).dueNext)).replyOk h 0x0304 []

/-- What an accepted STOP answers with; its reply waits for the boundary while frames run. -/
def State.stopEnd : Dev :=
  let d := s.dev.takePkt 0x0305 h ps
  let e := d.stopNowSafe.haltedBy (.cmd 0x0305 ps (d.frame.k + 1))
  if d.running then e.wait { kind := .stop, hdr := h, op := 0x0305, due := some (d.frame.k + 1) } else e.replyOk h 0x0305 []

variable {s h ps} {β : Type} {g : Dev → β}

theorem State.quiesceEnd_keeps (hg : OffEnding g) : g (s.quiesceEnd h ps) = g (s.dev.takePkt 0x0304 h ps).quiesceNow :=
  (Dev.reply_keeps hg.toOffPorts _ _ _ _ _ _).trans (hg.haltedBy _ _)

theorem State.stopEnd_keeps (hg : OffEnding g) (hw : ∀ d l, g { d with waits := l } = g d) : g (s.stopEnd h ps) = g (s.dev.takePkt 0x0305 h ps).stopNowSafe :=
  (ite_keeps (d := (s.dev.takePkt 0x0305 h ps).stopNowSafe.haltedBy (.cmd 0x0305 ps ((s.dev.takePkt 0x0305 h ps).frame.k + 1)))
    (fun _ => hw _ _) fun _ => Dev.reply_keeps hg.toOffPorts _ _ _ _ _ _).trans (hg.haltedBy _ _)

/-- A STOP waits for the boundary while frames run. -/
theorem State.stopEnd_waits : (s.stopEnd h ps).waits = (s.dev.takePkt 0x0305 h ps).stopNowSafe.waits ++
    if (s.dev.takePkt 0x0305 h ps).running then [{ kind := .stop, hdr := h, op := 0x0305, due := some ((s.dev.takePkt 0x0305 h ps).frame.k + 1) }] else [] := by
  unfold State.stopEnd
  extract_lets d e
  have held : e.waits = d.stopNowSafe.waits := OffEnding.waits.haltedBy _ _
  split
  · exact congrArg (· ++ _) held
  · exact (Dev.reply_keeps OffPorts.waits _ _ _ _ _ _).trans (held.trans (List.append_nil _).symm)

theorem State.exec_quiesce_accepted (ha : s.accepts 0x0304 h ps (quiesceCmd h ps) = true) (hs : (s.dev.takePkt 0x0304 h ps).quiesceNow.safe = true)
    (hk : ∀ k ∈ [F.STK_STAT_ROLE, F.TWN_STAT_STATE], (s.dev.takePkt 0x0304 h ps).quiesceNow.rd k = s.dev.rd k) :
    exec (.quiesce h ps) s = .next (s.withDev (s.quiesceEnd h ps)) := by
  have act := quiesceCmd_act (w := s.taking 0x0304 h ps) (h := h) (ps := ps) hs
  exact State.command_did ha (by rw [act]; rfl) (by rw [act]; rfl) ((State.quiesceEnd_keeps (.low (by decide))).trans (hk _ (by simp)))
    ((State.quiesceEnd_keeps (.low (by decide))).trans (hk _ (by simp)))

theorem State.exec_stop_accepted (ha : s.accepts 0x0305 h ps (stopCmd h ps) = true) : exec (.stop h ps) s = .next (s.withDev (s.stopEnd h ps)) := by
  have act := stopCmd_act (w := s.taking 0x0305 h ps) (h := h) (ps := ps)
  have low {f : Fld} (h1 : f.key < 0x60000 * 32) (h2 : f.key ≠ F.CLK_STAT_PSTATE.key) : (s.stopEnd h ps).rd f = s.dev.rd f := by
    rw [State.stopEnd_keeps (.low h1) fun _ _ => rfl, Dev.stopNowSafe_rd _ h1 h2, Dev.takePkt_rd]
  refine State.command_did ha (d := s.stopEnd h ps) ?_ ?_ (low (by decide) (by decide)) (low (by decide) (by decide))
  · rw [act, apply_ite Wk.d]; rfl
  · rw [act, apply_ite Wk.ms]; exact ite_self _

theorem Dev.takePkt_safe (d : Dev) (op : Nat) (h : Hdr) (ps : List Word) : (d.takePkt op h ps).safe = d.safe := by
  unfold Dev.safe Dev.rdB
  rw [Dev.takePkt_rd]

end

/-- QUIESCE out of energised operation. -/
theorem quiesce_live (s : State) (h : Hdr) (ps : List Word) (hi : s.dev.run ≠ .idle) (hq : s.dev.run ≠ .quiesced) (ha : s.accepts 0x0304 h ps (quiesceCmd h ps) = true) :
    Does (.quiesce h ps) s fun t =>
      t.dev.run = .quiesced ∧ t.dev.rd F.EDG_STAT_QUIESCED = 1 ∧ t.dev.rd F.CLK_STAT_PSTATE = 1 ∧ t.vault = s.vault ∧
        t.dev.waits = (s.dev.waits.filter fun x => !([WaitKind.arm, .precharge, .softStart].contains x.kind)) ∧
        (s.dev.safe = false → t.dev.AllOff) := by
  have run : (s.dev.takePkt 0x0304 h ps).run = s.dev.run := Dev.takePkt_keeps .run _ _ _ _
  have now : (s.dev.takePkt 0x0304 h ps).quiesceNow = (s.dev.takePkt 0x0304 h ps).quiesceSafe := Dev.quiesceNow_live (run ▸ hi) (run ▸ hq)
  have kept {β : Type} {g : Dev → β} (hg : OffEnding g) : g (s.quiesceEnd h ps) = g (s.dev.takePkt 0x0304 h ps).quiesceSafe := now ▸ State.quiesceEnd_keeps hg
  refine ⟨_, State.exec_quiesce_accepted ha (now ▸ Dev.quiesceSafe_safe _) ?_, ?_, ?_, ?_, rfl, ?_, fun hs => ?_⟩
  · simp only [List.forall_mem_cons, List.not_mem_nil, false_implies, implies_true, and_true, now]
    exact ⟨(Dev.quiesceSafe_rd _ (by decide) (by decide)).trans (Dev.takePkt_rd _ _ _ _ _), (Dev.quiesceSafe_rd _ (by decide) (by decide)).trans (Dev.takePkt_rd _ _ _ _ _)⟩
  · exact (kept .run).trans (Dev.setRun_run _ _)
  · exact (kept (.rd (by decide) (by decide))).trans ((Dev.safe_iff _).1 (Dev.quiesceSafe_safe _))
  · exact (kept (.rd (by decide) (by decide))).trans (Dev.setRun_pstate _ (by rw [Dev.enterSafe_run, run]; exact hq))
  · exact (kept .waits).trans ((Dev.quiesceSafe_waits _).trans (congrArg _ (Dev.takePkt_keeps .waits _ _ _ _)))
  · exact (Dev.quiesceSafe_allOff ((Dev.takePkt_safe _ _ _ _).trans hs)).congr (kept .enables)

/-- STOP out of energised operation. -/
theorem stop_live (s : State) (h : Hdr) (ps : List Word) (hi : s.dev.run ≠ .idle) (ha : s.accepts 0x0305 h ps (stopCmd h ps) = true) :
    Does (.stop h ps) s fun t =>
      t.dev.run = .idle ∧ t.dev.rd F.EDG_STAT_QUIESCED = 1 ∧ t.dev.rd F.CLK_STAT_PSTATE = 1 ∧ t.vault = s.vault ∧
        (t.dev.waits = (s.dev.waits.filter fun x => !([WaitKind.arm, .precharge, .softStart].contains x.kind)) ++
          (if s.dev.running then [{ kind := .stop, hdr := h, op := 0x0305, due := some (s.dev.frame.k + 1) }] else [])) ∧
        (if s.dev.running then tget [] t.dev.frm F.LPE_CTRL_RUN.key = [(0, s.dev.frame.k + 1)] else t.dev.rd F.LPE_CTRL_RUN = 0) ∧
        (s.dev.safe = false → t.dev.AllOff) := by
  have run : (s.dev.takePkt 0x0305 h ps).run = s.dev.run := Dev.takePkt_keeps .run _ _ _ _
  have frame : (s.dev.takePkt 0x0305 h ps).frame = s.dev.frame := Dev.takePkt_keeps .frame _ _ _ _
  have running : (s.dev.takePkt 0x0305 h ps).running = s.dev.running := by unfold Dev.running Dev.rdB; rw [Dev.takePkt_rd]
  have rd {f : Fld} (hd : f.key ≠ F.GSV_DEN_LVL.key) (hs : f.key ≠ F.EDG_STAT_SAFE.key) : (s.stopEnd h ps).rd f = (s.dev.takePkt 0x0305 h ps).stopNowSafe.rd f :=
    State.stopEnd_keeps (.rd hd hs) fun _ _ => rfl
  refine ⟨_, State.exec_stop_accepted ha, ?_, ?_, ?_, rfl, ?_, ?_, fun hs => ?_⟩
  · exact (State.stopEnd_keeps .run fun _ _ => rfl).trans (Dev.setRun_run _ _)
  · exact (rd (by decide) (by decide)).trans ((Dev.safe_iff _).1 (Dev.stopNowSafe_safe _))
  · refine (rd (by decide) (by decide)).trans (Dev.setRun_pstate _ ?_)
    rw [Dev.frmNext_run, Dev.enterSafe_run, run]
    exact hi
  · rw [State.withDev, State.stopEnd_waits, Dev.stopNowSafe_waits, Dev.takePkt_keeps .waits, running, frame]
  · have lpe := (s.dev.takePkt 0x0305 h ps).stopNowSafe_lpe
    rw [running, frame] at lpe
    rw [State.withDev, rd (by decide) (by decide), State.stopEnd_keeps (g := Dev.frm) .frm fun _ _ => rfl]
    exact lpe
  · exact (Dev.stopNowSafe_allOff ((Dev.takePkt_safe _ _ _ _).trans hs)).congr (State.stopEnd_keeps .enables fun _ _ => rfl)

/-- QUIESCE in IDLE and QUIESCED. -/
theorem quiesce_off (s : State) (h : Hdr) (ps : List Word) (hr : s.dev.run = .idle ∨ s.dev.run = .quiesced) (hs : s.dev.safe = true)
    (ha : s.accepts 0x0304 h ps (quiesceCmd h ps) = true) :
    Does (.quiesce h ps) s fun t => t.dev.run = s.dev.run ∧ t.vault = s.vault ∧ t.dev.waits = (s.dev.waits.filter fun x => x.kind ≠ .arm) ∧
      ∀ f : Fld, f.lo < 32 → f.key ≠ F.EDG_STAT_SAFE.key → f.key ≠ F.GSV_DEN_LVL.key → t.dev.rd f = s.dev.rd f := by
  have run : (s.dev.takePkt 0x0304 h ps).run = s.dev.run := Dev.takePkt_keeps .run _ _ _ _
  have now : (s.dev.takePkt 0x0304 h ps).quiesceNow = (s.dev.takePkt 0x0304 h ps).abandon [.arm] 1 := Dev.quiesceNow_off (run ▸ hr)
  have rd (f : Fld) : (s.dev.takePkt 0x0304 h ps).quiesceNow.rd f = s.dev.rd f := by rw [now, Dev.abandon_rd, Dev.takePkt_rd]
  refine ⟨_, State.exec_quiesce_accepted ha ?_ fun k _ => rd k, ?_, rfl, ?_, fun f _ h1 h2 => (State.quiesceEnd_keeps (.rd h2 h1)).trans (rd f)⟩
  · rw [Dev.safe_iff, rd, ← Dev.safe_iff, hs]
  · exact (State.quiesceEnd_keeps .run).trans ((congrArg Dev.run now).trans ((Dev.abandon_keeps .run _ _ _).trans run))
  · rw [State.withDev, State.quiesceEnd_keeps .waits, now, Dev.abandon_waits, Dev.takePkt_keeps .waits]
    congr 1
    funext x
    cases x.kind <;> rfl

/-- Settles O17: a QUIESCE or STOP of energised operation is the safe state, the run state, and the reply or what waits for the boundary; what the outputs
are held at, the ports and the partner's messages show nothing of these. -/
theorem quiesceAndStopEnterTheSafeState : Obligations.QuiesceAndStopEnterTheSafeState := by
  refine ⟨fun s h ps hi hq ha => ?_, fun s h ps hi _ ha => ?_, quiesce_off⟩
  · obtain ⟨t, ht, run, quiesced, pstate, vault, waits, off⟩ := quiesce_live s h ps hi hq ha
    exact ⟨t, ht, run, quiesced, pstate, vault, waits, fun hs => ⟨(off hs).ch, (off hs).tb, (off hs).plan, (off hs).next⟩⟩
  · obtain ⟨t, ht, run, quiesced, pstate, vault, waits, lpe, off⟩ := stop_live s h ps hi ha
    exact ⟨t, ht, run, quiesced, pstate, vault, waits, lpe, fun hs => ⟨(off hs).ch, (off hs).tb, (off hs).plan, (off hs).next⟩⟩

end Sys2Proof.Machine

/-! Writes of a host port to the edge engine and to the DEN groups (R131, R143, R144, R146, R184, R303). -/
namespace Sys2Proof.Machine

/-! ## Words of the edge engine and the gate supervision -/

/-- A field of the edge engine or the gate supervision that a host writes and reads. -/
structure Fld.EdgeRw (f : Fld) : Prop where
  acc : f.acc = .rw
  app : f.app = .imm ∨ f.app = .car
  low : 0x60000 ≤ f.addr
  high : f.addr < 0x80000

/-- From the edge engine's page to the gate supervision's every page decodes all of A[11:2], but for the engine's own. -/
theorem canon_edge {a : Nat} (h1 : 0x60000 ≤ a) (h2 : a < 0x80000) (h4 : a % 4 = 0) (hs : a / 4096 ≠ 0x68 ∨ a < 0x68400) : canon a = a := by
  have word : a / 4 * 4 = a := by omega
  unfold canon
  dsimp only
  rw [word]
  split
  next small =>
    have page : a / 4096 = 0x68 := by
      simp only [smallPage, Bool.or_eq_true, Bool.and_eq_true, decide_eq_true_eq] at small
      omega
    omega
  · rfl

section
variable {w : Wk} {q : Nat}

/-- With no half of a pair held, a word there is a register write. -/
theorem Wk.writeWord_edge {a : Nat} (v : Nat) (hh : (w.d.port q).half = none) (h1 : 0x60000 ≤ a) (h2 : a < 0x80000) (h4 : a % 4 = 0) (hc : canon a = a) (hg : guardedReg a = false) :
    w.writeWord q a v = w.regWrite q a v := by
  have word : a / 4 * 4 = a := by omega
  have plain : w.plainWrite q a v = w.regWrite q a v := by
    unfold Wk.plainWrite
    dsimp only
    rw [if_pos (by omega), hc, if_neg (by omega), if_neg (by omega), hg]
    rfl
  unfold Wk.writeWord
  dsimp only
  rw [word, if_neg (by omega), hh]
  exact plain

namespace Fld.EdgeRw
variable {f : Fld} (hf : f.EdgeRw)
include hf

theorem ne {g : Fld} (h : g.addr < 0x60000 ∨ 0x80000 ≤ g.addr) : f ≠ g := by
  rintro rfl
  have := hf.low
  have := hf.high
  omega

theorem clasps : claspsOf f = if f.app = .car ∨ f = F.EDG_ARM then [11] else [] := by
  have low := hf.low
  have high := hf.high
  have notStg : decide (f.app = .stg) = false := decide_eq_false (by rcases hf.app with h | h <;> rw [h] <;> decide)
  have out (l h : Nat) (hl : f.addr < l ∨ h ≤ f.addr) : (decide (l ≤ f.addr) && decide (f.addr < h)) = false := by simp; omega
  have off (n : Nat) (hn : f.addr ≠ n) : decide (f.addr = n) = false := decide_eq_false hn
  unfold claspsOf
  dsimp only
  rw [notStg, off 0x4110 (by omega), off 0x90000 (by omega), out 0x50000 0x56000 (by omega), out 0x5F000 0x60000 (by omega), out 0x6000 0x7000 (by omega), out 0x20000 0x38000 (by omega),
    out 0x4200 0x420C (by omega), out 0x9000 0xA000 (by omega), out 0xC000 0xD000 (by omega), out 0xD000 0xE000 (by omega), out 0x90400 0x90800 (by omega), ← Bool.decide_or]
  by_cases h : f.app = .car ∨ f = F.EDG_ARM
  · rw [if_pos h, decide_eq_true h]; rfl
  · rw [if_neg h, decide_eq_false h]; rfl

/-- No rule refuses the write of a field that bead service does not manage, with CLASP11 not the other port's where it covers the field. -/
theorem refuses (hv : w.v.lockout = false) (hc : f.app = .car ∨ f = F.EDG_ARM → w.d.claspHeld 11 q = false)
    (hm : f.addr < 0x68000 → f ≠ F.CH_CTRL_EN ((f.addr - 0x64000) / 64) ∧ (f = F.CH_PHS ((f.addr - 0x64000) / 64) → w.d.managed ((f.addr - 0x64000) / 64) = false)) : w.refuses q f = false := by
  have low := hf.low
  have high := hf.high
  have notStg : decide (f.app = .stg) = false := decide_eq_false (by rcases hf.app with h | h <;> rw [h] <;> decide)
  have own : foreign q f = false := by
    unfold foreign
    simp; omega
  have clasp : (claspsOf f).any (w.d.claspHeld · q) = false := by
    rw [hf.clasps]
    split
    next h => rw [List.any_cons, hc h]; rfl
    next => rfl
  have managed : (decide (0x64000 ≤ f.addr) && decide (f.addr < 0x68000) && (decide (f = F.CH_CTRL_EN ((f.addr - 0x64000) / 64)) || decide (f = F.CH_PHS ((f.addr - 0x64000) / 64))) &&
      w.d.managed ((f.addr - 0x64000) / 64)) = false := by
    by_cases h : f.addr < 0x68000
    · obtain ⟨hen, hphs⟩ := hm h
      rw [decide_eq_false hen, Bool.false_or]
      by_cases hp : f = F.CH_PHS ((f.addr - 0x64000) / 64)
      · rw [hphs hp, Bool.and_false]
      · rw [decide_eq_false hp, Bool.and_false, Bool.false_and]
    · rw [decide_eq_false h, Bool.and_false, Bool.false_and, Bool.false_and]
  unfold Wk.refuses
  dsimp only
  rw [hv, clasp, own, managed, notStg, decide_eq_false (hf.ne (g := F.SYS_FRM_LEN) (by decide)), decide_eq_false (hf.ne (g := F.TIM_INC_INT) (by decide)),
    decide_eq_false (hf.ne (g := F.TIM_INC_FRAC) (by decide))]
  rfl

end Fld.EdgeRw

/-- A register of one field. -/
theorem Wk.writeWord_edge_one {u : Wk} {f : Fld} {x v : Nat} (hh : (w.d.port q).half = none) (hl : fieldsAt x = [f]) (hf : f.EdgeRw) (hx : x % 4 = 0) (hc : canon x = x)
    (h : w.fieldWrite q f (bits v f.lo f.width) = (u, false)) (hs : u.d.stg = w.d.stg) : (w.writeWord q x v).1 = u := by
  have addr : f.addr = x := (fieldsAt_addr x f (by rw [hl]; simp)).1
  have low := hf.low
  have high := hf.high
  have unguarded : guardedReg x = false := by
    unfold guardedReg
    rw [hl, List.any_cons, hf.acc]
    rfl
  rw [Wk.writeWord_edge v hh (by omega) (by omega) hx hc unguarded, Wk.regWrite_one hl (hf.ne (by decide)) h hs]

end

/-! ## EDG_ARM -/

section
variable {β : Type} {g : Dev → β} (hg : OffEdge g)
include hg

theorem OffEdge.tbArmed (d : Dev) {t : Nat} (ht : t < 64) (v : Nat) : g (d.wr (F.TB_STAT_ARMED t) v) = g d :=
  hg.wr d _ v (by simp only [Fld.Engine, Fld.key, F.TB_STAT_ARMED, F.EDG_STAT_QUIESCED]; omega)

theorem OffEdge.chArmed (d : Dev) {c : Nat} (hc : c < 256) (v : Nat) : g (d.wr (F.CH_STAT_ARMED c) v) = g d :=
  hg.wr d _ v (by simp only [Fld.Engine, Fld.key, F.CH_STAT_ARMED, F.EDG_STAT_QUIESCED]; omega)

theorem OffEdge.edgArm (d : Dev) (v : Nat) : g (d.wr F.EDG_ARM v) = g d := hg.wr d _ v (by unfold Fld.Engine; decide)

theorem Dev.syncArmed_keeps (d : Dev) : g d.syncArmed = g d :=
  (hg.edgArm _ _).trans ((foldl_keeps (fun _ hc _ => ite_keeps (fun _ => hg.chArmed _ (List.mem_range.1 hc) _) fun _ => rfl) _).trans
    (foldl_keeps (fun _ ht _ => ite_keeps (fun _ => hg.tbArmed _ (List.mem_range.1 ht) _) fun _ => rfl) d))

theorem Dev.armGroups_keeps (d : Dev) (m : Nat) : g (d.armGroups m) = g d :=
  ite_keeps (fun _ => rfl) fun _ =>
    (foldl_keeps (fun _ hc _ => ite_keeps (fun _ => (hg.chArmed _ (List.mem_range.1 hc) _).trans (hg.setCh _ _ _)) fun _ => rfl) _).trans
      ((foldl_keeps (fun _ ht _ => (hg.tbArmed _ (List.mem_range.1 (List.mem_filter.1 ht).1) _).trans (hg.setTb _ _ _)) _).trans (hg.edgArm d _))

theorem Dev.armMask_keeps (d : Dev) (m v : Nat) : g (d.armMask m v) = g d :=
  (Dev.syncArmed_keeps hg _).trans ((Dev.armGroups_keeps hg _ _).trans
    ((foldl_keeps (fun _ _ _ => ite_keeps (fun _ => hg.edgArm _ _) fun _ => rfl) _).trans
      ((foldl_keeps (fun _ _ _ => ite_keeps (fun _ => hg.setCh _ _ _) fun _ => rfl) _).trans
        (foldl_keeps (fun _ _ _ => ite_keeps (fun _ => hg.setTb _ _ _) fun _ => rfl) d))))

end

theorem OffEdge.stg : OffEdge Dev.stg := ⟨⟨fun _ _ _ _ => rfl⟩, fun _ _ => rfl, fun _ _ => rfl⟩

theorem fieldsAt_edgArm : fieldsAt 0x68000 = [F.EDG_ARM] := by decide

theorem edgArm_edgeRw : F.EDG_ARM.EdgeRw := ⟨rfl, .inl rfl, by decide, by decide⟩

/-- A write of EDG_ARM with a bit set acts (R143), also where it writes what stands there. -/
theorem Wk.fieldWrite_edgArm {w : Wk} {q v : Nat} (h : v ≠ 0) (hv : w.v.lockout = false) (hc : w.d.claspHeld 11 q = false) :
    w.fieldWrite q F.EDG_ARM v = (w.up (·.armMask 65535 v), false) := by
  have counts : w.changes F.EDG_ARM v = true := by
    unfold Wk.changes
    rw [edgArm_edgeRw.acc]
    dsimp only
    rw [if_neg (by decide), if_pos rfl, decide_eq_true h, Bool.true_or]
  unfold Wk.fieldWrite
  rw [counts, edgArm_edgeRw.refuses hv (fun _ => hc) fun h => absurd h (by decide)]
  rfl

section
variable {s : State} {p : Nat} {v : Word}

theorem exec_edgArmWrite_counts (hw : s.writes p = true) (hc : s.dev.claspHeld 11 (portNo p) = false) (hv : v.toNat % 65536 ≠ 0) :
    exec (.edgArmWrite p v) s = .next (s.withDev ((s.dev.putIo (portNo p) []).armMask 65535 (v.toNat % 65536))) := by
  obtain ⟨hlock, hhalf⟩ := State.trans_free hw
  rw [exec_edgArmWrite]
  unfold execEdgArmWrite State.hostWrite
  refine State.host_up (State.writes_hostOn hw) (g := (·.armMask 65535 (v.toNat % 65536))) ?_ fun k hk => ?_
  · exact Wk.writeWord_edge_one hhalf fieldsAt_edgArm edgArm_edgeRw (by decide) (canon_edge (by decide) (by decide) (by decide) (by decide))
      (Wk.fieldWrite_edgArm (v := v.toNat % 65536) hv hlock ((State.trans_claspHeld _ _).trans hc)) (Dev.armMask_keeps .stg _ _ _)
  · exact (Dev.armMask_keeps (.rd fun f hf => Fld.notified_ne_lane hk (by have := hf.1; omega)) _ _ _).trans (Dev.putIo_rd _ _ _ _)

end

/-! ## Shadows of timebases and channels -/

theorem fieldsAt_tb {t o : Nat} (ht : t < 64) (ho : o < 256) : fieldsAt (0x60000 + t * 256 + o) = fieldsTB t o := by
  have unit : (0x60000 + t * 256 + o - 0x60000) / 256 = t := by omega
  have ofs : (0x60000 + t * 256 + o - 0x60000) % 256 = o := by omega
  unfold fieldsAt
  rw [if_neg (by omega), if_neg (by omega), if_neg (by omega), if_neg (by omega), if_neg (by omega), if_neg (by omega), if_pos (by omega), unit, ofs]

theorem fieldsAt_ch {c o : Nat} (hc : c < 256) (ho : o < 64) : fieldsAt (0x64000 + c * 64 + o) = fieldsCH c o := by
  have unit : (0x64000 + c * 64 + o - 0x64000) / 64 = c := by omega
  have ofs : (0x64000 + c * 64 + o - 0x64000) % 64 = o := by omega
  unfold fieldsAt
  rw [if_neg (by omega), if_neg (by omega), if_neg (by omega), if_neg (by omega), if_pos (by omega), unit, ofs]

theorem Dev.setShadow_carVal (d : Dev) (f : Fld) (v : Nat) : (d.setShadow f v).carVal f = v % 2 ^ f.width := by
  have shadow : (d.setShadow f v).shadow f = if v % 2 ^ f.width = d.rd f then none else some (v % 2 ^ f.width) := tget_tput_self _ _ _ _
  unfold Dev.carVal
  rw [shadow]
  split
  next h => exact h.symm
  next => rfl

/-- What a host write of a shadow leaves, that sees nothing of the arming that it may start. -/
theorem Dev.tbShadow_keeps {β : Type} {g : Dev → β} {t : Nat} (hl : ∀ d v, g (Dev.wr d (F.TB_STAT_UPDATE_LATE t) v) = g d) (ha : ∀ d v, g (Dev.wr d (F.TB_STAT_ARMED t) v) = g d)
    (ht : ∀ d x, g (Dev.setTb d t x) = g d) (d : Dev) {f : Fld} {v : Nat} (h : ¬ (f = F.TB_PER t ∧ v < 2)) : g (d.tbShadow t f v) = g (d.setShadow f v) := by
  unfold Dev.tbShadow
  rw [if_neg h]
  exact (ite_keeps (fun _ => (ha _ _).trans (ht _ _)) fun _ => rfl).trans (ite_keeps (fun _ => hl _ _) fun _ => rfl)

theorem Dev.chShadow_keeps {β : Type} {g : Dev → β} {c : Nat} (hl : ∀ d v, g (Dev.wr d (F.CH_STAT_UPDATE_LATE c) v) = g d) (ha : ∀ d v, g (Dev.wr d (F.CH_STAT_ARMED c) v) = g d)
    (hc : ∀ d x, g (Dev.setCh d c x) = g d) (d : Dev) (f : Fld) (v : Nat) : g (d.chShadow c f v) = g (d.setShadow f v) :=
  (ite_keeps (fun _ => (ha _ _).trans (hc _ _)) fun _ => rfl).trans (ite_keeps (fun _ => hl _ _) fun _ => rfl)

/-- What a write of a shadow is judged by: the value in force, and the shadows. -/
def Dev.shadowed (f : Fld) (d : Dev) : Nat × Tab (Option Nat) := (d.rd f, d.shad)

theorem Dev.wr_shadowed (d : Dev) {f k : Fld} (v : Nat) (h : f.key ≠ k.key) : (d.wr k v).shadowed f = d.shadowed f := by
  unfold Dev.shadowed
  rw [d.wr_rd_ne v h, Dev.wr_shad]

theorem Dev.carVal_congr {d e : Dev} {f : Fld} (h : d.shadowed f = e.shadowed f) : d.carVal f = e.carVal f := by
  simp only [Dev.shadowed, Prod.mk.injEq] at h
  unfold Dev.carVal Dev.shadow
  rw [h.1, h.2]

section
variable {w : Wk} {q : Nat} {f : Fld}

theorem Wk.changes_car (hf : f.EdgeRw) (hc : f.app = .car) (v : Nat) : w.changes f v = decide (v ≠ w.d.carVal f % 2 ^ f.width) := by
  have plain : w.plain f = w.d.carVal f % 2 ^ f.width := by
    unfold Wk.plain Wk.pending
    rw [hf.acc, hc]
  have self : f.selfClear = false := by
    unfold Fld.selfClear
    rw [decide_eq_false (by rintro rfl; exact absurd hc (by decide)), decide_eq_false (hf.ne (by decide))]
    rfl
  unfold Wk.changes
  rw [hf.acc]
  dsimp only
  rw [self, if_neg (by decide), if_neg (by rintro rfl; exact absurd hc (by decide)), plain]

theorem Wk.fieldWrite_car_same (hf : f.EdgeRw) (hc : f.app = .car) {v : Nat} (h : v = w.d.carVal f % 2 ^ f.width) : w.fieldWrite q f v = (w, false) :=
  if_pos (by rw [Wk.changes_car hf hc, decide_eq_false (not_not.2 h)]; rfl)

theorem Wk.fieldWrite_car (hf : f.EdgeRw) (hc : f.app = .car) {v : Nat} (h : v ≠ w.d.carVal f % 2 ^ f.width) (hr : w.refuses q f = false) :
    w.fieldWrite q f v = (w.up (·.carShadow f v), false) := by
  unfold Wk.fieldWrite
  rw [Wk.changes_car hf hc, decide_eq_true h, hr]
  unfold Wk.putField
  rw [hc]
  rfl

end

section
variable {s : State} {p : Nat} {v : Word} {f : Fld}

theorem State.trans_managed (c : Nat) : (s.trans p).d.managed c = s.dev.managed c := by
  unfold Dev.managed
  simp only [Dev.rdB, State.trans_rd]

theorem State.trans_carVal (f : Fld) : (s.trans p).d.carVal f = s.dev.carVal f :=
  Dev.carVal_congr (by unfold Dev.shadowed; rw [State.trans_rd]; exact congrArg _ (Dev.upPort_shad _ _ _))

/-- A write of the register of a shadow, by a port, as the write of its one field. -/
theorem exec_carShadowWrite_up {g : Dev → Dev} (hw : s.writes p = true) (hf : f.EdgeRw) (hcar : f.app = .car) (hl : fieldsAt f.addr = [f]) (h4 : f.addr % 4 = 0) (hpage : f.addr / 4096 ≠ 0x68)
    (h : (s.trans p).fieldWrite (portNo p) f (bits v.toNat f.lo f.width) = ((s.trans p).up g, false)) (hs : ∀ d : Dev, (g d).stg = d.stg)
    (hk : ∀ k ∈ [F.STK_STAT_ROLE, F.TWN_STAT_STATE], ∀ d : Dev, (g d).rd k = d.rd k) :
    exec (.carShadowWrite p (BitVec.ofNat 32 f.addr) v) s = .next (s.withDev (g (s.dev.putIo (portNo p) []))) := by
  have addr : (BitVec.ofNat 32 f.addr).toNat = f.addr := by
    have := hf.high
    rw [BitVec.toNat_ofNat]
    omega
  have hcanon := canon_edge hf.low hf.high h4 (.inl hpage)
  have named : ((fieldsAt (canon f.addr)).any fun f => f.app = .car) = true := by rw [hcanon, hl, List.any_cons, decide_eq_true hcar]; rfl
  rw [exec_carShadowWrite]
  unfold execCarShadowWrite
  rw [addr, named]
  exact State.host_up (State.writes_hostOn hw) (g := g) (Wk.writeWord_edge_one (State.trans_free hw).2 hl hf h4 hcanon h (hs _)) fun k hk' => (hk k hk' _).trans (Dev.putIo_rd _ _ _ _)

end

theorem tbPer_edgeRw {t : Nat} (h : t < 64) : (F.TB_PER t).EdgeRw := ⟨rfl, .inr rfl, by simp only [F.TB_PER]; omega, by simp only [F.TB_PER]; omega⟩
theorem chCmp_edgeRw {c : Nat} (h : c < 256) : (F.CH_CMP c).EdgeRw := ⟨rfl, .inr rfl, by simp only [F.CH_CMP]; omega, by simp only [F.CH_CMP]; omega⟩
theorem chPhs_edgeRw {c : Nat} (h : c < 256) : (F.CH_PHS c).EdgeRw := ⟨rfl, .inr rfl, by simp only [F.CH_PHS]; omega, by simp only [F.CH_PHS]; omega⟩

theorem Dev.carShadow_tbPer (d : Dev) {t : Nat} (h : t < 64) (v : Nat) : d.carShadow (F.TB_PER t) v = d.tbShadow t (F.TB_PER t) v := by
  unfold Dev.carShadow
  rw [if_pos (by simp only [F.TB_PER]; omega), show ((F.TB_PER t).addr - 0x60000) / 256 = t by simp only [F.TB_PER]; omega]

theorem Dev.carShadow_ch (d : Dev) {c : Nat} {f : Fld} (h : 0x64000 + c * 64 ≤ f.addr) (k : f.addr < 0x64000 + c * 64 + 64) (hc : c < 256) (v : Nat) : d.carShadow f v = d.chShadow c f v := by
  unfold Dev.carShadow
  rw [if_neg (by omega), if_pos (by omega), show (f.addr - 0x64000) / 64 = c by omega]

/-- What no write of a shadow of a timebase touches but the shadow, its marks and what it arms. -/
structure OffShadow {β : Type} (g : Dev → β) : Prop where
  wr : ∀ d f v, 0x60000 ≤ f.addr → g (Dev.wr d f v) = g d
  edge : ∀ d e, g { d with edge := e } = g d
  shad : ∀ d l, g { d with shad := l } = g d

theorem OffShadow.tbShadow {β : Type} {g : Dev → β} (hg : OffShadow g) (d : Dev) (t : Nat) (f : Fld) (v : Nat) : g (d.tbShadow t f v) = g d := by
  by_cases h : f = F.TB_PER t ∧ v < 2
  · unfold Dev.tbShadow
    rw [if_pos h]
    exact hg.wr _ _ _ (by simp only [F.TB_STAT_PER_REJ]; omega)
  · rw [Dev.tbShadow_keeps (fun e x => hg.wr e _ x (by simp only [F.TB_STAT_UPDATE_LATE]; omega)) (fun e x => hg.wr e _ x (by simp only [F.TB_STAT_ARMED]; omega)) (fun e x => hg.edge e _) d h]
    exact hg.shad d _

theorem OffShadow.chShadow {β : Type} {g : Dev → β} (hg : OffShadow g) (d : Dev) (c : Nat) (f : Fld) (v : Nat) : g (d.chShadow c f v) = g d := by
  rw [Dev.chShadow_keeps (fun e x => hg.wr e _ x (by simp only [F.CH_STAT_UPDATE_LATE]; omega)) (fun e x => hg.wr e _ x (by simp only [F.CH_STAT_ARMED]; omega)) (fun e x => hg.edge e _) d f v]
  exact hg.shad d _

theorem OffShadow.stg : OffShadow Dev.stg := ⟨fun _ _ _ _ => rfl, fun _ _ => rfl, fun _ _ => rfl⟩

theorem OffShadow.notified {k : Fld} (hk : k ∈ [F.STK_STAT_ROLE, F.TWN_STAT_STATE]) : OffShadow (Dev.rd · k) :=
  ⟨fun d _ v hf => d.wr_rd_ne v (Fld.notified_ne_lane hk (by omega)), fun _ _ => rfl, fun _ _ => rfl⟩

section
variable {s : State} {p : Nat} {v : Word}

/-- A write of TB_PER: a period that is there already is no write, one below 2 is refused, any other is the shadow. -/
theorem carShadowWrite_tbPer {t : Nat} (hw : s.writes p = true) (hc : s.dev.claspHeld 11 (portNo p) = false) (ht : t < 64) :
    Does (.carShadowWrite p (BitVec.ofNat 32 (0x60004 + 256 * t)) v) s fun u =>
      u.dev.rd (F.TB_PER t) = s.dev.rd (F.TB_PER t) ∧
        (if v.toNat % 2 ^ 24 = s.dev.carVal (F.TB_PER t) % 2 ^ 24 then u.dev.shad = s.dev.shad
          else if v.toNat % 2 ^ 24 < 2 then u.dev.rd (F.TB_STAT_PER_REJ t) = 1 ∧ u.dev.shad = s.dev.shad else u.dev.carVal (F.TB_PER t) = v.toNat % 2 ^ 24) := by
  have hf := tbPer_edgeRw ht
  have hl : fieldsAt (F.TB_PER t).addr = [F.TB_PER t] := fieldsAt_tb ht (o := 4) (by decide)
  have h4 : (F.TB_PER t).addr % 4 = 0 := by simp only [F.TB_PER]; omega
  have hpage : (F.TB_PER t).addr / 4096 ≠ 0x68 := by simp only [F.TB_PER]; omega
  have addr : 0x60004 + 256 * t = (F.TB_PER t).addr := by simp only [F.TB_PER]; omega
  have low : bits v.toNat (F.TB_PER t).lo (F.TB_PER t).width = v.toNat % 2 ^ 24 := rfl
  have rd : (s.dev.putIo (portNo p) []).rd (F.TB_PER t) = s.dev.rd (F.TB_PER t) := Dev.putIo_rd _ _ _ _
  have shad : (s.dev.putIo (portNo p) []).shad = s.dev.shad := Dev.upPort_shad _ _ _
  rw [addr]
  by_cases same : v.toNat % 2 ^ 24 = s.dev.carVal (F.TB_PER t) % 2 ^ 24
  · refine ⟨_, exec_carShadowWrite_up (g := id) hw hf rfl hl h4 hpage (Wk.fieldWrite_car_same hf rfl ?_) (fun _ => rfl) fun _ _ _ => rfl, rd, ?_⟩
    · rw [State.trans_carVal, low, same]; rfl
    · rw [if_pos same]
      exact shad
  · have refuses : (s.trans p).refuses (portNo p) (F.TB_PER t) = false :=
      hf.refuses (State.trans_free hw).1 (fun _ => (State.trans_claspHeld _ _).trans hc) fun _ => ⟨by simp [F.TB_PER, F.CH_CTRL_EN], fun h => absurd (congrArg Fld.rst h) (by simp [F.TB_PER, F.CH_PHS])⟩
    refine ⟨_, exec_carShadowWrite_up (g := (·.tbShadow t (F.TB_PER t) (v.toNat % 2 ^ 24))) hw hf rfl hl h4 hpage ?_ (fun d => OffShadow.stg.tbShadow d _ _ _)
      fun k hk d => (OffShadow.notified hk).tbShadow d _ _ _, ?_⟩
    · rw [Wk.fieldWrite_car hf rfl (by rw [State.trans_carVal, low]; exact same) refuses, low]
      simp only [Dev.carShadow_tbPer _ ht]
    · dsimp only
      rw [if_neg same]
      split
      next small =>
        have rej : (s.dev.putIo (portNo p) []).tbShadow t (F.TB_PER t) (v.toNat % 2 ^ 24) = (s.dev.putIo (portNo p) []).wr (F.TB_STAT_PER_REJ t) 1 := if_pos ⟨rfl, small⟩
        rw [rej]
        exact ⟨(Dev.wr_rd_ne _ _ (by simp only [Fld.key, F.TB_PER, F.TB_STAT_PER_REJ]; omega)).trans rd, Dev.wr_rd _ _ _, shad⟩
      next large =>
        have kept : ((s.dev.putIo (portNo p) []).tbShadow t (F.TB_PER t) (v.toNat % 2 ^ 24)).shadowed (F.TB_PER t) = ((s.dev.putIo (portNo p) []).setShadow (F.TB_PER t) (v.toNat % 2 ^ 24)).shadowed (F.TB_PER t) :=
          Dev.tbShadow_keeps (g := Dev.shadowed (F.TB_PER t)) (fun d v => d.wr_shadowed v (by simp only [Fld.key, F.TB_PER, F.TB_STAT_UPDATE_LATE]; omega))
            (fun d v => d.wr_shadowed v (by simp only [Fld.key, F.TB_PER, F.TB_STAT_ARMED]; omega)) (fun _ _ => rfl) _ fun h => large h.2
        exact ⟨(congrArg Prod.fst kept).trans rd, (Dev.carVal_congr kept).trans ((Dev.setShadow_carVal _ _ _).trans (Nat.mod_mod _ _))⟩

/-- A write of the compare value or the phase of a channel changes the shadow alone. -/
theorem carShadowWrite_ch {c : Nat} {f : Fld} (hw : s.writes p = true) (hc : s.dev.claspHeld 11 (portNo p) = false) (h : c < 256)
    (hf : f = F.CH_CMP c ∨ (f = F.CH_PHS c ∧ s.dev.managed c = false)) (hv : v.toNat % 2 ^ f.width ≠ s.dev.carVal f % 2 ^ f.width) :
    Does (.carShadowWrite p (BitVec.ofNat 32 f.addr) v) s fun u => u.dev.rd f = s.dev.rd f ∧ u.dev.carVal f = v.toNat % 2 ^ f.width ∧ u.vault = s.vault := by
  have rw' : f.EdgeRw := by rcases hf with rfl | ⟨rfl, -⟩; exacts [chCmp_edgeRw h, chPhs_edgeRw h]
  have car : f.app = .car ∧ f.lo = 0 := by rcases hf with rfl | ⟨rfl, -⟩ <;> exact ⟨rfl, rfl⟩
  have hl : fieldsAt f.addr = [f] := by rcases hf with rfl | ⟨rfl, -⟩; exacts [fieldsAt_ch h (o := 8) (by decide), fieldsAt_ch h (o := 12) (by decide)]
  have place : 0x64000 + c * 64 ≤ f.addr ∧ f.addr < 0x64000 + c * 64 + 16 ∧ f.addr % 4 = 0 := by
    rcases hf with rfl | ⟨rfl, -⟩
    · simp only [F.CH_CMP]; omega
    · simp only [F.CH_PHS]; omega
  obtain ⟨hlo, hhi, h4⟩ := place
  have low : bits v.toNat f.lo f.width = v.toNat % 2 ^ f.width := by rw [car.2, bits_low]
  have unit : (f.addr - 0x64000) / 64 = c := by omega
  have refuses : (s.trans p).refuses (portNo p) f = false := by
    refine rw'.refuses (State.trans_free hw).1 (fun _ => (State.trans_claspHeld _ _).trans hc) fun _ => ?_
    rw [unit, State.trans_managed]
    rcases hf with rfl | ⟨rfl, hm⟩
    · exact ⟨fun e => absurd (congrArg Fld.app e) (by simp [F.CH_CMP, F.CH_CTRL_EN]), fun e => absurd (congrArg Fld.addr e) (by simp [F.CH_CMP, F.CH_PHS])⟩
    · exact ⟨fun e => absurd (congrArg Fld.app e) (by simp [F.CH_PHS, F.CH_CTRL_EN]), fun _ => hm⟩
  have apart {k : Fld} (hk : f.addr < k.addr) (hlo : k.lo < 32) : f.key ≠ k.key := by
    simp only [Fld.key, car.2]; omega
  have kept : ((s.dev.putIo (portNo p) []).chShadow c f (v.toNat % 2 ^ f.width)).shadowed f = ((s.dev.putIo (portNo p) []).setShadow f (v.toNat % 2 ^ f.width)).shadowed f :=
    Dev.chShadow_keeps (g := Dev.shadowed f) (fun d v => d.wr_shadowed v (apart (by simp only [F.CH_STAT_UPDATE_LATE]; omega) (by simp [F.CH_STAT_UPDATE_LATE])))
      (fun d v => d.wr_shadowed v (apart (by simp only [F.CH_STAT_ARMED]; omega) (by simp [F.CH_STAT_ARMED]))) (fun _ _ => rfl) _ _ _
  refine ⟨_, exec_carShadowWrite_up (g := (·.chShadow c f (v.toNat % 2 ^ f.width))) hw rw' car.1 hl h4 (by omega) ?_ (fun d => OffShadow.stg.chShadow d _ _ _)
    fun k hk d => (OffShadow.notified hk).chShadow d _ _ _, (congrArg Prod.fst kept).trans (Dev.putIo_rd _ _ _ _),
    (Dev.carVal_congr kept).trans ((Dev.setShadow_carVal _ _ _).trans (Nat.mod_mod _ _)), rfl⟩
  rw [Wk.fieldWrite_car rw' car.1 (by rw [State.trans_carVal, low]; exact hv) refuses, low]
  simp only [Dev.carShadow_ch _ hlo (by omega : f.addr < 0x64000 + c * 64 + 64) h]

end

/-! ## DEN toggles -/

theorem bitOf_or (x y m : Nat) : bitOf (x ||| y) m = (bitOf x m || bitOf y m) := Nat.testBit_or x y m

theorem bitOf_shift (i m : Nat) : bitOf (1 <<< i) m = decide (i = m) := by
  unfold bitOf
  rw [Nat.one_shiftLeft, Nat.testBit_two_pow]

theorem bitOf_mod {m w : Nat} (h : m < w) (x : Nat) : bitOf (x % 2 ^ w) m = bitOf x m := by
  unfold bitOf
  rw [Nat.testBit_mod_two_pow, decide_eq_true h, Bool.true_and]

theorem Dev.setBit_bit (d : Dev) {f : Fld} (i : Nat) {m : Nat} (h : m < f.width) : bitOf ((d.setBit f i).rd f) m = (bitOf (d.rd f) m || decide (i = m)) := by
  unfold Dev.setBit
  rw [Dev.wr_rd, bitOf_mod h, bitOf_or, bitOf_shift]

/-- The toggle of one DEN group, as a write of its bit starts it (R184). -/
def Dev.denStart (mask : Nat) (d : Dev) (m : Nat) : Dev :=
  if bitOf mask m ∧ (tget none d.edge.den m).isNone then
    { d with edge := { d.edge with den := tput none d.edge.den m (some 0) } }.setBit F.GSV_DEN_TOGGLE m
  else d

theorem Dev.denToggle_eq (d : Dev) (mask : Nat) : d.denToggle mask = (List.range 8).foldl (Dev.denStart mask) d := rfl

/-- The toggle of a group, and its bit. -/
def Dev.denOf (d : Dev) (m : Nat) : Option Nat × Bool := (tget none d.edge.den m, bitOf (d.rd F.GSV_DEN_TOGGLE) m)

theorem Dev.denStart_of_ne (mask : Nat) (d : Dev) {i m : Nat} (hm : m < 8) (h : m ≠ i) : (d.denStart mask i).denOf m = d.denOf m :=
  ite_keeps (g := (Dev.denOf · m)) (fun _ => Prod.ext (tget_tput_ne none none d.edge.den (some 0) h) (by
    show bitOf ((Dev.setBit _ _ _).rd _) m = _
    rw [Dev.setBit_bit _ i (show m < F.GSV_DEN_TOGGLE.width from hm), decide_eq_false (Ne.symm h), Bool.or_false]
    rfl)) fun _ => rfl

theorem Dev.denStart_self (mask : Nat) (d : Dev) {m : Nat} (hm : m < 8) :
    (d.denStart mask m).denOf m = (if bitOf mask m = true ∧ (d.denOf m).1 = none then some 0 else (d.denOf m).1, (d.denOf m).2 || (bitOf mask m && (d.denOf m).1.isNone)) := by
  have start : (bitOf mask m = true ∧ (tget none d.edge.den m).isNone = true) ↔ (bitOf mask m = true ∧ (d.denOf m).1 = none) := and_congr Iff.rfl Option.isNone_iff_eq_none
  unfold Dev.denStart
  by_cases h : bitOf mask m = true ∧ (d.denOf m).1 = none
  · rw [if_pos (start.2 h), if_pos h, h.1, h.2]
    refine Prod.ext (tget_tput_self (none : Option Nat) d.edge.den m (some 0)) ?_
    show bitOf ((Dev.setBit _ _ _).rd _) m = _
    rw [Dev.setBit_bit _ m (show m < F.GSV_DEN_TOGGLE.width from hm), decide_eq_true rfl]
    exact (Bool.or_true _).trans (Bool.or_true _).symm
  · rw [if_neg (fun k => h (start.1 k)), if_neg h]
    refine Prod.ext rfl ?_
    have none : (bitOf mask m && (d.denOf m).1.isNone) = false := by
      rw [Bool.and_eq_false_iff, ← Bool.not_eq_true, ← Bool.not_eq_true, Option.isNone_iff_eq_none]
      exact not_and_or.1 h
    exact (none ▸ Bool.or_false _).symm

/-- A loop over units below `n`, each step of which acts on its own unit alone. -/
theorem foldl_unit {β : Type} {g : Dev → β} {step : Dev → Nat → Dev} {φ : β → β} {n m : Nat} (hm : m < n) (self : ∀ d, g (step d m) = φ (g d)) (other : ∀ d i, i ≠ m → g (step d i) = g d) (d : Dev) :
    g ((List.range n).foldl step d) = φ (g d) := by
  obtain ⟨l₁, l₂, split⟩ := List.append_of_mem (List.mem_range.2 hm)
  have nodup := split ▸ List.nodup_range (n := n)
  have apart₁ : ∀ i ∈ l₁, i ≠ m := fun i hi => (List.nodup_append.1 nodup).2.2 i hi m (by simp)
  have apart₂ : ∀ i ∈ l₂, i ≠ m := fun i hi e => (List.nodup_cons.1 (List.nodup_append.1 nodup).2.1).1 (e ▸ hi)
  rw [split, List.foldl_append, List.foldl_cons, foldl_keeps (fun i hi e => other e i (apart₂ i hi)), self, foldl_keeps fun i hi e => other e i (apart₁ i hi)]

theorem Dev.denToggle_denOf (d : Dev) (mask : Nat) {m : Nat} (hm : m < 8) :
    (d.denToggle mask).denOf m = (if bitOf mask m = true ∧ (d.denOf m).1 = none then some 0 else (d.denOf m).1, (d.denOf m).2 || (bitOf mask m && (d.denOf m).1.isNone)) := by
  rw [Dev.denToggle_eq]
  exact foldl_unit (g := (Dev.denOf · m)) (φ := fun x => (if bitOf mask m = true ∧ x.1 = none then some 0 else x.1, x.2 || (bitOf mask m && x.1.isNone))) hm
    (fun d => Dev.denStart_self mask d hm) (fun d i hi => Dev.denStart_of_ne mask d hm (Ne.symm hi)) d

theorem Dev.denToggle_keeps {β : Type} {g : Dev → β} (hd : ∀ d l, g { d with edge := { d.edge with den := l } } = g d) (ht : ∀ d v, g (Dev.wr d F.GSV_DEN_TOGGLE v) = g d) (d : Dev) (mask : Nat) :
    g (d.denToggle mask) = g d :=
  foldl_keeps (fun _ _ _ => ite_keeps (fun _ => (ht _ _).trans (hd _ _)) fun _ => rfl) d

theorem Dev.denToggle_rd (d : Dev) (mask : Nat) {f : Fld} (h : f.key ≠ F.GSV_DEN_TOGGLE.key) : (d.denToggle mask).rd f = d.rd f :=
  Dev.denToggle_keeps (g := (Dev.rd · f)) (fun _ _ => rfl) (fun e v => e.wr_rd_ne v h) d mask

/-! ### The register of the DEN groups -/

theorem fieldsAt_den : fieldsAt 0x70090 = [F.GSV_DEN_EN, F.GSV_DEN_TOGGLE, F.GSV_DEN_LOW_FR, F.GSV_DEN_LVL] := by decide

theorem denEn_edgeRw : F.GSV_DEN_EN.EdgeRw := ⟨rfl, .inl rfl, by decide, by decide⟩
theorem denToggle_edgeRw : F.GSV_DEN_TOGGLE.EdgeRw := ⟨rfl, .inl rfl, by decide, by decide⟩
theorem denLow_edgeRw : F.GSV_DEN_LOW_FR.EdgeRw := ⟨rfl, .inl rfl, by decide, by decide⟩

section
variable {w : Wk} {q : Nat}

/-- A field past the timebases is read as it is stored. -/
theorem Wk.plain_stored {f : Fld} (ha : f.acc ≠ .wo) (hp : f.app = .imm) (h : 0x64000 ≤ f.addr) : w.plain f = w.d.rd f := by
  have live : w.live f = w.d.rd f := by
    unfold Wk.live
    dsimp only
    rw [if_neg (by omega), if_neg (by omega), if_neg (by omega), if_neg (by omega), if_neg (by omega), if_neg (by omega), if_neg (by omega), if_neg (by omega), if_neg (by omega), if_neg (by omega)]
  have pending : w.pending f = w.d.rd f := by
    unfold Wk.pending
    rw [hp]
    split
    · exact absurd ‹_› ha
    · exact live
  unfold Wk.plain
  rw [pending, Nat.mod_eq_of_lt (w.d.rd_lt f)]

theorem packWord_den (val : Fld → Nat) : packWord [F.GSV_DEN_EN, F.GSV_DEN_TOGGLE, F.GSV_DEN_LOW_FR, F.GSV_DEN_LVL] val =
    val F.GSV_DEN_EN % 2 ^ 8 + val F.GSV_DEN_TOGGLE % 2 ^ 8 * 2 ^ 8 + val F.GSV_DEN_LOW_FR % 2 ^ 4 * 2 ^ 16 + val F.GSV_DEN_LVL % 2 ^ 8 * 2 ^ 24 := by
  unfold packWord
  rw [List.foldl_cons, List.foldl_cons, List.foldl_cons, List.foldl_cons, List.foldl_nil, Nat.zero_add, show F.GSV_DEN_EN.lo = 0 from rfl, Nat.pow_zero, Nat.mul_one]
  rfl

/-- The register of the DEN groups as a host writes it that means TOGGLE alone. -/
theorem Wk.wordWith_den {mask : Nat} (h : mask < 2 ^ 8) : w.wordWith 0x70090 F.GSV_DEN_TOGGLE mask =
    w.d.rd F.GSV_DEN_EN + mask * 2 ^ 8 + w.d.rd F.GSV_DEN_LOW_FR * 2 ^ 16 + w.d.rd F.GSV_DEN_LVL * 2 ^ 24 := by
  have stored {f : Fld} (ha : f.acc ≠ .wo ∧ f.acc ≠ .w1c) (hp : f.app = .imm) (hl : 0x64000 ≤ f.addr) (hs : f.selfClear = false) (hne : f ≠ F.GSV_DEN_TOGGLE) :
      (if f = F.GSV_DEN_TOGGLE then mask else if f.acc = .w1c ∨ f.selfClear then 0 else w.plain f) = w.d.rd f := by
    rw [if_neg hne, if_neg (by simp [ha.2, hs]), Wk.plain_stored ha.1 hp hl]
  unfold Wk.wordWith
  rw [fieldsAt_den, packWord_den, stored (f := F.GSV_DEN_EN) (by decide) rfl (by decide) (by decide) (by decide), if_pos rfl,
    stored (f := F.GSV_DEN_LOW_FR) (by decide) rfl (by decide) (by decide) (by decide), stored (f := F.GSV_DEN_LVL) (by decide) rfl (by decide) (by decide) (by decide), Nat.mod_eq_of_lt (show w.d.rd F.GSV_DEN_EN < 2 ^ 8 from w.d.rd_lt _),
    Nat.mod_eq_of_lt (show w.d.rd F.GSV_DEN_LOW_FR < 2 ^ 4 from w.d.rd_lt _), Nat.mod_eq_of_lt (show w.d.rd F.GSV_DEN_LVL < 2 ^ 8 from w.d.rd_lt _), Nat.mod_eq_of_lt h]

/-- A field of the register that is written with the value it holds. -/
theorem Wk.fieldWrite_still {f : Fld} (hf : f.EdgeRw) (hp : f.app = .imm) (hs : f.selfClear = false) (hne : f ≠ F.EDG_ARM) (h : 0x64000 ≤ f.addr) : w.fieldWrite q f (w.d.rd f) = (w, false) := by
  refine if_pos ?_
  unfold Wk.changes
  rw [hf.acc]
  dsimp only
  rw [hs, if_neg (by decide), if_neg hne, Wk.plain_stored (by rw [hf.acc]; decide) hp h, decide_eq_false (not_not.2 rfl)]
  rfl

theorem Wk.fieldWrite_denToggle {mask : Nat} (h : mask ≠ 0) (hv : w.v.lockout = false) : w.fieldWrite q F.GSV_DEN_TOGGLE mask = (w.up (·.denToggle mask), false) := by
  have counts : w.changes F.GSV_DEN_TOGGLE mask = true := by
    unfold Wk.changes
    rw [denToggle_edgeRw.acc]
    dsimp only
    rw [if_pos (by decide), decide_eq_true h]
  unfold Wk.fieldWrite
  rw [counts, denToggle_edgeRw.refuses hv (fun h => absurd h (by decide)) fun h => absurd h (by decide)]
  rfl

theorem Wk.writeWord_den {mask : Nat} (hh : (w.d.port q).half = none) (hv : w.v.lockout = false) (h : mask < 256) (h0 : mask ≠ 0) :
    (w.writeWord q 0x70090 (w.wordWith 0x70090 F.GSV_DEN_TOGGLE mask)).1 = w.up (·.denToggle mask) := by
  have hen : w.d.rd F.GSV_DEN_EN < 256 := w.d.rd_lt _
  have hlow : w.d.rd F.GSV_DEN_LOW_FR < 16 := w.d.rd_lt _
  have en : bits (w.wordWith 0x70090 F.GSV_DEN_TOGGLE mask) 0 8 = w.d.rd F.GSV_DEN_EN := by
    rw [Wk.wordWith_den h, bits, Nat.shiftRight_eq_div_pow]; omega
  have toggle : bits (w.wordWith 0x70090 F.GSV_DEN_TOGGLE mask) 8 8 = mask := by
    rw [Wk.wordWith_den h, bits, Nat.shiftRight_eq_div_pow]; omega
  have low : bits (w.wordWith 0x70090 F.GSV_DEN_TOGGLE mask) 16 4 = w.d.rd F.GSV_DEN_LOW_FR := by
    rw [Wk.wordWith_den h, bits, Nat.shiftRight_eq_div_pow]; omega
  have kept : (w.up (·.denToggle mask)).d.rd F.GSV_DEN_LOW_FR = w.d.rd F.GSV_DEN_LOW_FR := Dev.denToggle_rd _ _ (by decide)
  rw [Wk.writeWord_edge _ hh (by decide) (by decide) (by decide) (canon_edge (by decide) (by decide) (by decide) (by decide)) (by decide)]
  unfold Wk.regWrite
  rw [fieldsAt_den]
  refine congrArg Prod.fst (Wk.fieldsWrite_plain (fun e he => ?_) (u := w.up (·.denToggle mask)) ?_ (Dev.denToggle_keeps (g := Dev.stg) (fun _ _ => rfl) (fun _ _ => rfl) _ _))
  · simp only [List.map_cons, List.map_nil, List.mem_cons, List.not_mem_nil, or_false] at he
    have apart : ∀ f ∈ [F.GSV_DEN_EN, F.GSV_DEN_TOGGLE, F.GSV_DEN_LOW_FR, F.GSV_DEN_LVL], f ≠ F.STK_MTX_CTRL_GO := by decide
    obtain rfl | rfl | rfl | rfl := he <;> exact apart _ (by simp)
  · show List.foldl _ _ [(F.GSV_DEN_EN, bits (w.wordWith 0x70090 F.GSV_DEN_TOGGLE mask) 0 8), (F.GSV_DEN_TOGGLE, bits (w.wordWith 0x70090 F.GSV_DEN_TOGGLE mask) 8 8),
      (F.GSV_DEN_LOW_FR, bits (w.wordWith 0x70090 F.GSV_DEN_TOGGLE mask) 16 4), (F.GSV_DEN_LVL, bits (w.wordWith 0x70090 F.GSV_DEN_TOGGLE mask) 24 8)] = _
    have still := Wk.fieldWrite_still (w := w.up (·.denToggle mask)) (q := q) denLow_edgeRw rfl (by decide) (by decide) (by decide)
    rw [kept] at still
    have lvl (u : Wk) (x : Nat) : u.fieldWrite q F.GSV_DEN_LVL x = (u, false) := rfl
    simp only [List.foldl_cons, List.foldl_nil, en, toggle, low, Wk.fieldWrite_still (w := w) (q := q) denEn_edgeRw rfl (by decide) (by decide) (by decide), Wk.fieldWrite_denToggle h0 hv, still, lvl,
      Bool.or_false]

end

theorem gsvDenToggleWrite_counts {s : State} {p : Nat} {mask : BitVec 8} (hw : s.writes p = true) (h : mask ≠ 0) :
    exec (.gsvDenToggleWrite p mask) s = .next (s.withDev ((s.dev.putIo (portNo p) []).denToggle mask.toNat)) := by
  obtain ⟨hlock, hhalf⟩ := State.trans_free hw
  rw [exec_gsvDenToggleWrite]
  unfold execGsvDenToggleWrite State.fieldOnly
  refine State.host_up (State.writes_hostOn hw) (g := (·.denToggle mask.toNat)) ?_ fun k hk => ?_
  · exact Wk.writeWord_den hhalf hlock mask.isLt fun e => h (BitVec.eq_of_toNat_eq e)
  · rw [Dev.denToggle_rd _ _ (Fld.notified_ne_lane hk (by decide)), Dev.putIo_rd]

theorem Dev.putIo_denOf (d : Dev) (q : Nat) (ws : List Nat) (m : Nat) : (d.putIo q ws).denOf m = d.denOf m :=
  Prod.ext (congrArg (fun e : EdgeSt => tget none e.den m) (Dev.upPort_edge _ _ _)) (congrArg (bitOf · m) (Dev.putIo_rd _ _ _ _))

/-- Settles O29: EDG_ARM with a bit set always counts; a shadow's register is its one field; of the register of the DEN groups only TOGGLE counts. -/
theorem writesToTheEdgeEngine : Obligations.WritesToTheEdgeEngine := by
  refine ⟨fun s p v => exec_edgArmWrite_counts, fun s p t v hw hc ht => carShadowWrite_tbPer hw hc ht, fun s p c v f => carShadowWrite_ch, fun s p mask hw hm => ?_⟩
  refine ⟨_, gsvDenToggleWrite_counts hw hm, rfl, ?_, fun m hm => ?_⟩
  · exact (Dev.denToggle_keeps (g := Dev.run) (fun _ _ => rfl) (fun _ _ => rfl) _ _).trans (Dev.upPort_run _ _ _)
  · have den := (s.dev.putIo (portNo p) []).denToggle_denOf mask.toNat hm
    rw [Dev.putIo_denOf] at den
    exact ⟨congrArg Prod.fst den, congrArg Prod.snd den⟩

end Sys2Proof.Machine

/-! A pin edge to come of a LEVEL that no channel has (R137). -/
namespace Sys2Proof.Machine

/-! ## What the collector leaves of the edge engine -/

/-- The edge engine, and whether it is in the safe state. -/
def Dev.engine (d : Dev) : EdgeSt × Nat := (d.edge, d.rd F.EDG_STAT_QUIESCED)

/-- The edge engine stands as it was, or is in the safe state. -/
def Dev.EngineStands (d d' : Dev) : Prop := d'.rd F.EDG_STAT_QUIESCED ≠ 1 → d'.engine = d.engine

theorem Dev.EngineStands.of_eq {d d' : Dev} (h : d'.engine = d.engine) : d.EngineStands d' := fun _ => h

theorem Dev.EngineStands.trans {a b c : Dev} (h : a.EngineStands b) (k : b.EngineStands c) : a.EngineStands c := fun hc => by
  have same := k hc
  exact same.trans (h fun hb => hc ((congrArg Prod.snd same).trans hb))

theorem Dev.wr_engine (d : Dev) {f : Fld} (v : Nat) (h : f.key < 0x60000 * 32) : (d.wr f v).engine = d.engine :=
  Prod.ext rfl (d.wr_rd_ne v fun e => absurd (e ▸ h) (by decide))

theorem OffPorts.engine : OffPorts Dev.engine := ⟨fun _ _ _ => Prod.ext (Dev.upPort_edge _ _ _) (Dev.upPort_rd _ _ _ _), fun _ _ => rfl⟩

theorem Dev.classify_engine (d : Dev) (m : Msg) : (d.classify m).1.engine = d.engine := by
  unfold Dev.classify
  dsimp only
  split
  · rfl
  · exact (Dev.wr_engine _ _ (by simp only [Fld.key, F.FLT_CNT_WCLASS]; omega)).trans (Dev.wr_engine _ _ (by simp only [Fld.key, F.FLT_CNT_WCNT]; omega))

theorem Dev.noteTo_keeps {β : Type} {g : Dev → β} (hg : OffPorts g) (d : Dev) (p b t : Nat) (x : Note) : g (d.noteTo p b t x) = g d :=
  ite_keeps (fun _ => hg.port _ _ _) fun _ => rfl

theorem Dev.announce_engine (d : Dev) (m : Msg) : (d.announce m).engine = d.engine := by
  have note (e : Dev) (p b : Nat) (x : Note) (lim : Nat) : (if lim ≤ m.sev then e.noteTo p b 2 x else e).engine = e.engine :=
    ite_keeps (fun _ => Dev.noteTo_keeps .engine e p b 2 x) fun _ => rfl
  have shown (e : Dev) : (if e.rd F.FLT_STAT_CLASSMAX < m.sev then e.wr F.FLT_STAT_CLASSMAX m.sev else e).engine = e.engine := ite_keeps (fun _ => e.wr_engine _ (by decide)) fun _ => rfl
  have lost (e : Dev) : (e.inc F.FLT_STAT_LOST).engine = e.engine := e.wr_engine _ (by decide)
  have pendA (e : Dev) : (if e.rdB (F.FLT_CFG_IRQA m.fs) then e.setBit (F.FLT_PEND_A (m.fs % 128 / 32)) (m.fs % 32) else e).engine = e.engine :=
    ite_keeps (fun _ => e.wr_engine _ (by simp only [Fld.key, F.FLT_PEND_A]; omega)) fun _ => rfl
  have pendB (e : Dev) : (if e.rdB (F.FLT_CFG_IRQB m.fs) then e.setBit (F.FLT_PEND_B (m.fs % 128 / 32)) (m.fs % 32) else e).engine = e.engine :=
    ite_keeps (fun _ => e.wr_engine _ (by simp only [Fld.key, F.FLT_PEND_B]; omega)) fun _ => rfl
  unfold Dev.announce
  extract_lets d₁ ram aon flt d₂ d₃ d₄ lo hi w x one
  have queued : d₂.engine = d₁.engine := ite_keeps (fun _ => rfl) fun _ => ite_keeps (fun _ => rfl) fun _ => lost d₁
  calc (one 1 1 hi (one 1 0 hi (one 0 1 lo (one 0 0 lo d₄)))).engine
    _ = d₄.engine := (note _ _ _ _ _).trans ((note _ _ _ _ _).trans ((note _ _ _ _ _).trans (note _ _ _ _ _)))
    _ = d₁.engine := (pendB d₃).trans ((pendA d₂).trans queued)
    _ = d.engine := shown d

theorem Dev.report_engine (d : Dev) (m : Msg) : (d.report m).engine = d.engine :=
  (Dev.announce_engine _ m).trans (Dev.wr_engine d _ (by simp only [Fld.key, F.FLT_CNT]; omega))

theorem Dev.owner_engine (d : Dev) (m : Msg) : (d.owner m).engine = d.engine := by
  unfold Dev.owner
  split
  · split
    next b hb =>
      have hlt := Msg.bead_lt hb
      exact ite_keeps (fun _ => ite_keeps (fun _ => rfl) fun _ => Dev.wr_engine _ _ (by simp only [Fld.key, F.BDT_STATE_FAILED]; omega)) fun _ => rfl
    · rfl
  · rfl

theorem Dev.owners_engine (d : Dev) (l : List Msg) : (d.owners l).engine = d.engine :=
  (foldl_keeps (f := Dev.noteYield) (fun _ _ _ => ite_keeps (fun _ => rfl) fun _ => rfl) _).trans (foldl_keeps (f := Dev.owner) (fun m _ e => e.owner_engine m) d)

theorem classifyAll_engine (d : Dev) (ms : List Msg) : (classifyAll d ms).1.engine = d.engine := by
  have fold (ms : List Msg) (a : Dev × List Msg) : (ms.foldl (fun (a : Dev × List Msg) m => ((a.1.classify m).1, a.2 ++ [(a.1.classify m).2])) a).1.engine = a.1.engine := by
    induction ms generalizing a with
    | nil => rfl
    | cons m r ih => exact (ih _).trans (a.1.classify_engine m)
  exact fold ms (d, [])

theorem Dev.trip_quiesced (d : Dev) : d.trip.rd F.EDG_STAT_QUIESCED = 1 :=
  (Dev.setRun_rd _ _ (by decide)).trans ((Dev.wr_rd_ne _ _ (by decide)).trans (d.enterSafe_quiesced 3))

theorem Dev.lock_quiesced (d : Dev) : d.lock.rd F.EDG_STAT_QUIESCED = 1 := by
  have wr (e : Dev) {f : Fld} (v : Nat) (h : F.EDG_STAT_QUIESCED.key ≠ f.key) : (e.wr f v).rd F.EDG_STAT_QUIESCED = e.rd F.EDG_STAT_QUIESCED := e.wr_rd_ne v h
  unfold Dev.lock
  extract_lets d₁ d₂ twn d₃ d₄ d₅ hbk d₆ stk d₇ d₈ d₉
  have h₁ : d₁.rd F.EDG_STAT_QUIESCED = 1 := (wr _ _ (by decide)).trans (d.enterSafe_quiesced 3)
  clear_value d₁
  have h₂ : d₂.rd F.EDG_STAT_QUIESCED = 1 := (wr _ _ (by decide)).trans ((wr _ _ (by decide)).trans ((wr _ _ (by decide)).trans h₁))
  clear_value d₂
  have h₄ : d₄.rd F.EDG_STAT_QUIESCED = 1 := (wr d₃ _ (by decide)).trans h₂
  clear_value d₄
  have h₅ : d₅.rd F.EDG_STAT_QUIESCED = d₄.rd F.EDG_STAT_QUIESCED := ite_keeps (g := (Dev.rd · F.EDG_STAT_QUIESCED)) (fun _ => wr d₄ _ (by decide)) fun _ => rfl
  clear_value d₅
  have h₆ : d₆.rd F.EDG_STAT_QUIESCED = d₅.rd F.EDG_STAT_QUIESCED :=
    ite_keeps (g := (Dev.rd · F.EDG_STAT_QUIESCED)) (fun _ => (wr _ _ (by decide)).trans (wr { d₅ with twn := { d₅.twn with hbk := none, hbkAsk := false, hbkOwn := false, hbkAcc := false } } _ (by decide)))
      fun _ => rfl
  clear_value d₆
  have h₇ : d₇.rd F.EDG_STAT_QUIESCED = d₆.rd F.EDG_STAT_QUIESCED := ite_keeps (g := (Dev.rd · F.EDG_STAT_QUIESCED)) (fun _ => rfl) fun _ => rfl
  have h₈ : d₈.rd F.EDG_STAT_QUIESCED = d₇.rd F.EDG_STAT_QUIESCED := d₇.abandon_rd _ _ _
  clear_value d₈
  have h₉ : d₉.rd F.EDG_STAT_QUIESCED = d₈.rd F.EDG_STAT_QUIESCED := ite_keeps (g := (Dev.rd · F.EDG_STAT_QUIESCED)) (fun _ => rfl) fun _ => rfl
  rw [Dev.setRun_rd _ _ (by decide), h₉, h₈, h₇, h₆, h₅, h₄]

theorem Dev.EngineStands.reactTo (d : Dev) (l : List Msg) : d.EngineStands (d.reactTo l) := by
  unfold Dev.reactTo
  split
  · exact fun h => absurd d.lock_quiesced h
  · split
    · exact fun h => absurd d.trip_quiesced h
    · exact .of_eq rfl

theorem Dev.loupeTake_engine (d : Dev) (n : Nat) (l : List (BitVec 64)) : (d.loupeTake n l).engine = d.engine := ite_keeps (fun _ => rfl) fun _ => rfl

theorem Dev.EngineStands.cycle (v : Vault) (d : Dev) (ms : List Msg) : d.EngineStands (collectCycle v d ms).2 := by
  unfold collectCycle
  extract_lets l e r
  have reported : (l.foldl Dev.report (classifyAll d ms).1).engine = d.engine := (foldl_keeps (fun m _ u => u.report_engine m) _).trans (classifyAll_engine d ms)
  have taken : e.engine = d.engine := (Dev.loupeTake_engine _ _ _).trans reported
  exact .trans (.of_eq ((e.owners_engine r).trans taken)) (.reactTo _ _)

theorem Dev.EngineStands.collectAll (n c : Nat) (v : Vault) (d : Dev) (ms : List Msg) : d.EngineStands (collectAll n c v d ms).2 := by
  induction n generalizing c v d ms with
  | zero => exact .of_eq rfl
  | succ n ih =>
    unfold Machine.collectAll
    split
    · exact .of_eq rfl
    · split
      · exact ih _ _ _ _
      · exact (Dev.EngineStands.cycle v d _).trans (ih _ _ _ _)

theorem State.settleWk_engine (s : State) (w : Wk) : w.d.EngineStands (s.settleWk s.vault w).dev :=
  (Dev.EngineStands.collectAll _ _ _ _ _).trans (.of_eq (Dev.noteChanges_keeps Dev.engine OffPorts.engine.port _ _))

/-- Where a work that sends no message leaves the engine outside the safe state, every work that settles to the same state leaves the engine so. -/
theorem edge_of_settled {s : State} {u w : Wk} (h : Host.Outcome.next (ρ := Refusal) (φ := Fault) (s.settleWk s.vault u) = .next (s.settleWk s.vault w)) (hm : u.ms = [])
    (hq : u.d.rd F.EDG_STAT_QUIESCED ≠ 1) : w.d.edge = u.d.edge := by
  have same := Host.Outcome.next.inj h
  have left : (s.settleWk s.vault u).dev.engine = u.d.engine := by
    rw [State.settleWk_quiet s _ u hm]
    exact Dev.noteChanges_keeps Dev.engine OffPorts.engine.port _ _
  have out : (s.settleWk s.vault w).dev.rd F.EDG_STAT_QUIESCED ≠ 1 := by
    rw [← same]
    exact fun e => hq ((congrArg Prod.snd left).symm.trans e)
  have stands := s.settleWk_engine w out
  rw [← same, left] at stands
  exact (congrArg Prod.fst stands).symm

/-! ## A pin edge of LEVEL 3 -/

/-- Outside the safe state, pair 0 with its handshake off has a pin edge of LEVEL 3 to come: both levels' conditions on the pins name it, and no plan makes one. -/
def oddLead : State :=
  let d : Dev := ((({} : Dev).wr (F.GSV_PAIR_HS_EN 0) 0).wr F.EDG_STAT_SAFE 0).wr F.EDG_STAT_QUIESCED 0
  { State.reset with dev := (d.wr F.CLK_START_STEP 0).setPair 0 { ahead := [⟨0, 3, 0⟩] } }

set_option maxRecDepth 100000 in
theorem oddLead_idle : oddLead.dev.noTrip = true ∧ oddLead.dev.timStopped = false ∧ oddLead.dev.rd F.CLK_START_STEP ≠ 1 ∧ oddLead.dev.rd F.EDG_STAT_SAFE = 0 ∧
    (oddLead.dev.pair 0).ahead = [⟨0, 3, 0⟩] ∧ (oddLead.dev.pair 0).want = none := by
  decide +kernel

theorem oddLead_work : oddLead.dev.work = .tick := by rfl

set_option maxRecDepth 100000 in
/-- The clock edge turns PWM_B of the pair on, as the incoming pin of any LEVEL but 1 and 2. -/
theorem oddLead_tick : (oddLead.wk.tick).ms = [] ∧ (oddLead.wk.tick).d.rd F.EDG_STAT_QUIESCED ≠ 1 ∧ ((oddLead.wk.tick).d.pair 0).b = true ∧ (oddLead.wk.tick).d.time.now = 524288 := by
  decide +kernel

theorem oddLead_step : step oddLead = .next (oddLead.settleWk oddLead.vault oddLead.wk.tick) := by
  show oddLead.idle = _
  unfold State.idle
  rw [oddLead_work]
  rfl

/-- Refutes O48: `oddLead`, whose pair 0 has one pin edge to come of LEVEL 3, due at once; the clock edge that the empty queue passes turns PWM_B on, where
the statement has it off at every LEVEL but 0. -/
theorem not_plannedEventsHappenAtTheirInstant : ¬ Obligations.PlannedEventsHappenAtTheirInstant := by
  unfold Obligations.PlannedEventsHappenAtTheirInstant
  rintro ⟨-, -, -, -, -, -, hedge⟩
  obtain ⟨hquiet, hclock, hstart, hsafe, hahead, hwant⟩ := oddLead_idle
  obtain ⟨hms, hq, hon, hnow⟩ := oddLead_tick
  obtain ⟨w, hw, -, -, hlead⟩ := hedge oddLead 0 (by decide) rfl hquiet oddLead_work hclock hstart
  have same := oddLead_step.symm.trans hw
  have edge : w.d.edge = (oddLead.wk.tick).d.edge := edge_of_settled same hms hq
  have now : w.d.time.now = 524288 := by
    have time := (oddLead.settleWk_calm oddLead.vault w).time.symm.trans ((congrArg (fun t : State => t.dev.time) (Host.Outcome.next.inj same)).symm.trans
      (oddLead.settleWk_calm oddLead.vault oddLead.wk.tick).time)
    rw [time, hnow]
  have due : 0 ≤ (w.d.time.now - 0).toInt := by rw [now]; decide +kernel
  obtain ⟨-, -, -, hoff⟩ := (hlead _ hahead hwant hsafe).2 due
  have off : (w.d.pair 0).b = false := (hoff (by decide)).1
  have on : (w.d.pair 0).b = true := by
    unfold Dev.pair at hon ⊢
    rw [edge, hon]
  exact Bool.false_ne_true (off.symm.trans on)

end Sys2Proof.Machine

/-! Trips, debug halts and the ends of DEN toggles (R153 to R155, R158, R161, R180, R184). -/
namespace Sys2Proof.Machine

/-! ## Work on the pins alone -/

/-- What is seen by `g` is nothing of the local pairs, or of the count of refused turn-ons (R169). -/
structure OffPairs {β : Type} (g : Dev → β) : Prop where
  pair : ∀ d k x, g (Dev.setPair d k x) = g d
  ilk : ∀ d v, g (Dev.wr d F.GSV_CNT_ILK v) = g d

namespace OffPairs
variable {β : Type} {S : Nat → Prop} {g : Dev → β} (hg : OffPairs g) (h17 : S 17) (w : Wk) (k : Nat)
include hg

theorem aim : w.Keeps S g (w.aim k) := .ite (fun _ => .refl w) fun _ => .up (ite_keeps (fun _ => rfl) fun _ => hg.pair _ _ _)

include h17

theorem releasePin : w.Keeps S g (w.releasePin k) := by
  unfold Wk.releasePin Wk.releaseBy
  dsimp only
  split
  · exact .refl w
  · exact .ite (fun _ => .refl w) fun _ => .ite (fun _ => .trans (.up ((hg.ilk _ _).trans (hg.pair _ _ _))) (.raise h17)) fun _ => .up (hg.pair _ _ _)

theorem pairLevel (lvl t : Nat) : w.Keeps S g (w.pairLevel k lvl t) := .ite (fun _ => .refl w) fun _ => .trans (.up (hg.pair _ _ _)) (hg.releasePin h17 _ k)

theorem drive (t : Nat) : w.Keeps S g ((w.drivePair k t).aim k) := .trans (hg.pairLevel h17 w k _ t) (hg.aim _ k)

end OffPairs

/-! ## Work that leaves something of the device alone and adds messages of a kind -/

/-- From `w` to `w'` what `g` shows of the device is as it was, and the messages added are as `P` says. -/
structure Wk.Spares {β : Type} (P : Msg → Prop) (g : Dev → β) (w w' : Wk) : Prop where
  dev : g w'.d = g w.d
  ms : w.Adds P w'

section
variable {β : Type} {P : Msg → Prop} {g : Dev → β} {a b c w : Wk}

theorem Wk.Spares.refl (w : Wk) : w.Spares P g w := ⟨rfl, .refl w⟩

theorem Wk.Spares.trans (h : a.Spares P g b) (k : b.Spares P g c) : a.Spares P g c := ⟨k.dev.trans h.dev, h.ms.trans k.ms⟩

theorem Wk.Spares.up {f : Dev → Dev} (h : g (f w.d) = g w.d) : w.Spares P g (w.up f) := ⟨h, .up⟩

theorem Wk.Spares.raise {fs kind inst : Nat} (h : ∀ m : Msg, m.tag = (fs, kind, inst) → P m) : w.Spares P g (w.raise fs kind inst) := ⟨rfl, .raise h⟩

theorem Wk.Spares.ite {p : Prop} [Decidable p] (h : p → w.Spares P g a) (k : ¬ p → w.Spares P g b) : w.Spares P g (if p then a else b) := by
  split
  · exact h ‹_›
  · exact k ‹_›

theorem Wk.Keeps.spares {S : Nat → Prop} (h : a.Keeps S g b) (hS : ∀ m : Msg, S m.fs → P m) : a.Spares P g b := by
  obtain ⟨l, hl, hs⟩ := h.ms
  exact ⟨h.dev, l, hl, fun m hm => hS m (hs m hm)⟩

/-- A loop keeps what each of its steps keeps. -/
theorem Wk.each_inv {α : Type} {Q : Wk → Prop} {l : List α} {f : α → Wk → Wk} (h : ∀ x ∈ l, ∀ u, Q u → Q (f x u)) (hw : Q w) : Q (w.each l f) := by
  unfold Wk.each
  induction l generalizing w with
  | nil => exact hw
  | cons x r ih => exact ih (fun y hy => h y (by simp [hy])) (h x (by simp) w hw)

theorem Wk.each_append {α : Type} (w : Wk) (l r : List α) (f : α → Wk → Wk) : w.each (l ++ r) f = (w.each l f).each r f := List.foldl_append

end

/-! ## What is looked at of a channel that a trip may end -/

/-- A field that trips of other channels, desaturation and urgent triggers leave alone. -/
def Fld.OffTrips (c : Nat) (f : Fld) : Prop :=
  f.key < 0x80000 * 32 ∧ f.key ≠ F.GSV_CNT_ILK.key ∧ f.key ≠ F.GSV_STAT_LATCHED.key ∧
    ∀ x < 256, x ≠ c → f.key ≠ (F.CH_TCNT_CNT x).key ∧ f.key ≠ (F.CH_TCNT_TOTAL x).key ∧ f.key ≠ (F.CH_TCNT_CLEAN x).key ∧ f.key ≠ (F.CH_STAT_LATCHED x).key

/-- Channel `c`, the time, the run state, and the fields that only a trip of `c` itself may write. -/
def Dev.tripView (c : Nat) (d : Dev) := (d.ch c, d.time, d.run, fun f : { f : Fld // f.OffTrips c } => d.rd f)

/-- A field of channel `c`. -/
def Fld.ofCh (c : Nat) (f : Fld) : Prop := 0x64000 + c * 64 ≤ f.addr ∧ f.addr < 0x64000 + c * 64 + 64 ∧ f.lo < 32

/-- The fields of a channel that have to do with trips. -/
def tripFlds (c : Nat) : List Fld :=
  [F.CH_TCNT_CNT c, F.CH_TCNT_TOTAL c, F.CH_TCNT_CLEAN c, F.CH_STAT_LATCHED c, F.CH_TRIP_N c, F.CH_TRIP_TEN c, F.CH_TRIP_TIN c, F.CH_TRIP_BLANK c, F.CH_ROUTE_KIND c, F.CH_CTRL_TRIP_ACT c]

theorem ofCh_tripFlds {c : Nat} {f : Fld} (h : f ∈ tripFlds c) : f.ofCh c := by
  simp only [tripFlds, List.mem_cons, List.not_mem_nil, or_false] at h
  obtain rfl | rfl | rfl | rfl | rfl | rfl | rfl | rfl | rfl | rfl := h <;>
    simp only [Fld.ofCh, F.CH_TCNT_CNT, F.CH_TCNT_TOTAL, F.CH_TCNT_CLEAN, F.CH_STAT_LATCHED, F.CH_TRIP_N, F.CH_TRIP_TEN, F.CH_TRIP_TIN, F.CH_TRIP_BLANK, F.CH_ROUTE_KIND, F.CH_CTRL_TRIP_ACT] <;> omega

theorem Fld.ofCh.offTrips {c : Nat} {f : Fld} (h : f.ofCh c) (hc : c < 256) : f.OffTrips c := by
  obtain ⟨hlo, hhi, hbit⟩ := h
  simp only [Fld.OffTrips, Fld.key, F.GSV_CNT_ILK, F.GSV_STAT_LATCHED, F.CH_TCNT_CNT, F.CH_TCNT_TOTAL, F.CH_TCNT_CLEAN, F.CH_STAT_LATCHED]
  refine ⟨by omega, by omega, by omega, fun x hx hne => ?_⟩
  omega

theorem Fld.offTrips_level (c : Nat) {k : Nat} (hk : k < 16) : (F.EDG_TRIP_LEVEL k).OffTrips c := by
  simp only [Fld.OffTrips, Fld.key, F.EDG_TRIP_LEVEL, F.GSV_CNT_ILK, F.GSV_STAT_LATCHED, F.CH_TCNT_CNT, F.CH_TCNT_TOTAL, F.CH_TCNT_CLEAN, F.CH_STAT_LATCHED]
  refine ⟨by omega, by omega, by omega, fun x hx hne => ?_⟩
  omega

section
variable {c : Nat} {d e : Dev}

theorem Dev.tripView_ch (h : d.tripView c = e.tripView c) : d.ch c = e.ch c := congrArg Prod.fst h

theorem Dev.tripView_time (h : d.tripView c = e.tripView c) : d.time = e.time := congrArg (fun x => x.2.1) h

theorem Dev.tripView_run (h : d.tripView c = e.tripView c) : d.run = e.run := congrArg (fun x => x.2.2.1) h

theorem Dev.tripView_rd (h : d.tripView c = e.tripView c) {f : Fld} (hf : f.OffTrips c) : d.rd f = e.rd f := congrFun (congrArg (fun x => x.2.2.2) h) ⟨f, hf⟩

theorem Dev.wr_tripView (d : Dev) {k : Fld} (v : Nat) (h : ∀ f : Fld, f.OffTrips c → f.key ≠ k.key) : (d.wr k v).tripView c = d.tripView c :=
  Prod.ext rfl (Prod.ext rfl (Prod.ext rfl (funext fun f => d.wr_rd_ne v (h f f.2))))

theorem Dev.setCh_tripView (d : Dev) {x : Nat} (y : ChSt) (h : x ≠ c) : (d.setCh x y).tripView c = d.tripView c :=
  Prod.ext (tget_tput_ne ({} : ChSt) {} d.edge.chs y (Ne.symm h)) rfl

end

theorem offPairs_tripView (c : Nat) : OffPairs (Dev.tripView c) := ⟨fun _ _ _ => rfl, fun d v => d.wr_tripView v fun _ hf => hf.2.1⟩

theorem offUrgent_tripView (c i : Nat) : Off (UrgentFld i) (Dev.tripView c) := ⟨fun d f v hf => d.wr_tripView v fun _ hk => urgentFld_apart hk.1 i f hf⟩

/-- A message that is no latch of channel `c`. -/
def Msg.notLatch (c : Nat) (m : Msg) : Prop := m.tag ≠ (12, 0, c)

theorem Msg.notLatch_of_fs {c : Nat} {m : Msg} {n : Nat} (h : m.fs = n) (hn : n ≠ 12) : m.notLatch c := fun e => hn (h.symm.trans (congrArg Prod.fst e))

section
variable {c : Nat} (u : Wk)

theorem Wk.spares_drive (k t : Nat) : u.Spares (Msg.notLatch c) (Dev.tripView c) ((u.drivePair k t).aim k) :=
  ((offPairs_tripView c).drive (S := (· = 17)) rfl u k t).spares fun _ h => Msg.notLatch_of_fs h (by decide)

theorem Wk.spares_aim (k : Nat) : u.Spares (Msg.notLatch c) (Dev.tripView c) (u.aim k) :=
  ((offPairs_tripView c).aim (S := (· = 17)) u k).spares fun _ h => Msg.notLatch_of_fs h (by decide)

theorem Wk.spares_tripTriggers (k : Nat) : u.Spares (Msg.notLatch c) (Dev.tripView c) (u.tripTriggers k) :=
  (Wk.Keeps.each (S := (· = 56)) fun i _ v => .on fun _ => v.keeps_injTrigger (S := (· = 56)) (offUrgent_tripView c i) (fun _ _ => rfl) rfl).spares fun _ h => Msg.notLatch_of_fs h (by decide)

/-- A trip of another channel. -/
theorem Wk.spares_countTrip {x : Nat} (hx : x < 256) (hne : x ≠ c) : u.Spares (Msg.notLatch c) (Dev.tripView c) (u.countTrip x) := by
  have apart {f : Fld} (hf : f.OffTrips c) := hf.2.2.2 x hx hne
  refine .ite (fun _ => .refl u) fun _ => .trans (.up ?_) (.ite (fun _ => .trans (.up ?_) (.raise fun m hm e => hne ?_)) fun _ => .refl _)
  · exact (Dev.wr_tripView _ _ fun _ hf => (apart hf).2.2.1).trans ((Dev.wr_tripView _ _ fun _ hf => (apart hf).2.1).trans
      ((Dev.wr_tripView _ _ fun _ hf => (apart hf).1).trans (Dev.setCh_tripView _ _ hne)))
  · exact (Dev.wr_tripView _ _ fun _ hf => (apart hf).2.2.2).trans (Dev.setCh_tripView _ _ hne)
  · exact congrArg (fun t : Nat × Nat × Nat => t.2.2) (hm.symm.trans e)

theorem Wk.spares_endPulse {x : Nat} (hx : x < 256) (hne : x ≠ c) : u.Spares (Msg.notLatch c) (Dev.tripView c) (u.endPulse x) :=
  .trans (.trans (.up (Dev.setCh_tripView _ _ hne)) (Wk.spares_countTrip _ hx hne)) (Wk.spares_drive _ _ _)

end

/-! ## Desaturation -/

theorem Fld.offTrips_route {c x : Nat} (hx : x < 256) : (F.CH_ROUTE_KIND x).OffTrips c ∧ (F.CH_ROUTE_PAIR x).OffTrips c ∧ (F.CH_CTRL_EN x).OffTrips c := by
  simp only [Fld.OffTrips, Fld.key, F.CH_ROUTE_KIND, F.CH_ROUTE_PAIR, F.CH_CTRL_EN, F.GSV_CNT_ILK, F.GSV_STAT_LATCHED, F.CH_TCNT_CNT, F.CH_TCNT_TOTAL, F.CH_TCNT_CLEAN, F.CH_STAT_LATCHED]
  refine ⟨⟨by omega, by omega, by omega, fun y hy hne => ?_⟩, ⟨by omega, by omega, by omega, fun y hy hne => ?_⟩, by omega, by omega, by omega, fun y hy hne => ?_⟩ <;> omega

theorem Dev.tripView_pairCh {c : Nat} {d e : Dev} (h : d.tripView c = e.tripView c) (p : Nat) : d.pairCh p = e.pairCh p := by
  unfold Dev.pairCh
  refine List.find?_congr fun x hx => ?_
  obtain ⟨kind, pair, en⟩ := Fld.offTrips_route (c := c) (List.mem_range.1 hx)
  unfold Dev.rdB
  rw [Dev.tripView_rd h kind, Dev.tripView_rd h pair, Dev.tripView_rd h en]

/-- A pair that is not channel `c`'s latches. -/
theorem Wk.spares_latchPair {c p : Nat} {u : Wk} (h : u.d.pairCh p ≠ some c) : u.Spares (Msg.notLatch c) (Dev.tripView c) (u.latchPair p) := by
  have latched (d : Dev) : (d.setBit F.GSV_STAT_LATCHED p).tripView c = d.tripView c := d.wr_tripView _ fun _ hf => hf.2.2.1
  have level (v : Wk) (t : Nat) : v.Spares (Msg.notLatch c) (Dev.tripView c) ((v.pairLevel p 2 t).aim p) :=
    (((offPairs_tripView c).pairLevel (S := (· = 17)) rfl v p 2 t).trans ((offPairs_tripView c).aim _ p)).spares fun _ h => Msg.notLatch_of_fs h (by decide)
  unfold Wk.latchPair Wk.pairOff
  refine .trans (.up (latched _)) (.trans (.up ?_) (level _ _))
  split
  next x hx =>
    refine Dev.setCh_tripView _ _ ?_
    rintro rfl
    exact h ((Dev.tripView_pairCh (latched u.d) p).symm.trans hx)
  next => rfl

/-! ## TRIP_INPUT_ASSERT -/

/-- The pairs whose desaturation input TRIPk is. -/
def Dev.desatPairs (d : Dev) (k : Nat) : List Nat := (List.range 16).filter fun p => d.rdB (F.GSV_PAIR_DSAT_EN p) && decide (d.rd (F.GSV_PAIR_DSAT_TIN p) = k)

/-- The assertion of TRIPk is seen: its level, and the pairs that it latches. -/
def Wk.tripSeen (w : Wk) (k : Nat) : Wk :=
  let u := w.up fun d => d.wr (F.EDG_TRIP_LEVEL k) 1
  u.each (u.d.desatPairs k) fun p w => (w.latchPair p).raise 9 0 p

section
variable {w : Wk} {x : TripIn}

theorem Wk.tripInputs_none (h : 16 ≤ x.k) : w.tripInputs [x] = w := by
  unfold Wk.tripInputs
  simp [show ¬ x.k < 16 by omega, Wk.each, Wk.up]

theorem Wk.tripInputs_short (hk : x.k < 16) (hh : x.high ≠ w.d.rdB (F.EDG_TRIP_POL x.k)) (hc : x.counts < w.d.rd (F.EDG_TRIP_FILT x.k)) : w.tripInputs [x] = w := by
  unfold Wk.tripInputs
  simp [hk, hh, hc, Wk.each, Wk.up]

theorem Wk.tripInputs_released (hk : x.k < 16) (hh : x.high = w.d.rdB (F.EDG_TRIP_POL x.k)) : w.tripInputs [x] = w.up (·.wr (F.EDG_TRIP_LEVEL x.k) 0) := by
  unfold Wk.tripInputs
  simp [hk, hh, Wk.each, Wk.up]

theorem Wk.tripInputs_asserted (hk : x.k < 16) (hh : x.high ≠ w.d.rdB (F.EDG_TRIP_POL x.k)) (hc : w.d.rd (F.EDG_TRIP_FILT x.k) ≤ x.counts) :
    w.tripInputs [x] = ((w.tripSeen x.k).tripAct x.k).tripTriggers x.k := by
  unfold Wk.tripInputs Wk.tripSeen Dev.desatPairs
  simp [hk, hh, hc, Wk.each, Wk.up]
  rfl

end

/-! ## A channel whose pulse ends -/

/-- A period of channel `c` in which a trip came counts (R155). -/
def Dev.tripCounted (d : Dev) (c : Nat) : Dev := (((d.setCh c { d.ch c with ended := true }).inc (F.CH_TCNT_CNT c)).inc (F.CH_TCNT_TOTAL c)).wr (F.CH_TCNT_CLEAN c) 0

/-- Whether the period that counts now is the last that channel `c` has: it latches. -/
abbrev Dev.tripLatches (d : Dev) (c : Nat) : Prop := d.rd (F.CH_TRIP_N c) ≤ min (d.rd (F.CH_TCNT_CNT c) + 1) 255 ∧ d.rd (F.CH_STAT_LATCHED c) = 0

/-- The pulse of channel `c` has ended (R154), before its pins follow. -/
def Wk.pulseEnded (w : Wk) (c : Nat) : Wk :=
  (w.up fun d => d.setCh c { d.ch c with out := if w.d.rdB (F.CH_CTRL_TRIP_ACT c) then 2 else 0, lastTr := some d.time.now }).countTrip c

theorem Wk.endPulse_eq (w : Wk) (c : Nat) :
    w.endPulse c = ((w.pulseEnded c).drivePair ((w.pulseEnded c).d.rd (F.CH_ROUTE_PAIR c)) (w.pulseEnded c).d.time.rt).aim ((w.pulseEnded c).d.rd (F.CH_ROUTE_PAIR c)) := rfl

section
variable (d : Dev) (c : Nat)

theorem tripKeys : (F.CH_TCNT_CNT c).key = 13108352 + c * 2048 ∧ (F.CH_TCNT_TOTAL c).key = 13108368 + c * 2048 ∧ (F.CH_TCNT_CLEAN c).key = 13108360 + c * 2048 ∧ (F.CH_STAT_LATCHED c).key = 13108233 + c * 2048 ∧
    (F.CH_TRIP_N c).key = 13108096 + c * 2048 := by
  simp only [Fld.key, F.CH_TCNT_CNT, F.CH_TCNT_TOTAL, F.CH_TCNT_CLEAN, F.CH_STAT_LATCHED, F.CH_TRIP_N]
  omega

theorem Dev.tripCounted_rd_ne {f : Fld} (h1 : f.key ≠ (F.CH_TCNT_CNT c).key) (h2 : f.key ≠ (F.CH_TCNT_TOTAL c).key) (h3 : f.key ≠ (F.CH_TCNT_CLEAN c).key) : (d.tripCounted c).rd f = d.rd f :=
  (Dev.wr_rd_ne _ _ h3).trans ((Dev.inc_rd_ne _ h2).trans (Dev.inc_rd_ne (d.setCh c { d.ch c with ended := true }) h1))

theorem Dev.inc_rd (f : Fld) : (d.inc f).rd f = min (d.rd f + 1) (2 ^ f.width - 1) := by
  have pos := Nat.two_pow_pos f.width
  exact (Dev.wr_rd _ _ _).trans (Nat.mod_eq_of_lt (by omega))

theorem Dev.tripCounted_sees : (d.tripCounted c).rd (F.CH_TCNT_CNT c) = min (d.rd (F.CH_TCNT_CNT c) + 1) 255 ∧ (d.tripCounted c).rd (F.CH_TCNT_TOTAL c) = min (d.rd (F.CH_TCNT_TOTAL c) + 1) 65535 ∧
    (d.tripCounted c).rd (F.CH_TCNT_CLEAN c) = 0 ∧ (d.tripCounted c).ch c = { d.ch c with ended := true } := by
  obtain ⟨hcnt, htotal, hclean, -⟩ := tripKeys c
  refine ⟨?_, ?_, (Dev.wr_rd _ _ _).trans (Nat.zero_mod _), Dev.setCh_ch _ _ _⟩
  · exact (Dev.wr_rd_ne _ _ (by omega)).trans ((Dev.inc_rd_ne _ (by omega)).trans (Dev.inc_rd (d.setCh c { d.ch c with ended := true }) (F.CH_TCNT_CNT c)))
  · refine (Dev.wr_rd_ne _ _ (by omega)).trans ((Dev.inc_rd _ _).trans ?_)
    rw [Dev.inc_rd_ne _ (by omega)]
    rfl

end

theorem Wk.countTrip_eq {w : Wk} {c : Nat} (h : (w.d.ch c).ended = false) : w.countTrip c =
    if (w.d.tripCounted c).rd (F.CH_TRIP_N c) ≤ (w.d.tripCounted c).rd (F.CH_TCNT_CNT c) ∧ !(w.d.tripCounted c).rdB (F.CH_STAT_LATCHED c) then
      ((w.up (·.tripCounted c)).up fun d => (d.setCh c { d.ch c with out := 2 }).wr (F.CH_STAT_LATCHED c) 1).raise 12 0 c
    else w.up (·.tripCounted c) :=
  if_neg (by rw [h]; decide)

/-- What the end of a pulse leaves: the channel, its counts and its latch. -/
structure Wk.PulseEnds (w : Wk) (c : Nat) (v : Wk) : Prop where
  ended : (v.d.ch c).ended = true
  lastTr : (v.d.ch c).lastTr = some w.d.time.now
  cnt : v.d.rd (F.CH_TCNT_CNT c) = min (w.d.rd (F.CH_TCNT_CNT c) + 1) 255
  total : v.d.rd (F.CH_TCNT_TOTAL c) = min (w.d.rd (F.CH_TCNT_TOTAL c) + 1) 65535
  clean : v.d.rd (F.CH_TCNT_CLEAN c) = 0
  run : v.d.run = w.d.run
  rd : ∀ f : Fld, (∀ k ∈ [F.CH_TCNT_CNT c, F.CH_TCNT_TOTAL c, F.CH_TCNT_CLEAN c, F.CH_STAT_LATCHED c], f.key ≠ k.key) → v.d.rd f = w.d.rd f
  latches : w.d.tripLatches c → (v.d.ch c).out = 2 ∧ v.d.rd (F.CH_STAT_LATCHED c) = 1 ∧ ∃ m, m.tag = (12, 0, c) ∧ v.ms = w.ms ++ [m]
  goesOn : ¬ w.d.tripLatches c → (v.d.ch c).out = (if w.d.rd (F.CH_CTRL_TRIP_ACT c) = 1 then 2 else 0) ∧ v.d.rd (F.CH_STAT_LATCHED c) = w.d.rd (F.CH_STAT_LATCHED c) ∧ v.ms = w.ms

theorem Wk.pulseEnded_ends {w : Wk} {c : Nat} (h : (w.d.ch c).ended = false) : w.PulseEnds c (w.pulseEnded c) := by
  obtain ⟨kcnt, ktotal, kclean, klatched, klimit⟩ := tripKeys c
  set x : ChSt := { w.d.ch c with out := if w.d.rdB (F.CH_CTRL_TRIP_ACT c) then 2 else 0, lastTr := some w.d.time.now } with hx
  set u : Wk := w.up fun d => d.setCh c x with hu
  have ch : u.d.ch c = x := Dev.setCh_ch _ _ _
  have rd (f : Fld) : u.d.rd f = w.d.rd f := rfl
  obtain ⟨hcnt, htotal, hclean, hch⟩ := u.d.tripCounted_sees c
  rw [ch] at hch
  rw [rd] at hcnt htotal
  have other {f : Fld} (hf : ∀ k ∈ [F.CH_TCNT_CNT c, F.CH_TCNT_TOTAL c, F.CH_TCNT_CLEAN c], f.key ≠ k.key) : (u.d.tripCounted c).rd f = w.d.rd f :=
    u.d.tripCounted_rd_ne c (hf _ (by simp)) (hf _ (by simp)) (hf _ (by simp))
  have limit : (u.d.tripCounted c).rd (F.CH_TRIP_N c) = w.d.rd (F.CH_TRIP_N c) := u.d.tripCounted_rd_ne c (by omega) (by omega) (by omega)
  have latched : (u.d.tripCounted c).rd (F.CH_STAT_LATCHED c) = w.d.rd (F.CH_STAT_LATCHED c) := u.d.tripCounted_rd_ne c (by omega) (by omega) (by omega)
  have act : (if w.d.rdB (F.CH_CTRL_TRIP_ACT c) then 2 else 0) = if w.d.rd (F.CH_CTRL_TRIP_ACT c) = 1 then 2 else 0 := by
    have hlt : w.d.rd (F.CH_CTRL_TRIP_ACT c) < 2 := w.d.rd_lt (F.CH_CTRL_TRIP_ACT c)
    refine if_congr ?_ rfl rfl
    simp only [Dev.rdB, decide_eq_true_eq]
    omega
  have out : x.out = if w.d.rd (F.CH_CTRL_TRIP_ACT c) = 1 then 2 else 0 := act
  have lastTr : x.lastTr = some w.d.time.now := rfl
  have eq : w.pulseEnded c = if w.d.tripLatches c then (w.up fun _ => ((u.d.tripCounted c).setCh c { (u.d.tripCounted c).ch c with out := 2 }).wr (F.CH_STAT_LATCHED c) 1).raise 12 0 c else w.up fun _ => u.d.tripCounted c := by
    refine (Wk.countTrip_eq (w := u) (by rw [ch]; exact h)).trans (if_congr ?_ rfl rfl)
    unfold Dev.tripLatches Dev.rdB
    rw [limit, hcnt, latched]
    simp
  have run : (u.d.tripCounted c).run = w.d.run := rfl
  rw [eq]
  clear eq limit rd ch
  generalize u.d.tripCounted c = e at *
  clear_value u x
  by_cases hl : w.d.tripLatches c
  · rw [if_pos hl]
    set d : Dev := e.setCh c { e.ch c with out := 2 } with hd
    have stays {f : Fld} (hf : f.key ≠ (F.CH_STAT_LATCHED c).key) : (d.wr (F.CH_STAT_LATCHED c) 1).rd f = e.rd f := Dev.wr_rd_ne d 1 hf
    have own : (d.wr (F.CH_STAT_LATCHED c) 1).ch c = { x with ended := true, out := 2 } := (Dev.setCh_ch _ _ _).trans (by rw [hch])
    exact {
      ended := congrArg ChSt.ended own
      lastTr := (congrArg ChSt.lastTr own).trans lastTr
      cnt := (stays (by omega)).trans hcnt
      total := (stays (by omega)).trans htotal
      clean := (stays (by omega)).trans hclean
      run := run
      rd := fun f hf => (stays (hf _ (by simp))).trans (other fun k hk => hf k (by simp only [List.mem_cons, List.not_mem_nil, or_false] at hk ⊢; tauto))
      latches := fun _ => ⟨congrArg ChSt.out own, Dev.wr_rd d _ 1, _, rfl, rfl⟩
      goesOn := fun h => absurd hl h }
  · rw [if_neg hl]
    exact {
      ended := congrArg ChSt.ended hch
      lastTr := (congrArg ChSt.lastTr hch).trans lastTr
      cnt := hcnt
      total := htotal
      clean := hclean
      run := run
      rd := fun f hf => other fun k hk => hf k (by simp only [List.mem_cons, List.not_mem_nil, or_false] at hk ⊢; tauto)
      latches := fun h => absurd h hl
      goesOn := fun _ => ⟨(congrArg ChSt.out hch).trans out, latched, rfl⟩ }

/-! ## The assertion of an input -/

/-- What the assertion of its input does to a watching channel. -/
def Wk.tripOne (c : Nat) (u : Wk) : Wk := if (u.d.ch c).out = 1 && u.d.unblanked c then u.endPulse c else u.aim (u.d.rd (F.CH_ROUTE_PAIR c))

theorem Wk.tripAct_eq (w : Wk) (k : Nat) : w.tripAct k = w.each (w.d.watchers k) Wk.tripOne := rfl

/-- Channel `c` stands at LEVEL 1 past its blanking, and watches TRIPk. -/
def Dev.TripEnds (d : Dev) (c k : Nat) : Prop := c ∈ d.watchers k ∧ (d.ch c).out = 1 ∧ d.unblanked c = true

theorem Dev.mem_watchers {d : Dev} {c k : Nat} : c ∈ d.watchers k ↔
    c < 256 ∧ d.rd (F.CH_ROUTE_KIND c) = 1 ∧ d.rd (F.CH_TRIP_TEN c) = 1 ∧ d.rd (F.CH_TRIP_TIN c) = k ∧ (d.ch c).run = true := by
  have hten : d.rd (F.CH_TRIP_TEN c) < 2 := d.rd_lt (F.CH_TRIP_TEN c)
  have ten : d.rdB (F.CH_TRIP_TEN c) = true ↔ d.rd (F.CH_TRIP_TEN c) = 1 := by
    simp only [Dev.rdB, decide_eq_true_eq]
    omega
  unfold Dev.watchers
  rw [List.mem_filter, List.mem_range, decide_eq_true_eq, ten]

theorem Dev.unblanked_iff {d : Dev} {c : Nat} : d.unblanked c = true ↔ ∀ t, (d.ch c).lastTr = some t → d.rd (F.CH_TRIP_BLANK c) * 163840 ≤ (d.time.now - t).toNat := by
  unfold Dev.unblanked
  split
  next t ht => simp [ht]
  next ht => simp [ht]

section
variable {c k : Nat} {d e : Dev} {w u : Wk}

theorem Dev.tripView_fld (hc : c < 256) (h : d.tripView c = e.tripView c) {f : Fld} (hf : f ∈ tripFlds c) : d.rd f = e.rd f := Dev.tripView_rd h ((ofCh_tripFlds hf).offTrips hc)

theorem Dev.tripView_unblanked (hc : c < 256) (h : d.tripView c = e.tripView c) : d.unblanked c = e.unblanked c := by
  unfold Dev.unblanked
  rw [Dev.tripView_ch h, Dev.tripView_time h, Dev.tripView_fld hc h (by simp [tripFlds])]

theorem Dev.tripView_ends (hc : c < 256) (h : d.tripView c = e.tripView c) : d.TripEnds c k ↔ e.TripEnds c k := by
  have fld {f : Fld} (hf : f ∈ tripFlds c) : d.rd f = e.rd f := Dev.tripView_fld hc h hf
  unfold Dev.TripEnds
  rw [Dev.mem_watchers, Dev.mem_watchers, Dev.tripView_unblanked hc h, Dev.tripView_ch h, fld (f := F.CH_ROUTE_KIND c) (by simp [tripFlds]),
    fld (f := F.CH_TRIP_TEN c) (by simp [tripFlds]), fld (f := F.CH_TRIP_TIN c) (by simp [tripFlds])]

theorem Wk.spares_tripOne {x : Nat} (hx : x < 256) (hne : x ≠ c) : u.Spares (Msg.notLatch c) (Dev.tripView c) (u.tripOne x) :=
  .ite (fun _ => u.spares_endPulse hx hne) fun _ => u.spares_aim _

theorem Wk.spares_tripOnes {l : List Nat} (hl : ∀ x ∈ l, x < 256 ∧ x ≠ c) : u.Spares (Msg.notLatch c) (Dev.tripView c) (u.each l Wk.tripOne) :=
  Wk.each_inv (Q := fun v => u.Spares (Msg.notLatch c) (Dev.tripView c) v) (fun x hx _ hv => hv.trans (Wk.spares_tripOne (hl x hx).1 (hl x hx).2)) (.refl u)

/-- A channel that the input does not end is left alone. -/
theorem Wk.spares_tripAct (hc : c < 256) (h : ¬ w.d.TripEnds c k) : w.Spares (Msg.notLatch c) (Dev.tripView c) (w.tripAct k) := by
  rw [Wk.tripAct_eq]
  refine Wk.each_inv (Q := fun v => w.Spares (Msg.notLatch c) (Dev.tripView c) v) (fun x hx u hu => hu.trans ?_) (.refl w)
  by_cases hne : x = c
  · subst hne
    have stays : ((u.d.ch x).out = 1 && u.d.unblanked x) = false := by
      rw [Dev.tripView_unblanked hc hu.dev, Dev.tripView_ch hu.dev, ← Bool.not_eq_true, Bool.and_eq_true, decide_eq_true_eq]
      exact fun hk => h ⟨hx, hk⟩
    unfold Wk.tripOne
    rw [stays, if_neg (by decide)]
    exact u.spares_aim _
  · exact Wk.spares_tripOne (Dev.mem_watchers.1 hx).1 hne

/-- The pulse of a channel that the input ends. -/
theorem Wk.tripAct_ends (hc : c < 256) (h : w.d.TripEnds c k) (he : (w.d.ch c).ended = false) :
    ∃ u v : Wk, w.Spares (Msg.notLatch c) (Dev.tripView c) u ∧ u.PulseEnds c v ∧ v.Spares (Msg.notLatch c) (Dev.tripView c) (w.tripAct k) := by
  obtain ⟨l₁, l₂, split⟩ := List.append_of_mem h.1
  have nodup : (w.d.watchers k).Nodup := List.nodup_range.filter _
  rw [split] at nodup
  have member : ∀ x ∈ l₁ ++ c :: l₂, x < 256 := fun x hx => (Dev.mem_watchers.1 (split ▸ hx)).1
  have others₁ : ∀ x ∈ l₁, x < 256 ∧ x ≠ c := fun x hx => ⟨member x (by simp [hx]), (List.nodup_append.1 nodup).2.2 x hx c (by simp)⟩
  have others₂ : ∀ x ∈ l₂, x < 256 ∧ x ≠ c := fun x hx => ⟨member x (by simp [hx]), fun e => (List.nodup_cons.1 (List.nodup_append.1 nodup).2.1).1 (e ▸ hx)⟩
  have before := Wk.spares_tripOnes (u := w) others₁
  set u := w.each l₁ Wk.tripOne with hu
  obtain ⟨-, out, past⟩ := (Dev.tripView_ends hc before.dev).2 h
  have ended : (u.d.ch c).ended = false := by rw [Dev.tripView_ch before.dev, he]
  have one : u.tripOne c = u.endPulse c := if_pos (by rw [out, past]; rfl)
  refine ⟨u, u.pulseEnded c, before, Wk.pulseEnded_ends ended, ?_⟩
  rw [Wk.tripAct_eq, split, Wk.each_append, ← hu]
  show (u.pulseEnded c).Spares _ _ ((u.tripOne c).each l₂ Wk.tripOne)
  rw [one, Wk.endPulse_eq]
  exact .trans (Wk.spares_drive _ _ _) (Wk.spares_tripOnes others₂)

/-- What an assertion is seen by, before channels act. -/
theorem Wk.spares_tripSeen (h : ∀ p < 16, w.d.rd (F.GSV_PAIR_DSAT_EN p) = 1 → w.d.rd (F.GSV_PAIR_DSAT_TIN p) = k → w.d.pairCh p ≠ some c) (hk : k < 16) :
    (w.up fun d => d.wr (F.EDG_TRIP_LEVEL k) 1).Spares (Msg.notLatch c) (Dev.tripView c) (w.tripSeen k) := by
  set u : Wk := w.up fun d => d.wr (F.EDG_TRIP_LEVEL k) 1 with hu
  have same {f : Fld} (hf : f.key ≠ (F.EDG_TRIP_LEVEL k).key) : u.d.rd f = w.d.rd f := Dev.wr_rd_ne _ _ hf
  have pairs (p : Nat) : u.d.pairCh p = w.d.pairCh p := by
    unfold Dev.pairCh
    refine List.find?_congr fun x hx => ?_
    have hx := List.mem_range.1 hx
    unfold Dev.rdB
    rw [same (by simp only [Fld.key, F.CH_ROUTE_KIND, F.EDG_TRIP_LEVEL]; omega), same (by simp only [Fld.key, F.CH_ROUTE_PAIR, F.EDG_TRIP_LEVEL]; omega),
      same (by simp only [Fld.key, F.CH_CTRL_EN, F.EDG_TRIP_LEVEL]; omega)]
  refine Wk.each_inv (Q := fun v => u.Spares (Msg.notLatch c) (Dev.tripView c) v) (fun p hp v hv => hv.trans ((Wk.spares_latchPair ?_).trans (.raise fun m hm e => ?_))) (.refl u)
  · obtain ⟨hp, hd⟩ := List.mem_filter.1 hp
    have hp := List.mem_range.1 hp
    have hen : u.d.rd (F.GSV_PAIR_DSAT_EN p) < 2 := u.d.rd_lt (F.GSV_PAIR_DSAT_EN p)
    rw [Bool.and_eq_true, decide_eq_true_eq] at hd
    obtain ⟨hon, htin⟩ := hd
    simp only [Dev.rdB, decide_eq_true_eq] at hon
    replace hon : u.d.rd (F.GSV_PAIR_DSAT_EN p) ≠ 0 := hon
    replace htin : u.d.rd (F.GSV_PAIR_DSAT_TIN p) = k := htin
    rw [Dev.tripView_pairCh hv.dev, pairs]
    have en := same (f := F.GSV_PAIR_DSAT_EN p) (by simp only [Fld.key, F.GSV_PAIR_DSAT_EN, F.EDG_TRIP_LEVEL]; omega)
    have tin := same (f := F.GSV_PAIR_DSAT_TIN p) (by simp only [Fld.key, F.GSV_PAIR_DSAT_TIN, F.EDG_TRIP_LEVEL]; omega)
    exact h p hp (by omega) (by omega)
  · exact absurd (congrArg Prod.fst (hm.symm.trans e)) (show (9 : Nat) ≠ 12 by decide)

end

end Sys2Proof.Machine

/-! TRIP_INPUT_ASSERT, DEBUG_HALT and DEBUG_HALT_RELEASE of a state (R153 to R155, R158, R161). -/
namespace Sys2Proof.Machine

/-- A message that is no latch of `c` is none of those added beside it. -/
theorem Wk.Adds.notLatch {a b : Wk} {c : Nat} (h : a.Adds (Msg.notLatch c) b) : (12, 0, c) ∈ b.ms.map Msg.tag ↔ (12, 0, c) ∈ a.ms.map Msg.tag := by
  obtain ⟨l, hl, hs⟩ := h
  have none : (12, 0, c) ∉ l.map Msg.tag := fun hm => by
    obtain ⟨m, hm, e⟩ := List.mem_map.1 hm
    exact hs m hm e
  rw [hl, List.map_append, List.mem_append, or_iff_left none]

/-! ## TRIP_INPUT_ASSERT of a state -/

/-- What TRIPk must find of channel `c` to end its pulse (R153, R154). -/
def Dev.TripActs (d : Dev) (c k : Nat) : Prop :=
  d.rd (F.CH_ROUTE_KIND c) = 1 ∧ d.rd (F.CH_TRIP_TEN c) = 1 ∧ d.rd (F.CH_TRIP_TIN c) = k ∧ (d.ch c).run = true ∧ (d.ch c).out = 1 ∧
    ∀ t, (d.ch c).lastTr = some t → d.rd (F.CH_TRIP_BLANK c) * 163840 ≤ (d.time.now - t).toNat

/-- An input that stands at its active level for at least FILT counts, and is not the desaturation input of channel `c`'s pair. -/
structure State.Asserts (s : State) (x : TripIn) (c : Nat) : Prop where
  k : x.k < 16
  high : x.high ≠ s.dev.rdB (F.EDG_TRIP_POL x.k)
  counts : s.dev.rd (F.EDG_TRIP_FILT x.k) ≤ x.counts
  desat : ∀ p < 16, s.dev.rd (F.GSV_PAIR_DSAT_EN p) = 1 → s.dev.rd (F.GSV_PAIR_DSAT_TIN p) = x.k → s.dev.pairCh p ≠ some c
  c : c < 256

/-- The state with the assertion of TRIPk shown. -/
def State.levelShown (s : State) (k : Nat) : Wk := s.wk.up fun d => d.wr (F.EDG_TRIP_LEVEL k) 1

section
variable {s : State} {x : TripIn} {c : Nat} (h : s.Asserts x c)
include h

theorem State.Asserts.seen : (s.levelShown x.k).Spares (Msg.notLatch c) (Dev.tripView c) (s.wk.tripSeen x.k) := Wk.spares_tripSeen (w := s.wk) h.desat h.k

omit h in
theorem State.levelShown_rd (k : Nat) {f : Fld} (hf : f.addr < 0x68000) (hlo : f.lo < 32) : (s.levelShown k).d.rd f = s.dev.rd f :=
  Dev.wr_rd_ne _ _ (by simp only [Fld.key, F.EDG_TRIP_LEVEL]; omega)

/-- The fields of channel `c` before the input acts. -/
theorem State.Asserts.fld {f : Fld} (hf : f ∈ tripFlds c) : (s.levelShown x.k).d.rd f = s.dev.rd f := by
  obtain ⟨-, hhi, hlo⟩ := ofCh_tripFlds hf
  have := h.c
  exact State.levelShown_rd x.k (by omega) hlo

theorem State.Asserts.ends_iff : (s.wk.tripSeen x.k).d.TripEnds c x.k ↔ s.dev.TripActs c x.k := by
  have ch : (s.levelShown x.k).d.ch c = s.dev.ch c := rfl
  have time : (s.levelShown x.k).d.time = s.dev.time := rfl
  rw [Dev.tripView_ends h.c h.seen.dev]
  unfold Dev.TripEnds Dev.TripActs
  rw [Dev.mem_watchers, Dev.unblanked_iff, ch, time, h.fld (f := F.CH_ROUTE_KIND c) (by simp [tripFlds]), h.fld (f := F.CH_TRIP_TEN c) (by simp [tripFlds]),
    h.fld (f := F.CH_TRIP_TIN c) (by simp [tripFlds]), h.fld (f := F.CH_TRIP_BLANK c) (by simp [tripFlds])]
  exact ⟨fun ⟨⟨_, kind, ten, tin, run⟩, out, past⟩ => ⟨kind, ten, tin, run, out, past⟩, fun ⟨kind, ten, tin, run, out, past⟩ => ⟨⟨h.c, kind, ten, tin, run⟩, out, past⟩⟩

/-- The row, up to the collector. -/
theorem State.Asserts.exec : exec (.tripInputAssert x) s = .next (s.settleWk s.vault (((s.wk.tripSeen x.k).tripAct x.k).tripTriggers x.k)) := by
  rw [exec_tripInputAssert]
  unfold execTripInputAssert
  rw [State.run_next, Wk.tripInputs_asserted h.k h.high h.counts]

omit h in
theorem State.levelShown_level (k : Nat) : (s.levelShown k).d.rd (F.EDG_TRIP_LEVEL k) = 1 := Dev.wr_rd _ _ _

/-- An assertion that does not end the pulse of channel `c` leaves it as it stands. -/
theorem State.Asserts.leaves (hn : ¬ s.dev.TripActs c x.k) : Leaves (.tripInputAssert x) s fun d _ =>
    d.rd (F.EDG_TRIP_LEVEL x.k) = 1 ∧ d.ch c = s.dev.ch c ∧ d.rd (F.CH_TCNT_CNT c) = s.dev.rd (F.CH_TCNT_CNT c) ∧ d.rd (F.CH_TCNT_TOTAL c) = s.dev.rd (F.CH_TCNT_TOTAL c) := by
  have view := ((h.seen.trans (Wk.spares_tripAct h.c (mt h.ends_iff.1 hn))).trans (Wk.spares_tripTriggers _ x.k)).dev
  have fld {f : Fld} (hf : f ∈ tripFlds c) := (Dev.tripView_fld h.c view hf).trans (h.fld hf)
  exact ⟨_, h.exec, (Dev.tripView_rd view (Fld.offTrips_level c h.k)).trans (State.levelShown_level _), (Dev.tripView_ch view).trans rfl,
    fld (by simp [tripFlds]), fld (by simp [tripFlds])⟩

/-- An assertion that ends the pulse of channel `c`. -/
theorem State.Asserts.ends (ha : s.dev.TripActs c x.k) (he : (s.dev.ch c).ended = false) : Leaves (.tripInputAssert x) s fun d ms =>
    d.rd (F.EDG_TRIP_LEVEL x.k) = 1 ∧ (d.ch c).ended = true ∧ (d.ch c).lastTr = some s.dev.time.now ∧ d.rd (F.CH_TCNT_CNT c) = min (s.dev.rd (F.CH_TCNT_CNT c) + 1) 255 ∧
      d.rd (F.CH_TCNT_TOTAL c) = min (s.dev.rd (F.CH_TCNT_TOTAL c) + 1) 65535 ∧ d.rd (F.CH_TCNT_CLEAN c) = 0 ∧
      (s.dev.tripLatches c → (d.ch c).out = 2 ∧ d.rd (F.CH_STAT_LATCHED c) = 1) ∧ ((12, 0, c) ∈ ms.map Msg.tag ↔ s.dev.tripLatches c) ∧
      (¬ s.dev.tripLatches c → (d.ch c).out = (if s.dev.rd (F.CH_CTRL_TRIP_ACT c) = 1 then 2 else 0) ∧ d.rd (F.CH_STAT_LATCHED c) = s.dev.rd (F.CH_STAT_LATCHED c)) ∧ d.run = s.dev.run := by
  have ended : ((s.wk.tripSeen x.k).d.ch c).ended = false := (congrArg ChSt.ended (Dev.tripView_ch h.seen.dev)).trans he
  obtain ⟨u, v, before, pulse, after⟩ := Wk.tripAct_ends h.c (h.ends_iff.2 ha) ended
  replace before := h.seen.trans before
  replace after := after.trans (Wk.spares_tripTriggers _ x.k)
  have fld {f : Fld} (hf : f ∈ tripFlds c) : u.d.rd f = s.dev.rd f := (Dev.tripView_fld h.c before.dev hf).trans (h.fld hf)
  have cnt : u.d.rd (F.CH_TCNT_CNT c) = s.dev.rd (F.CH_TCNT_CNT c) := fld (by simp [tripFlds])
  have total : u.d.rd (F.CH_TCNT_TOTAL c) = s.dev.rd (F.CH_TCNT_TOTAL c) := fld (by simp [tripFlds])
  have latched : u.d.rd (F.CH_STAT_LATCHED c) = s.dev.rd (F.CH_STAT_LATCHED c) := fld (by simp [tripFlds])
  have act : u.d.rd (F.CH_CTRL_TRIP_ACT c) = s.dev.rd (F.CH_CTRL_TRIP_ACT c) := fld (by simp [tripFlds])
  have time : u.d.time = s.dev.time := (Dev.tripView_time before.dev).trans rfl
  have latches : u.d.tripLatches c ↔ s.dev.tripLatches c := by
    unfold Dev.tripLatches
    rw [cnt, latched, fld (f := F.CH_TRIP_N c) (by simp [tripFlds])]
  have quiet : (12, 0, c) ∉ u.ms.map Msg.tag := fun hm => absurd (before.ms.notLatch.1 hm) (by simp [State.levelShown, State.wk])
  have now {f : Fld} (hf : f ∈ tripFlds c) := Dev.tripView_fld h.c after.dev hf
  have ch := Dev.tripView_ch after.dev
  have level : v.d.rd (F.EDG_TRIP_LEVEL x.k) = 1 := by
    refine (pulse.rd _ fun k hk => ?_).trans ((Dev.tripView_rd before.dev (Fld.offTrips_level c h.k)).trans (State.levelShown_level _))
    obtain ⟨-, hhi, hbit⟩ := ofCh_tripFlds (c := c) (List.mem_append_left _ hk : k ∈ [F.CH_TCNT_CNT c, F.CH_TCNT_TOTAL c, F.CH_TCNT_CLEAN c, F.CH_STAT_LATCHED c] ++ _)
    have := h.c
    simp only [Fld.key, F.EDG_TRIP_LEVEL]
    omega
  refine ⟨_, h.exec, (Dev.tripView_rd after.dev (Fld.offTrips_level c h.k)).trans level, ?_, ?_, ?_, ?_, ?_, fun hl => ?_, ?_, fun hl => ?_, ?_⟩
  · rw [ch, pulse.ended]
  · rw [ch, pulse.lastTr, time]
  · rw [now (by simp [tripFlds]), pulse.cnt, cnt]
  · rw [now (by simp [tripFlds]), pulse.total, total]
  · rw [now (by simp [tripFlds]), pulse.clean]
  · obtain ⟨out, on, -⟩ := pulse.latches (latches.2 hl)
    rw [ch, now (by simp [tripFlds])]
    exact ⟨out, on⟩
  · rw [after.ms.notLatch]
    by_cases hl : u.d.tripLatches c
    · obtain ⟨-, -, m, hm, hms⟩ := pulse.latches hl
      rw [hms, List.map_append, List.mem_append]
      exact iff_of_true (.inr (by simp [hm])) (latches.1 hl)
    · rw [(pulse.goesOn hl).2.2]
      exact iff_of_false quiet (mt latches.2 hl)
  · obtain ⟨out, on, -⟩ := pulse.goesOn (mt latches.1 hl)
    rw [ch, now (by simp [tripFlds])]
    exact ⟨out.trans (by rw [act]), on.trans latched⟩
  · exact (Dev.tripView_run after.dev).trans (pulse.run.trans ((Dev.tripView_run before.dev).trans rfl))

end

/-! ## What an input does that does not assert -/

theorem tripInputAssert_none {s : State} {x : TripIn} (h : 16 ≤ x.k) : exec (.tripInputAssert x) s = .next s := by
  rw [exec_tripInputAssert]
  exact s.run_same (Wk.tripInputs_none h)

theorem tripInputAssert_short {s : State} {x : TripIn} (hk : x.k < 16) (hh : x.high ≠ s.dev.rdB (F.EDG_TRIP_POL x.k)) (hc : x.counts < s.dev.rd (F.EDG_TRIP_FILT x.k)) :
    exec (.tripInputAssert x) s = .next s := by
  rw [exec_tripInputAssert]
  exact s.run_same (Wk.tripInputs_short (w := s.wk) hk hh hc)

theorem tripInputAssert_released {s : State} {x : TripIn} (hk : x.k < 16) (hh : x.high = s.dev.rdB (F.EDG_TRIP_POL x.k)) :
    exec (.tripInputAssert x) s = .next (s.withDev (s.dev.wr (F.EDG_TRIP_LEVEL x.k) 0)) := by
  rw [exec_tripInputAssert]
  refine s.run_upTo (g := (·.wr (F.EDG_TRIP_LEVEL x.k) 0)) (Wk.tripInputs_released (w := s.wk) hk hh) fun k hk => ?_
  exact Dev.wr_rd_ne _ _ (Fld.notified_ne_lane hk (by simp only [F.EDG_TRIP_LEVEL]; omega))

/-! ## Debug halts -/

theorem Dev.clearTbs_rd (d : Dev) {f : Fld} (h : ∀ t < 64, f.key ≠ (F.TB_CTRL_EN t).key ∧ f.key ≠ (F.TB_STAT_RUN t).key) : d.clearTbs.rd f = d.rd f := by
  unfold Dev.clearTbs
  refine foldl_keeps (g := (Dev.rd · f)) (fun t ht e => ?_) d
  obtain ⟨en, run⟩ := h t (List.mem_range.1 ht)
  exact (Dev.wr_rd_ne (e.wr (F.TB_CTRL_EN t) 0) 0 run).trans (Dev.wr_rd_ne e 0 en)

/-- A field of the engine that is no enable, as the clearing of these leaves it. -/
theorem Dev.clearEnables_rd_ne (d : Dev) {f : Fld} (ht : ∀ t < 64, f.key ≠ (F.TB_CTRL_EN t).key ∧ f.key ≠ (F.TB_STAT_RUN t).key) (hc : ∀ c < 256, f.key ≠ (F.CH_CTRL_EN c).key) :
    d.clearEnables.rd f = d.rd f :=
  (d.clearEnables_rd f).trans ((d.clearTbs.clearChs_rd hc).trans (d.clearTbs_rd ht))

theorem Dev.toSafe_rd (d : Dev) {f : Fld} (hd : f.key ≠ F.GSV_DEN_LVL.key) (hs : f.key ≠ F.EDG_STAT_SAFE.key) (hq : f.key ≠ F.EDG_STAT_QUIESCED.key) : d.toSafe.rd f = d.clearEnables.rd f := by
  rw [Dev.toSafe_pinned (g := (Dev.rd · f)) (fun _ _ _ => rfl) fun _ _ _ => rfl, (OffLevels.rd hd hs).pinsSafe, Dev.wr_rd_ne _ _ hs, Dev.wr_rd_ne _ _ hq]

theorem Dev.toSafe_safe (d : Dev) : d.toSafe.rd F.EDG_STAT_SAFE = 1 := by
  rw [Dev.toSafe_pinned (g := (Dev.rd · F.EDG_STAT_SAFE)) (fun _ _ _ => rfl) fun _ _ _ => rfl]
  exact (Dev.pinsSafe_sees (g := (Dev.rd · F.EDG_STAT_SAFE)) (fun _ _ _ => rfl) _).trans (Dev.wr_rd _ _ _)

theorem posKey (t : Nat) : (F.TB_POS t).key = 12584192 + t * 8192 := by
  simp only [Fld.key, F.TB_POS]
  omega

theorem Dev.clearEnables_pos (d : Dev) (t : Nat) : d.clearEnables.rd (F.TB_POS t) = d.rd (F.TB_POS t) := by
  have pos := posKey t
  refine d.clearEnables_rd_ne (fun x hx => ⟨?_, ?_⟩) fun c hc => ?_
  · rw [pos]; simp only [Fld.key, F.TB_CTRL_EN]; omega
  · rw [pos]; simp only [Fld.key, F.TB_STAT_RUN]; omega
  · rw [pos]; simp only [Fld.key, F.CH_CTRL_EN]; omega

theorem Dev.enterSafe_pos (d : Dev) (c t : Nat) : (d.enterSafe c).rd (F.TB_POS t) = d.rd (F.TB_POS t) := by
  have pos := posKey t
  have safe (e : Dev) : e.toSafe.rd (F.TB_POS t) = e.rd (F.TB_POS t) :=
    (e.toSafe_rd (by rw [pos]; simp only [Fld.key, F.GSV_DEN_LVL]; omega) (by rw [pos]; simp only [Fld.key, F.EDG_STAT_SAFE]; omega) (by rw [pos]; simp only [Fld.key, F.EDG_STAT_QUIESCED]; omega)).trans
      (e.clearEnables_pos t)
  exact (ite_keeps (g := (Dev.rd · (F.TB_POS t))) (fun _ => rfl) fun _ => safe _).trans (d.abandon_rd _ _ _)

/-- The position of one timebase is kept (R161). -/
def Dev.freezeTb (d : Dev) (t : Nat) : Dev := if d.rdB (F.TB_STAT_RUN t) then d.wr (F.TB_POS t) (d.tbPos t) else d

theorem Dev.freezeTb_rd (d : Dev) (t : Nat) {f : Fld} (h : f.key ≠ (F.TB_POS t).key) : (d.freezeTb t).rd f = d.rd f :=
  ite_keeps (g := (Dev.rd · f)) (fun _ => d.wr_rd_ne _ h) fun _ => rfl

theorem Dev.freezePos_rd (d : Dev) {f : Fld} (h : ∀ t < 64, f.key ≠ (F.TB_POS t).key) : d.freezePos.rd f = d.rd f :=
  foldl_keeps (g := (Dev.rd · f)) (fun t hm e => e.freezeTb_rd t (h t (List.mem_range.1 hm))) d

/-- The position of a running timebase is not read from TB_POS. -/
theorem Dev.wr_tbPos (d : Dev) {x t : Nat} (v : Nat) (h : x ≠ t ∨ d.rdB (F.TB_STAT_RUN t) = true) : (d.wr (F.TB_POS x) v).tbPos t = d.tbPos t := by
  have pos := posKey x
  have pos' := posKey t
  have run : (d.wr (F.TB_POS x) v).rd (F.TB_STAT_RUN t) = d.rd (F.TB_STAT_RUN t) := d.wr_rd_ne v (by rw [pos]; simp only [Fld.key, F.TB_STAT_RUN]; omega)
  have per : (d.wr (F.TB_POS x) v).rd (F.TB_PER t) = d.rd (F.TB_PER t) := d.wr_rd_ne v (by rw [pos]; simp only [Fld.key, F.TB_PER]; omega)
  have frame : (d.wr (F.TB_POS x) v).boundaryNow = d.boundaryNow := by
    unfold Dev.boundaryNow Dev.boundaryAt Dev.frameTu
    rw [d.wr_rd_ne v (by rw [pos]; simp only [Fld.key, F.SYS_FRM_LEN]; omega)]
    rfl
  unfold Dev.tbPos
  rw [show (d.wr (F.TB_POS x) v).rdB (F.TB_STAT_RUN t) = d.rdB (F.TB_STAT_RUN t) by unfold Dev.rdB; rw [run], per, frame]
  obtain h | h := h
  · rw [d.wr_rd_ne v (by omega)]
    rfl
  · rw [h]
    rfl

/-- TB_POS of a timebase, whether it runs, and where it stands. -/
def Dev.posView (t : Nat) (d : Dev) : Nat × Bool × Nat := (d.rd (F.TB_POS t), d.rdB (F.TB_STAT_RUN t), d.tbPos t)

theorem Dev.freezePos_pos (d : Dev) {t : Nat} (ht : t < 64) (h : d.rdB (F.TB_STAT_RUN t) = true) : d.freezePos.rd (F.TB_POS t) = d.tbPos t % 2 ^ (F.TB_POS t).width := by
  have run (e : Dev) (x v : Nat) : (e.wr (F.TB_POS x) v).rdB (F.TB_STAT_RUN t) = e.rdB (F.TB_STAT_RUN t) := by
    have pos := posKey x
    unfold Dev.rdB
    rw [e.wr_rd_ne v (by rw [pos]; simp only [Fld.key, F.TB_STAT_RUN]; omega)]
  have self (e : Dev) : (e.freezeTb t).posView t = if (e.posView t).2.1 then ((e.posView t).2.2 % 2 ^ (F.TB_POS t).width, (e.posView t).2) else e.posView t := by
    unfold Dev.freezeTb
    split
    next hr =>
      rw [show (e.posView t).2.1 = true from hr, if_pos rfl]
      exact Prod.ext (e.wr_rd _ _) (Prod.ext (run e t _) (e.wr_tbPos _ (.inr hr)))
    next hr => exact (if_neg (show ¬ (e.posView t).2.1 = true from hr)).symm
  have other (e : Dev) (x : Nat) (hx : x ≠ t) : (e.freezeTb x).posView t = e.posView t :=
    ite_keeps (fun _ => Prod.ext (e.wr_rd_ne _ (by rw [posKey, posKey]; omega)) (Prod.ext (run e x _) (e.wr_tbPos _ (.inl hx)))) fun _ => rfl
  have all := foldl_unit (g := Dev.posView t) (step := Dev.freezeTb) (φ := fun x => if x.2.1 then (x.2.2 % 2 ^ (F.TB_POS t).width, x.2) else x) ht self other d
  exact (congrArg Prod.fst all).trans (congrArg Prod.fst (if_pos h))

theorem Dev.freezePos_safe (d : Dev) : d.freezePos.safe = d.safe := by
  unfold Dev.safe Dev.rdB
  rw [d.freezePos_rd fun t ht => by rw [posKey]; simp only [Fld.key, F.EDG_STAT_QUIESCED]; omega]

/-- The device that a debug halt leaves (R161). -/
def Dev.halted (d : Dev) : Dev := ((d.freezePos.enterSafe 6).clearEnables.wr F.EDG_STAT_HALT 1).setRun d.run.halted

section
variable (d : Dev)

theorem Dev.halted_rd {f : Fld} (h1 : f.key ≠ F.CLK_STAT_PSTATE.key) (h2 : f.key ≠ F.EDG_STAT_HALT.key) : d.halted.rd f = (d.freezePos.enterSafe 6).clearEnables.rd f :=
  (Dev.setRun_rd _ _ h1).trans (Dev.wr_rd_ne _ _ h2)

theorem Dev.halted_stat {f : Fld} (h : f = F.EDG_STAT_QUIESCED ∨ f = F.EDG_STAT_SAFE) : d.halted.rd f = (d.freezePos.enterSafe 6).rd f := by
  have place : 0x68004 * 32 ≤ f.key ∧ f.key < 0x68004 * 32 + 2 := by obtain rfl | rfl := h <;> decide
  obtain ⟨hlo, hhi⟩ := place
  have pstate : F.CLK_STAT_PSTATE.key < 0x60000 * 32 := by decide
  have halt : F.EDG_STAT_HALT.key = 0x68004 * 32 + 2 := by decide
  refine (d.halted_rd (by omega) (by omega)).trans (Dev.clearEnables_rd_ne _ (fun t ht => ⟨?_, ?_⟩) fun c hc => ?_)
  · simp only [Fld.key, F.TB_CTRL_EN] at hlo ⊢; omega
  · simp only [Fld.key, F.TB_STAT_RUN] at hlo ⊢; omega
  · simp only [Fld.key, F.CH_CTRL_EN] at hlo ⊢; omega

theorem Dev.halted_halt : d.halted.rd F.EDG_STAT_HALT = 1 := (Dev.setRun_rd _ _ (by decide)).trans (Dev.wr_rd _ _ _)

theorem Dev.halted_run : d.halted.run = d.run.halted := Dev.setRun_run _ _

theorem Dev.halted_allOff : d.halted.AllOff :=
  (Dev.clearEnables_allOff (d.freezePos.enterSafe 6)).congr ((Dev.setRun_enables _ _).trans (Dev.wr_enables _ _ (.inr (by decide))))

theorem Dev.halted_pos (t : Nat) : d.halted.rd (F.TB_POS t) = d.freezePos.rd (F.TB_POS t) := by
  have pos := posKey t
  rw [d.halted_rd (by rw [pos]; simp only [Fld.key, F.CLK_STAT_PSTATE]; omega) (by rw [pos]; simp only [Fld.key, F.EDG_STAT_HALT]; omega), Dev.clearEnables_pos, Dev.enterSafe_pos]

end

theorem Dev.enterSafe_shows {d : Dev} (h : d.safe = false) (c : Nat) : (d.enterSafe c).rd F.EDG_STAT_SAFE = 1 := by
  have still : (d.abandon [.arm, .precharge, .softStart] c).safe = false := by
    unfold Dev.safe Dev.rdB at h ⊢
    rw [Dev.abandon_rd, h]
  unfold Dev.enterSafe
  dsimp only
  rw [still, if_neg (by decide)]
  exact Dev.toSafe_safe _

theorem exec_debugHalt_if (s : State) : exec .debugHalt s = .next (s.settleWk s.vault (s.wk.up fun d => if !d.rdB F.SEC_DBG_DEBUG then d else d.halted)) := rfl

theorem debugHalt_shut {s : State} (h : s.dev.rd F.SEC_DBG_DEBUG = 0) : exec .debugHalt s = .next s := by
  have shut : (!s.dev.rdB F.SEC_DBG_DEBUG) = true := by simp [Dev.rdB, h]
  have same : (s.wk.up fun d => if !d.rdB F.SEC_DBG_DEBUG then d else d.halted) = s.wk := congrArg (fun d => { s.wk with d := d }) (if_pos shut)
  rw [exec_debugHalt_if, same, s.settleWk_wk]

theorem debugHalt_open {s : State} (h : s.dev.rd F.SEC_DBG_DEBUG = 1) : exec .debugHalt s = .next (s.settleWk s.vault (s.wk.up Dev.halted)) := by
  have open_ : ¬ (!s.dev.rdB F.SEC_DBG_DEBUG) = true := by simp [Dev.rdB, h]
  have same : (s.wk.up fun d => if !d.rdB F.SEC_DBG_DEBUG then d else d.halted) = s.wk.up Dev.halted := congrArg (fun d => { s.wk with d := d }) (if_neg open_)
  rw [exec_debugHalt_if, same]

/-- A debug halt (R161): the safe state with HALT, and everything that was enabled cleared. -/
theorem debugHalt_halts {s : State} (h : s.dev.rd F.SEC_DBG_DEBUG = 1) : Leaves .debugHalt s fun d ms => ms = [] ∧ d.rd F.EDG_STAT_HALT = 1 ∧ d.rd F.EDG_STAT_QUIESCED = 1 ∧
    d.run = s.dev.run.halted ∧ (s.dev.rd F.EDG_STAT_QUIESCED = 0 → d.rd F.EDG_STAT_SAFE = 1) ∧ d.edge.plan = [] ∧ d.edge.next = [] ∧
    (∀ t < 64, d.rd (F.TB_CTRL_EN t) = 0 ∧ d.rd (F.TB_STAT_RUN t) = 0 ∧ (s.dev.rd (F.TB_STAT_RUN t) = 1 → d.rd (F.TB_POS t) = s.dev.tbPos t % 2 ^ (F.TB_POS t).width)) ∧
    ∀ c < 256, d.rd (F.CH_CTRL_EN c) = 0 := by
  have off := s.dev.halted_allOff
  refine ⟨s.wk.up Dev.halted, debugHalt_open h, ?_⟩
  rw [Wk.up_ms, Wk.up_d, show s.wk.d = s.dev from rfl]
  refine ⟨rfl, s.dev.halted_halt, (s.dev.halted_stat (.inl rfl)).trans (Dev.enterSafe_quiesced _ _), s.dev.halted_run, fun hq => ?_, off.plan, off.next,
    fun t ht => ⟨(off.tb t ht).1, (off.tb t ht).2, fun hr => ?_⟩, off.ch⟩
  · refine (s.dev.halted_stat (.inr rfl)).trans (Dev.enterSafe_shows ?_ 6)
    rw [Dev.freezePos_safe]
    simp [Dev.safe, Dev.rdB, hq]
  · exact (s.dev.halted_pos t).trans (s.dev.freezePos_pos ht (by simp [Dev.rdB, hr]))

theorem debugHaltRelease_clears (s : State) : exec .debugHaltRelease s = .next (s.withDev (s.dev.wr F.EDG_STAT_HALT 0)) := by
  rw [exec_debugHaltRelease]
  exact s.run_upTo (g := (·.wr F.EDG_STAT_HALT 0)) rfl fun k hk => Dev.wr_rd_ne _ _ (Fld.notified_ne_lane hk (by decide))

end Sys2Proof.Machine

/-! DEN_TOGGLE_END (R184, R565): the level of DEN, and the pairs that it releases. -/
namespace Sys2Proof.Machine

/-! ## Bits of masks -/

theorem bitOf_ofBits (l : List Nat) (m : Nat) : bitOf (ofBits l) m = decide (m ∈ l) := by
  have fold (l : List Nat) (x : Nat) : bitOf (l.foldl (fun m i => m ||| (1 <<< i)) x) m = (bitOf x m || decide (m ∈ l)) := by
    induction l generalizing x with
    | nil => simp
    | cons i r ih =>
      rw [List.foldl_cons, ih, bitOf_or, bitOf_shift, Bool.or_assoc, ← Bool.decide_or]
      exact congrArg _ (decide_eq_decide.2 (by rw [List.mem_cons, eq_comm (a := i)]))
  exact (fold l 0).trans (by rw [show bitOf 0 m = false from Nat.zero_testBit m, Bool.false_or])

/-- A bit that is set is taken off by its weight. -/
theorem bitOf_sub {x i : Nat} (h : bitOf x i = true) (m : Nat) : bitOf (x - 1 <<< i) m = (bitOf x m && decide (m ≠ i)) := by
  have small : x % 2 ^ i < 2 ^ i := Nat.mod_lt _ (Nat.two_pow_pos i)
  have large : 2 ^ i + x % 2 ^ i < 2 ^ (i + 1) := by rw [Nat.pow_succ]; omega
  have whole : x = 2 ^ (i + 1) * (x / 2 ^ (i + 1)) + (2 ^ i + x % 2 ^ i) := by
    have bit : x / 2 ^ i % 2 = 1 := Nat.testBit_eq_decide_div_mod_eq ▸ h |> of_decide_eq_true
    have split := Nat.div_add_mod x (2 ^ (i + 1))
    rw [Nat.mod_pow_succ, bit] at split
    omega
  have less : x - 1 <<< i = 2 ^ (i + 1) * (x / 2 ^ (i + 1)) + x % 2 ^ i := by
    rw [Nat.one_shiftLeft]
    omega
  unfold bitOf
  rw [less]
  conv_rhs => rw [whole]
  rw [Nat.testBit_two_pow_mul_add _ (by omega), Nat.testBit_two_pow_mul_add _ large]
  rcases Nat.lt_trichotomy m i with hlt | rfl | hgt
  · rw [if_pos (by omega), if_pos (by omega), Nat.testBit_two_pow_add_gt hlt, decide_eq_true (Nat.ne_of_lt hlt), Bool.and_true]
  · rw [if_pos (by omega), Nat.testBit_lt_two_pow small, decide_eq_false (by simp), Bool.and_false]
  · rw [if_neg (by omega), if_neg (by omega), decide_eq_true (Nat.ne_of_gt hgt), Bool.and_true]

theorem Dev.clrBit_bit (d : Dev) {f : Fld} (i : Nat) {m : Nat} (h : m < f.width) : bitOf ((d.clrBit f i).rd f) m = (bitOf (d.rd f) m && decide (m ≠ i)) := by
  unfold Dev.clrBit
  rw [Dev.wr_rd, bitOf_mod h]
  by_cases hi : bitOf (d.rd f) i = true
  · rw [if_pos hi, bitOf_sub hi]
  · rw [if_neg hi, Nat.sub_zero]
    by_cases he : m = i
    · subst he
      rw [Bool.not_eq_true] at hi
      rw [hi]
      rfl
    · rw [decide_eq_true he, Bool.and_true]

/-! ## The end of a DEN toggle -/

/-- A field that the release of a pair leaves alone. -/
def Fld.OffRelease (f : Fld) : Prop :=
  f.key ≠ F.GSV_CNT_ILK.key ∧ f.key ≠ F.GSV_STAT_LATCHED.key ∧ ∀ c < 256, f.key ≠ (F.CH_STAT_LATCHED c).key ∧ f.key ≠ (F.CH_TCNT_CNT c).key

/-- The DEN toggles, the run state, and the fields that no release of a pair writes. -/
def Dev.releaseView (d : Dev) := (d.edge.den, d.run, fun f : { f : Fld // f.OffRelease } => d.rd f)

/-- A DEN group toggles no more. -/
def Dev.denFreed (d : Dev) (m : Nat) : Dev := { d with edge := { d.edge with den := tput none d.edge.den m none } }.clrBit F.GSV_DEN_TOGGLE m

/-- A DEN toggle is over, and DEN goes to its level (R184, R565). -/
def Dev.denOver (d : Dev) (m : Nat) : Dev := (d.denFreed m).syncDen

/-- A local channel of a pair that is released follows R149. -/
def Dev.freeCh (d : Dev) (c : Nat) : Dev :=
  ((d.wr (F.CH_STAT_LATCHED c) 0).wr (F.CH_TCNT_CNT c) 0).setCh c { d.ch c with out := if (d.ch c).run then 0 else 2, inPer := false, ended := false, lastTr := if (d.ch c).run && (d.ch c).out ≠ 0 then some d.boundaryNow else (d.ch c).lastTr }

/-- The local channels of a pair. -/
def Dev.chsOf (d : Dev) (k : Nat) : List Nat := (List.range 256).filter fun c => d.rd (F.CH_ROUTE_KIND c) = 1 ∧ d.rd (F.CH_ROUTE_PAIR c) = k

/-- A pair's latches clear. -/
def Dev.unlatch (d : Dev) (k : Nat) : Dev := ((d.clrBit F.GSV_STAT_LATCHED k).chsOf k).foldl Dev.freeCh (d.clrBit F.GSV_STAT_LATCHED k)

/-- A pair under a DEN whose toggle ends is released, unless the cause of its latch persists. -/
def Wk.denRelease (k : Nat) (w : Wk) : Wk :=
  if (w.relatch k).2 then (w.relatch k).1 else
  let u := (w.relatch k).1.up (·.unlatch k)
  (u.drivePair k (u.d.time.rt - u.d.since u.d.boundaryNow)).aim k

theorem Wk.denEnd_eq (w : Wk) (m : Nat) :
    w.denEnd m = (w.up (·.denOver m)).each ((List.range 16).filter fun k => (w.up (·.denOver m)).d.rd (F.GSV_PAIR_DEN k) = m) Wk.denRelease := rfl

section
variable {d e : Dev} {w : Wk} {k : Nat}

theorem Dev.releaseView_rd (h : d.releaseView = e.releaseView) {f : Fld} (hf : f.OffRelease) : d.rd f = e.rd f := congrFun (congrArg (fun x => x.2.2) h) ⟨f, hf⟩

theorem Dev.wr_releaseView (d : Dev) {k : Fld} (v : Nat) (h : ∀ f : Fld, f.OffRelease → f.key ≠ k.key) : (d.wr k v).releaseView = d.releaseView :=
  Prod.ext rfl (Prod.ext rfl (funext fun f => d.wr_rd_ne v (h f f.2)))

theorem offPairs_releaseView : OffPairs Dev.releaseView := ⟨fun _ _ _ => rfl, fun d v => d.wr_releaseView v fun _ hf => hf.1⟩

theorem Dev.freeCh_releaseView (d : Dev) {c : Nat} (hc : c < 256) : (d.freeCh c).releaseView = d.releaseView :=
  (Dev.wr_releaseView (d.wr (F.CH_STAT_LATCHED c) 0) 0 fun _ hf => (hf.2.2 c hc).2).trans (d.wr_releaseView 0 fun _ hf => (hf.2.2 c hc).1)

theorem Dev.mem_chsOf {c : Nat} : c ∈ d.chsOf k ↔ c < 256 ∧ d.rd (F.CH_ROUTE_KIND c) = 1 ∧ d.rd (F.CH_ROUTE_PAIR c) = k := by
  unfold Dev.chsOf
  rw [List.mem_filter, List.mem_range, decide_eq_true_eq]

theorem Dev.unlatch_releaseView (d : Dev) (k : Nat) : (d.unlatch k).releaseView = d.releaseView :=
  (foldl_keeps (fun _ hc e => e.freeCh_releaseView (Dev.mem_chsOf.1 hc).1) _).trans (d.wr_releaseView _ fun _ hf => hf.2.1)

/-- The registers of the edge engine, and the word of a channel that says where it goes, but for what the release of a pair writes. -/
theorem Fld.offRelease {f : Fld} (hlo : f.lo < 32) (h : 0x68000 ≤ f.addr ∨ f.addr % 64 = 4) (hl : f.addr ≠ 0x70000 + 148) (hi : f.addr ≠ 0x70000 + 168) : f.OffRelease := by
  simp only [Fld.OffRelease, Fld.key, F.GSV_CNT_ILK, F.GSV_STAT_LATCHED, F.CH_STAT_LATCHED, F.CH_TCNT_CNT]
  exact ⟨by omega, by omega, fun c hc => by omega⟩

theorem Dev.noTrip_level (h : d.noTrip = true) {j : Nat} (hj : j < 16) : d.rd (F.EDG_TRIP_LEVEL j) = 0 := by
  unfold Dev.noTrip at h
  exact of_decide_eq_true (List.all_eq_true.1 h j (List.mem_range.2 hj))

theorem Dev.noTrip_congr (h : ∀ j < 16, d.rd (F.EDG_TRIP_LEVEL j) = e.rd (F.EDG_TRIP_LEVEL j)) : d.noTrip = e.noTrip := by
  unfold Dev.noTrip
  rw [Bool.eq_iff_iff, List.all_eq_true, List.all_eq_true]
  exact forall₂_congr fun j hj => by rw [h j (List.mem_range.1 hj)]

theorem Dev.releaseView_noTrip (h : d.releaseView = e.releaseView) : d.noTrip = e.noTrip :=
  Dev.noTrip_congr fun j hj => Dev.releaseView_rd h (Fld.offRelease (show 8 < 32 by decide) (by simp only [F.EDG_TRIP_LEVEL]; omega) (by simp only [F.EDG_TRIP_LEVEL]; omega)
    (by simp only [F.EDG_TRIP_LEVEL]; omega))

theorem Dev.chsOf_congr (h : ∀ c < 256, d.rd (F.CH_ROUTE_KIND c) = e.rd (F.CH_ROUTE_KIND c) ∧ d.rd (F.CH_ROUTE_PAIR c) = e.rd (F.CH_ROUTE_PAIR c)) (k : Nat) : d.chsOf k = e.chsOf k := by
  refine List.filter_congr fun c hc => ?_
  obtain ⟨kind, pair⟩ := h c (List.mem_range.1 hc)
  rw [kind, pair]

/-- With no input asserted, only a monitor that reads below its threshold keeps a pair latched, and the device stays as it is. -/
theorem Wk.relatch_quiet (h : w.d.noTrip = true) (k : Nat) : (w.relatch k).1.d = w.d ∧
    ((w.relatch k).2 = true → ∃ j < 16, bitOf (w.d.rd F.GSV_GSM_STAT_BELOW) j = true ∧ w.d.rd (F.GSV_GSM_PAIR j) = k) := by
  have level : w.d.rd (F.EDG_TRIP_LEVEL (w.d.rd (F.GSV_PAIR_DSAT_TIN k))) = 0 := Dev.noTrip_level h (w.d.rd_lt (F.GSV_PAIR_DSAT_TIN k))
  have held : (if w.d.rdB (F.GSV_PAIR_DSAT_EN k) then w.tripHeld (w.d.rd (F.GSV_PAIR_DSAT_TIN k)) else (w, false)) = (w, false) := by
    split
    · exact if_pos (by simp [Dev.rdB, level])
    · rfl
  have raised (b : Bool) (l : List Nat) (u : Wk) : (u.on b (·.each l fun m w => w.raise 10 0 m)).d = u.d :=
    (Wk.Keeps.on (S := anySource) (g := id) (w := u) (f := (·.each l fun m w => w.raise 10 0 m)) fun _ => .each fun _ _ _ => .raise trivial).dev
  unfold Wk.relatch
  extract_lets mons
  rw [held]
  dsimp only
  rw [Bool.and_false, Bool.or_false]
  refine ⟨raised _ _ _, fun hb => ?_⟩
  obtain ⟨j, hj⟩ := List.exists_mem_of_ne_nil mons (by simpa using (Bool.and_eq_true_iff.1 hb).2)
  obtain ⟨hlt, hj⟩ := List.mem_filter.1 hj
  obtain ⟨below, -, pair⟩ := of_decide_eq_true hj
  exact ⟨j, List.mem_range.1 hlt, below, pair⟩

end

/-! ### A pair whose latches have cleared -/

/-- The gate latch of a pair, and the trip latches and counts of channels, stand at 0. -/
def Dev.Unlatched (k : Nat) (cs : List Nat) (d : Dev) : Prop :=
  bitOf (d.rd F.GSV_STAT_LATCHED) k = false ∧ ∀ c ∈ cs, d.rd (F.CH_STAT_LATCHED c) = 0 ∧ d.rd (F.CH_TCNT_CNT c) = 0

section
variable {d e : Dev} {w : Wk} {k : Nat}

theorem Dev.freeCh_rd (d : Dev) (c : Nat) (f : Fld) : (d.freeCh c).rd f = ((d.wr (F.CH_STAT_LATCHED c) 0).wr (F.CH_TCNT_CNT c) 0).rd f := rfl

theorem Dev.freeCh_latched (d : Dev) (c : Nat) : (d.freeCh c).rd F.GSV_STAT_LATCHED = d.rd F.GSV_STAT_LATCHED := by
  obtain ⟨cnt, -, -, latched, -⟩ := tripKeys c
  have gate : F.GSV_STAT_LATCHED.key = 14684800 := rfl
  rw [Dev.freeCh_rd, Dev.wr_rd_ne _ _ (by omega), Dev.wr_rd_ne _ _ (by omega)]

theorem Dev.freeCh_clears (d : Dev) (c : Nat) : (d.freeCh c).rd (F.CH_STAT_LATCHED c) = 0 ∧ (d.freeCh c).rd (F.CH_TCNT_CNT c) = 0 := by
  obtain ⟨cnt, -, -, latched, -⟩ := tripKeys c
  refine ⟨?_, (Dev.wr_rd _ _ _).trans (Nat.zero_mod _)⟩
  rw [Dev.freeCh_rd, Dev.wr_rd_ne _ _ (by omega), Dev.wr_rd, Nat.zero_mod]

theorem Dev.freeCh_stays {c : Nat} (h : d.rd (F.CH_STAT_LATCHED c) = 0 ∧ d.rd (F.CH_TCNT_CNT c) = 0) (x : Nat) :
    (d.freeCh x).rd (F.CH_STAT_LATCHED c) = 0 ∧ (d.freeCh x).rd (F.CH_TCNT_CNT c) = 0 := by
  obtain rfl | hne := eq_or_ne c x
  · exact d.freeCh_clears c
  obtain ⟨cnt, -, -, latched, -⟩ := tripKeys c
  obtain ⟨cnt', -, -, latched', -⟩ := tripKeys x
  simp only [Dev.freeCh_rd]
  rw [Dev.wr_rd_ne _ _ (by omega), Dev.wr_rd_ne _ _ (by omega), Dev.wr_rd_ne _ _ (by omega), Dev.wr_rd_ne _ _ (by omega)]
  exact h

theorem Dev.clrBit_latched_rd (d : Dev) (x c : Nat) :
    (d.clrBit F.GSV_STAT_LATCHED x).rd (F.CH_STAT_LATCHED c) = d.rd (F.CH_STAT_LATCHED c) ∧ (d.clrBit F.GSV_STAT_LATCHED x).rd (F.CH_TCNT_CNT c) = d.rd (F.CH_TCNT_CNT c) := by
  obtain ⟨cnt, -, -, latched, -⟩ := tripKeys c
  have gate : F.GSV_STAT_LATCHED.key = 14684800 := rfl
  exact ⟨Dev.wr_rd_ne _ _ (by omega), Dev.wr_rd_ne _ _ (by omega)⟩

theorem Dev.unlatch_latched (d : Dev) (x : Nat) (hk : k < 16) : bitOf ((d.unlatch x).rd F.GSV_STAT_LATCHED) k = (bitOf (d.rd F.GSV_STAT_LATCHED) k && decide (k ≠ x)) := by
  rw [← Dev.clrBit_bit d x (f := F.GSV_STAT_LATCHED) hk]
  exact congrArg (bitOf · k) (foldl_keeps (g := (Dev.rd · F.GSV_STAT_LATCHED)) (fun c _ e => e.freeCh_latched c) _)

theorem Dev.Unlatched.unlatch {cs : List Nat} (h : d.Unlatched k cs) (hk : k < 16) (x : Nat) : (d.unlatch x).Unlatched k cs := by
  obtain ⟨gate, chs⟩ := h
  refine ⟨by rw [Dev.unlatch_latched _ _ hk, gate, Bool.false_and], fun c hc => ?_⟩
  unfold Dev.unlatch
  refine List.foldlRecOn (motive := fun e : Dev => e.rd (F.CH_STAT_LATCHED c) = 0 ∧ e.rd (F.CH_TCNT_CNT c) = 0) _ _ ?_ fun e he y _ => Dev.freeCh_stays he y
  rw [(d.clrBit_latched_rd x c).1, (d.clrBit_latched_rd x c).2]
  exact chs c hc

theorem Dev.chsOf_view (h : d.releaseView = e.releaseView) (k : Nat) : d.chsOf k = e.chsOf k := by
  have word {c : Nat} {f : Fld} (hc : c < 256) (ha : f.addr = 0x64000 + c * 64 + 4) (hlo : f.lo < 32) : d.rd f = e.rd f :=
    Dev.releaseView_rd h (Fld.offRelease hlo (.inr (by omega)) (by omega) (by omega))
  exact Dev.chsOf_congr (fun c hc => ⟨word hc rfl (show 16 < 32 by decide), word hc rfl (show 8 < 32 by decide)⟩) k

theorem Dev.unlatch_unlatched (d : Dev) (hk : k < 16) : (d.unlatch k).Unlatched k (d.chsOf k) := by
  refine ⟨by simp [Dev.unlatch_latched _ _ hk], fun c hc => ?_⟩
  have chs : (d.clrBit F.GSV_STAT_LATCHED k).chsOf k = d.chsOf k := Dev.chsOf_view (d.wr_releaseView _ fun _ hf => hf.2.1) k
  unfold Dev.unlatch
  exact foldl_reaches (P := fun _ : Dev => True) (Q := fun e : Dev => e.rd (F.CH_STAT_LATCHED c) = 0 ∧ e.rd (F.CH_TCNT_CNT c) = 0) (chs ▸ hc) (fun _ _ _ => trivial) (fun e x he => Dev.freeCh_stays he x) (fun e _ => e.freeCh_clears c) trivial

/-! ### The release of the pairs under a DEN -/

theorem offPairs_latches (c : Nat) : OffPairs fun d => (d.rd F.GSV_STAT_LATCHED, d.rd (F.CH_STAT_LATCHED c), d.rd (F.CH_TCNT_CNT c)) where
  pair _ _ _ := rfl
  ilk d v := by
    obtain ⟨cnt, -, -, latched, -⟩ := tripKeys c
    have ilk : F.GSV_CNT_ILK.key = 14685440 := rfl
    have gate : F.GSV_STAT_LATCHED.key = 14684800 := rfl
    rw [Dev.wr_rd_ne _ _ (by omega), Dev.wr_rd_ne _ _ (by omega), Dev.wr_rd_ne _ _ (by omega)]

/-- Seen from anything but its pins, a pair that is released is unlatched, unless its cause persists. -/
theorem Wk.denRelease_dev {β : Type} {g : Dev → β} (hg : OffPairs g) (h : w.d.noTrip = true) (x : Nat) :
    g (w.denRelease x).d = g (if (w.relatch x).2 then w.d else w.d.unlatch x) := by
  have quiet := (Wk.relatch_quiet h x).1
  unfold Wk.denRelease
  split
  · rw [quiet]
  · exact ((hg.drive (S := anySource) trivial _ _ _).dev).trans (congrArg (fun d => g (Dev.unlatch d x)) quiet)

theorem Wk.denRelease_view (h : w.d.noTrip = true) (x : Nat) : (w.denRelease x).d.releaseView = w.d.releaseView :=
  (Wk.denRelease_dev offPairs_releaseView h x).trans (ite_keeps (fun _ => rfl) fun _ => w.d.unlatch_releaseView x)

theorem Dev.Unlatched.congr {cs : List Nat} (h : d.Unlatched k cs)
    (he : ∀ c, (e.rd F.GSV_STAT_LATCHED, e.rd (F.CH_STAT_LATCHED c), e.rd (F.CH_TCNT_CNT c)) = (d.rd F.GSV_STAT_LATCHED, d.rd (F.CH_STAT_LATCHED c), d.rd (F.CH_TCNT_CNT c))) :
    e.Unlatched k cs := by
  simp only [Prod.mk.injEq] at he
  unfold Dev.Unlatched
  rw [(he 0).1]
  exact ⟨h.1, fun c hc => by rw [(he c).2.1, (he c).2.2]; exact h.2 c hc⟩

theorem Wk.denRelease_stays {cs : List Nat} (h : w.d.noTrip = true) (hk : k < 16) (hu : w.d.Unlatched k cs) (x : Nat) : (w.denRelease x).d.Unlatched k cs := by
  refine Dev.Unlatched.congr ?_ fun c => Wk.denRelease_dev (offPairs_latches c) h x
  split
  · exact hu
  · exact hu.unlatch hk x

/-- A pair that no monitor finds below its threshold is unlatched. -/
theorem Wk.denRelease_unlatches (h : w.d.noTrip = true) (hk : k < 16) (hm : ∀ j < 16, bitOf (w.d.rd F.GSV_GSM_STAT_BELOW) j = true → w.d.rd (F.GSV_GSM_PAIR j) ≠ k) :
    (w.denRelease k).d.Unlatched k (w.d.chsOf k) := by
  refine Dev.Unlatched.congr ?_ fun c => Wk.denRelease_dev (offPairs_latches c) h k
  rw [if_neg fun hb => ?_]
  · exact w.d.unlatch_unlatched hk
  · obtain ⟨j, hj, below, pair⟩ := (Wk.relatch_quiet h k).2 hb
    exact hm j hj below pair

theorem Wk.denRelease_other (h : w.d.noTrip = true) (hk : k < 16) {x : Nat} (hx : k ≠ x) :
    bitOf ((w.denRelease x).d.rd F.GSV_STAT_LATCHED) k = bitOf (w.d.rd F.GSV_STAT_LATCHED) k := by
  have seen := congrArg Prod.fst (Wk.denRelease_dev (offPairs_latches 0) h x)
  refine (congrArg (bitOf · k) seen).trans ?_
  dsimp only
  split
  · rfl
  · rw [Dev.unlatch_latched _ _ hk, decide_eq_true hx, Bool.and_true]

end

section
variable {w : Wk} {l : List Nat} {k : Nat} (h : w.d.noTrip = true)
include h

theorem Wk.releaseAll_view : (w.each l Wk.denRelease).d.releaseView = w.d.releaseView :=
  Wk.each_inv (Q := fun u => u.d.releaseView = w.d.releaseView) (fun x _ _ hu => (Wk.denRelease_view ((Dev.releaseView_noTrip hu).trans h) x).trans hu) rfl

theorem Wk.releaseAll_other (hk : k < 16) (hl : k ∉ l) : bitOf ((w.each l Wk.denRelease).d.rd F.GSV_STAT_LATCHED) k = bitOf (w.d.rd F.GSV_STAT_LATCHED) k := by
  refine (Wk.each_inv (Q := fun u => u.d.releaseView = w.d.releaseView ∧ bitOf (u.d.rd F.GSV_STAT_LATCHED) k = bitOf (w.d.rd F.GSV_STAT_LATCHED) k) (fun x hx u hu => ?_) ⟨rfl, rfl⟩).2
  obtain ⟨view, bit⟩ := hu
  have quiet := (Dev.releaseView_noTrip view).trans h
  exact ⟨(Wk.denRelease_view quiet x).trans view, (Wk.denRelease_other quiet hk fun e => hl (e ▸ hx)).trans bit⟩

theorem Wk.releaseAll_unlatches (hk : k < 16) (hl : k ∈ l) (hm : ∀ j < 16, bitOf (w.d.rd F.GSV_GSM_STAT_BELOW) j = true → w.d.rd (F.GSV_GSM_PAIR j) ≠ k) :
    (w.each l Wk.denRelease).d.Unlatched k (w.d.chsOf k) := by
  have below : F.GSV_GSM_STAT_BELOW.OffRelease := Fld.offRelease (by decide) (.inl (by decide)) (by decide) (by decide)
  have pair {j : Nat} (hj : j < 16) : (F.GSV_GSM_PAIR j).OffRelease :=
    Fld.offRelease (show 16 < 32 by decide) (by simp only [F.GSV_GSM_PAIR]; omega) (by simp only [F.GSV_GSM_PAIR]; omega) (by simp only [F.GSV_GSM_PAIR]; omega)
  have stays (x : Nat) (u : Wk) (hu : u.d.releaseView = w.d.releaseView) : (u.denRelease x).d.releaseView = w.d.releaseView :=
    (Wk.denRelease_view ((Dev.releaseView_noTrip hu).trans h) x).trans hu
  refine (Wk.each_reaches (P := fun u => u.d.releaseView = w.d.releaseView) (Q := fun u => u.d.releaseView = w.d.releaseView ∧ u.d.Unlatched k (w.d.chsOf k)) hl stays
    (fun x u hu => ?_) (fun u hu => ?_) rfl).2
  · exact ⟨stays x u hu.1, Wk.denRelease_stays ((Dev.releaseView_noTrip hu.1).trans h) hk hu.2 x⟩
  · refine ⟨stays k u hu, ?_⟩
    rw [← Dev.chsOf_view hu]
    refine Wk.denRelease_unlatches ((Dev.releaseView_noTrip hu).trans h) hk fun j hj hb => ?_
    rw [Dev.releaseView_rd hu below] at hb
    rw [Dev.releaseView_rd hu (pair hj)]
    exact hm j hj hb

end

/-! ### DEN_TOGGLE_END -/

section
variable (d : Dev) (m : Nat)

theorem Dev.denFreed_rd {f : Fld} (h : f.key ≠ F.GSV_DEN_TOGGLE.key) : (d.denFreed m).rd f = d.rd f := Dev.wr_rd_ne { d with edge := { d.edge with den := tput none d.edge.den m none } } _ h

theorem Dev.denOver_rd {f : Fld} (ht : f.key ≠ F.GSV_DEN_TOGGLE.key) (hl : f.key ≠ F.GSV_DEN_LVL.key) : (d.denOver m).rd f = d.rd f :=
  (Dev.wr_rd_ne _ _ hl).trans (d.denFreed_rd m ht)

theorem Dev.denFreed_den : tget none (d.denFreed m).edge.den m = none := tget_tput_self (none : Option Nat) d.edge.den m none

theorem Dev.denOver_toggle {m : Nat} (hm : m < 8) : bitOf ((d.denOver m).rd F.GSV_DEN_TOGGLE) m = false := by
  have bit := Dev.clrBit_bit { d with edge := { d.edge with den := tput none d.edge.den m none } } m (f := F.GSV_DEN_TOGGLE) hm
  have freed : (d.denOver m).rd F.GSV_DEN_TOGGLE = (d.denFreed m).rd F.GSV_DEN_TOGGLE := Dev.wr_rd_ne _ _ (by decide)
  rw [decide_eq_false (by simp), Bool.and_false] at bit
  rw [freed]
  exact bit

theorem Dev.syncDen_level {m : Nat} (hm : m < 8) : bitOf (d.syncDen.rd F.GSV_DEN_LVL) m = (bitOf (d.rd F.GSV_DEN_EN) m && !d.denLow m && !d.outputsHeld && !d.timStopped) := by
  unfold Dev.syncDen
  rw [Dev.wr_rd, bitOf_mod (show m < F.GSV_DEN_LVL.width from hm), bitOf_ofBits, Bool.eq_iff_iff, decide_eq_true_eq, List.mem_filter, List.mem_range]
  exact and_iff_right hm

theorem Dev.denOver_level {m : Nat} (hm : m < 8) : bitOf ((d.denOver m).rd F.GSV_DEN_LVL) m = (bitOf (d.rd F.GSV_DEN_EN) m && !d.outputsHeld && !d.timStopped) := by
  have low : (d.denFreed m).denLow m = false := by unfold Dev.denLow; rw [Dev.denFreed_den]
  have held : (d.denFreed m).outputsHeld = d.outputsHeld := by
    unfold Dev.outputsHeld
    rw [Dev.denFreed_rd _ _ (by decide)]
    rfl
  have stopped : (d.denFreed m).timStopped = d.timStopped := by
    unfold Dev.timStopped
    rw [Dev.denFreed_rd _ _ (by decide)]
    rfl
  unfold Dev.denOver
  rw [Dev.syncDen_level _ hm, Dev.denFreed_rd _ _ (by decide), low, held, stopped, Bool.not_false, Bool.and_true]

/-- The registers outside the DEN word, as the end of a toggle leaves them. -/
theorem Dev.denOver_outside {f : Fld} (h : f.addr ≠ 0x70000 + 144) (hlo : f.lo < 32) : (d.denOver m).rd f = d.rd f :=
  d.denOver_rd m (by simp only [Fld.key, F.GSV_DEN_TOGGLE]; omega) (by simp only [Fld.key, F.GSV_DEN_LVL]; omega)

theorem Dev.denOver_noTrip : (d.denOver m).noTrip = d.noTrip :=
  Dev.noTrip_congr fun j _ => d.denOver_outside m (by simp only [F.EDG_TRIP_LEVEL]; omega) (show 8 < 32 by decide)

theorem Dev.denOver_chsOf (k : Nat) : (d.denOver m).chsOf k = d.chsOf k :=
  Dev.chsOf_congr (fun c _ => ⟨d.denOver_outside m (by simp only [F.CH_ROUTE_KIND]; omega) (show 16 < 32 by decide),
    d.denOver_outside m (by simp only [F.CH_ROUTE_PAIR]; omega) (show 8 < 32 by decide)⟩) k

end

theorem Wk.mem_denPairs {w : Wk} {m k : Nat} : k ∈ (List.range 16).filter (fun k => w.d.rd (F.GSV_PAIR_DEN k) = m) ↔ k < 16 ∧ w.d.rd (F.GSV_PAIR_DEN k) = m := by
  rw [List.mem_filter, List.mem_range, decide_eq_true_eq]

theorem denToggleEnd_early {s : State} {m : Nat} (h : ∀ n, tget none s.dev.edge.den m = some n → n ≤ max 2 (s.dev.rd F.GSV_DEN_LOW_FR)) : exec (.denToggleEnd m) s = .next s := by
  rw [exec_denToggleEnd]
  refine s.run_same ?_
  have den : s.wk.d = s.dev := rfl
  rw [den]
  split
  next n hn => exact if_neg fun late => Nat.not_lt.2 (h n hn) (of_decide_eq_true late)
  next => rfl

theorem exec_denToggleEnd_over {s : State} {m n : Nat} (h : tget none s.dev.edge.den m = some n) (hn : max 2 (s.dev.rd F.GSV_DEN_LOW_FR) < n) :
    exec (.denToggleEnd m) s = .next (s.settleWk s.vault (s.wk.denEnd m)) := by
  rw [exec_denToggleEnd]
  unfold execDenToggleEnd
  rw [State.run_next, show s.wk.d = s.dev from rfl, h]
  exact congrArg (fun w => Host.Outcome.next (s.settleWk s.vault w)) (if_pos (decide_eq_true hn))

/-- A DEN toggle that has lasted its frames (R184, R565). -/
theorem denToggleEnd_over {s : State} {m n : Nat} (hm : m < 8) (h : tget none s.dev.edge.den m = some n) (hn : max 2 (s.dev.rd F.GSV_DEN_LOW_FR) < n) (ht : s.dev.noTrip = true) :
    Leaves (.denToggleEnd m) s fun d _ => tget none d.edge.den m = none ∧ bitOf (d.rd F.GSV_DEN_TOGGLE) m = false ∧
      bitOf (d.rd F.GSV_DEN_LVL) m = (bitOf (s.dev.rd F.GSV_DEN_EN) m && !s.dev.outputsHeld && !s.dev.timStopped) ∧
      (∀ k < 16, s.dev.rd (F.GSV_PAIR_DEN k) = m → (∀ j < 16, bitOf (s.dev.rd F.GSV_GSM_STAT_BELOW) j = true → s.dev.rd (F.GSV_GSM_PAIR j) ≠ k) → d.Unlatched k (s.dev.chsOf k)) ∧
      (∀ k < 16, s.dev.rd (F.GSV_PAIR_DEN k) ≠ m → bitOf (d.rd F.GSV_STAT_LATCHED) k = bitOf (s.dev.rd F.GSV_STAT_LATCHED) k) ∧ d.run = s.dev.run := by
  have quiet : (s.wk.up (·.denOver m)).d.noTrip = true := (s.dev.denOver_noTrip m).trans ht
  have kept {f : Fld} (ha : f.addr ≠ 0x70000 + 144) (hlo : f.lo < 32) : (s.wk.up (·.denOver m)).d.rd f = s.dev.rd f := s.dev.denOver_outside m ha hlo
  have den {k : Nat} (hk : k < 16) : (s.wk.up (·.denOver m)).d.rd (F.GSV_PAIR_DEN k) = s.dev.rd (F.GSV_PAIR_DEN k) :=
    kept (by simp only [F.GSV_PAIR_DEN]; omega) (show 4 < 32 by decide)
  refine ⟨_, exec_denToggleEnd_over h hn, ?_⟩
  rw [Wk.denEnd_eq]
  have view := Wk.releaseAll_view (l := (List.range 16).filter fun k => (s.wk.up (·.denOver m)).d.rd (F.GSV_PAIR_DEN k) = m) quiet
  have word {f : Fld} (ha : f.addr = 0x70000 + 144) (hlo : f.lo < 32) : f.OffRelease :=
    Fld.offRelease hlo (.inl (by omega)) (by omega) (by omega)
  refine ⟨?_, ?_, ?_, fun k hk hd hb => ?_, fun k hk hd => ?_, ?_⟩
  · exact (congrArg (fun x => tget none x.1 m) view).trans (s.dev.denFreed_den m)
  · exact (congrArg (bitOf · m) (Dev.releaseView_rd view (word rfl (by decide)))).trans (s.dev.denOver_toggle hm)
  · exact (congrArg (bitOf · m) (Dev.releaseView_rd view (word rfl (by decide)))).trans (s.dev.denOver_level hm)
  · rw [← s.dev.denOver_chsOf m]
    refine Wk.releaseAll_unlatches quiet hk (Wk.mem_denPairs.2 ⟨hk, (den hk).trans hd⟩) fun j hj hj' => ?_
    rw [kept (by decide) (by decide)] at hj'
    rw [kept (by simp only [F.GSV_GSM_PAIR]; omega) (show 16 < 32 by decide)]
    exact hb j hj hj'
  · exact (Wk.releaseAll_other quiet hk fun hmem => hd ((den hk).symm.trans (Wk.mem_denPairs.1 hmem).2)).trans (congrArg (bitOf · k) (kept (by decide) (by decide)))
  · exact (congrArg (fun x => x.2.1) view).trans rfl

/-- Settles O49: a trip is followed from the level shown, through the channels before and after the one looked at, to the pins; a debug halt is the safe state
entered with the positions kept; the end of a DEN toggle releases its pairs one after the other. -/
theorem tripsDebugHaltsAndDenToggles : Obligations.TripsDebugHaltsAndDenToggles := by
  refine ⟨⟨fun s x c hk hh hf hd hc => ?_, fun s x => ⟨tripInputAssert_none, tripInputAssert_short, tripInputAssert_released⟩⟩,
    fun s => debugHalt_shut, fun s => debugHalt_halts, debugHaltRelease_clears, fun s m => denToggleEnd_early, fun s m n hm h hn ht => ?_⟩
  · have asserts : s.Asserts x c := ⟨hk, hh, hf, hd, hc⟩
    exact ⟨asserts.ends, asserts.leaves⟩
  · obtain ⟨w, hw, den, toggle, level, under, apart, run⟩ := denToggleEnd_over hm h hn ht
    refine ⟨w, hw, den, toggle, level, fun k hk hd hb => ?_, apart, run⟩
    obtain ⟨gate, chs⟩ := under k hk hd hb
    exact ⟨gate, fun c hc kind pair => chs c (Dev.mem_chsOf.2 ⟨hc, kind, pair⟩)⟩

end Sys2Proof.Machine
